-- ==== Sys2Proof/Word.lean ====
section
/-! DEFINITION. The words of the engine. Register values are kept as natural numbers below two to the power of
their width (Machine/Ops.lean truncates them when they are stored), because every field of the register map has
its own width; bytes of memory are bit vectors. -/
namespace Sys2Proof

/-- A byte of a memory, a frame or a message. -/
abbrev Byte := BitVec 8

/-- A 32-bit register-bus word (R39). -/
abbrev Word := BitVec 32

end Sys2Proof
end

