-- ==== Sys2Proof/Syntax.lean ====
section
/-! DEFINITION. The commands of the engine: one constructor of `Instr` for every row of the table of operations
and events, with the row's operands. Operands that the outside world supplies (a measured power, a received
message, the far end's bytes, the verdict of a cipher) are operands of the event that brings them. -/
namespace Sys2Proof

/-- Register-bus masters (glossary, master ID). -/
inductive Master where
  | pcie | i2c | ward (n : Fin 2) | tumb (t : Fin 18) | debug
  deriving DecidableEq, Repr

/-- The register pages of R37 and R38. `timingX n` is sub-page 4 + n of DEV.TIMING; `mon d` is the MON page of
quadrant d for d below 4 and DEV.MON for d = 4; `mbx` stands for the mailbox registers of BAR2 (R628). -/
inductive Page where
  | devId | hubctl | devInt | pwr | timing0 | timing1 | timing2 | timing3 | timingX (n : Fin 12)
  | ptp | keyway | boot | dma (n : Fin 16) | pcie | mon (d : Fin 5) | xqsw | mbox | fuse
  | frm (q : Fin 4) | tsi (q : Fin 4) | tm (q : Fin 4) | ciph (q : Fin 4) | mem (q : Fin 4)
  | lanegrp (g : Fin 32) | htr (q : Fin 4) | qint (q : Fin 4)
  | conv (c : Fin 16) | txdsp (c : Fin 16) | rxdsp (c : Fin 16) | fec (c : Fin 16) | otu (c : Fin 16)
  | hub (c : Fin 16) | tumb (t : Fin 18) | cal (c : Fin 16) | cint (c : Fin 16) | mbx
  deriving DecidableEq, Repr

/-- The two base address registers of the PCIe function (R36, R41). -/
inductive Bar where
  | bar0 | bar2
  deriving DecidableEq, Repr

/-- One transaction presented to the register-bus arbiter (R65): `size` bytes at `addr` of `bar`. -/
structure BusReq where
  m : Master
  bar : Bar
  addr : Nat
  size : Nat
  isRead : Bool
  data : Nat
  deriving DecidableEq, Repr

/-- A hasp: the one of a page (R54) or one of the 32 resource hasps (R62). -/
inductive HaspId where
  | page (p : Page) | res (n : Fin 32)
  deriving DecidableEq, Repr

/-- A recovered-clock domain (chapter 01): the line receive clock of a carrier or the receive clock of lane r of
group g. -/
inductive ClkDom where
  | line (c : Fin 16) | lane (g : Fin 32) (r : Fin 8)
  deriving DecidableEq, Repr

/-- A loading message (R161) without its reserved bytes and CRC. `rows` holds sixteen entries of 16 bits, byte 0 of
the entry in bits 15 to 8. -/
structure LoadMsg where
  typ : Nat
  onFallback : Bool
  seq : Nat
  target : Nat
  rate : Nat
  reason : Nat
  rows : List Nat
  deriving DecidableEq, Repr

/-- What a foreground calibration measures (R126): for every ADC, slice and mismatch the correction, in eighths of
its resolution, in the order n, slice, mismatch; the four skews of SKEW_CAL; and the rest of the record's payload,
which Tawell defines (R134). -/
structure CalValues where
  corrections : List Int
  skews : List Int
  payload : List Byte
  deriving DecidableEq, Repr

/-- What reaches the FEC decoder of one codeword. -/
inductive Codeword where
  /-- A native codeword (R225): the candidate alignment it was taken at (R231), 93 times the round offset in symbols plus the
  codeword offset in units of 100 coded bits; its LLRs in the order of its bits, positive for 0; and the staircase blocks that
  its framed bits and parity slots complete, each with the phase it was delimited by (R224, R232), 300 rows of 300 bits. -/
  | native (cand : Nat) (llr : List Int) (blocks : List (Nat × List Nat))
  /-- A codeword of a burst (R234), whole or shortened: its LLRs. -/
  | burst (llr : List Int)
  /-- An oFEC block (R236, R237), whose decoding the OpenZR+ MSA defines: its bits, the bits it corrected, and the iteration
  that left no syndrome, none where one is left. -/
  | ofec (len corr : Nat) (iter : Option Nat)
  deriving DecidableEq, Repr

/-- Device time: seconds, nanoseconds and 2^-16 ns (glossary, R473). -/
structure DevTime where
  sec : Nat
  ns : Nat
  frac : Nat
  deriving DecidableEq, Repr

/-- A received frame, and the arrival timestamp of its multiframe, taken with frame 0 (R506). -/
inductive RxFrame where
  /-- The octets of a native frame as they are received, scrambled, from the FAS on, the last one padded (R303, R310). -/
  | native (octets : List Nat) (arr : DevTime)
  /-- A frame of the OpenZR+ MSA (R335), which the MSA defines: its SM and PM overhead in the order of R308, byte by byte from
  byte 16, and the BIP-8 violations of its SM and PM bytes by slice. -/
  | msa (oh smViol pmViol : List Nat)
  deriving DecidableEq, Repr

/-- The channels of tributary t of quadrant q over a multiframe, as its mapper and the cipher give them: the bits of its data
channel and of its segment overhead channel (R341, R342). -/
structure TribBits where
  q : Fin 4
  t : Fin 256
  data : List Bool
  seg : List Bool
  deriving DecidableEq, Repr

/-- The bits of received slot j of carrier c over a multiframe, for a slot that a transmit half selects (R350, R355). -/
structure SlotBits where
  c : Fin 16
  j : Nat
  bits : List Bool
  deriving DecidableEq, Repr

/-- What the sources of a carrier's transmit slots give for a multiframe. -/
structure TxPayload where
  tribs : List TribBits
  slots : List SlotBits
  deriving DecidableEq, Repr

/-- What the burst receiver has learnt from a burst (R283): CD in 10 ps/nm, TIA gain in 0.25 dB, frequency in MHz and
power in 0.01 dBm. -/
structure BurstLearn where
  cd : Int
  tia : Nat
  freq : Int
  pwr : Int
  deriving DecidableEq, Repr

/-- The dual-clock queues whose slips a page counts (R33, R355, R371): the queues of through-connected line slots of a
quadrant, and those of the cross-quadrant switch. -/
inductive SlipSite where
  | tsi (q : Fin 4) | xqsw
  deriving DecidableEq, Repr

/-- An Ethernet frame: its bytes from the destination address to the FCS, and whether it arrived with an error control
block or an errored FCS (R398, R399). `arr` is when its last bit crossed the receive lands, in beats. -/
structure EthFrame where
  bytes : List Nat
  err : Bool
  arr : Nat
  deriving DecidableEq, Repr

/-- The faults of a reference (R478). -/
inductive RefFault where
  | noClk | freq | pps | msg | loop
  deriving DecidableEq, Repr

/-- One symbol as it reaches the equaliser of a subcarrier: its half-symbol-spaced samples of X and of Y, real and imaginary
part in 2^-12 of half the distance between neighbouring points, and the phase of the X pilot tone in 2^-16 of a turn (R183,
R190). -/
structure EqIn where
  x : List (Int × Int)
  y : List (Int × Int)
  pilot : Int
  deriving DecidableEq, Repr

/-- What the analogue and optical front ends measure for a tick. Readings that no member brings keep their values. -/
inductive Meas where
  /-- Device time, in ps, at the last edge of PPSINn (R477). -/
  | pps (n : Fin 2) (t : Nat)
  /-- Frequency of reference n against XO_IN nominal, 0.01 ppm (R522). -/
  | refFofs (n : Fin 8) (v : Int)
  /-- The loop phase error against an F reference, ps (R492). -/
  | phaseErr (v : Int)
  /-- The DPLL output frequency that the loop asks for, 10^-14 units (R475). -/
  | freqOfs (v : Int)
  /-- XO_IN edges are present (R521). -/
  | xo (present : Bool)
  /-- The IQ imbalance of polarisation X or Y: gain in 0.01 dB, phase in 0.01 degree (R176). -/
  | iq (c : Fin 16) (y : Bool) (gain phase : Int)
  /-- The SNR of a subcarrier estimated at this tick in 0.01 dB, its X minus Y part, and its DGD in ps (R200, R214). -/
  | snr (c i : Fin 16) (v : Nat) (diff : Int) (dgd : Nat)
  /-- The timing errors of the sixteen subcarriers since the last tick, one list for every step of the loop (R193). -/
  | timing (c : Fin 16) (es : List (List Int))
  /-- The offset of the received spectrum that the estimator finds, MHz (R177). -/
  | freq (c : Fin 16) (ofs : Int)
  /-- The dispersion at which the equaliser taps show no residual, 10 ps/nm (R182). -/
  | cd (c : Fin 16) (v : Int)
  /-- The skew of ADC n that remains beside the calibrated one, 0.01 ps (R175). -/
  | skew (c : Fin 16) (n : Fin 4) (v : Int)
  /-- Symbols that reach the equaliser of a subcarrier (R183, R190, R195). -/
  | symbols (c i : Fin 16) (xs : List EqIn)
  /-- The TIA gain that automatic gain control has found, 0.25 dB (R115). -/
  | tia (c : Fin 16) (v : Nat)
  /-- DAC samples clipped since the last tick (R155). -/
  | clip (c : Fin 16) (n : Nat)
  /-- The eye of a client lane: height and width (R397). -/
  | eye (g : Fin 32) (r : Fin 8) (h v : Nat)
  /-- The steps that a lane's receive adaptation asks for, by their signs: variable-gain amplifier, continuous-time equaliser, the
  eight feed-forward taps and the twelve decision-feedback taps (R379). -/
  | adapt (g : Fin 32) (r : Fin 8) (vga ctle : Int) (ffe dfe : List Int)
  /-- Bits in error that a PRBS checker has seen since the last tick (R385). -/
  | prbs (g : Fin 32) (r : Fin 8) (n : Nat)
  /-- Events of counter i of a port since the last tick (R396). -/
  | port (g : Fin 32) (n : Fin 8) (i : Fin 4) (k : Nat)
  /-- Blocks discarded toward packet ports under the replacement signal since the last tick (R365, R438). -/
  | rplDisc (q : Fin 4) (n : Nat)
  /-- The conditions OPEN and SHORT of a heater, as they now stand (R598). -/
  | heater (q : Fin 4) (h : Fin 32) (opened short : Bool)
  /-- The die of a quadrant is back below THERM_TRIP (R598). -/
  | tripEnds (q : Fin 4)
  /-- VDD_HTR of a quadrant is within its range, or not (R607). -/
  | vddHtr (q : Fin 4) (ok : Bool)
  deriving DecidableEq, Repr

/-- A slip of a dual-clock queue (R33): where it is counted, and how many words are lost or repeated. -/
structure QueueSlip where
  site : SlipSite
  words : Nat
  deriving DecidableEq, Repr

/-- The end of a lease (R60), and the writes of the same arbiter cycle (R61). -/
structure LeaseEnd where
  hasp : HaspId
  writes : List BusReq
  deriving DecidableEq, Repr

/-- A transmit multiframe that begins (R311): its device time, and what the sources of the transmit slots give for it. -/
structure MultiframeStart where
  time : DevTime
  pay : TxPayload
  deriving DecidableEq, Repr

/-- A phase slip (R192): its row, and how many quarter turns it is. -/
structure PhaseSlip where
  row : Fin 16
  turns : Fin 4
  deriving DecidableEq, Repr

/-- A segment to be sent (R446, R450): its place in the group of its tributary, and its payload. -/
structure SegmentOut where
  j : Fin 119
  data : List Nat
  deriving DecidableEq, Repr

/-- What the modulator gives in a dwell (R594): the place in the decimation at which its bits begin, and the bits. -/
structure DwellBits where
  phase : Nat
  stream : List Bool
  deriving DecidableEq, Repr

/-- The commands of the engine, one for every row of the table of operations and events. -/
inductive Instr where
  /-- REGISTER_WRITE: A write to a register field that has no row of its own takes effect under its access code, after
  the hasp, reset-busy and ordering checks. (R52) -/
  | registerWrite (reqs : List BusReq)
  /-- SNAPSHOT_READ: A read of the lowest word of a snapshot group captures every field of the group in one source cycle.
  (R29) -/
  | snapshotRead (m : Master) (addr : Nat)
  /-- TABLE_WINDOW_WRITE: A table-window write stores one 64-bit word atomically, or merges a 32-bit half by
  read-modify-write. (R88) -/
  | tableWindowWrite (m : Master) (addr size data : Nat)
  /-- TABLE_WINDOW_READ: A table-window read checks the word, corrects a correctable error and logs an uncorrectable one
  with cause UNCORR_READ. (R89) -/
  | tableWindowRead (m : Master) (addr size : Nat)
  /-- HELD_WRITE_APPLY: A write held in a crossing takes effect when the clock of its destination domain returns. (R27) -/
  | heldWriteApply (p : Page)
  /-- CORE_SYNTH_LOCK: The core synthesiser first reports lock, and the tick cadence then starts. (R21) -/
  | coreSynthLock (ns : Nat)
  /-- SYNTH_REACHES_XO: The slewing core synthesiser arrives at the XO_IN frequency and from then on follows XO_IN. (R20) -/
  | synthReachesXo
  /-- TICK: The tick generator issues a tick every 1,000,000 beats, carrying sampled device time to every page and
  Tumbler. (R21) -/
  | tick (ms : List Meas)
  /-- CLK_PRESENT_CLEAR: After 256 beats with no edge of a recovered clock, CLK_PRESENT clears. (R30) -/
  | clkPresentClear (d : ClkDom)
  /-- CLK_PRESENT_SET: After 4,096 consecutive beats with edges of a recovered clock, CLK_PRESENT sets. (R30) -/
  | clkPresentSet (d : ClkDom)
  /-- QUEUE_SLIP: A data-plane dual-clock queue overflows or underflows, inserts the replacement signal, counts a slip
  and recentres. (R33) -/
  | queueSlip (x : QueueSlip)
  /-- INT_FORCE: A write of 1 to an INT_FORCE bit sets the INT_RAW bit of the same position. (R51) -/
  | intForce (m : Master) (p : Page) (v : Nat)
  /-- SOFT_RESET: A write of CTRL.SOFT_RESET starts the reset of the page's block under R13. (R46) -/
  | softReset (m : Master) (p : Page)
  /-- SOFT_RESET_DONE: A soft reset completes, the block returns to its reset values and RESET_BUSY clears. (R46) -/
  | softResetDone (p : Page)
  /-- ENABLE_WRITE: A write of CTRL.ENABLE starts or idles the page's block; on rising it samples the configuration that
  the block's chapter names. (R45) -/
  | enableWrite (m : Master) (p : Page) (on : Bool)
  /-- FREEZE_WRITE: A write of CTRL.FREEZE holds or releases the block's autonomous adaptation. (R45) -/
  | freezeWrite (m : Master) (p : Page) (on : Bool)
  /-- HASP_ACQUIRE: A HASP write with ACQUIRE = 1 takes a free hasp or renews the writer's lease. (R55) -/
  | haspAcquire (m : Master) (h : HaspId) (lease : Fin 65536)
  /-- HASP_RELEASE: A HASP write with RELEASE = 1 frees the hasp when it comes from the owner or from debug master 0x3F.
  (R57) -/
  | haspRelease (m : Master) (h : HaspId)
  /-- HASP_LEASE_EXPIRY: The lease of a held hasp counts down to 0 at a tick and the hasp is released automatically. (R60) -/
  | haspLeaseExpiry (h : LeaseEnd)
  /-- HINGE_ARM: A SHADOW_CTRL write with HINGE_ARM = 1 arms the page's hinge in the mode given, or is refused or
  dropped. (R72) -/
  | hingeArm (m : Master) (p : Page) (mode : Fin 8) (mfSrc : Fin 4) (mf : Nat)
  /-- HINGE_CANCEL: A SHADOW_CTRL write with HINGE_CANCEL = 1 cancels a pending hinge that has not reached its beat. (R78) -/
  | hingeCancel (m : Master) (p : Page)
  /-- HINGE_TAKE: On the hinge beat the standby content is checked and made active, or the hinge is refused. (R80) -/
  | hingeTake (ps : List Page) (ws : List BusReq)
  /-- COPY_FORWARD_DONE: The copy of the new active content into the standby page completes; DONE sets and stalled
  standby writes are applied. (R82) -/
  | copyForwardDone (p : Page)
  /-- VEC_REARM: A write of VEC_REARM re-sends an MSI-X vector whose input is 1. (R93) -/
  | vecRearm (m : Master) (v : Fin 64)
  /-- MSIX_UNMASK: A vector or the function is unmasked and a pending message is sent if its input is still 1. (R93) -/
  | msixUnmask (v : Option (Fin 64))
  /-- MIS_UPDATE: A completed mismatch accumulation is applied at a tick, or skipped, and updates RESIDUAL and CONVERGED.
  (R102) -/
  | misUpdate (c : Fin 16) (n : Fin 4) (errs : List Int) (low : Bool) (residual : Int)
  /-- MIS_RESTORE: A write of MIS_CTRL.RESTORE replaces the background corrections with the last foreground values at the
  next tick. (R107) -/
  | misRestore (m : Master) (c : Fin 16) (v : Nat)
  /-- LASER_EN_WRITE: A write of LASER_CTRL.EN drives LASER_EN[c], first ramping down a lit transmitter when EN is
  written 0. (R110) -/
  | laserEnWrite (m : Master) (c : Fin 16) (en relight : Bool)
  /-- LASER_LIGHT_CHANGE: The laser input crosses the detector threshold, LIGHT changes, and a lit transmitter shutters
  on loss of light. (R111) -/
  | laserLightChange (c : Fin 16) (light : Bool)
  /-- RX_OVERLOAD_CHANGE: The received power crosses the overload thresholds and RX_STAT.OVERLOAD sets or clears. (R113) -/
  | rxOverloadChange (c : Fin 16)
  /-- SIG_ABSENT_SET: The received power stays below THR for 10 µs, or 1 ms on a burst hub, and SIG_ABSENT sets. (R114) -/
  | sigAbsentSet (c : Fin 16)
  /-- SIG_ABSENT_CLEAR: The received power stays at or above THR + HYST for 100 µs and SIG_ABSENT clears. (R114) -/
  | sigAbsentClear (c : Fin 16)
  /-- TX_ON: TX_CMD.ON starts the transmitter ramping up, or shutters it when there is no light. (R122) -/
  | txOn (m : Master) (c : Fin 16)
  /-- TX_OFF: TX_CMD.OFF ramps a lit transmitter down, or darkens a shuttered one. (R122) -/
  | txOff (m : Master) (c : Fin 16)
  /-- RAMP_UP_DONE: An upward ramp reaches its target and the transmitter becomes LIT or BURST_GATED. (R122) -/
  | rampUpDone (c : Fin 16)
  /-- RAMP_DOWN_DONE: A downward ramp reaches TARGET − 30 dB, the transmitter becomes DARK and LASER_EN may fall. (R122) -/
  | rampDownDone (c : Fin 16)
  /-- TX_TARGET_WRITE: A change of TX_TARGET while lit is reached by slewing linearly in dB. (R119) -/
  | txTargetWrite (m : Master) (c : Fin 16) (v : Nat)
  /-- PWR_DEV_SET: The output power has deviated more than 1.0 dB on 125 consecutive ticks and PWR_DEV sets. (R120) -/
  | pwrDevSet (c : Fin 16)
  /-- PWR_DEV_CLEAR: The output power has stayed within 0.5 dB on 125 consecutive ticks and PWR_DEV clears. (R120) -/
  | pwrDevClear (c : Fin 16)
  /-- AUTO_RELIGHT: A shuttered transmitter with AUTO_RELIGHT has seen light on 125 consecutive ticks and ramps up. (R122) -/
  | autoRelight (c : Fin 16)
  /-- CAL_START: A write of CAL_CTRL.START requests a calibration, which is refused or enters CALIBRATING. (R123) -/
  | calStart (m : Master) (c : Fin 16) (force full : Bool)
  /-- CAL_ABORT: A write of CAL_CTRL.ABORT aborts a running calibration and restores the previous values. (R124) -/
  | calAbort (m : Master) (c : Fin 16)
  /-- CAL_AUTO_START: The engine starts the full calibration itself once a carrier with no valid values is OFF, enabled
  and lit. (R125) -/
  | calAutoStart (c : Fin 16)
  /-- CAL_PHASE_ADVANCE: A calibration phase reaches its scheduled end and PHASE advances. (R126) -/
  | calPhaseAdvance (c : Fin 16)
  /-- CAL_COMMIT: A calibration ends at its fixed time with PASS or FAIL, and the carrier goes to ACQUIRING. (R130) -/
  | calCommit (c : Fin 16) (result : Option CalValues)
  /-- NVM_STORE_DONE: A calibration record store completes or fails its read-back, and any queued store follows. (R137) -/
  | nvmStoreDone (c : Fin 16) (ok : Bool)
  /-- FREQ_SHIFT_WRITE: A change of FREQ_SHIFT takes effect phase-continuously at the next symbol multiframe. (R154) -/
  | freqShiftWrite (m : Master) (c : Fin 16) (v : Nat)
  /-- TX_MULTIFRAME_START: A transmit multiframe begins; the MFN increments and the loading and time messages are sent.
  (R311) -/
  | txMultiframeStart (c : Fin 16) (t : MultiframeStart)
  /-- BRANCH_FRAME_SEND: A downstream branch frame is sent carrying a GRANTS or LEAF_CTRL hub message. (R264) -/
  | branchFrameSend (c b : Fin 16)
  /-- PROPOSE: A valid PROPOSE reaches the serving end and is answered by ACCEPT, with a PAIRED arm, or by REJECT. (R165) -/
  | propose (c : Fin 16) (m : LoadMsg)
  /-- ACCEPT: A valid ACCEPT reaches the requester and enables its pending PAIRED hinge. (R164) -/
  | accept (c : Fin 16) (m : LoadMsg)
  /-- REJECT: A valid matching REJECT reaches the requester and its PAIRED hinge is refused with cause 0b100. (R164) -/
  | reject (c : Fin 16) (m : LoadMsg)
  /-- STATE: A valid STATE message is received and recorded as the last message type. (R163) -/
  | state (c : Fin 16) (_m : LoadMsg)
  /-- FALLBACK_REQ: A valid FALLBACK_REQ is received and, as the second within 8 multiframes, triggers transmit fallback.
  (R168) -/
  | fallbackReq (c : Fin 16)
  /-- ORDER_RX: A leaf receives ORDER_RX, writes the rows to its RXDSP standby table and arms AT_MF. (R295) -/
  | orderRx (c : Fin 16) (m : LoadMsg)
  /-- ORDER_TX: A leaf receives ORDER_TX, writes the rows within its range to its TXDSP standby table and arms AT_MF.
  (R295) -/
  | orderTx (c : Fin 16) (m : LoadMsg)
  /-- INVALID_LOADING_MSG: A loading message with a bad CRC or undefined TYPE is discarded and counted in LDMSG_ERR.
  (R162) -/
  | invalidLoadingMsg (c : Fin 16) (raw : List Nat)
  /-- PAIRED_NO_ACCEPT: Multiframe M − 1 ends with no ACCEPT and the requester's PAIRED hinge is refused. (R164) -/
  | pairedNoAccept (c : Fin 16)
  /-- FB_AUTO_TIMEOUT: FB_AUTO transmit multiframes pass with no valid loading message and fallback is triggered. (R168) -/
  | fbAutoTimeout (c : Fin 16)
  /-- FALLBACK_NOW: A write of LOAD_CTRL.FALLBACK_NOW triggers transmit fallback. (R168) -/
  | fallbackNow (m : Master) (c : Fin 16) (v : Nat)
  /-- TX_FALLBACK: At the next transmit multiframe, both loading tables are loaded from the fallback table and a pending
  hinge is refused. (R169) -/
  | txFallback (c : Fin 16)
  /-- ACQ_STAGE_COMPLETE: An acquisition stage meets its end condition and the next stage starts, or the carrier enters
  IN_SERVICE. (R202) -/
  | acqStageComplete (c b : Fin 16) (v : Int)
  /-- ACQ_STAGE_LIMIT: An acquisition stage exceeds its limit and the attempt fails with that stage's cause. (R202) -/
  | acqStageLimit (c b : Fin 16)
  /-- ACQ_TIMEOUT: ACQ_TIMEOUT ticks pass since stage 2 began; the attempt fails, counts and restarts, or the carrier
  enters OUT_OF_SERVICE. (R203) -/
  | acqTimeout (c b : Fin 16)
  /-- DEGRADE_CLEAR: No degrade condition holds on 125 consecutive ticks and the carrier returns to IN_SERVICE. (R205) -/
  | degradeClear (c b : Fin 16)
  /-- REACQ: RX_CMD.REACQ restarts acquisition at stage 1 with LAST_CAUSE = HOST_REACQ. (R205) -/
  | reacq (m : Master) (c : Fin 16)
  /-- OOS: RX_CMD.OOS puts the carrier OUT_OF_SERVICE and refuses a pending RXDSP hinge. (R205) -/
  | oos (m : Master) (c : Fin 16)
  /-- RESTORE_CARRIER: RX_CMD.RESTORE takes the carrier from OUT_OF_SERVICE back to ACQUIRING. (R205) -/
  | restoreCarrier (m : Master) (c : Fin 16)
  /-- EQ_RESET: A write of EQ_CMD bit s resets the taps of subcarrier s and restarts blind convergence. (R186) -/
  | eqReset (m : Master) (c : Fin 16) (v : Nat)
  /-- SC_UNLOCK: SC_LOCK of an enabled subcarrier falls and INT_RAW.SC_UNLOCK sets. (R187) -/
  | scUnlock (c i : Fin 16)
  /-- SING: Both equaliser outputs correlate with the X tone for 64 symbols; the Y filters are reloaded orthogonal and
  SING counts. (R188) -/
  | sing (c i : Fin 16)
  /-- CYCLE_SLIP: A π/2-multiple phase slip on 64 symbols is corrected and counted. (R192) -/
  | cycleSlip (c : Fin 16) (i : PhaseSlip)
  /-- TR_UNLOCK: The timing loop reaches its steering limit or loses phase, and TR_STAT.LOCK clears. (R194) -/
  | trUnlock (c : Fin 16)
  /-- FREQ_RANGE: |OFS| exceeds 5,000 MHz and OOR sets, which is a loss event while in service. (R179) -/
  | freqRange (c : Fin 16) (ofs : Int)
  /-- SNR_VALID: 2^AVG ticks pass with SC_LOCK = 1 and the subcarrier's SNR becomes VALID. (R201) -/
  | snrValid (c i : Fin 16)
  /-- CAPTURE_ARM: A write of CAP_CTRL.ARM arms a diagnostic capture to wait for its trigger. (R211) -/
  | captureArm (m : Master) (c : Fin 16) (v : Nat)
  /-- CAPTURE_TRIGGER: The chosen trigger occurs and an armed capture starts writing words. (R211) -/
  | captureTrigger (c : Fin 16)
  /-- CAPTURE_DONE: A capture has written its words and DONE sets. (R211) -/
  | captureDone (c : Fin 16) (xs : List Int)
  /-- CAPTURE_ABORT: A write of CAP_CTRL.ABORT stops the capture and sets ABORTED. (R211) -/
  | captureAbort (m : Master) (c : Fin 16) (v : Nat) (xs : List Int)
  /-- CODEWORD_DECODE: The inner decoder finishes a codeword and the FEC counters and histogram count it. (R225) -/
  | codewordDecode (c b : Fin 16) (w : Codeword)
  /-- CW_LOCK_ACQUIRED: Four consecutive codewords converge at a candidate alignment and CW_LOCK sets. (R231) -/
  | cwLockAcquired (c : Fin 16)
  /-- CW_LOCK_LOST: 64 consecutive codewords fail to converge; CW_LOCK and OUTER_LOCK clear and the hunt restarts. (R233) -/
  | cwLockLost (c : Fin 16)
  /-- OUTER_LOCK_ACQUIRED: Two consecutive staircase blocks are 99 % clean at a candidate phase and OUTER_LOCK sets.
  (R232) -/
  | outerLockAcquired (c : Fin 16)
  /-- OUTER_LOCK_LOST: 16 consecutive blocks have more than 10 % uncorrectable components and OUTER_LOCK clears. (R233) -/
  | outerLockLost (c : Fin 16)
  /-- FEC_DEG_SET: BER_TICK stays above DEG_SET for SET_TICKS ticks and DEG sets. (R242) -/
  | fecDegSet (c : Fin 16)
  /-- FEC_DEG_CLR: BER_TICK stays below DEG_CLR for CLR_TICKS ticks and DEG clears. (R242) -/
  | fecDegClr (c : Fin 16)
  /-- GRANT_CYCLE_START: At the hub's transmit start of a grant cycle, the grants of the next cycle are fixed and
  assigned. (R262) -/
  | grantCycleStart (c : Fin 16)
  /-- GRANTS: A leaf receives a valid GRANTS message and records the grants and CYC_OFS of the cycle. (R269) -/
  | grants (c : Fin 16) (raw : List Nat)
  /-- RANGE: A leaf receives a new RANGE command for its ID and loads EQD from the next cycle. (R277) -/
  | range (c : Fin 16) (raw : List Nat) (k : Fin 4)
  /-- ACTIVATE: A leaf receives a new ACTIVATE command and becomes ACTIVE. (R277) -/
  | activate (c : Fin 16) (raw : List Nat) (k : Fin 4)
  /-- DEACTIVATE: A leaf receives a new DEACTIVATE command and returns to UNRANGED. (R277) -/
  | deactivate (c : Fin 16) (raw : List Nat) (k : Fin 4)
  /-- BURST_TRANSMIT: A leaf reaches the transmit instant of a granted or discovery burst and sends it. (R257) -/
  | burstTransmit (c : Fin 16) (g index backlog guard : Nat)
  /-- BURST_CAPTURE_START: The primary detector finds a head above threshold and starts a capture. (R287) -/
  | burstCaptureStart (c b : Fin 16) (g : Nat) (i : Fin 64) (head pow : Int)
  /-- BURST_CAPTURE_ABANDON: No sync word is found within the window and the capture is abandoned and counted in
  FALSE_CAP. (R288) -/
  | burstCaptureAbandon (c b : Fin 16)
  /-- BURST_RECAPTURE: A stronger head replaces the current capture, truncating it if its header has passed. (R289) -/
  | burstRecapture (c b : Fin 16) (head pow : Int)
  /-- BURST_HEADER: A burst header is checked and drives the leaf context, discovery, ranging or mismatch handling. (R292) -/
  | burstHeader (c b : Fin 16) (h : List Nat)
  /-- BURST_END: A burst whose header passed ends and the hub writes its learnt values back to the leaf context. (R283) -/
  | burstEnd (c b : Fin 16) (tphase : Int) (taps : List Nat) (lr : BurstLearn)
  /-- BURST_MISSING: A granted burst yields no passing header; BURST_MISSING and FAILS count, possibly losing the leaf.
  (R292) -/
  | burstMissing (c b : Fin 16) (g : Nat) (i : Fin 64)
  /-- LEAF_CTX_ENABLE: A host write of EN = 1 in a leaf context makes it UNRANGED. (R276) -/
  | leafCtxEnable (m : Master) (c : Fin 16) (r : Fin 256) (v : Nat)
  /-- LEAF_CTX_DISABLE: A host write of EN = 0 in a leaf context makes it EMPTY and sends DEACTIVATE. (R276) -/
  | leafCtxDisable (m : Master) (c : Fin 16) (r : Fin 256) (v : Nat)
  /-- DEACT: A host write of DEACT = 1 returns the leaf context to UNRANGED and sends DEACTIVATE. (R276) -/
  | deact (m : Master) (c : Fin 16) (r : Fin 256) (v : Nat)
  /-- CLR_FLAGS: A host write of CLR_FLAGS clears COLLISION, MISTIMED and LOST in a leaf context. (R282) -/
  | clrFlags (m : Master) (c : Fin 16) (r : Fin 256) (v : Nat)
  /-- LEAF_CTX_STALE: AGE reaches CTX_AGE and the active leaf context becomes STALE. (R276) -/
  | leafCtxStale (c : Fin 16) (r : Fin 256)
  /-- NO_DS: A leaf loses service, sync or branch frame alignment and enters NO_DS. (R277) -/
  | noDs (c : Fin 16)
  /-- LEAF_DS_RETURN: A leaf's downstream conditions hold again and it returns to its previous state or to UNRANGED.
  (R277) -/
  | leafDsReturn (c : Fin 16)
  /-- FRAME_CANDIDATE: A bit position meets the candidate conditions and a framer candidate is opened, or counted in
  HUNT_DROP. (R314) -/
  | frameCandidate (c i : Fin 16) (pos : Nat) (fas oh : List Nat)
  /-- FRAME_CONFIRM: A candidate's three following frames match and the framer enters FRAMED. (R316) -/
  | frameConfirm (c i : Fin 16) (obs : List (Nat × List (List Nat)))
  /-- FRAMER_ALIGNED: Consistent MFN values across a multiframe boundary bring the framer to ALIGNED. (R318) -/
  | framerAligned (c i : Fin 16)
  /-- FRAMER_LOSS: Five consecutive errored frames send the framer to HUNT with OOF = 1. (R319) -/
  | framerLoss (c i : Fin 16)
  /-- FRAMER_MFN_MISMATCH: Four consecutive frames carry a differing MFN and the framer falls from ALIGNED to FRAMED.
  (R319) -/
  | framerMfnMismatch (c i : Fin 16)
  /-- FRAME_RECEIVED: A received frame's overhead is processed for BIP-8, BEI, STAT, BDI and TTI. (R323) -/
  | frameReceived (c i : Fin 16) (fr : RxFrame)
  /-- TTI_ACCEPTED: Three identical 64-frame TTI cycles are accepted into ACC_TTI. (R321) -/
  | ttiAccepted (c i : Fin 16)
  /-- LOF: OOF holds continuously for LOF_MS ms and dLOF is declared. (R326) -/
  | lof (c i : Fin 16)
  /-- LOM: FRAMED entered from ALIGNED holds for LOM_MF multiframes and dLOM is declared. (R326) -/
  | lom (c i : Fin 16)
  /-- STAT_DEFECT_CHANGE: PM STAT matches AIS, LCK or OCI in three consecutive frames, or stops matching, and the defect
  changes. (R326) -/
  | statDefectChange (c i : Fin 16)
  /-- BDI_DEFECT_CHANGE: SM BDI holds in five consecutive frames, or stops holding, and dBDI changes. (R326) -/
  | bdiDefectChange (c i : Fin 16)
  /-- PROT_SWITCH: The side in force has been in SF for HOLDOFF ticks and the selector switches to the other side. (R362) -/
  | protSwitch (q : Fin 4) (t : Fin 256)
  /-- PROT_REVERT: Side A has been free of SF for WTR and a revertive selector returns to it. (R362) -/
  | protRevert (q : Fin 4) (t : Fin 256)
  /-- PROT_SWITCH_APPLY: A side switch takes effect at the next ODUflex frame start of the newly selected side. (R363) -/
  | protSwitchApply (q : Fin 4) (t : Fin 256)
  /-- FORCE_A: PROT_CMD FORCE_A forces the selector of tributary T to side A. (R362) -/
  | forceA (m : Master) (q : Fin 4) (t : Fin 256)
  /-- FORCE_B: PROT_CMD FORCE_B forces the selector of tributary T to side B. (R362) -/
  | forceB (m : Master) (q : Fin 4) (t : Fin 256)
  /-- CLEAR: PROT_CMD CLEAR removes the force command of tributary T. (R362) -/
  | clear (m : Master) (q : Fin 4) (t : Fin 256)
  /-- MSIM_CHANGE: Three consecutive MSI cycles disagree or agree and dMSIM of a side enters or exits. (R361) -/
  | msimChange (q : Fin 4) (t : Fin 256) (x : Fin 2) (cycles : List (List Nat))
  /-- ODUFLEX_ALIGNED: A demapper regains ODUflex frame alignment and RPL ends. (R357) -/
  | oduflexAligned (q : Fin 4) (t : Fin 256) (x : Fin 2)
  /-- ODUFLEX_LOSS: A tributary side loses ODUflex alignment and enters signal fail; its RX association returns to HUNT.
  (R360) -/
  | oduflexLoss (q : Fin 4) (t : Fin 256) (x : Fin 2)
  /-- LANE_CTRL_WRITE: A LANE_CTRL write turns a lane ON or OFF, or changes polarity or loopback, which acts as a
  RESTART. (R377) -/
  | laneCtrlWrite (m : Master) (g : Fin 32) (r : Fin 8) (v : Nat)
  /-- LANE_RESTART: LANE_CMD.RESTART restarts the lane's CDR and adaptation and returns its port to ALIGNING. (R392) -/
  | laneRestart (m : Master) (g : Fin 32) (r : Fin 8)
  /-- LANE_SLIP: LANE_CMD.SLIP moves the lane's word boundary one symbol later. (R383) -/
  | laneSlip (m : Master) (g : Fin 32) (r : Fin 8)
  /-- TX_EQ_WRITE: A TX_EQ write is checked and applied between symbols, or rejected with TXEQ_REJ. (R378) -/
  | txEqWrite (m : Master) (g : Fin 32) (r : Fin 8) (v : Nat)
  /-- CDR_LOCK_ACQUIRED: A lane's CDR locks. (R393) -/
  | cdrLockAcquired (g : Fin 32) (r : Fin 8)
  /-- CDR_LOCK_LOST: A lane's recovered clock leaves range or its CLK_PRESENT clears, and CDR_LOCK clears. (R374) -/
  | cdrLockLost (g : Fin 32) (r : Fin 8)
  /-- EQ_CONV: A lane's adapted values settle for 1 ms and EQ_CONV sets. (R382) -/
  | eqConv (g : Fin 32) (r : Fin 8)
  /-- PORT_ENABLE: PORT_CFG.EN rises; the configuration is checked and the port enters ALIGNING or CFG_ERROR. (R387) -/
  | portEnable (m : Master) (g : Fin 32) (n : Fin 8) (v : Nat)
  /-- PORT_DISABLE: PORT_CFG.EN written 0 returns the port to DISABLED. (R390) -/
  | portDisable (m : Master) (g : Fin 32) (n : Fin 8) (v : Nat)
  /-- PORT_UP: Every lane of an aligning port is locked, converged, marker-locked and deskewed, and the port goes UP.
  (R390) -/
  | portUp (g : Fin 32) (n : Fin 8)
  /-- PORT_ALIGN_LOSS: An UP port loses lock, markers or deskew and returns to ALIGNING with the fault handling of R391.
  (R390) -/
  | portAlignLoss (g : Fin 32) (n : Fin 8)
  /-- PRBS_LOCK: The PRBS checker sees 1,024 error-free symbols and LOCKED sets. (R385) -/
  | prbsLock (g : Fin 32) (r : Fin 8)
  /-- PRBS_UNLOCK: 32 of 1,024 symbols are errored and the PRBS checker's LOCKED clears. (R385) -/
  | prbsUnlock (g : Fin 32) (r : Fin 8)
  /-- PRBS_CLR: A write of PRBS_CTRL.CLR clears the checker's error count. (R385) -/
  | prbsClr (m : Master) (g : Fin 32) (r : Fin 8) (v : Nat)
  /-- CLIENT_FRAME_CLASSIFY: A frame from a PKT port is classified to a context, policed and queued or discarded. (R401) -/
  | clientFrameClassify (g : Fin 32) (n : Fin 8) (fr : EthFrame)
  /-- CONTEXT_ENABLE: A host write of context word 0 with EN = 1 is checked against the Express limits and applied, or
  forced to 0. (R407) -/
  | contextEnable (m : Master) (q : Fin 4) (x : Fin 4096) (v : Nat)
  /-- FLUSH: A write of FLUSH discards the context's queued frames within 4,096 beats. (R405) -/
  | flush (m : Master) (q : Fin 4) (x : Fin 4096) (v : Nat)
  /-- BUCKET_CREDIT: Every 16 beats, the policer buckets and shapers are credited at their rates. (R409) -/
  | bucketCredit (q : Fin 4)
  /-- SCHEDULER_BEAT: In each beat a carrier's scheduler examines calendar entries and releases at most one quantum.
  (R419) -/
  | schedulerBeat (c : Fin 16) (taken : List Nat) (ue : Bool)
  /-- WHEEL_SLOT_REACHED: A timing-wheel slot is reached and its nodes become eligible or move to the fine ring. (R424) -/
  | wheelSlotReached (c : Fin 16) (coarse : Bool)
  /-- EGRESS_FRAME_RECEIVE: A frame demapped from an IMP tributary or a burst is routed by VID into a client port's
  egress FIFO. (R428) -/
  | egressFrameReceive (q : Fin 4) (fr : EthFrame)
  /-- EGRESS_FRAME_SEND: At a client port frame boundary, the Express FIFO head, or else the normal head, is sent. (R429) -/
  | egressFrameSend (g : Fin 32) (n : Fin 8) (ue : Bool)
  /-- TX_SEGMENT_SEND: A TX association reaches a segment boundary and sends the segment encrypted or key-absent. (R450) -/
  | txSegmentSend (q : Fin 4) (a : Fin 1024) (data : SegmentOut) (ue : Bool)
  /-- RX_SEGMENT_RECEIVE: An RX association judges a segment by its header and decrypts, fails or replaces it. (R455) -/
  | rxSegmentReceive (q : Fin 4) (a : Fin 1024) (rcd data : List Nat) (n : Nat) (ue : Bool)
  /-- RX_TAG_RESULT: A segment's tag arrives and decides pass or fail, releasing or replacing verify-first data. (R455) -/
  | rxTagResult (q : Fin 4) (a : Fin 1024) (rcd : List Nat) (n : Nat) (ue : Bool)
  /-- ASSOC_ENABLE: A write of EN = 1 to an association is checked for duplicates and starts it, or is forced to 0. (R444) -/
  | assocEnable (m : Master) (q : Fin 4) (a : Fin 1024) (v : Nat)
  /-- ASSOC_DISABLE: A write of EN = 0 takes an association to OFF. (R453) -/
  | assocDisable (m : Master) (q : Fin 4) (a : Fin 1024) (v : Nat)
  /-- IMPORT_KEK: Keyway command IMPORT_KEK unwraps a KEK under KEK0 into a KEK slot. (R472) -/
  | importKek (m : Master)
  /-- ERASE_KEK: Keyway command ERASE_KEK zeroises a KEK. (R472) -/
  | eraseKek (m : Master)
  /-- IMPORT_KEY: Keyway command IMPORT_KEY unwraps a key and stages it for its slot. (R462) -/
  | importKey (m : Master)
  /-- ERASE_KEY: Keyway command ERASE_KEY stages the erasure of a key slot. (R463) -/
  | eraseKey (m : Master)
  /-- RETIRE_PREV: Keyway command RETIRE_PREV zeroises PREV of a slot at once. (R464) -/
  | retirePrev (m : Master)
  /-- SAVE: Keyway command SAVE stops an association at its next segment boundary and records it. (R467) -/
  | save (m : Master)
  /-- RESTORE: Keyway command RESTORE checks a record and reloads an association from it. (R469) -/
  | restore (m : Master)
  /-- DISCARD: Keyway command DISCARD makes a saved-association entry not VALID. (R472) -/
  | discard (m : Master)
  /-- KEY_IMPORT_COMMIT: The last association of the slot takes the staged key at its boundary; CUR, PREV and KEYGEN
  update. (R462) -/
  | keyImportCommit
  /-- KEY_ERASE_COMMIT: The last association of the slot stops and the slot's keys are zeroised. (R463) -/
  | keyEraseCommit
  /-- SAVE_COMPLETE: After the association's boundary, the saved entry is updated and the record is written to KW_BUF.
  (R467) -/
  | saveComplete
  /-- REF_FAULT: A reference meets a fault condition, stops being QUALIFIED, and a selected one triggers fast hold. (R478) -/
  | refFault (n : Fin 8) (k : RefFault)
  /-- REF_QUALIFIED: A reference completes QUAL_TICKS or REF_WTR fault-free ticks and becomes QUALIFIED. (R479) -/
  | refQualified (n : Fin 8)
  /-- DPLL_LOCKED: The phase error stays in the window for LOCK_TICKS ticks at step 3 and the DPLL becomes LOCKED. (R483) -/
  | dpllLocked
  /-- DPLL_BW_STEP: An acquisition dwell ends and the DPLL takes the next bandwidth step or restarts the dwell. (R487) -/
  | dpllBwStep
  /-- HOLDOVER_EXPIRY: HO_ELAPSED reaches 10 × HO_MAX s and the DPLL goes from HOLDOVER to LOST. (R483) -/
  | holdoverExpiry
  /-- HO_VALID_SET: The DPLL has been LOCKED long enough and HO_VALID sets. (R490) -/
  | hoValidSet
  /-- DPLL_MODE_WRITE: A write of DPLL_CTRL.MODE forces FREE_RUN or HOLDOVER, or returns to AUTO. (R483) -/
  | dpllModeWrite (m : Master) (v : Nat)
  /-- STEP_GO: TIME_CMD.STEP_GO schedules a step of device time for the next tick, or is rejected. (R494) -/
  | stepGo (m : Master)
  /-- STEP_APPLY: A pending step is added to device time at the tick and subtracted from BO. (R494) -/
  | stepApply
  /-- SEC_GO: TIME_CMD.SEC_GO captures a seconds label for the next whole-second crossing, or is rejected. (R495) -/
  | secGo (m : Master)
  /-- SEC_LABEL_APPLY: Device time crosses a whole second and the pending seconds label is taken. (R495) -/
  | secLabelApply
  /-- BO_APPLY: TIME_CMD.BO_APPLY schedules a step equal to the selected reference's build-out, or is rejected. (R496) -/
  | boApply (m : Master)
  /-- INVALIDATE: TIME_CMD.INVALIDATE clears TIME_VALID. (R485) -/
  | invalidate (m : Master)
  /-- UPDATE: REF6_CMD.UPDATE supplies a host offset sample to REF6 for the next tick. (R482) -/
  | update (m : Master)
  /-- INVALID: REF6_CMD.INVALID makes REF6 inactive until the next UPDATE. (R478) -/
  | invalid (m : Master)
  /-- REF6_TIMEOUT: REF6_TIMEOUT ticks pass without an UPDATE and REF6 becomes inactive. (R478) -/
  | ref6Timeout
  /-- REF_CFG_WRITE: A write to REF_CFG[n] restarts the reference's qualification, even while it is selected. (R522) -/
  | refCfgWrite (m : Master) (n : Fin 8) (v : Nat)
  /-- OUTPUT_ENABLE: An output's EN rises and its output time is set to device time. (R498) -/
  | outputEnable (m : Master) (o : Fin 8) (v : Nat)
  /-- PULL: CLKO_CMD.PULL starts slewing the clock output to reduce MIS. (R500) -/
  | pull (m : Master) (n : Fin 4)
  /-- STOP_PULL: CLKO_CMD.STOP_PULL ends a pull, leaving the remaining MIS. (R500) -/
  | stopPull (m : Master) (n : Fin 4)
  /-- PULL_DONE: |MIS| reaches 1 ps during a pull; MIS is set to 0 and PULLING clears. (R500) -/
  | pullDone (n : Fin 4)
  /-- REALIGN: A pulse output REALIGN places the next edge on device time and sets MIS to 0. (R503) -/
  | realign (m : Master) (p : Fin 4)
  /-- TIME_MESSAGE: A valid line time message is received and a time-transfer sample is formed. (R508) -/
  | timeMessage (c i : Fin 16)
  /-- TOD_MESSAGE: A ToD message is received and labels the next PPSIN0 edge, or is counted in TOD_ERR. (R513) -/
  | todMessage (l : List Nat) (us : Nat)
  /-- PTP_FRAME_RECEIVE: A received PTP frame is timestamped and sent to the host record ring and/or to classification.
  (R516) -/
  | ptpFrameReceive (g : Fin 32) (n : Fin 8) (fr : EthFrame) (ts : DevTime)
  /-- PTP_TX_RECORD: A host PTP transmit record is queued to the port, with a one-step update or timestamp capture. (R518) -/
  | ptpTxRecord (ts : DevTime)
  /-- TXTS_READ: A read of TXTS0 captures and removes the head of the transmit timestamp queue. (R519) -/
  | txtsRead (m : Master)
  /-- MEMORY_INIT_DONE: A memory finishes initialising to zero with valid check bits and INIT_DONE sets. (R527) -/
  | memoryInitDone (q : Fin 4)
  /-- BUCKET_LEAK: LEAK_TICKS ticks pass and a region's correctable-error LEVEL decreases by 1. (R536) -/
  | bucketLeak (d : Fin 5) (r : Fin 16)
  /-- ECC_TEST_WRITE: The hasp owner writes ECC_TEST to arm a raw check write or select raw reads. (R532) -/
  | eccTestWrite (m : Master) (d : Fin 5) (v : Nat)
  /-- READ: DR_CMD READ reads one DRAM word through the arbiter. (R535) -/
  | read (m : Master) (q : Fin 4)
  /-- WRITE: DR_CMD WRITE stores DR_DATA with generated check bits. (R535) -/
  | write (m : Master) (q : Fin 4)
  /-- WRITE_RAW: DR_CMD WRITE_RAW stores DR_DATA with DR_CHK as the check bits. (R535) -/
  | writeRaw (m : Master) (q : Fin 4)
  /-- DR_DONE: An indirect DRAM access completes and BUSY clears. (R535) -/
  | drDone (q : Fin 4)
  /-- SCRUB_READ: A scrubber that is behind pace reads its next word in a free cycle, writes back a corrected word and
  ends laps. (R543) -/
  | scrubRead (d : Fin 5) (r : Fin 16)
  /-- ARBITER_WINDOW: A 1,024-slot window starts and the DRAM clients receive their credits. (R548) -/
  | arbiterWindow (q : Fin 4) (h : Fin 64)
  /-- ARBITER_SLOT: A DRAM channel slot is granted to one client by the arbiter's rules. (R549) -/
  | arbiterSlot (q : Fin 4) (h : Fin 64) (arr : List Nat) (dbg : Bool)
  /-- REFRESH_DUE: A refresh command falls due every 6,250 slots and becomes pending, or forced once 8 are pending. (R551) -/
  | refreshDue (q : Fin 4) (h : Fin 64)
  /-- ARB_CFG_WRITE: An arbiter credit write is checked against 1,012 and applied at the next window, or rejected. (R552) -/
  | arbCfgWrite (m : Master) (q : Fin 4) (which : Fin 2) (v : Nat)
  /-- TUMB_START: TUMB_CMD START takes a halted context to RUNNING. (R560) -/
  | tumbStart (m : Master) (t : Fin 18) (x : Fin 2)
  /-- TUMB_STOP: TUMB_CMD STOP halts a running or waiting context. (R560) -/
  | tumbStop (m : Master) (t : Fin 18) (x : Fin 2)
  /-- TUMB_RESTART: TUMB_CMD RESTART clears a context's state and runs it from its entry point. (R560) -/
  | tumbRestart (m : Master) (t : Fin 18) (x : Fin 2)
  /-- TUMB_AUTO_START: A context that has become HALTED with AUTO_x set is started at the next tick. (R585) -/
  | tumbAutoStart (t : Fin 18) (x : Fin 2)
  /-- TUMB_WATCHDOG: A running context exceeds 256 × WDOG_x cycles without a wait and traps with WATCHDOG. (R562) -/
  | tumbWatchdog (t : Fin 18) (x : Fin 2)
  /-- TUMB_DOORBELL: A write of DOORBELL raises the DOORBELL event of a context. (R578) -/
  | tumbDoorbell (m : Master) (t : Fin 18) (x : Fin 2)
  /-- TUMB_WAKE: The awaited tick or event arrives and a WAITING context resumes. (R578) -/
  | tumbWake (t : Fin 18) (x : Fin 2) (n : Nat)
  /-- LDP_DATA_RETURN: The data of a page read returns and the stalled LDP or LDPW completes. (R570) -/
  | ldpDataReturn (t : Fin 18) (x : Fin 2) (n : Nat)
  /-- STP_ISSUE: A posted page write of a context is issued to the register-bus arbiter, freeing queue room. (R570) -/
  | stpIssue (t : Fin 18) (x : Fin 2)
  /-- PERM_WINDOW_WRITE: A write of PERM_BASE or PERM_LIM is applied only while the USER context is not running. (R576) -/
  | permWindowWrite (m : Master) (t : Fin 18) (w : Fin 8) (which : Fin 2) (v : Nat)
  /-- COUNTER_FREEZE_WRITE: A host write of CNT_CTRL.FREEZE stops or restarts the event counters. (R584) -/
  | counterFreezeWrite (m : Master) (t : Fin 18) (on : Bool)
  /-- COUNTER_CLR: A write of CNT_CTRL.CLR bit n clears EVCn and its OVF. (R581) -/
  | counterClr (m : Master) (t : Fin 18) (v : Nat)
  /-- EVC_OVF: An event counter reaches its largest value and wraps or sticks, setting OVF. (R581) -/
  | evcOvf (t : Fin 18) (n : Fin 8)
  /-- ADD: Tumbler instruction ADD. (R569) -/
  | add (t : Fin 18) (x : Fin 2)
  /-- SUB: Tumbler instruction SUB. (R569) -/
  | sub (t : Fin 18) (x : Fin 2)
  /-- AND: Tumbler instruction AND. (R569) -/
  | and (t : Fin 18) (x : Fin 2)
  /-- OR: Tumbler instruction OR. (R569) -/
  | or (t : Fin 18) (x : Fin 2)
  /-- XOR: Tumbler instruction XOR. (R569) -/
  | xor (t : Fin 18) (x : Fin 2)
  /-- SLL: Tumbler instruction SLL, shift left by register. (R569) -/
  | sll (t : Fin 18) (x : Fin 2)
  /-- SRL: Tumbler instruction SRL, logical shift right by register. (R569) -/
  | srl (t : Fin 18) (x : Fin 2)
  /-- SRA: Tumbler instruction SRA, arithmetic shift right by register. (R569) -/
  | sra (t : Fin 18) (x : Fin 2)
  /-- SLT: Tumbler instruction SLT, signed set-less-than. (R569) -/
  | slt (t : Fin 18) (x : Fin 2)
  /-- SLTU: Tumbler instruction SLTU, unsigned set-less-than. (R569) -/
  | sltu (t : Fin 18) (x : Fin 2)
  /-- MIN: Tumbler instruction MIN, signed minimum. (R569) -/
  | min (t : Fin 18) (x : Fin 2)
  /-- MAX: Tumbler instruction MAX, signed maximum. (R569) -/
  | max (t : Fin 18) (x : Fin 2)
  /-- ADDS: Tumbler instruction ADDS, saturating add. (R569) -/
  | adds (t : Fin 18) (x : Fin 2)
  /-- ADDI: Tumbler instruction ADDI, add immediate. (R569) -/
  | addi (t : Fin 18) (x : Fin 2)
  /-- ANDI: Tumbler instruction ANDI, AND immediate. (R569) -/
  | andi (t : Fin 18) (x : Fin 2)
  /-- ORI: Tumbler instruction ORI, OR immediate. (R569) -/
  | ori (t : Fin 18) (x : Fin 2)
  /-- XORI: Tumbler instruction XORI, XOR immediate. (R569) -/
  | xori (t : Fin 18) (x : Fin 2)
  /-- SLLI: Tumbler instruction SLLI, shift left by immediate. (R569) -/
  | slli (t : Fin 18) (x : Fin 2)
  /-- SRLI: Tumbler instruction SRLI, logical shift right by immediate. (R569) -/
  | srli (t : Fin 18) (x : Fin 2)
  /-- SRAI: Tumbler instruction SRAI, arithmetic shift right by immediate. (R569) -/
  | srai (t : Fin 18) (x : Fin 2)
  /-- SLTI: Tumbler instruction SLTI, signed set-less-than immediate. (R569) -/
  | slti (t : Fin 18) (x : Fin 2)
  /-- LUI: Tumbler instruction LUI, load upper immediate. (R569) -/
  | lui (t : Fin 18) (x : Fin 2)
  /-- MOVT: Tumbler instruction MOVT, move a shifted register into an accumulator. (R569) -/
  | movt (t : Fin 18) (x : Fin 2)
  /-- MUL: Tumbler instruction MUL, exact multiply into an accumulator. (R569) -/
  | mul (t : Fin 18) (x : Fin 2)
  /-- MAC: Tumbler instruction MAC, saturating multiply-accumulate. (R569) -/
  | mac (t : Fin 18) (x : Fin 2)
  /-- MSU: Tumbler instruction MSU, saturating multiply-subtract. (R569) -/
  | msu (t : Fin 18) (x : Fin 2)
  /-- MOVA: Tumbler instruction MOVA, move a shifted, saturated accumulator into a register. (R569) -/
  | mova (t : Fin 18) (x : Fin 2)
  /-- LD: Tumbler instruction LD, load a data word. (R569) -/
  | ld (t : Fin 18) (x : Fin 2)
  /-- ST: Tumbler instruction ST, store a data word. (R569) -/
  | st (t : Fin 18) (x : Fin 2)
  /-- LDA: Tumbler instruction LDA, load a data word into an accumulator. (R569) -/
  | lda (t : Fin 18) (x : Fin 2)
  /-- STA: Tumbler instruction STA, store a saturated accumulator. (R569) -/
  | sta (t : Fin 18) (x : Fin 2)
  /-- LDP: Tumbler instruction LDP, read a page register, stalling for the data. (R569) -/
  | ldp (t : Fin 18) (x : Fin 2)
  /-- STP: Tumbler instruction STP, post a page register write. (R569) -/
  | stp (t : Fin 18) (x : Fin 2)
  /-- LDPW: Tumbler instruction LDPW, read a window word into an accumulator. (R569) -/
  | ldpw (t : Fin 18) (x : Fin 2)
  /-- STPW: Tumbler instruction STPW, post a window word write. (R569) -/
  | stpw (t : Fin 18) (x : Fin 2)
  /-- BEQ: Tumbler instruction BEQ, branch if equal. (R569) -/
  | beq (t : Fin 18) (x : Fin 2)
  /-- BNE: Tumbler instruction BNE, branch if not equal. (R569) -/
  | bne (t : Fin 18) (x : Fin 2)
  /-- BLT: Tumbler instruction BLT, branch if less, signed. (R569) -/
  | blt (t : Fin 18) (x : Fin 2)
  /-- BGE: Tumbler instruction BGE, branch if greater or equal, signed. (R569) -/
  | bge (t : Fin 18) (x : Fin 2)
  /-- BLTU: Tumbler instruction BLTU, branch if less, unsigned. (R569) -/
  | bltu (t : Fin 18) (x : Fin 2)
  /-- BGEU: Tumbler instruction BGEU, branch if greater or equal, unsigned. (R569) -/
  | bgeu (t : Fin 18) (x : Fin 2)
  /-- JAL: Tumbler instruction JAL, jump and link. (R569) -/
  | jal (t : Fin 18) (x : Fin 2)
  /-- JR: Tumbler instruction JR, jump to a register address. (R569) -/
  | jr (t : Fin 18) (x : Fin 2)
  /-- WAITT: Tumbler instruction WAITT, wait for the next tick issued after it. (R578) -/
  | waitt (t : Fin 18) (x : Fin 2)
  /-- WAITE: Tumbler instruction WAITE, consume pending events or wait for one. (R578) -/
  | waite (t : Fin 18) (x : Fin 2)
  /-- HALT: Tumbler instruction HALT, take the context to HALTED. (R560) -/
  | halt (t : Fin 18) (x : Fin 2)
  /-- TRAP: Tumbler instruction TRAP, a software trap with cause SOFT. (R573) -/
  | trap (t : Fin 18) (x : Fin 2)
  /-- RDC: Tumbler instruction RDC, read a performance counter into an accumulator. (R577) -/
  | rdc (t : Fin 18) (x : Fin 2)
  /-- FRZC: Tumbler instruction FRZC, freeze the event counters. (R584) -/
  | frzc (t : Fin 18) (x : Fin 2)
  /-- RUNC: Tumbler instruction RUNC, restart the event counters. (R584) -/
  | runc (t : Fin 18) (x : Fin 2)
  /-- RDTK: Tumbler instruction RDTK, read the tick count. (R569) -/
  | rdtk (t : Fin 18) (x : Fin 2)
  /-- ILLEGAL: An unlisted opcode or a non-zero required field traps with cause ILLEGAL. (R569) -/
  | illegal (t : Fin 18) (x : Fin 2)
  /-- MON_PASS_START: A monitor pass starts, free-running or DELAY after a tick, or is skipped as OVERRUN. (R591) -/
  | monPassStart (d : Fin 5)
  /-- MON_DWELL_END: An entry's dwell ends once its last output is in, and MEAN and PASS are written. (R594) -/
  | monDwellEnd (d : Fin 5) (outs : DwellBits)
  /-- MON_PASS_END: A monitor pass ends, raising the MON event and PASS_DONE. (R591) -/
  | monPassEnd (d : Fin 5)
  /-- ACC_CLR: A write of ACC_CLR bit e clears the accumulation of entry e. (R595) -/
  | accClr (m : Master) (d : Fin 5) (v : Nat)
  /-- HEATER_SETPT_WRITE: A SETPT, CH_LIM or CH_CFG write is checked against TOT_LIM and changes the channel target, or
  is refused. (R597) -/
  | heaterSetptWrite (m : Master) (q : Fin 4) (h : Fin 32) (which : Fin 3) (v : Nat)
  /-- STALE: WD_TICKS ticks pass without an owner SETPT write and the heater channel faults STALE. (R598) -/
  | stale (q : Fin 4) (h : Fin 32)
  /-- OPEN: A heater source fails to deliver its output for 100 µs and faults OPEN. (R598) -/
  | htrOpen (q : Fin 4) (h : Fin 32)
  /-- SHORT: Heater current exceeds MAX by 10 % and the channel faults SHORT with its output at 0. (R598) -/
  | short (q : Fin 4) (h : Fin 32)
  /-- TRIP: The quadrant die exceeds THERM_TRIP and every channel of the quadrant faults TRIP. (R598) -/
  | trip (q : Fin 4)
  /-- SUPPLY: VDD_HTR leaves its range and every channel of the quadrant faults SUPPLY. (R598) -/
  | supply (q : Fin 4)
  /-- FORCE_SAFE: A write of FORCE_SAFE faults the heater channel with cause FORCED. (R598) -/
  | forceSafe (m : Master) (q : Fin 4) (h : Fin 32)
  /-- FAULTED_CLEAR: A write of 1 to FAULTED clears the heater fault if no fault condition holds. (R599) -/
  | faultedClear (m : Master) (q : Fin 4) (h : Fin 32)
  /-- PCIE_FUNCTION_RESET: A function-level reset, hot reset or data-link down disables the DMA channels, resets the
  mailbox and frees host hasps. (R609) -/
  | pcieFunctionReset (kind : Fin 3)
  /-- I2C_BUS_TIMEOUT: SCL is held low for 25 ms and the hasps of I2C master 0x02 are released. (R58) -/
  | i2cBusTimeout
  /-- I2C_IA_READ: IA_CMD READ issues an indirect register read as master 0x02. (R612) -/
  | i2cIaRead (addr : Nat)
  /-- I2C_IA_WRITE: IA_CMD WRITE issues an indirect register write as master 0x02. (R612) -/
  | i2cIaWrite (addr data : Nat)
  /-- I2C_IA_DONE: An I2C indirect access completes, clearing BUSY and setting ERR if it was dropped. (R612) -/
  | i2cIaDone
  /-- SQ_TAIL: A write of the SQ_TAIL doorbell tells the channel which ring slots to fetch. (R617) -/
  | sqTail (n : Fin 16) (v : Nat)
  /-- CQ_HEAD: A write of the CQ_HEAD doorbell frees completion queue slots and releases a CQ_FULL stall. (R620) -/
  | cqHead (n : Fin 16) (v : Nat)
  /-- DMA_DESCRIPTOR_FETCH: A channel fetches a descriptor, checks OWN and validity, and starts or halts. (R617) -/
  | dmaDescriptorFetch (n : Fin 16) (desc : List Nat)
  /-- DMA_BURST: A DMA burst moves data when the staging fill allows. (R623) -/
  | dmaBurst (n : Fin 16) (data : List Nat) (drain : Bool)
  /-- DMA_DESCRIPTOR_COMPLETE: A descriptor retires with OWN = 0, a completion record and an optional interrupt. (R621) -/
  | dmaDescriptorComplete (n : Fin 16)
  /-- DMA_HOST_ERROR: A host access fails and the channel halts with HOST_ERR. (R624) -/
  | dmaHostError (n : Fin 16) (record : Bool)
  /-- ABORT: DMA_CMD ABORT halts the channel after the burst in progress. (R625) -/
  | abort (m : Master) (n : Fin 16)
  /-- RESUME: DMA_CMD RESUME restarts a halted channel from HEAD. (R624) -/
  | resume (m : Master) (n : Fin 16)
  /-- SUBMIT: MB_DOORBELL SUBMIT hands the command buffer to firmware, or is dropped with REJ. (R630) -/
  | submit
  /-- ACK: MB_ACK clears RESP_VALID after the host has read the response. (R630) -/
  | ack
  /-- GET_INFO: Mailbox command GET_INFO returns firmware and boot information. (R631) -/
  | getInfo
  /-- GET_LOG: Mailbox command GET_LOG returns retained event entries. (R631) -/
  | getLog
  /-- LOAD_IMAGE: Mailbox command LOAD_IMAGE verifies a Tumbler image and loads it into a context partition. (R631) -/
  | loadImage (sigs : List Nat)
  /-- STAGE_FIRMWARE: Mailbox command STAGE_FIRMWARE verifies an image and writes it to the flash copy not in use. (R643) -/
  | stageFirmware (sigs : List (Nat × Nat)) (ok : Bool)
  /-- ATTEST: Mailbox command ATTEST returns a signed attestation report over a nonce. (R655) -/
  | attest
  /-- GET_CERT: Mailbox command GET_CERT returns the device certificate. (R652) -/
  | getCert
  /-- DEBUG_UNLOCK: Mailbox command DEBUG_UNLOCK checks a signed token and unlocks debug scopes. (R658) -/
  | debugUnlock (sig : Bool)
  /-- MB_EVENT_POST: Firmware writes an event into the event queue, or counts it in EVT_LOST. (R632) -/
  | mbEventPost (code : Nat) (data : List Nat)
  /-- WARD_CORE_RESET: A Ward core is reset by watchdog or exception, releases its hasps, reports the event and restarts.
  (R58) -/
  | wardCoreReset (n : Fin 2) (cause addr : Nat)
  /-- BOOT_STAGE_COMPLETE: A boot stage completes its verification and loading, and the next stage runs or recovery is
  entered. (R649) -/
  | bootStageComplete (sigs : List (Nat × Nat)) (flash : Bool) (ms : Nat)
  /-- RCV_DATA: In RECOVERY_ROM, a write of RCV_DATA stores four image bytes and advances RCV_ADDR. (R651) -/
  | rcvData (m : Master) (v : Nat)
  /-- GO: RCV_CMD.GO makes the ROM verify the received image and run it as stage 1. (R651) -/
  | go (m : Master) (sigs : List Nat)
  /-- LOCK: DBG_CMD.LOCK locks every debug scope and closes the debug session. (R659) -/
  | lock (m : Master)
  /-- PROGRAM_OWNER: Fuse command PROGRAM_OWNER blows an owner key slot from KEY_BUF. (R662) -/
  | programOwner (m : Master) (arg : Fin 256)
  /-- REVOKE_OWNER: Fuse command REVOKE_OWNER blows the revoke bit of an owner slot. (R662) -/
  | revokeOwner (m : Master) (arg : Fin 256)
  /-- ADVANCE_ARB: Fuse command ADVANCE_ARB raises the anti-rollback value to ARG. (R662) -/
  | advanceArb (m : Master) (arg : Fin 256)
  /-- PROGRAM_KEK_SEED: Fuse command PROGRAM_KEK_SEED blows KEK_SEED from KEY_BUF. (R662) -/
  | programKekSeed (m : Master)
  /-- SET_COSIGN: Fuse command SET_COSIGN blows OWNER_COSIGN. (R662) -/
  | setCosign (m : Master)
  /-- DISABLE_DEBUG: Fuse command DISABLE_DEBUG blows DEBUG_DISABLE. (R662) -/
  | disableDebug (m : Master)
  /-- FUSE_CMD_DONE: A fuse command finishes blowing its fuses and reports its result. (R663) -/
  | fuseCmdDone
  /-- PWR_OK_RISE: All rails come within range and PWR_OK is released high. (R667) -/
  | pwrOkRise
  /-- PWR_OK_FALL: A rail leaves its range for 10 µs; PWR_OK is pulled low, causing a power-on or brown-out reset. (R667) -/
  | pwrOkFall (rails : Nat)
  /-- RESET_N_ASSERT: RESET_N is held low for 2 µs or more and the engine is reset. (R668) -/
  | resetNAssert
  /-- RESET_RELEASE: The combined reset ends and boot starts from the ROM stage. (R668) -/
  | resetRelease (strap : Fin 4)
  /-- DEV_RESET: A write of DEV_RESET GO with the key resets the engine as RESET_N does. (R670) -/
  | devReset (m : Master) (key : Nat) (go : Bool)
  /-- PWR_CTRL_WRITE: A write of PWR_CTRL changes the park, sleep or standby requests and starts the transitions they
  call for. (R672) -/
  | pwrCtrlWrite (m : Master) (v : Nat)
  /-- STANDBY_REQ_CHANGE: The STANDBY_REQ pin changes level and changes the standby request. (R672) -/
  | standbyReqChange (level : Bool)
  /-- PARK_DONE: A parking carrier's converters and DSP stop and PARKED sets. (R676) -/
  | parkDone (c : Fin 16)
  /-- UNPARK_DONE: A carrier's converters restart, PARKED clears and the carrier leaves OFF, relighting its transmitter.
  (R677) -/
  | unparkDone (c : Fin 16)
  /-- QUAD_ASLEEP: The heater current of a sleeping quadrant reaches 0; memories go to retention and the core clock
  stops. (R678) -/
  | quadAsleep (q : Fin 4)
  /-- QUAD_AWAKE: A waking quadrant completes its restore and Q_STATE reads AWAKE. (R679) -/
  | quadAwake (q : Fin 4)
  /-- PARK_EXIT_STAGGER: At ticks after AWAKE, the quadrant's carriers leave park one at a time, 4 ticks apart. (R679) -/
  | parkExitStagger (q : Fin 4)
  /-- STANDBY_REACHED: The last quadrant is asleep; hub units halt, the Keyway may zeroise and the core synthesiser
  stops. (R680) -/
  | standbyReached
  /-- STANDBY_EXIT_DONE: Every waking quadrant is AWAKE and DEV_STATE reads RUN. (R681) -/
  | standbyExitDone (ms : Nat)
  /-- SC_LOCK: A subcarrier's equaliser error falls below its convergence limit with carrier recovery locked, and SC_LOCK
  sets. (R187) -/
  | scLock (c i : Fin 16)
  /-- OUTPUT_EDGE: A PPSO or FPO output emits its pulse edge when output time reaches the pulse instant, and after
  REALIGN sets MIS to 0. (R501) -/
  | outputEdge (p : Fin 4) (k : Nat)
  /-- REF_FAULT_CLEAR: A faulty reference's fault condition ends (CLKIN, PPS or messages return), ACTIVE sets and the
  QUAL or WTR count starts. (R479) -/
  | refFaultClear (n : Fin 8) (k : RefFault)
  /-- LINK_UP: The PCIe link trains and the data link comes up, setting DL_UP, SPEED and WIDTH and INT_RAW.LINK_CHG.
  (R637) -/
  | linkUp (speed : Fin 5) (width : Fin 4)
  /-- AER_ERROR: The endpoint records a correctable or uncorrectable PCIe error, incrementing ERR_CNT and setting
  CORR_ERR or UNCORR_ERR. (R637) -/
  | aerError (uncorr : Bool)
  /-- REMOTE_FAULT: A client port starts or stops receiving remote fault, changing RF_RX and, on a PKT port, idle
  transmission and discarding. (R391) -/
  | remoteFault (g : Fin 32) (n : Fin 8) (on : Bool)
  /-- HI_SER: A port's RS-FEC symbol error rate crosses the IEEE 802.3 high-SER rule and HI_SER sets or clears. (R389) -/
  | hiSer (g : Fin 32) (n : Fin 8) (on : Bool)
  /-- ODUFLEX_STAT_CHANGE: A tributary side's ODUflex PM STAT reads AIS, LCK or OCI in three consecutive frames, or stops
  doing so, and its signal fail changes. (R360) -/
  | oduflexStatChange (q : Fin 4) (t : Fin 256) (x : Fin 2) (stat : Nat)
  /-- KEYWAY_CMD_DONE: A running Keyway command such as IMPORT_KEK, ERASE_KEK or RESTORE completes, clearing KW_STAT.BUSY
  and setting its result. (R472) -/
  | keywayCmdDone
  /-- MB_RESPONSE: Firmware finishes a mailbox command, writes the response and sets RESP_VALID, clears BUSY and sets
  INT_RAW.RESP. (R630) -/
  | mbResponse
  /-- TEST_LOGIC_RESET: The TAP enters test-logic reset and the hasps held by debug master 0x3F are released with BROKEN
  set. (R58) -/
  | testLogicReset
  /-- BURST_GUARD_START: At the first guard symbol of each expected burst, the hub's burst receiver loads TIA gain, CD,
  FREQ, taps and the expected head from the leaf context. (R285) -/
  | burstGuardStart (c b : Fin 16) (g : Nat) (i : Fin 64)
  deriving DecidableEq, Repr

end Sys2Proof
end

