-- ==== Sys2Proof/Config.lean ====
section
/-! DEFINITION. What an implementation fixes and the free values. Each is a constant with no body: nothing in Lean
can evaluate it or prove a value of it, so a statement about it holds whatever it is. -/
namespace Sys2Proof.Config

/-- A value the spec leaves open, drawn in order: the n-th open value of a run (log entry 3). -/
opaque freeValue : Nat → Nat

/-- PAGE_REV of the page at a base address (R44 gives no number; log entry 4). -/
opaque pageRev : Nat → Nat

/-- The rounding of CAP_MARGIN where the capacity is no whole number of Mb/s (log entry 21). -/
opaque capRound : Nat → Nat

/-- Which way a conversion to whole symbols rounds when it falls on a half (R256; log entry 22). -/
opaque halfRound : Nat → Nat

/-- Which of the two neighbouring whole numbers a reported quotient takes that is no whole number (log entry 54). -/
opaque quotRound : Int → Nat → Nat

/-- PK.root of the identity key: the root that FIPS 205 key generation derives from SK.seed, SK.prf and PK.seed, each as a
number of its 16 bytes, first byte highest (R652; log entry 81). -/
opaque idRoot : Nat → Nat → Nat → Nat

/-- B_MAX of REF6, in 0.1 mHz, before two UPDATEs give it a rate (R477; log entry 55). -/
opaque ref6Max : Nat

/-- The entry of a base row and column of the inner codes' base matrices, the same in every part: R218 gives the table's place
and not its contents (log entry 129). -/
opaque codeBase : Nat → Nat → Nat

/-- Bit n of a multiframe's fill (R145 gives none; log entry 142). -/
opaque fillBit : Nat → Bool

/-- The amplitudes that the matcher's ROM gives for a loading and its input bits (R147 gives no compositions; log entry
143). -/
opaque matchRom : Nat → List Bool → List Nat

/-- Whether position i of a matcher block of a loading is a sign position: its lowest bit (R219 gives only their number; log
entry 148). -/
opaque signPos : Nat → Nat → Nat

/-- Where the PRBS-7 of a pilot tone starts (R153; log entry 144). -/
opaque pilotStart : Nat

/-- The cosine and the sine with which the derotator turns a symbol by a phase in turns (R190 gives no word length; log entry
157). -/
opaque turn : ℚ → ℚ × ℚ

/-- The proportional and the integral gain of the carrier-recovery loop for a bandwidth and a symbol rate (R190; log entry
157). -/
opaque crGain : Nat → Nat → ℚ × ℚ

/-- What the timing loop of a bandwidth adds to its steering, in 0.01 ppm, for a weighted error (R193; log entry 158). -/
opaque trStep : Nat → Int → Int

/-- Bit k of the label of an amplitude of one dimension of a base constellation (R146 and R147 give none; log entry 159). -/
opaque label : Nat → Int → Nat → Bool

/-- The cost of an amplitude under the composition of a loading, in units of the max-log metric (R147, R195; log entry 159). -/
opaque ampCost : Nat → Int → ℚ

/-- The noise variance for an SNR in 0.01 dB (R195; log entry 159). -/
opaque noiseVar : Nat → ℚ

/-- Bit v of an inbound port slot whose data is invalid since an XQSW hinge (R368; log entry 170). -/
opaque staleBit : Nat → Nat → Bool

/-- The receive skew of ADC n, in 0.01 ps, in a calibration record's payload, which Tawell defines (R134, R175; log entry
156). -/
opaque rxSkew : List Byte → Nat → Int

/-- The LLR that one step of a 6-bit LLR stands for (R195; log entry 159). -/
opaque llrStep : ℚ

/-- Taps of the half-band stages of the monitor chain in 2⁻²⁴: the even-numbered taps from the outside in (R588; log entry
178). -/
opaque halfBand : Nat → Int

end Sys2Proof.Config
end

