-- ==== Sys2Proof/Machine/State.lean ====
section
/-! DEFINITION. The state of the engine as plain data, the reasons a step can stop, and the state after reset. -/
namespace Sys2Proof.Machine

/-- Access codes (R52). -/
inductive Access where
  | rw | ro | w1c | w1s | wo | rwh | rol
  deriving DecidableEq, Repr

/-- The range a write is clamped to, unsigned or signed. -/
inductive Clamp where
  | none | u (lo hi : Nat) | i (lo hi : Int)
  deriving DecidableEq, Repr

/-- One field of a register: the byte address of its word, its least significant bit, its width, its access code
and its reset value. Two fields with different words or different bits have different keys. -/
structure Fld where
  addr : Nat
  lsb : Nat
  width : Nat
  acc : Access
  reset : Nat
  deriving DecidableEq, Repr

/-- A field within a register descriptor of a page. -/
structure FieldD where
  lsb : Nat
  width : Nat
  acc : Access
  reset : Nat
  clamp : Clamp
  deriving DecidableEq, Repr

/-- A register, or an array of up to two dimensions of registers, of a page. -/
structure RegD where
  off : Nat
  stride : Nat
  count : Nat
  stride2 : Nat
  count2 : Nat
  fields : List FieldD
  deriving DecidableEq, Repr

/-- Why the machine stops. No command of the engine stops it: the table gives every row an effect, and a command
whose condition does not hold changes nothing (log entry 2). -/
inductive Fault where
  /-- Raised by nothing: kept so that the type is inhabited. Safe. -/
  | unused
  deriving DecidableEq, Repr

/-- Why a command has no meaning. -/
inductive Refusal where
  /-- Raised by an arm of `exec` whose command has not been given its meaning; safe, since it only stops. -/
  | notModelled (mnemonic : String)
  deriving DecidableEq, Repr

/-- A transaction that waits: for a stopped clock (R27), for the end of a copy-forward (R83), or as a late write (R84).
`passed` where the arbiter has let it through; the transactions that its master presents after a stalled one wait without
having been checked. `core` where a Tumbler's write is its CORE context's (R582). -/
structure HeldWrite where
  page : Page
  req : BusReq
  passed : Bool
  core : Bool
  deriving DecidableEq, Repr

/-- The fields of a calibration record in flash (R134): copy A or B of a carrier. MAGIC, LEN and CRC follow from the other
fields. -/
structure CalRecord where
  carrier : Fin 16
  copyB : Bool
  version : Nat
  full : Bool
  timeValid : Bool
  seq : Nat
  count : Nat
  sec : Nat
  ns : Nat
  values : CalValues
  deriving DecidableEq, Repr

/-- Rows that the engine itself writes to a standby loading table, and the arm that follows them (R83). -/
structure EngineWrite where
  page : Page
  rows : List Nat
  mode : Nat
  mf : Nat
  deriving DecidableEq, Repr

/-- A grant of a hub that is fixed and whose burst has not been judged (R262, R263): the grant map entry as it was
fixed, the leaf it names, and what R290 counts of its head. -/
structure Grant where
  c : Fin 16
  b : Fin 16
  gcn : Nat
  index : Fin 64
  kind : Nat
  slot : Fin 16
  leafId : Nat
  entry : Nat
  /-- Its head was not taken during a capture whose fate is not yet known. -/
  ignored : Bool
  /-- Its head counted in MISSED_IN_FALSE. -/
  excused : Bool
  deriving DecidableEq, Repr

/-- A leaf command that is due (R268); `left` is how many more LEAF_CTRL messages carry it. -/
structure LeafCmd where
  c : Fin 16
  b : Fin 16
  leafId : Nat
  cmd : Nat
  eqd : Nat
  cseq : Nat
  left : Nat
  deriving DecidableEq, Repr

/-- A grant that a leaf has received and not yet used (R265, R266, R269). -/
structure LeafGrant where
  c : Fin 16
  gcn : Nat
  index : Nat
  discover : Bool
  kind : Nat
  long : Bool
  start : Nat
  rounds : Nat
  discEqd : Int
  discRlim : Nat
  spread : Nat
  /-- The received multiframe in which the message came, and its CYC_OFS: the first symbol of the cycle after the first of
  that multiframe (R265). -/
  mfn : Nat
  ofs : Int
  deriving DecidableEq, Repr

/-- A frame queued in context x of quadrant q (R401, R410): whether its cells are Express SRAM, when its last bit
arrived at the lands, and its bytes. -/
structure TmFrame where
  q : Fin 4
  x : Fin 4096
  exp : Bool
  arr : Nat
  bytes : List Nat
  deriving DecidableEq, Repr

/-- A frame in progress on port n of carrier c (R419, R421): `done` charged bytes of it have been released, in quanta of up to
`quantum` bytes, as the port's row was when it started (R426). -/
structure Flight where
  c : Fin 16
  n : Fin 16
  exp : Bool
  bytes : List Nat
  done : Nat
  quantum : Nat
  deriving DecidableEq, Repr

/-- A frame in an egress FIFO of the client port of quadrant q whose first lane is l, l mod 64 = i (R429). -/
structure EgrFrame where
  q : Fin 4
  i : Fin 64
  exp : Bool
  bytes : List Nat
  deriving DecidableEq, Repr

/-- A node in the round-robin order of its parent (R422, R425): a service node of a carrier, or a subscriber node of a
quadrant. -/
inductive TmNode where
  | sub (q : Fin 4) (x : Fin 4096)
  | svc (c : Fin 16) (v : Fin 256)
  deriving DecidableEq, Repr

/-- A segment that RX association a of quadrant q decrypts, and whose tag has not yet decided (R455): the additional
data, the ciphertext, the key where the slot holds it, its generation and its number. -/
structure RxSegment where
  q : Fin 4
  a : Fin 1024
  aad : List Nat
  data : List Nat
  key : Option Nat
  gen : Nat
  seq : Nat
  deriving DecidableEq, Repr

/-- The tags of the last two segments that TX association a of quadrant q has sent since its tributary's ODUflex frame sequence or
the association began: the tag of the segment in progress, and that of the segment before it (R447, R454). -/
structure SegTags where
  q : Fin 4
  a : Fin 1024
  last : List Nat
  before : List Nat
  deriving DecidableEq, Repr

/-- A page write that a context of a Tumbler has posted and that has not been issued to the arbiter (R570): a register
write of 4 bytes or a window write of 8. -/
structure PostedWrite where
  t : Fin 18
  x : Fin 2
  addr : Nat
  size : Nat
  data : Nat
  deriving DecidableEq, Repr

/-- The window of the outer decoder on stream b of carrier c (R226): the block that left it last, and the blocks in it, oldest
first, as they came and as they now stand. -/
structure OuterWin where
  c : Fin 16
  b : Fin 16
  last : Option (List Nat)
  raw : List (List Nat)
  now : List (List Nat)
  deriving DecidableEq, Repr

/-- A complex number of the receive chain, exact (log entry 156). -/
structure Cx where
  re : ℚ
  im : ℚ
  deriving DecidableEq, Repr

/-- The four FIR filters of an equaliser (R183). -/
structure EqTaps where
  xx : List Cx
  xy : List Cx
  yx : List Cx
  yy : List Cx
  deriving DecidableEq, Repr

/-- The adaptive part of the receive chain of subcarrier i: its taps, the phase of its tracker beyond the pilot reference and its
frequency integrator in turns (R190), the symbols since its row was enabled at a hinge, none otherwise (R189), whether its LLRs
wait for SC_LOCK since an equaliser reset (R186), and its averaged SNR while SC_LOCK is 1 (R200). -/
structure ScPath where
  c : Fin 16
  i : Fin 16
  taps : EqTaps
  phase : ℚ
  freq : ℚ
  age : Option Nat
  mute : Bool
  snr : Option ℚ
  deriving DecidableEq, Repr

/-- The BIP-8 of the slices of the last frame of a stream, and of the one before it (R322): of transmit stream i of carrier c, or of
its receive stream i. -/
structure BipPair where
  c : Fin 16
  i : Fin 16
  tx : Bool
  last : List Nat
  before : List Nat
  deriving DecidableEq, Repr

/-- The adapted values of lane r of group g (R379): gains of the variable-gain amplifier and the continuous-time equaliser in 0.1 dB,
and the taps of the feed-forward and the decision-feedback equaliser in steps. -/
structure LaneEq where
  g : Fin 32
  r : Fin 8
  vga : Int
  ctle : Int
  ffe : List Int
  dfe : List Int
  deriving DecidableEq, Repr

/-- Bytes that DMA channel n has read from its source and not yet written to its destination (R623). -/
structure Staged where
  n : Fin 16
  bytes : List Nat
  deriving DecidableEq, Repr

/-- An entry of the TXTS queue (R519). -/
structure TxStamp where
  port : Nat
  tag : Nat
  time : DevTime
  deriving DecidableEq, Repr

/-- What subcarrier s of a carrier sends in a symbol multiframe (R141, R146, R147, R149, R150, R153): the bits per symbol of
its base constellation, whether it is shaped, the coded bits of a matcher block, its centre against the laser in 1/84 MHz,
its power offset in 0.1 dB, the pilot tone's place and its level below the subcarrier in dB, and the whitening seeds of X
and Y. -/
structure SubLine where
  s : Nat
  base : Nat
  shaped : Bool
  block : Nat
  centre : Int
  pwr : Int
  pilot : Option (Int × Nat)
  seeds : Option (Nat × Nat)
  deriving DecidableEq, Repr

/-- What a carrier sends from a round on: the rounds of a symbol multiframe, its enabled subcarriers, FEC_RATE and whether
the encoder runs or sends all-zero codewords (R215, R244), whether the framer runs or sends all-zero framed bits (R337), the coded streams with the framed bits, the fill and the inner
codewords of a multiframe (R145, R148, R219), and stage 9 and 10: tilt in 0.1 dB, clip level in 0.1 RMS and the
four converter delays in 0.01 ps (R155, R156). -/
structure LineShape where
  rounds : Nat
  subs : List SubLine
  code : Nat
  fec : Bool
  framed : Bool
  streams : List (Fin 16 × Nat × Nat × Nat)
  tilt : Int
  clip : Nat
  delays : List Int
  deriving DecidableEq, Repr

/-- A burst of a leaf (R270 to R275): its guard's first symbol after the first symbol of received multiframe `mfn`, the guard in
symbols and the envelope's rise and fall in ns (R121); for every subcarrier of the branch the X and Y symbols from the preamble
to the header, and those of the end pattern; what its payload is laid over, in rounds, and its codewords and zeros (R234). -/
structure BurstOut where
  mfn : Nat
  start : Int
  guard : Nat
  ramp : Nat
  header : List Nat
  lead : List (Nat × List (Int × Int) × List (Int × Int))
  tail : List (Nat × List (Int × Int) × List (Int × Int))
  subs : List SubLine
  rounds : Nat
  lay : List (Nat ⊕ Nat)
  deriving DecidableEq, Repr

/-- What the engine sends to the outside, oldest first in `State.sent`. -/
inductive Output where
  /-- The data a read returns to its master (R28, R29, R88). -/
  | readData (m : Master) (addr : Nat) (value : Nat)
  /-- The message of MSI-X vector v (R93). -/
  | msix (v : Fin 64)
  /-- The loading message of a multiframe, on branch b of a hub (R163). -/
  | loadMsg (c b : Fin 16) (bytes : List Nat)
  /-- The carrier sends a native signal of this shape from its next symbol multiframe, or round, on (R145 to R156). -/
  | lineOut (c : Fin 16) (l : LineShape)
  /-- The carrier sends the OpenZR+ signal: its shift in MHz and stages 9 and 10 (R171). -/
  | zrOut (c : Fin 16) (freq tilt : Int) (clip : Nat) (delays : List Int)
  /-- The hub message of a branch frame (R264). -/
  | hubMsg (c b : Fin 16) (bytes : List Nat)
  /-- The LLRs of symbols of subcarrier i of the carrier, X before Y, I before Q (R195). -/
  | llrs (c i : Fin 16) (l : List Int)
  /-- A leaf's burst (R257, R270), with the cycle and the index of its grant. -/
  | burst (c : Fin 16) (gcn index : Nat) (b : BurstOut)
  /-- Frame f of transmit stream i: its n bits as octets, scrambled, the last padded with zeros (R303 to R310). -/
  | frameOut (c i : Fin 16) (f n : Nat) (octets : List Nat)
  /-- The SM and PM overhead of frame f in OpenZR+ mode, by slice, without its BIP-8, which the MSA's frame has (R335): the TTI byte
  and the two bytes of BEI, BDI and STAT; and the port whose stream it maps, none where it maps local fault (R336, R388, R391). -/
  | zrFrame (c : Fin 16) (f : Nat) (slices : List (Nat × Nat × Nat)) (client : Option (Fin 32 × Fin 8))
  /-- Slot bits of frame f of receive stream i handed to the TSI: bit k belongs to slot (start + k) mod S (R340). -/
  | slotsIn (c i : Fin 16) (start S : Nat) (bits : List Bool)
  /-- Words lost or repeated at a dual-clock queue have been replaced by the stage's replacement signal (R33). -/
  | slipFill (x : SlipSite) (words : Nat)
  /-- Bytes of a frame released into the IMP stream of port n (R419); `fin` is 0 while more follow, 1 at the frame's end
  and 2 where it is ended with an error control block (R413, R427). -/
  | quantum (c n : Fin 16) (bytes : List Nat) (fin : Nat)
  /-- A frame sent to the client port of quadrant q with place i (R429); `err` where it ends with an error control block
  (R539). -/
  | clientFrame (q : Fin 4) (i : Fin 64) (bytes : List Nat) (err : Bool)
  /-- A segment of TX association a begins: its header and its payload (R448 to R450). A hinge that abandons it cuts the payload
  short (R454). -/
  | segment (q : Fin 4) (a : Fin 1024) (header payload : List Nat)
  /-- Record j of a segment group of TX association a, with what follows the last record: its bytes, and the first data-channel byte
  of the group beside which they are carried (R446, R447). -/
  | segRecord (q : Fin 4) (a : Fin 1024) (j start : Nat) (bytes : List Nat)
  /-- Plaintext of a segment handed to the TSI by RX association a (R456, R458). -/
  | plaintext (q : Fin 4) (a : Fin 1024) (bytes : List Nat)
  /-- Pulse k of pulse output o (PPSO0, PPSO1, FPO0, FPO1): its level and its width in 10^-4 of 2^-16 ns (R501, R502). -/
  | edge (o : Fin 4) (k : Nat) (high : Bool) (width : Nat)
  /-- CLKOn runs from now on at num/den Hz, rising where output time is a whole multiple of the period, with a duty cycle of 50 %
  (R499), pulled by `pull` × 10^-9 of it (R500); num is 0 where it is held inactive. -/
  | clock (n : Fin 4) (num den : Nat) (pull : Int)
  /-- A segment of RX association a is replaced: its bytes that have not left are zeros, marked failed (R456). -/
  | replaced (q : Fin 4) (a : Fin 1024)
  /-- A read of DMA channel n from host memory (R617, R623), with its No Snoop attribute. -/
  | hostRead (n : Fin 16) (addr len : Nat) (noSnoop : Bool)
  /-- A posted write of DMA channel n to host memory (R621), with its No Snoop attribute (R615). -/
  | hostWrite (n : Fin 16) (addr : Nat) (bytes : List Nat) (noSnoop : Bool)
  deriving DecidableEq, Repr

/-- The state of the engine. -/
structure State where
  /-- The combined reset of R668 is asserted. -/
  inReset : Bool
  /-- Every register field and every implied scalar whose value is not its reset value, by key, keys rising. -/
  cells : List (Nat × Nat)
  /-- The memories of R526, byte by byte (data and check bits), in canonical form: an unlisted byte is 0 (R527). -/
  mem : List Host.Cell
  /-- Device time of the hub (R23). -/
  time : DevTime
  /-- The greatest seconds field sampled at any earlier tick (R23). -/
  maxSec : Nat
  /-- Ticks issued since the last reset. -/
  tickCount : Nat
  /-- The model's own counter of free values drawn. -/
  freeCtr : Nat
  /-- Writes held for a stopped clock (R27), oldest first. -/
  held : List HeldWrite
  /-- Standby writes stalled by a copy-forward (R83), oldest first. -/
  stalled : List HeldWrite
  /-- Standby writes that landed in a hinge beat (R84), oldest first. -/
  late : List HeldWrite
  /-- Standby rows of the engine itself, held by a copy-forward (R83), oldest first. -/
  engineWrites : List EngineWrite
  /-- The records that running stores write, oldest first; a second one of a carrier waits for the first (R137, R138). -/
  storing : List CalRecord
  /-- The payload of the calibration values in force, by carrier (R134). -/
  calPayload : List (Fin 16 × List Byte)
  /-- The grants of every hub carrier that are not yet judged. -/
  grants : List Grant
  /-- The leaf commands that are due, oldest first. -/
  leafCmds : List LeafCmd
  /-- The grants that leaf carriers hold. -/
  leafGrants : List LeafGrant
  /-- The windows of the outer decoders (R226). -/
  outer : List OuterWin
  /-- What the sources of the transmit slots give for the multiframe in progress, by carrier (R340, R350). -/
  txPay : List (Fin 16 × TxPayload)
  /-- The loading message of the multiframe in progress, by transmit stream (R307). -/
  ldm : List (Fin 16 × Fin 16 × List Nat)
  /-- The parities of the last frames of every stream (R322). -/
  bips : List BipPair
  /-- The adapted values of the lanes that have adapted since they last started (R379). -/
  laneEqs : List LaneEq
  /-- The receive chains of the subcarriers that differ from a chain at reset. -/
  paths : List ScPath
  /-- The frames queued in the contexts of every quadrant (R401), in the order of their classification. -/
  queued : List TmFrame
  /-- The frames in progress on the packet ports (R421). -/
  flights : List Flight
  /-- The frames in the egress FIFOs (R429), oldest first. -/
  egress : List EgrFrame
  /-- The round-robin order of the eligible nodes (R422, R425). -/
  order : List TmNode
  /-- The segments that wait for their tag, oldest first (R455, R458). -/
  segments : List RxSegment
  /-- The tags that TX associations have yet to send (R447). -/
  segTags : List SegTags
  /-- The history of the DPLL output frequency, tick by tick while LOCKED, newest first, in 10^-14 units (R489). -/
  hist : List Int
  /-- The last 512 events (R632), oldest first. -/
  evtLog : List (List Nat)
  /-- The page writes that Tumbler contexts have posted (R570), oldest first. -/
  posted : List PostedWrite
  /-- What the DMA channels have staged (R623), oldest first. -/
  staged : List Staged
  /-- PTP records that wait for a descriptor of the receive channel (R517), oldest first. -/
  ptpRx : List (List Nat)
  /-- PTP records that the transmit channel has brought and that are not yet queued to a port (R518), oldest first. -/
  ptpTx : List (List Nat)
  /-- What a transmit channel has brought of the PTP record it moves (R627). -/
  ptpPart : List Staged
  /-- The TXTS queue (R519), oldest first. -/
  txts : List TxStamp
  /-- Summary outputs as last seen: CINT of carrier c at bit c, SUMMARY0 non-zero at bit 16 (R578). -/
  sumPrev : Nat
  /-- The pending SUMMARY events: context x of Tumbler t at bit 2t + x (R578). -/
  sumPend : Nat
  /-- Captured words of snapshot groups (R29), by byte address. -/
  snap : List (Nat × Nat)
  /-- The MSI-X vectors whose input is 1, as a bit mask (R93). -/
  vecIn : Nat
  /-- The pending-bit array (R41, R93): the vectors whose message is held pending, as a bit mask. -/
  vecPend : Nat
  /-- ALARM_N is driven low (R94). -/
  alarm : Bool
  /-- What has been sent to the outside, oldest first. -/
  sent : List Output
  /-- The commands that wait, first in, first out. -/
  pending : List Instr
  deriving DecidableEq, Repr

/-- The machine right after RESET_N release. -/
def State.reset : State where
  inReset := false
  cells := []
  mem := []
  time := ⟨0, 0, 0⟩
  maxSec := 0
  tickCount := 0
  freeCtr := 0
  held := []
  stalled := []
  late := []
  engineWrites := []
  storing := []
  calPayload := []
  grants := []
  leafCmds := []
  leafGrants := []
  outer := []
  txPay := []
  ldm := []
  bips := []
  laneEqs := []
  paths := []
  queued := []
  flights := []
  egress := []
  order := []
  segments := []
  segTags := []
  hist := []
  evtLog := []
  posted := []
  staged := []
  ptpRx := []
  ptpTx := []
  ptpPart := []
  txts := []
  sumPrev := 0
  sumPend := 0
  snap := []
  vecIn := 0
  vecPend := 0
  alarm := false
  sent := []
  pending := []

end Sys2Proof.Machine
end

