-- ==== Sys2Proof/Machine/Map.lean ====
section
/-! DEFINITION. The address map of BAR0 and BAR2 (R36 to R41) and the list of the pages. -/
namespace Sys2Proof.Machine

/-- Base of quadrant q (R38). -/
def quadBase (q : Nat) : Nat := 0x0100_0000 + q * 0x0080_0000

/-- Base of the pages of carrier c (R38). -/
def carrierBase (c : Nat) : Nat := quadBase (c / 4) + 0x40_0000 + (c % 4) * 0x10_0000

/-- Where BAR2 is placed in the model's register numbering, after BAR0. -/
def bar2Base : Nat := 0x0400_0000

end Sys2Proof.Machine

namespace Sys2Proof
open Machine

/-- Base of a page (R37, R38, R628). -/
def Page.base : Page → Nat
  | .devId => 0x0000_0000 | .hubctl => 0x0000_1000 | .devInt => 0x0000_2000 | .pwr => 0x0000_3000
  | .timing0 => 0x0001_0000 | .timing1 => 0x0001_1000 | .timing2 => 0x0001_2000 | .timing3 => 0x0001_3000
  | .timingX n => 0x0001_4000 + n.val * 0x1000
  | .ptp => 0x0002_0000 | .keyway => 0x0003_0000 | .boot => 0x0004_0000
  | .dma n => 0x0005_0000 + n.val * 0x1000
  | .pcie => 0x0006_0000 | .xqsw => 0x0008_0000 | .mbox => 0x000A_0000 | .fuse => 0x000B_0000
  | .mon d => if d.val < 4 then quadBase d.val + 0x06_0000 else 0x0007_0000
  | .frm q => quadBase q.val | .tsi q => quadBase q.val + 0x01_0000 | .tm q => quadBase q.val + 0x02_0000
  | .ciph q => quadBase q.val + 0x03_0000 | .mem q => quadBase q.val + 0x04_0000
  | .lanegrp g => quadBase (g.val / 8) + 0x05_0000 + (g.val % 8) * 0x1000
  | .htr q => quadBase q.val + 0x07_0000 | .qint q => quadBase q.val + 0x08_0000
  | .conv c => carrierBase c.val | .txdsp c => carrierBase c.val + 0x1_0000
  | .rxdsp c => carrierBase c.val + 0x2_0000 | .fec c => carrierBase c.val + 0x3_0000
  | .otu c => carrierBase c.val + 0x4_0000 | .hub c => carrierBase c.val + 0x5_0000
  | .tumb t => if t.val < 16 then carrierBase t.val + 0x6_0000 else 0x0009_0000 + (t.val - 16) * 0x1000
  | .cal c => carrierBase c.val + 0x7_0000 | .cint c => carrierBase c.val + 0x8_0000
  | .mbx => bar2Base + 0x1_0000

/-- Where the implied state of a page (timers, sampled settings, running counts) has its keys, past every address of
BAR0 and BAR2: sixteen times the space that the map gives the page. -/
def Page.hidBase (p : Page) : Nat := 0x8000_0000 + 16 * p.base

/-- The pages of quadrant q that are not pages of a lane group or a carrier (R38). -/
def Page.ofQuad (q : Fin 4) : List Page :=
  [Page.frm q, Page.tsi q, Page.tm q, Page.ciph q, Page.mem q, Page.htr q, Page.qint q]

/-- The pages of carrier c but its Tumbler's (R38). -/
def Page.ofCarrier (c : Fin 16) : List Page :=
  [Page.conv c, Page.txdsp c, Page.rxdsp c, Page.fec c, Page.otu c, Page.hub c, Page.cal c, Page.cint c]

/-- The device pages that are single (R37). -/
def Page.ofDevice : List Page :=
  [Page.devId, Page.hubctl, Page.devInt, Page.pwr, Page.timing0, Page.timing1, Page.timing2, Page.timing3,
    Page.ptp, Page.keyway, Page.boot, Page.pcie, Page.xqsw, Page.mbox, Page.fuse]

/-- Every register page (R37, R38). -/
def Page.all : List Page :=
  List.flatten [Page.ofDevice, (List.finRange 12).map Page.timingX, (List.finRange 16).map Page.dma,
    (List.finRange 5).map Page.mon, (List.finRange 4).flatMap Page.ofQuad, (List.finRange 32).map Page.lanegrp,
    (List.finRange 16).flatMap Page.ofCarrier, (List.finRange 18).map Page.tumb]

/-- The device pages by the number of their 4 KiB slot (R37). -/
def Page.deviceSlots : List (Nat × Page) :=
  [(0x00, .devId), (0x01, .hubctl), (0x02, .devInt), (0x03, .pwr), (0x10, .timing0), (0x11, .timing1),
    (0x12, .timing2), (0x13, .timing3), (0x20, .ptp), (0x30, .keyway), (0x40, .boot), (0x60, .pcie),
    (0x70, .mon 4), (0x80, .xqsw), (0x90, .tumb 16), (0x91, .tumb 17), (0xA0, .mbox), (0xB0, .fuse)]

/-- The page whose 4 KiB hold a BAR0 address; none where the address is unmapped (R37, R38, R40). -/
def Page.ofAddr (a : Nat) : Option Page :=
  let dev (b : Nat) : Option Page :=
    if 0x14 ≤ b ∧ b < 0x20 then some (.timingX (Fin.ofNat 12 (b - 0x14)))
    else if 0x50 ≤ b ∧ b < 0x60 then some (.dma (Fin.ofNat 16 (b - 0x50)))
    else List.lookup b Page.deviceSlots
  let quad (q : Fin 4) (o : Nat) : Option Page :=
    if o / 0x1_0000 = 5 then
      if o % 0x1_0000 < 0x8000 then some (.lanegrp (Fin.ofNat 32 (8 * q.val + o % 0x1_0000 / 0x1000))) else none
    else if o % 0x1_0000 < 0x1000 then
      List.lookup (o / 0x1_0000) [(0, .frm q), (1, .tsi q), (2, .tm q), (3, .ciph q), (4, .mem q),
        (6, .mon (Fin.ofNat 5 q.val)), (7, .htr q), (8, .qint q)]
    else none
  let carrier (c : Fin 16) (o : Nat) : Option Page :=
    if o % 0x1_0000 < 0x1000 then
      List.lookup (o / 0x1_0000) [(0, .conv c), (1, .txdsp c), (2, .rxdsp c), (3, .fec c), (4, .otu c), (5, .hub c),
        (6, .tumb (Fin.ofNat 18 c.val)), (7, .cal c), (8, .cint c)]
    else none
  if a < 0x0100_0000 then dev (a / 0x1000)
  else if a < 0x0300_0000 then
    let q : Fin 4 := Fin.ofNat 4 ((a - 0x0100_0000) / 0x80_0000)
    let o := (a - 0x0100_0000) % 0x80_0000
    if o < 0x40_0000 then quad q o
    else carrier (Fin.ofNat 16 (4 * q.val + (o - 0x40_0000) / 0x10_0000)) ((o - 0x40_0000) % 0x10_0000)
  else none

end Sys2Proof
end

