-- ==== Sys2Proof/Machine/Regs.lean ====
section
/-! DEFINITION. The register pages of the spec, field by field: for every page the list of its block registers
(offset, rows, fields with access code, reset value and the clamp a write undergoes), and one named field per
field of the spec. The field names are the spec's. A name `X.REG_FIELD` is field FIELD of register REG of page X;
`X.REG` is a register with one unnamed field. Fields named `X.h…` are state the rules imply without giving it a
register (timers, sampled settings, running counts). The common header of R42 is in Header.lean. -/
namespace Sys2Proof.Machine

/-! ID (17_host_dma.md R636) -/

/-- The block registers of the page (R636). -/
def ID.regs : List RegD :=
[⟨0x040, 0, 1, 0, 1, [⟨0, 16, .ro, 0x1632, .none⟩]⟩,
    ⟨0x044, 0, 1, 0, 1, [⟨8, 8, .ro, 1, .none⟩, ⟨0, 8, .ro, 0, .none⟩]⟩,
    ⟨0x048, 0, 1, 0, 1, [⟨0, 32, .ro, 0, .none⟩]⟩,
    ⟨0x04C, 0, 1, 0, 1, [⟨0, 32, .ro, 0, .none⟩]⟩,
    ⟨0x050, 0, 1, 0, 1, [⟨16, 8, .ro, 0x10, .none⟩, ⟨8, 8, .ro, 0x20, .none⟩, ⟨0, 8, .ro, 0x12, .none⟩]⟩]

def ID.DEVICE : Fld := ⟨Page.devId.base + 0x040, 0, 16, .ro, 0x1632⟩
def ID.REVISION_ORDER : Fld := ⟨Page.devId.base + 0x044, 8, 8, .ro, 1⟩
def ID.REVISION_SIREV : Fld := ⟨Page.devId.base + 0x044, 0, 8, .ro, 0⟩
def ID.SERIAL_LO : Fld := ⟨Page.devId.base + 0x048, 0, 32, .ro, 0⟩
def ID.SERIAL_HI : Fld := ⟨Page.devId.base + 0x04C, 0, 32, .ro, 0⟩
def ID.CONFIG_CARRIERS : Fld := ⟨Page.devId.base + 0x050, 16, 8, .ro, 0x10⟩
def ID.CONFIG_GROUPS : Fld := ⟨Page.devId.base + 0x050, 8, 8, .ro, 0x20⟩
def ID.CONFIG_TUMBLERS : Fld := ⟨Page.devId.base + 0x050, 0, 8, .ro, 0x12⟩
/-- Writes of the master with this ID that were dropped at their page, wrapping (R582, R612). -/
def ID.hDrop (m : Fin 64) : Fld := ⟨Page.devId.hidBase + 0 + 8 * m.val, 0, 32, .ro, 0⟩

/-! HUBCTL (02_register_model.md R62) -/

/-- The block registers of the page (R62). -/
def HUBCTL.regs : List RegD :=
[⟨0x100, 4, 32, 0, 1, [⟨31, 1, .ro, 0, .none⟩, ⟨30, 1, .ro, 0, .none⟩, ⟨24, 6, .ro, 0, .none⟩, ⟨23, 1, .wo, 0, .none⟩, ⟨22, 1, .wo, 0, .none⟩, ⟨0, 16, .rw, 0, .none⟩]⟩,
    ⟨0x180, 0, 1, 0, 1, [⟨31, 1, .w1c, 0, .none⟩, ⟨30, 1, .ro, 0, .none⟩, ⟨29, 1, .ro, 0, .none⟩, ⟨24, 4, .ro, 0, .none⟩, ⟨0, 8, .ro, 0, .none⟩]⟩,
    ⟨0x184, 0, 1, 0, 1, [⟨0, 24, .ro, 0, .none⟩]⟩,
    ⟨0x188, 0, 1, 0, 1, [⟨31, 1, .ro, 0, .none⟩, ⟨30, 1, .ro, 0, .none⟩, ⟨29, 1, .ro, 0, .none⟩, ⟨24, 4, .ro, 0, .none⟩, ⟨0, 8, .ro, 0, .none⟩]⟩,
    ⟨0x18C, 0, 1, 0, 1, [⟨0, 24, .ro, 0, .none⟩]⟩,
    ⟨0x190, 0, 1, 0, 1, [⟨31, 1, .rw, 1, .none⟩, ⟨0, 24, .rw, 0x4E2, .none⟩]⟩,
    ⟨0x194, 0, 1, 0, 1, [⟨31, 1, .rw, 0, .none⟩, ⟨30, 1, .w1s, 0, .none⟩, ⟨0, 8, .rw, 0, .none⟩]⟩,
    ⟨0x198, 0, 1, 0, 1, [⟨0, 8, .ro, 0, .none⟩]⟩,
    ⟨0x200, 32, 6, 0, 1, [⟨16, 16, .rw, 0x04E2, .none⟩, ⟨0, 16, .rw, 0x0010, .none⟩]⟩,
    ⟨0x204, 32, 6, 0, 1, [⟨31, 1, .ro, 0, .none⟩, ⟨0, 16, .ro, 0, .none⟩]⟩,
    ⟨0x208, 32, 6, 0, 1, [⟨0, 32, .ro, 0, .none⟩]⟩,
    ⟨0x20C, 32, 6, 0, 1, [⟨0, 32, .ro, 0, .none⟩]⟩]
  ++ [⟨0x210, 32, 6, 0, 1, [⟨31, 1, .ro, 0, .none⟩, ⟨30, 1, .ro, 0, .none⟩, ⟨0, 16, .ro, 0, .none⟩]⟩,
    ⟨0x214, 32, 6, 0, 1, [⟨0, 24, .ro, 0, .none⟩]⟩,
    ⟨0x218, 32, 6, 0, 1, [⟨0, 24, .ro, 0, .none⟩]⟩]

def HUBCTL.RES_HASP_HELD (n : Fin 32) : Fld := ⟨Page.hubctl.base + 0x100 + 4 * n.val, 31, 1, .ro, 0⟩
def HUBCTL.RES_HASP_BROKEN (n : Fin 32) : Fld := ⟨Page.hubctl.base + 0x100 + 4 * n.val, 30, 1, .ro, 0⟩
def HUBCTL.RES_HASP_OWNER (n : Fin 32) : Fld := ⟨Page.hubctl.base + 0x100 + 4 * n.val, 24, 6, .ro, 0⟩
def HUBCTL.RES_HASP_ACQUIRE (n : Fin 32) : Fld := ⟨Page.hubctl.base + 0x100 + 4 * n.val, 23, 1, .wo, 0⟩
def HUBCTL.RES_HASP_RELEASE (n : Fin 32) : Fld := ⟨Page.hubctl.base + 0x100 + 4 * n.val, 22, 1, .wo, 0⟩
def HUBCTL.RES_HASP_LEASE_TICKS (n : Fin 32) : Fld := ⟨Page.hubctl.base + 0x100 + 4 * n.val, 0, 16, .rw, 0⟩
def HUBCTL.UE_LOG_VALID : Fld := ⟨Page.hubctl.base + 0x180, 31, 1, .w1c, 0⟩
def HUBCTL.UE_LOG_OVERRUN : Fld := ⟨Page.hubctl.base + 0x180, 30, 1, .ro, 0⟩
def HUBCTL.UE_LOG_SCRUB : Fld := ⟨Page.hubctl.base + 0x180, 29, 1, .ro, 0⟩
def HUBCTL.UE_LOG_REGION : Fld := ⟨Page.hubctl.base + 0x180, 24, 4, .ro, 0⟩
def HUBCTL.UE_LOG_SYNDROME : Fld := ⟨Page.hubctl.base + 0x180, 0, 8, .ro, 0⟩
def HUBCTL.UE_ADDR : Fld := ⟨Page.hubctl.base + 0x184, 0, 24, .ro, 0⟩
def HUBCTL.CE_LOG_VALID : Fld := ⟨Page.hubctl.base + 0x188, 31, 1, .ro, 0⟩
def HUBCTL.CE_LOG_OVERRUN : Fld := ⟨Page.hubctl.base + 0x188, 30, 1, .ro, 0⟩
def HUBCTL.CE_LOG_SCRUB : Fld := ⟨Page.hubctl.base + 0x188, 29, 1, .ro, 0⟩
def HUBCTL.CE_LOG_REGION : Fld := ⟨Page.hubctl.base + 0x188, 24, 4, .ro, 0⟩
def HUBCTL.CE_LOG_SYNDROME : Fld := ⟨Page.hubctl.base + 0x188, 0, 8, .ro, 0⟩
def HUBCTL.CE_ADDR : Fld := ⟨Page.hubctl.base + 0x18C, 0, 24, .ro, 0⟩
def HUBCTL.SCRUB_CFG_EN : Fld := ⟨Page.hubctl.base + 0x190, 31, 1, .rw, 1⟩
def HUBCTL.SCRUB_CFG_PACE : Fld := ⟨Page.hubctl.base + 0x190, 0, 24, .rw, 0x4E2⟩
def HUBCTL.ECC_TEST_RAW : Fld := ⟨Page.hubctl.base + 0x194, 31, 1, .rw, 0⟩
def HUBCTL.ECC_TEST_ARM : Fld := ⟨Page.hubctl.base + 0x194, 30, 1, .w1s, 0⟩
def HUBCTL.ECC_TEST_CHK : Fld := ⟨Page.hubctl.base + 0x194, 0, 8, .rw, 0⟩
def HUBCTL.ECC_CHK_RD : Fld := ⟨Page.hubctl.base + 0x198, 0, 8, .ro, 0⟩
def HUBCTL.BKT_CFG_LEAK_TICKS (r : Fin 6) : Fld := ⟨Page.hubctl.base + 0x200 + 32 * r.val, 16, 16, .rw, 0x04E2⟩
def HUBCTL.BKT_CFG_THR (r : Fin 6) : Fld := ⟨Page.hubctl.base + 0x200 + 32 * r.val, 0, 16, .rw, 0x0010⟩
def HUBCTL.BKT_LVL_OVER (r : Fin 6) : Fld := ⟨Page.hubctl.base + 0x204 + 32 * r.val, 31, 1, .ro, 0⟩
def HUBCTL.BKT_LVL_LEVEL (r : Fin 6) : Fld := ⟨Page.hubctl.base + 0x204 + 32 * r.val, 0, 16, .ro, 0⟩
def HUBCTL.CE_CNT (r : Fin 6) : Fld := ⟨Page.hubctl.base + 0x208 + 32 * r.val, 0, 32, .ro, 0⟩
def HUBCTL.UE_CNT (r : Fin 6) : Fld := ⟨Page.hubctl.base + 0x20C + 32 * r.val, 0, 32, .ro, 0⟩
def HUBCTL.LAP_STAT_LAP_SLOW (r : Fin 6) : Fld := ⟨Page.hubctl.base + 0x210 + 32 * r.val, 31, 1, .ro, 0⟩
def HUBCTL.LAP_STAT_LAPS (r : Fin 6) : Fld := ⟨Page.hubctl.base + 0x210 + 32 * r.val, 0, 16, .ro, 0⟩
def HUBCTL.LAP_TIME (r : Fin 6) : Fld := ⟨Page.hubctl.base + 0x214 + 32 * r.val, 0, 24, .ro, 0⟩
def HUBCTL.SCRUB_POS (r : Fin 6) : Fld := ⟨Page.hubctl.base + 0x218 + 32 * r.val, 0, 24, .ro, 0⟩
/-- Ticks of the scrub lap of region Hr in progress. -/
def HUBCTL.hLapTicks (r : Fin 6) : Fld := ⟨Page.hubctl.hidBase + 0 + 8 * r.val, 0, 25, .ro, 0⟩
/-- Ticks since the bucket of region Hr last leaked. -/
def HUBCTL.hLeak (r : Fin 6) : Fld := ⟨Page.hubctl.hidBase + 48 + 8 * r.val, 0, 17, .ro, 0⟩

/-! INT (02_register_model.md R92) -/

/-- The block registers of the page (R92). -/
def INT.regs : List RegD :=
[⟨0x040, 0, 1, 0, 1, [⟨0, 32, .ro, 0, .none⟩]⟩,
    ⟨0x044, 0, 1, 0, 1, [⟨0, 32, .ro, 0, .none⟩]⟩,
    ⟨0x068, 0, 1, 0, 1, [⟨0, 32, .ro, 0, .none⟩]⟩,
    ⟨0x06C, 0, 1, 0, 1, [⟨0, 32, .ro, 0, .none⟩]⟩,
    ⟨0x048, 0, 1, 0, 1, [⟨0, 32, .rw, 0, .none⟩]⟩,
    ⟨0x04C, 0, 1, 0, 1, [⟨0, 32, .rw, 0, .none⟩]⟩,
    ⟨0x050, 0, 1, 0, 1, [⟨31, 1, .w1c, 0, .none⟩, ⟨0, 26, .ro, 0, .none⟩]⟩,
    ⟨0x060, 0, 1, 0, 1, [⟨0, 32, .w1s, 0, .none⟩]⟩,
    ⟨0x064, 0, 1, 0, 1, [⟨0, 32, .w1s, 0, .none⟩]⟩,
    ⟨0x100, 4, 34, 0, 1, [⟨7, 1, .rw, 0, .none⟩, ⟨0, 6, .rw, 0, .none⟩]⟩]

def INT.ALARM_EN0 : Fld := ⟨Page.devInt.base + 0x048, 0, 32, .rw, 0⟩
def INT.ALARM_EN1 : Fld := ⟨Page.devInt.base + 0x04C, 0, 32, .rw, 0⟩
def INT.ERR_ADDR_VALID : Fld := ⟨Page.devInt.base + 0x050, 31, 1, .w1c, 0⟩
def INT.ERR_ADDR_ADDR : Fld := ⟨Page.devInt.base + 0x050, 0, 26, .ro, 0⟩
def INT.VEC_REARM0 : Fld := ⟨Page.devInt.base + 0x060, 0, 32, .w1s, 0⟩
def INT.VEC_REARM1 : Fld := ⟨Page.devInt.base + 0x064, 0, 32, .w1s, 0⟩
def INT.VEC_MAP_EN (i : Fin 34) : Fld := ⟨Page.devInt.base + 0x100 + 4 * i.val, 7, 1, .rw, 0⟩
def INT.VEC_MAP_VECTOR (i : Fin 34) : Fld := ⟨Page.devInt.base + 0x100 + 4 * i.val, 0, 6, .rw, i.val⟩

/-! PWR (19_power_reset_startup.md R683) -/

/-- The block registers of the page (R683). -/
def PWR.regs : List RegD :=
[⟨0x040, 0, 1, 0, 1, [⟨31, 1, .rw, 0, .none⟩, ⟨30, 1, .rw, 1, .none⟩, ⟨29, 1, .rw, 0, .none⟩, ⟨28, 1, .rw, 1, .none⟩, ⟨16, 4, .rw, 0, .none⟩, ⟨0, 16, .rw, 0, .none⟩]⟩,
    ⟨0x044, 0, 1, 0, 1, [⟨30, 2, .ro, 0, .none⟩, ⟨16, 8, .ro, 0, .none⟩, ⟨0, 16, .ro, 0, .none⟩]⟩,
    ⟨0x048, 0, 1, 0, 1, [⟨31, 1, .ro, 0, .none⟩, ⟨0, 9, .ro, 0, .none⟩]⟩,
    ⟨0x04C, 0, 1, 0, 1, [⟨8, 8, .ro, 0, .none⟩, ⟨0, 4, .ro, 1, .none⟩]⟩,
    ⟨0x050, 0, 1, 0, 1, [⟨16, 16, .wo, 0, .none⟩, ⟨0, 1, .wo, 0, .none⟩]⟩,
    ⟨0x054, 0, 1, 0, 1, [⟨0, 32, .ro, 0, .none⟩]⟩]

def PWR.PWR_CTRL_STANDBY : Fld := ⟨Page.pwr.base + 0x040, 31, 1, .rw, 0⟩
def PWR.PWR_CTRL_RETAIN_PKTBUF : Fld := ⟨Page.pwr.base + 0x040, 30, 1, .rw, 1⟩
def PWR.PWR_CTRL_KEYWAY_RETAIN : Fld := ⟨Page.pwr.base + 0x040, 29, 1, .rw, 0⟩
def PWR.PWR_CTRL_STBY_PIN_EN : Fld := ⟨Page.pwr.base + 0x040, 28, 1, .rw, 1⟩
def PWR.PWR_CTRL_QSLEEP : Fld := ⟨Page.pwr.base + 0x040, 16, 4, .rw, 0⟩
def PWR.PWR_CTRL_PARK : Fld := ⟨Page.pwr.base + 0x040, 0, 16, .rw, 0⟩
def PWR.PWR_STAT_DEV_STATE : Fld := ⟨Page.pwr.base + 0x044, 30, 2, .ro, 0⟩
def PWR.PWR_STAT_Q_STATE : Fld := ⟨Page.pwr.base + 0x044, 16, 8, .ro, 0⟩
def PWR.PWR_STAT_PARKED : Fld := ⟨Page.pwr.base + 0x044, 0, 16, .ro, 0⟩
def PWR.RESET_CAUSE_COUNT : Fld := ⟨Page.pwr.base + 0x04C, 8, 8, .ro, 0⟩
def PWR.RESET_CAUSE_CAUSE : Fld := ⟨Page.pwr.base + 0x04C, 0, 4, .ro, 1⟩
def PWR.DEV_RESET_KEY : Fld := ⟨Page.pwr.base + 0x050, 16, 16, .wo, 0⟩
def PWR.DEV_RESET_GO : Fld := ⟨Page.pwr.base + 0x050, 0, 1, .wo, 0⟩
def PWR.STBY_DUR : Fld := ⟨Page.pwr.base + 0x054, 0, 32, .ro, 0⟩
/-- The core synthesiser has been started (R649, R680). -/
def PWR.hSynthRun : Fld := ⟨Page.pwr.hidBase + 0, 0, 1, .ro, 0⟩
/-- It has reported lock since: ticks are issued (R21, R24). -/
def PWR.hSynthLock : Fld := ⟨Page.pwr.hidBase + 8, 0, 1, .ro, 0⟩
/-- The core synthesiser follows XO_IN (0), slews to it (1) or follows the DPLL (2) (R20). -/
def PWR.hSynth : Fld := ⟨Page.pwr.hidBase + 16, 0, 2, .ro, 0⟩
/-- DPLL output frequency against XO_IN nominal, signed, 10^-14 units. -/
def PWR.hFreq : Fld := ⟨Page.pwr.hidBase + 24, 0, 48, .ro, 0⟩
/-- XO_CFG as sampled when the core synthesiser was started (R474). -/
def PWR.hXo : Fld := ⟨Page.pwr.hidBase + 32, 0, 20, .ro, 0x61A8⟩
/-- Ticks issued at the last PM second (R333). -/
def PWR.hPmTick : Fld := ⟨Page.pwr.hidBase + 40, 0, 64, .ro, 0⟩
/-- Part of the tick interval in progress by which device time has already advanced, in 2^-16 ns. -/
def PWR.hPart : Fld := ⟨Page.pwr.hidBase + 48, 0, 64, .ro, 0⟩
/-- Level of STANDBY_REQ. -/
def PWR.hStbyPin : Fld := ⟨Page.pwr.hidBase + 56, 0, 1, .ro, 0⟩
/-- READY has set since RESET_N release (R672). -/
def PWR.hSeenReady : Fld := ⟨Page.pwr.hidBase + 64, 0, 1, .ro, 0⟩
/-- KEYWAY_RETAIN as sampled at STANDBY entry. -/
def PWR.hKeepKeys : Fld := ⟨Page.pwr.hidBase + 72, 0, 1, .ro, 0⟩
/-- The Ward cores run (R680). -/
def PWR.hWard : Fld := ⟨Page.pwr.hidBase + 80, 0, 1, .ro, 1⟩
/-- RESET_N is high. -/
def PWR.hRstN : Fld := ⟨Page.pwr.hidBase + 88, 0, 1, .ro, 1⟩
/-- Carrier c: 0 runs, 1 parks, 2 is parked, 3 leaves park (R676, R677). -/
def PWR.hPark (c : Fin 16) : Fld := ⟨Page.pwr.hidBase + 96 + 8 * c.val, 0, 2, .ro, 0⟩
/-- Transmitter state recorded at the entry to park (R676). -/
def PWR.hWas (c : Fin 16) : Fld := ⟨Page.pwr.hidBase + 224 + 8 * c.val, 0, 3, .ro, 0⟩
/-- Ticks since quadrant q became AWAKE, up to 255 (R679). -/
def PWR.hStag (q : Fin 4) : Fld := ⟨Page.pwr.hidBase + 352 + 8 * q.val, 0, 8, .ro, 0⟩
/-- The next carrier of quadrant q to leave park after the wake; 4 when none is left (R679). -/
def PWR.hStagK (q : Fin 4) : Fld := ⟨Page.pwr.hidBase + 384 + 8 * q.val, 0, 3, .ro, 4⟩
/-- PWR_OK is high (R667). -/
def PWR.hPwrOk : Fld := ⟨Page.pwr.hidBase + 416, 0, 1, .ro, 1⟩
/-- The rails within range, bit i for row i of R664. -/
def PWR.hRails : Fld := ⟨Page.pwr.hidBase + 424, 0, 9, .ro, 0x1FF⟩
/-- RETAIN_PKTBUF as sampled when quadrant q last began to enter QUAD_SLEEP (R683). -/
def PWR.hRetain (q : Fin 4) : Fld := ⟨Page.pwr.hidBase + 432 + 8 * q.val, 0, 1, .ro, 1⟩

/-! TIMING0 (13_timing.md R521) -/

/-- The block registers of the page (R521). -/
def TIMING0.regs : List RegD :=
[⟨0x040, 0, 1, 0, 1, [⟨30, 2, .rw, 0, .none⟩, ⟨29, 1, .rw, 1, .none⟩, ⟨28, 1, .rw, 0, .none⟩, ⟨24, 3, .rw, 0, .none⟩]⟩,
    ⟨0x044, 0, 1, 0, 1, [⟨0, 17, .rw, 0x3E8, .u 1 100000⟩]⟩,
    ⟨0x048, 0, 1, 0, 1, [⟨29, 3, .ro, 0, .none⟩, ⟨28, 1, .ro, 0, .none⟩, ⟨27, 1, .ro, 0, .none⟩, ⟨26, 1, .ro, 0, .none⟩, ⟨24, 2, .ro, 0, .none⟩, ⟨23, 1, .ro, 0, .none⟩, ⟨20, 3, .ro, 0, .none⟩, ⟨19, 1, .ro, 0, .none⟩]⟩,
    ⟨0x04C, 0, 1, 0, 1, [⟨0, 32, .ro, 0, .none⟩]⟩,
    ⟨0x050, 0, 1, 0, 1, [⟨0, 32, .ro, 0, .none⟩]⟩,
    ⟨0x054, 0, 1, 0, 1, [⟨0, 24, .rw, 0x5B8D8, .none⟩]⟩,
    ⟨0x058, 0, 1, 0, 1, [⟨16, 16, .rw, 0x04E2, .none⟩, ⟨0, 16, .rw, 0x04E2, .none⟩]⟩,
    ⟨0x05C, 0, 1, 0, 1, [⟨0, 16, .rw, 0x3E8, .none⟩]⟩,
    ⟨0x060, 0, 1, 0, 1, [⟨16, 16, .rw, 0x003C, .none⟩, ⟨0, 16, .rw, 0x21C0, .none⟩]⟩,
    ⟨0x064, 0, 1, 0, 1, [⟨16, 16, .rw, 0x04E2, .none⟩, ⟨0, 4, .rw, 6, .u 0 12⟩]⟩,
    ⟨0x068, 0, 1, 0, 1, [⟨0, 32, .ro, 0, .none⟩]⟩,
    ⟨0x06C, 0, 1, 0, 1, [⟨0, 20, .rw, 0x61A8, .none⟩]⟩]
  ++ [⟨0x080, 0, 1, 0, 1, [⟨0, 16, .ro, 0, .none⟩]⟩,
    ⟨0x084, 0, 1, 0, 1, [⟨0, 32, .ro, 0, .none⟩]⟩,
    ⟨0x088, 0, 1, 0, 1, [⟨0, 30, .ro, 0, .none⟩]⟩,
    ⟨0x08C, 0, 1, 0, 1, [⟨0, 16, .ro, 0, .none⟩]⟩,
    ⟨0x090, 0, 1, 0, 1, [⟨0, 32, .rw, 0, .none⟩]⟩,
    ⟨0x094, 0, 1, 0, 1, [⟨0, 16, .rw, 0, .none⟩]⟩,
    ⟨0x098, 0, 1, 0, 1, [⟨0, 32, .rw, 0, .none⟩]⟩,
    ⟨0x09C, 0, 1, 0, 1, [⟨0, 16, .rw, 0, .none⟩]⟩,
    ⟨0x0A0, 0, 1, 0, 1, [⟨3, 1, .w1s, 0, .none⟩, ⟨2, 1, .w1s, 0, .none⟩, ⟨1, 1, .w1s, 0, .none⟩, ⟨0, 1, .w1s, 0, .none⟩]⟩,
    ⟨0x0A4, 0, 1, 0, 1, [⟨31, 1, .ro, 0, .none⟩, ⟨30, 1, .ro, 0, .none⟩, ⟨29, 1, .ro, 0, .none⟩, ⟨0, 16, .ro, 0, .none⟩]⟩,
    ⟨0x0C0, 4, 8, 0, 1, [⟨0, 4, .rwh, 0, .none⟩]⟩]

def TIMING0.DPLL_CTRL_MODE : Fld := ⟨Page.timing0.base + 0x040, 30, 2, .rw, 0⟩
def TIMING0.DPLL_CTRL_REVERTIVE : Fld := ⟨Page.timing0.base + 0x040, 29, 1, .rw, 1⟩
def TIMING0.DPLL_CTRL_FORCE_SEL_EN : Fld := ⟨Page.timing0.base + 0x040, 28, 1, .rw, 0⟩
def TIMING0.DPLL_CTRL_FORCE_SEL : Fld := ⟨Page.timing0.base + 0x040, 24, 3, .rw, 0⟩
def TIMING0.DPLL_BW : Fld := ⟨Page.timing0.base + 0x044, 0, 17, .rw, 0x3E8⟩
def TIMING0.DPLL_STAT_STATE : Fld := ⟨Page.timing0.base + 0x048, 29, 3, .ro, 0⟩
def TIMING0.DPLL_STAT_TIME_VALID : Fld := ⟨Page.timing0.base + 0x048, 28, 1, .ro, 0⟩
def TIMING0.DPLL_STAT_HO_VALID : Fld := ⟨Page.timing0.base + 0x048, 27, 1, .ro, 0⟩
def TIMING0.DPLL_STAT_XO_PRESENT : Fld := ⟨Page.timing0.base + 0x048, 26, 1, .ro, 0⟩
def TIMING0.DPLL_STAT_BW_STEP : Fld := ⟨Page.timing0.base + 0x048, 24, 2, .ro, 0⟩
def TIMING0.DPLL_STAT_SEL_VALID : Fld := ⟨Page.timing0.base + 0x048, 23, 1, .ro, 0⟩
def TIMING0.DPLL_STAT_SEL : Fld := ⟨Page.timing0.base + 0x048, 20, 3, .ro, 0⟩
def TIMING0.DPLL_STAT_FAST_HOLD : Fld := ⟨Page.timing0.base + 0x048, 19, 1, .ro, 0⟩
def TIMING0.PHASE_ERR : Fld := ⟨Page.timing0.base + 0x04C, 0, 32, .ro, 0⟩
def TIMING0.REF_WTR : Fld := ⟨Page.timing0.base + 0x054, 0, 24, .rw, 0x5B8D8⟩
def TIMING0.QUAL_LOCK_TICKS : Fld := ⟨Page.timing0.base + 0x058, 16, 16, .rw, 0x04E2⟩
def TIMING0.QUAL_QUAL_TICKS : Fld := ⟨Page.timing0.base + 0x058, 0, 16, .rw, 0x04E2⟩
def TIMING0.LOCK_THR : Fld := ⟨Page.timing0.base + 0x05C, 0, 16, .rw, 0x3E8⟩
def TIMING0.HO_CFG_HO_MIN : Fld := ⟨Page.timing0.base + 0x060, 16, 16, .rw, 0x003C⟩
def TIMING0.HO_CFG_HO_MAX : Fld := ⟨Page.timing0.base + 0x060, 0, 16, .rw, 0x21C0⟩
def TIMING0.HO_AVG_HO_DELAY : Fld := ⟨Page.timing0.base + 0x064, 16, 16, .rw, 0x04E2⟩
def TIMING0.HO_AVG_HO_AVG : Fld := ⟨Page.timing0.base + 0x064, 0, 4, .rw, 6⟩
def TIMING0.HO_ELAPSED : Fld := ⟨Page.timing0.base + 0x068, 0, 32, .ro, 0⟩
def TIMING0.XO_CFG_XO_IN : Fld := ⟨Page.timing0.base + 0x06C, 0, 20, .rw, 0x61A8⟩
def TIMING0.STEP_LO : Fld := ⟨Page.timing0.base + 0x090, 0, 32, .rw, 0⟩
def TIMING0.STEP_HI : Fld := ⟨Page.timing0.base + 0x094, 0, 16, .rw, 0⟩
def TIMING0.SEC_SET_LO : Fld := ⟨Page.timing0.base + 0x098, 0, 32, .rw, 0⟩
def TIMING0.SEC_SET_HI : Fld := ⟨Page.timing0.base + 0x09C, 0, 16, .rw, 0⟩
def TIMING0.TIME_CMD_INVALIDATE : Fld := ⟨Page.timing0.base + 0x0A0, 3, 1, .w1s, 0⟩
def TIMING0.TIME_CMD_BO_APPLY : Fld := ⟨Page.timing0.base + 0x0A0, 2, 1, .w1s, 0⟩
def TIMING0.TIME_CMD_SEC_GO : Fld := ⟨Page.timing0.base + 0x0A0, 1, 1, .w1s, 0⟩
def TIMING0.TIME_CMD_STEP_GO : Fld := ⟨Page.timing0.base + 0x0A0, 0, 1, .w1s, 0⟩
def TIMING0.TIME_STAT_STEP_PEND : Fld := ⟨Page.timing0.base + 0x0A4, 31, 1, .ro, 0⟩
def TIMING0.TIME_STAT_SEC_PEND : Fld := ⟨Page.timing0.base + 0x0A4, 30, 1, .ro, 0⟩
def TIMING0.TIME_STAT_REJ : Fld := ⟨Page.timing0.base + 0x0A4, 29, 1, .ro, 0⟩
def TIMING0.TIME_STAT_COUNT : Fld := ⟨Page.timing0.base + 0x0A4, 0, 16, .ro, 0⟩
def TIMING0.REF_PRIO (n : Fin 8) : Fld := ⟨Page.timing0.base + 0x0C0 + 4 * n.val, 0, 4, .rwh, 0⟩
/-- The pending step, signed, ps (R494). -/
def TIMING0.hStep : Fld := ⟨Page.timing0.hidBase + 0, 0, 48, .ro, 0⟩
/-- The pending seconds label (R495). -/
def TIMING0.hSec : Fld := ⟨Page.timing0.hidBase + 8, 0, 48, .ro, 0⟩
/-- The seconds have been labelled since TIME_VALID last cleared (R485). -/
def TIMING0.hLabelled : Fld := ⟨Page.timing0.hidBase + 16, 0, 1, .ro, 0⟩
/-- Consecutive ticks at step 3 with the phase error in the window (R483). -/
def TIMING0.hLockCnt : Fld := ⟨Page.timing0.hidBase + 24, 0, 17, .ro, 0⟩
/-- Ticks of the acquisition dwell in progress (R487). -/
def TIMING0.hDwell : Fld := ⟨Page.timing0.hidBase + 32, 0, 14, .ro, 0⟩
/-- Ticks spent LOCKED (R490). -/
def TIMING0.hLockTicks : Fld := ⟨Page.timing0.hidBase + 40, 0, 32, .ro, 0⟩
/-- The holdover frequency, signed, 10^-14 units (R489). -/
def TIMING0.hHold : Fld := ⟨Page.timing0.hidBase + 48, 0, 48, .ro, 0⟩
/-- Ticks spent in HOLDOVER (R490). -/
def TIMING0.hHoTicks : Fld := ⟨Page.timing0.hidBase + 56, 0, 64, .ro, 0⟩
/-- The loop phase error, signed, ps. -/
def TIMING0.hErr : Fld := ⟨Page.timing0.hidBase + 64, 0, 128, .ro, 0⟩
/-- The next reference selected is aligned: the first after STANDBY exit (R491). -/
def TIMING0.hAlign : Fld := ⟨Page.timing0.hidBase + 72, 0, 1, .ro, 0⟩
/-- The build-out of the selected reference, signed, ps (R492). -/
def TIMING0.hBo : Fld := ⟨Page.timing0.hidBase + 80, 0, 128, .ro, 0⟩

/-! TIMING1 (13_timing.md R522) -/

/-- The block registers of the page (R522). -/
def TIMING1.regs : List RegD :=
[⟨0x040, 0, 1, 0, 1, [⟨8, 8, .ro, 0, .none⟩, ⟨0, 8, .ro, 0, .none⟩]⟩,
    ⟨0x044, 0, 1, 0, 1, [⟨0, 32, .rw, 0, .none⟩]⟩,
    ⟨0x048, 0, 1, 0, 1, [⟨0, 16, .rw, 0, .none⟩]⟩,
    ⟨0x04C, 0, 1, 0, 1, [⟨1, 1, .w1s, 0, .none⟩, ⟨0, 1, .w1s, 0, .none⟩]⟩,
    ⟨0x050, 0, 1, 0, 1, [⟨0, 16, .rw, 0xFA0, .none⟩]⟩,
    ⟨0x100, 32, 8, 0, 1, [⟨31, 1, .rw, 0, .none⟩, ⟨30, 1, .rw, 0, .none⟩, ⟨29, 1, .rw, 0, .none⟩, ⟨20, 8, .rw, 0, .none⟩, ⟨0, 20, .rw, 0, .none⟩]⟩,
    ⟨0x104, 32, 8, 0, 1, [⟨16, 16, .rw, 0x0064, .none⟩, ⟨0, 16, .rw, 0x0398, .u 1 5000⟩]⟩,
    ⟨0x108, 32, 8, 0, 1, [⟨31, 1, .ro, 0, .none⟩, ⟨30, 1, .ro, 0, .none⟩, ⟨29, 1, .ro, 0, .none⟩, ⟨28, 1, .ro, 0, .none⟩, ⟨27, 1, .ro, 0, .none⟩, ⟨26, 1, .ro, 0, .none⟩, ⟨25, 1, .ro, 0, .none⟩, ⟨24, 1, .ro, 0, .none⟩, ⟨0, 16, .ro, 0, .none⟩]⟩,
    ⟨0x10C, 32, 8, 0, 1, [⟨0, 32, .ro, 0, .none⟩]⟩,
    ⟨0x110, 32, 8, 0, 1, [⟨0, 32, .ro, 0, .none⟩]⟩,
    ⟨0x114, 32, 8, 0, 1, [⟨0, 16, .ro, 0, .none⟩]⟩,
    ⟨0x118, 32, 8, 0, 1, [⟨0, 24, .ro, 0, .none⟩]⟩]

def TIMING1.REF6_OFS_LO : Fld := ⟨Page.timing1.base + 0x044, 0, 32, .rw, 0⟩
def TIMING1.REF6_OFS_HI : Fld := ⟨Page.timing1.base + 0x048, 0, 16, .rw, 0⟩
def TIMING1.REF6_CMD_INVALID : Fld := ⟨Page.timing1.base + 0x04C, 1, 1, .w1s, 0⟩
def TIMING1.REF6_CMD_UPDATE : Fld := ⟨Page.timing1.base + 0x04C, 0, 1, .w1s, 0⟩
def TIMING1.REF6_CFG_REF6_TIMEOUT : Fld := ⟨Page.timing1.base + 0x050, 0, 16, .rw, 0xFA0⟩
def TIMING1.REF_CFG_PPS_EN (n : Fin 8) : Fld := ⟨Page.timing1.base + 0x100 + 32 * n.val, 31, 1, .rw, 0⟩
def TIMING1.REF_CFG_TOD_EN (n : Fin 8) : Fld := ⟨Page.timing1.base + 0x100 + 32 * n.val, 30, 1, .rw, 0⟩
def TIMING1.REF_CFG_TIME_MODE (n : Fin 8) : Fld := ⟨Page.timing1.base + 0x100 + 32 * n.val, 29, 1, .rw, 0⟩
def TIMING1.REF_CFG_SRC (n : Fin 8) : Fld := ⟨Page.timing1.base + 0x100 + 32 * n.val, 20, 8, .rw, 0⟩
def TIMING1.REF_CFG_FREQ (n : Fin 8) : Fld := ⟨Page.timing1.base + 0x100 + 32 * n.val, 0, 20, .rw, 0⟩
def TIMING1.REF_LIM_PPS_TOL (n : Fin 8) : Fld := ⟨Page.timing1.base + 0x104 + 32 * n.val, 16, 16, .rw, 0x0064⟩
def TIMING1.REF_LIM_FREQ_LIM (n : Fin 8) : Fld := ⟨Page.timing1.base + 0x104 + 32 * n.val, 0, 16, .rw, 0x0398⟩
def TIMING1.REF_STAT_ACTIVE (n : Fin 8) : Fld := ⟨Page.timing1.base + 0x108 + 32 * n.val, 31, 1, .ro, 0⟩
def TIMING1.REF_STAT_QUALIFIED (n : Fin 8) : Fld := ⟨Page.timing1.base + 0x108 + 32 * n.val, 30, 1, .ro, 0⟩
def TIMING1.REF_STAT_WTR_RUN (n : Fin 8) : Fld := ⟨Page.timing1.base + 0x108 + 32 * n.val, 29, 1, .ro, 0⟩
def TIMING1.REF_STAT_FREQ_FAULT (n : Fin 8) : Fld := ⟨Page.timing1.base + 0x108 + 32 * n.val, 28, 1, .ro, 0⟩
def TIMING1.REF_STAT_PPS_FAULT (n : Fin 8) : Fld := ⟨Page.timing1.base + 0x108 + 32 * n.val, 27, 1, .ro, 0⟩
def TIMING1.REF_STAT_MSG_FAULT (n : Fin 8) : Fld := ⟨Page.timing1.base + 0x108 + 32 * n.val, 26, 1, .ro, 0⟩
def TIMING1.REF_STAT_LOOP (n : Fin 8) : Fld := ⟨Page.timing1.base + 0x108 + 32 * n.val, 25, 1, .ro, 0⟩
def TIMING1.REF_STAT_SELECTED (n : Fin 8) : Fld := ⟨Page.timing1.base + 0x108 + 32 * n.val, 24, 1, .ro, 0⟩
def TIMING1.REF_STAT_FOFS (n : Fin 8) : Fld := ⟨Page.timing1.base + 0x108 + 32 * n.val, 0, 16, .ro, 0⟩
def TIMING1.REF_PHASE (n : Fin 8) : Fld := ⟨Page.timing1.base + 0x10C + 32 * n.val, 0, 32, .ro, 0⟩
def TIMING1.BO_LO (n : Fin 8) : Fld := ⟨Page.timing1.base + 0x110 + 32 * n.val, 0, 32, .ro, 0⟩
def TIMING1.BO_HI (n : Fin 8) : Fld := ⟨Page.timing1.base + 0x114 + 32 * n.val, 0, 16, .ro, 0⟩
def TIMING1.WTR_LEFT (n : Fin 8) : Fld := ⟨Page.timing1.base + 0x118 + 32 * n.val, 0, 24, .ro, 0⟩
/-- Phase of reference n less device time, signed, ps. -/
def TIMING1.hPhase (n : Fin 8) : Fld := ⟨Page.timing1.hidBase + 0 + 8 * n.val, 0, 128, .ro, 0⟩
/-- Reference n has been QUALIFIED and then faulty (R479). -/
def TIMING1.hWtr (n : Fin 8) : Fld := ⟨Page.timing1.hidBase + 64 + 8 * n.val, 0, 1, .ro, 0⟩
/-- The offset of the last UPDATE, signed, ps (R482). -/
def TIMING1.hRef6Ofs : Fld := ⟨Page.timing1.hidBase + 128, 0, 48, .ro, 0⟩
/-- It is used at the next tick. -/
def TIMING1.hRef6New : Fld := ⟨Page.timing1.hidBase + 136, 0, 1, .ro, 0⟩
/-- Ticks since the last UPDATE (R478). -/
def TIMING1.hRef6Ticks : Fld := ⟨Page.timing1.hidBase + 144, 0, 17, .ro, 0⟩
/-- The ticks of the last 64 UPDATEs, newest first (R477). -/
def TIMING1.hUpd (k : Fin 64) : Fld := ⟨Page.timing1.hidBase + 152 + 8 * k.val, 0, 64, .ro, 0⟩
/-- How many of them there are. -/
def TIMING1.hUpdN : Fld := ⟨Page.timing1.hidBase + 664, 0, 7, .ro, 0⟩

/-! TIMING2 (13_timing.md R523) -/

/-- The block registers of the page (R523). -/
def TIMING2.regs : List RegD :=
[⟨0x100, 32, 4, 0, 1, [⟨31, 1, .rw, 0, .none⟩, ⟨30, 1, .rw, 0, .none⟩]⟩,
    ⟨0x104, 32, 4, 0, 1, [⟨0, 32, .rw, 0x00989680, .none⟩]⟩,
    ⟨0x108, 32, 4, 0, 1, [⟨0, 10, .rw, 1, .u 1 1000⟩]⟩,
    ⟨0x10C, 32, 4, 0, 1, [⟨1, 1, .w1s, 0, .none⟩, ⟨0, 1, .w1s, 0, .none⟩]⟩,
    ⟨0x110, 32, 4, 0, 1, [⟨0, 32, .ro, 0, .none⟩]⟩,
    ⟨0x114, 32, 4, 0, 1, [⟨31, 1, .ro, 0, .none⟩, ⟨30, 1, .ro, 0, .none⟩, ⟨0, 16, .ro, 0, .none⟩]⟩,
    ⟨0x180, 32, 2, 0, 1, [⟨31, 1, .rw, 0, .none⟩, ⟨30, 1, .rw, 0, .none⟩, ⟨0, 20, .rw, 0x186A0, .none⟩]⟩,
    ⟨0x184, 32, 2, 0, 1, [⟨0, 32, .rw, 0, .none⟩]⟩,
    ⟨0x18C, 32, 2, 0, 1, [⟨0, 1, .w1s, 0, .none⟩]⟩,
    ⟨0x190, 32, 2, 0, 1, [⟨0, 32, .ro, 0, .none⟩]⟩,
    ⟨0x194, 32, 2, 0, 1, [⟨30, 1, .ro, 0, .none⟩, ⟨0, 16, .ro, 0, .none⟩]⟩,
    ⟨0x1C0, 32, 2, 0, 1, [⟨31, 1, .rw, 0, .none⟩, ⟨30, 1, .rw, 0, .none⟩, ⟨24, 4, .rw, 2, .none⟩, ⟨16, 8, .rw, 1, .none⟩, ⟨0, 16, .rw, 0x0064, .none⟩]⟩]
  ++ [⟨0x1C4, 32, 2, 0, 1, [⟨0, 32, .rw, 0, .none⟩]⟩,
    ⟨0x1CC, 32, 2, 0, 1, [⟨0, 1, .w1s, 0, .none⟩]⟩,
    ⟨0x1D0, 32, 2, 0, 1, [⟨0, 32, .ro, 0, .none⟩]⟩,
    ⟨0x1D4, 32, 2, 0, 1, [⟨30, 1, .ro, 0, .none⟩, ⟨0, 16, .ro, 0, .none⟩]⟩]

def TIMING2.CLKO_CFG_EN (n : Fin 4) : Fld := ⟨Page.timing2.base + 0x100 + 32 * n.val, 31, 1, .rw, 0⟩
def TIMING2.CLKO_CFG_M1001 (n : Fin 4) : Fld := ⟨Page.timing2.base + 0x100 + 32 * n.val, 30, 1, .rw, 0⟩
def TIMING2.CLKO_FREQ (n : Fin 4) : Fld := ⟨Page.timing2.base + 0x104 + 32 * n.val, 0, 32, .rw, 0x00989680⟩
def TIMING2.PULL_CFG_SLOPE (n : Fin 4) : Fld := ⟨Page.timing2.base + 0x108 + 32 * n.val, 0, 10, .rw, 1⟩
def TIMING2.CLKO_CMD_STOP_PULL (n : Fin 4) : Fld := ⟨Page.timing2.base + 0x10C + 32 * n.val, 1, 1, .w1s, 0⟩
def TIMING2.CLKO_CMD_PULL (n : Fin 4) : Fld := ⟨Page.timing2.base + 0x10C + 32 * n.val, 0, 1, .w1s, 0⟩
def TIMING2.CLKO_MIS_HI_PULLING (n : Fin 4) : Fld := ⟨Page.timing2.base + 0x114 + 32 * n.val, 31, 1, .ro, 0⟩
def TIMING2.PPSO_CFG_EN (n : Fin 2) : Fld := ⟨Page.timing2.base + 0x180 + 32 * n.val, 31, 1, .rw, 0⟩
def TIMING2.PPSO_CFG_POL (n : Fin 2) : Fld := ⟨Page.timing2.base + 0x180 + 32 * n.val, 30, 1, .rw, 0⟩
def TIMING2.PPSO_CFG_WIDTH (n : Fin 2) : Fld := ⟨Page.timing2.base + 0x180 + 32 * n.val, 0, 20, .rw, 0x186A0⟩
def TIMING2.PPSO_OFS (n : Fin 2) : Fld := ⟨Page.timing2.base + 0x184 + 32 * n.val, 0, 32, .rw, 0⟩
def TIMING2.PPSO_CMD_REALIGN (n : Fin 2) : Fld := ⟨Page.timing2.base + 0x18C + 32 * n.val, 0, 1, .w1s, 0⟩
def TIMING2.FPO_CFG_EN (n : Fin 2) : Fld := ⟨Page.timing2.base + 0x1C0 + 32 * n.val, 31, 1, .rw, 0⟩
def TIMING2.FPO_CFG_POL (n : Fin 2) : Fld := ⟨Page.timing2.base + 0x1C0 + 32 * n.val, 30, 1, .rw, 0⟩
def TIMING2.FPO_CFG_RATE (n : Fin 2) : Fld := ⟨Page.timing2.base + 0x1C0 + 32 * n.val, 24, 4, .rw, 2⟩
def TIMING2.FPO_CFG_DIV (n : Fin 2) : Fld := ⟨Page.timing2.base + 0x1C0 + 32 * n.val, 16, 8, .rw, 1⟩
def TIMING2.FPO_CFG_WIDTH (n : Fin 2) : Fld := ⟨Page.timing2.base + 0x1C0 + 32 * n.val, 0, 16, .rw, 0x0064⟩
def TIMING2.FPO_OFS (n : Fin 2) : Fld := ⟨Page.timing2.base + 0x1C4 + 32 * n.val, 0, 32, .rw, 0⟩
def TIMING2.FPO_CMD_REALIGN (n : Fin 2) : Fld := ⟨Page.timing2.base + 0x1CC + 32 * n.val, 0, 1, .w1s, 0⟩
/-- Output time less device time of output o (CLKO 0 to 3, PPSO 4 and 5, FPO 6 and 7), signed, 10^-4 of 2^-16 ns (R498). -/
def TIMING2.hMis (o : Fin 8) : Fld := ⟨Page.timing2.hidBase + 0 + 8 * o.val, 0, 128, .ro, 0⟩
/-- A REALIGN of the pulse output is due at its next edge (R503). -/
def TIMING2.hRealign (o : Fin 4) : Fld := ⟨Page.timing2.hidBase + 64 + 8 * o.val, 0, 1, .ro, 0⟩
/-- When its last edge was emitted, in 10^-4 of 2^-16 ns counted with the ticks, plus 1; 0 without one. -/
def TIMING2.hEdge (o : Fin 4) : Fld := ⟨Page.timing2.hidBase + 96 + 8 * o.val, 0, 128, .ro, 0⟩

/-! TIMING3 (13_timing.md R524) -/

/-- The block registers of the page (R524). -/
def TIMING3.regs : List RegD :=
[⟨0x040, 0, 1, 0, 1, [⟨31, 1, .rw, 0, .none⟩, ⟨0, 3, .rw, 4, .none⟩]⟩,
    ⟨0x044, 0, 1, 0, 1, [⟨31, 1, .ro, 0, .none⟩, ⟨30, 1, .ro, 0, .none⟩, ⟨29, 1, .ro, 0, .none⟩, ⟨16, 8, .ro, 0, .none⟩, ⟨0, 16, .ro, 0, .none⟩]⟩,
    ⟨0x048, 0, 1, 0, 1, [⟨0, 16, .ro, 0, .none⟩]⟩,
    ⟨0x04C, 0, 1, 0, 1, [⟨0, 32, .ro, 0, .none⟩]⟩,
    ⟨0x050, 0, 1, 0, 1, [⟨16, 16, .ro, 0, .none⟩, ⟨0, 16, .ro, 0, .none⟩]⟩,
    ⟨0x060, 0, 1, 0, 1, [⟨0, 16, .rw, 0, .none⟩]⟩,
    ⟨0x064, 0, 1, 0, 1, [⟨0, 8, .rw, 0, .none⟩]⟩,
    ⟨0x080, 32, 2, 0, 1, [⟨0, 32, .rw, 0, .none⟩]⟩,
    ⟨0x084, 32, 2, 0, 1, [⟨0, 16, .rw, 0, .none⟩]⟩,
    ⟨0x088, 32, 2, 0, 1, [⟨0, 32, .ro, 0, .none⟩]⟩,
    ⟨0x08C, 32, 2, 0, 1, [⟨0, 32, .ro, 0, .none⟩]⟩,
    ⟨0x090, 32, 2, 0, 1, [⟨31, 1, .ro, 0, .none⟩, ⟨30, 1, .ro, 0, .none⟩, ⟨29, 1, .ro, 0, .none⟩, ⟨16, 8, .ro, 0, .none⟩, ⟨0, 16, .ro, 0, .none⟩]⟩]

def TIMING3.TOD_CFG_EN : Fld := ⟨Page.timing3.base + 0x040, 31, 1, .rw, 0⟩
def TIMING3.TOD_CFG_BAUD : Fld := ⟨Page.timing3.base + 0x040, 0, 3, .rw, 4⟩
def TIMING3.TOD_STAT_VALID : Fld := ⟨Page.timing3.base + 0x044, 31, 1, .ro, 0⟩
def TIMING3.TOD_STAT_LEAP_P : Fld := ⟨Page.timing3.base + 0x044, 30, 1, .ro, 0⟩
def TIMING3.TOD_STAT_LEAP_M : Fld := ⟨Page.timing3.base + 0x044, 29, 1, .ro, 0⟩
def TIMING3.TOD_STAT_CLOCK_CLASS : Fld := ⟨Page.timing3.base + 0x044, 16, 8, .ro, 0⟩
def TIMING3.TOD_STAT_UTC_OFFSET : Fld := ⟨Page.timing3.base + 0x044, 0, 16, .ro, 0⟩
def TIMING3.TOD_SEC_HI : Fld := ⟨Page.timing3.base + 0x048, 0, 16, .ro, 0⟩
def TIMING3.TOD_SEC_LO : Fld := ⟨Page.timing3.base + 0x04C, 0, 32, .ro, 0⟩
def TIMING3.TOD_ERR_CRC : Fld := ⟨Page.timing3.base + 0x050, 16, 16, .ro, 0⟩
def TIMING3.TOD_ERR_SEQ : Fld := ⟨Page.timing3.base + 0x050, 0, 16, .ro, 0⟩
def TIMING3.OSMC_TX : Fld := ⟨Page.timing3.base + 0x060, 0, 16, .rw, 0⟩
def TIMING3.OSMC_QL_QL : Fld := ⟨Page.timing3.base + 0x064, 0, 8, .rw, 0⟩
def TIMING3.ASYM_LO (j : Fin 2) : Fld := ⟨Page.timing3.base + 0x080 + 32 * j.val, 0, 32, .rw, 0⟩
def TIMING3.ASYM_HI (j : Fin 2) : Fld := ⟨Page.timing3.base + 0x084 + 32 * j.val, 0, 16, .rw, 0⟩
def TIMING3.LTT_OFS (j : Fin 2) : Fld := ⟨Page.timing3.base + 0x088 + 32 * j.val, 0, 32, .ro, 0⟩
def TIMING3.LTT_DELAY (j : Fin 2) : Fld := ⟨Page.timing3.base + 0x08C + 32 * j.val, 0, 32, .ro, 0⟩
def TIMING3.LTT_STAT_VALID (j : Fin 2) : Fld := ⟨Page.timing3.base + 0x090 + 32 * j.val, 31, 1, .ro, 0⟩
def TIMING3.LTT_STAT_FAR_TV (j : Fin 2) : Fld := ⟨Page.timing3.base + 0x090 + 32 * j.val, 30, 1, .ro, 0⟩
def TIMING3.LTT_STAT_LOOP (j : Fin 2) : Fld := ⟨Page.timing3.base + 0x090 + 32 * j.val, 29, 1, .ro, 0⟩
def TIMING3.LTT_STAT_QL (j : Fin 2) : Fld := ⟨Page.timing3.base + 0x090 + 32 * j.val, 16, 8, .ro, 0⟩
def TIMING3.LTT_STAT_DISC (j : Fin 2) : Fld := ⟨Page.timing3.base + 0x090 + 32 * j.val, 0, 16, .ro, 0⟩
/-- A valid ToD message labels the next PPSIN0 edge (R513). -/
def TIMING3.hTodNew : Fld := ⟨Page.timing3.hidBase + 0, 0, 1, .ro, 0⟩
/-- A valid ToD message has been received. -/
def TIMING3.hTodSeen : Fld := ⟨Page.timing3.hidBase + 8, 0, 1, .ro, 0⟩
/-- The last valid ToD message broke the sequence or had FLAGS[7] = 0 (R478, R514). -/
def TIMING3.hTodBad : Fld := ⟨Page.timing3.hidBase + 16, 0, 1, .ro, 0⟩
/-- PPS_CORR of the last valid ToD message, signed, ps. -/
def TIMING3.hTodCorr : Fld := ⟨Page.timing3.hidBase + 24, 0, 32, .ro, 0⟩
/-- The seconds label of the last PPSIN0 edge. -/
def TIMING3.hTodLabel : Fld := ⟨Page.timing3.hidBase + 32, 0, 48, .ro, 0⟩
/-- Twice the offset of the last 16 samples of row j, newest first, signed, ps / 8192 (R508, R510). -/
def TIMING3.hTheta (j : Fin 2) (k : Fin 16) : Fld := ⟨Page.timing3.hidBase + 40 + 128 * j.val + 8 * k.val, 0, 128, .ro, 0⟩
/-- Twice their delay, signed, ps / 8192. -/
def TIMING3.hDelay (j : Fin 2) (k : Fin 16) : Fld := ⟨Page.timing3.hidBase + 296 + 128 * j.val + 8 * k.val, 0, 128, .ro, 0⟩
/-- How many samples row j holds. -/
def TIMING3.hSamples (j : Fin 2) : Fld := ⟨Page.timing3.hidBase + 552 + 8 * j.val, 0, 5, .ro, 0⟩

/-! TIMINGX (13_timing.md R520) -/

/-- The block registers of the page (R520). -/
def TIMINGX.regs : List RegD :=
[]


/-! PTP (13_timing.md R525) -/

/-- The block registers of the page (R525). -/
def PTP.regs : List RegD :=
[⟨0x040, 0, 1, 0, 1, [⟨31, 1, .rw, 0, .none⟩, ⟨30, 1, .rw, 0, .none⟩, ⟨29, 1, .rw, 0, .none⟩, ⟨27, 2, .rw, 0, .none⟩, ⟨26, 1, .rw, 0, .none⟩, ⟨16, 8, .rw, 0, .none⟩, ⟨8, 4, .rw, 0, .none⟩, ⟨0, 4, .rw, 0, .none⟩]⟩,
    ⟨0x044, 0, 1, 0, 1, [⟨16, 16, .ro, 0, .none⟩, ⟨0, 16, .ro, 0, .none⟩]⟩,
    ⟨0x048, 0, 1, 0, 1, [⟨31, 1, .ro, 0, .none⟩, ⟨30, 1, .ro, 0, .none⟩, ⟨16, 8, .ro, 0, .none⟩, ⟨0, 16, .ro, 0, .none⟩]⟩,
    ⟨0x04C, 0, 1, 0, 1, [⟨0, 16, .ro, 0, .none⟩]⟩,
    ⟨0x050, 0, 1, 0, 1, [⟨0, 32, .ro, 0, .none⟩]⟩,
    ⟨0x054, 0, 1, 0, 1, [⟨0, 30, .ro, 0, .none⟩]⟩,
    ⟨0x058, 0, 1, 0, 1, [⟨0, 16, .ro, 0, .none⟩]⟩,
    ⟨0x100, 4, 256, 0, 1, [⟨0, 2, .rw, 0, .none⟩]⟩]

def PTP.PTP_CFG_L2_EN : Fld := ⟨Page.ptp.base + 0x040, 31, 1, .rw, 0⟩
def PTP.PTP_CFG_UDP4_EN : Fld := ⟨Page.ptp.base + 0x040, 30, 1, .rw, 0⟩
def PTP.PTP_CFG_UDP6_EN : Fld := ⟨Page.ptp.base + 0x040, 29, 1, .rw, 0⟩
def PTP.PTP_CFG_PROFILE : Fld := ⟨Page.ptp.base + 0x040, 27, 2, .rw, 0⟩
def PTP.PTP_CFG_DOMAIN_CHK : Fld := ⟨Page.ptp.base + 0x040, 26, 1, .rw, 0⟩
def PTP.PTP_CFG_DOMAIN : Fld := ⟨Page.ptp.base + 0x040, 16, 8, .rw, 0⟩
def PTP.PTP_CFG_RX_CH : Fld := ⟨Page.ptp.base + 0x040, 8, 4, .rw, 0⟩
def PTP.PTP_CFG_TX_CH : Fld := ⟨Page.ptp.base + 0x040, 0, 4, .rw, 0⟩
def PTP.PTP_STAT_TX_DROP : Fld := ⟨Page.ptp.base + 0x044, 16, 16, .ro, 0⟩
def PTP.PTP_STAT_RX_DROP : Fld := ⟨Page.ptp.base + 0x044, 0, 16, .ro, 0⟩
def PTP.TXTS0_VALID : Fld := ⟨Page.ptp.base + 0x048, 31, 1, .ro, 0⟩
def PTP.TXTS0_OVF : Fld := ⟨Page.ptp.base + 0x048, 30, 1, .ro, 0⟩
def PTP.TXTS0_PORT : Fld := ⟨Page.ptp.base + 0x048, 16, 8, .ro, 0⟩
def PTP.TXTS0_TAG : Fld := ⟨Page.ptp.base + 0x048, 0, 16, .ro, 0⟩
def PTP.TXTS_SEC_HI : Fld := ⟨Page.ptp.base + 0x04C, 0, 16, .ro, 0⟩
def PTP.TXTS_SEC_LO : Fld := ⟨Page.ptp.base + 0x050, 0, 32, .ro, 0⟩
def PTP.TXTS_NS : Fld := ⟨Page.ptp.base + 0x054, 0, 30, .ro, 0⟩
def PTP.TXTS_FRAC : Fld := ⟨Page.ptp.base + 0x058, 0, 16, .ro, 0⟩
def PTP.PORT_PTP_MODE (i : Fin 256) : Fld := ⟨Page.ptp.base + 0x100 + 4 * i.val, 0, 2, .rw, 0⟩

/-! KEYWAY (12_cipher_keyway.md R471) -/

/-- The block registers of the page (R471). -/
def KEYWAY.regs : List RegD :=
[⟨0x040, 0, 1, 0, 1, [⟨0, 4, .wo, 0, .none⟩]⟩,
    ⟨0x044, 0, 1, 0, 1, [⟨31, 1, .rw, 0, .none⟩, ⟨16, 14, .rw, 0, .none⟩, ⟨12, 4, .rw, 0, .none⟩, ⟨0, 12, .rw, 0, .none⟩]⟩,
    ⟨0x048, 0, 1, 0, 1, [⟨31, 1, .ro, 0, .none⟩, ⟨30, 1, .w1c, 0, .none⟩, ⟨27, 3, .ro, 0, .none⟩, ⟨23, 4, .ro, 0, .none⟩, ⟨0, 16, .rw, 0, .none⟩]⟩,
    ⟨0x04C, 0, 1, 0, 1, [⟨0, 16, .ro, 1, .none⟩]⟩,
    ⟨0x200, 4, 32, 0, 1, [⟨0, 32, .rw, 0, .none⟩]⟩]

def KEYWAY.KW_CMD_OP : Fld := ⟨Page.keyway.base + 0x040, 0, 4, .wo, 0⟩
def KEYWAY.KW_ARG0_WRAP : Fld := ⟨Page.keyway.base + 0x044, 31, 1, .rw, 0⟩
def KEYWAY.KW_ARG0_RECORD : Fld := ⟨Page.keyway.base + 0x044, 16, 14, .rw, 0⟩
def KEYWAY.KW_ARG0_KEK : Fld := ⟨Page.keyway.base + 0x044, 12, 4, .rw, 0⟩
def KEYWAY.KW_ARG0_INDEX : Fld := ⟨Page.keyway.base + 0x044, 0, 12, .rw, 0⟩
def KEYWAY.KW_STAT_BUSY : Fld := ⟨Page.keyway.base + 0x048, 31, 1, .ro, 0⟩
def KEYWAY.KW_STAT_REJ_BUSY : Fld := ⟨Page.keyway.base + 0x048, 30, 1, .w1c, 0⟩
def KEYWAY.KW_STAT_RESULT : Fld := ⟨Page.keyway.base + 0x048, 27, 3, .ro, 0⟩
def KEYWAY.KW_STAT_CAUSE : Fld := ⟨Page.keyway.base + 0x048, 23, 4, .ro, 0⟩
def KEYWAY.KW_STAT_LEN : Fld := ⟨Page.keyway.base + 0x048, 0, 16, .rw, 0⟩
def KEYWAY.KEK_STAT : Fld := ⟨Page.keyway.base + 0x04C, 0, 16, .ro, 1⟩
def KEYWAY.KW_BUF (w : Fin 32) : Fld := ⟨Page.keyway.base + 0x200 + 4 * w.val, 0, 32, .rw, 0⟩
/-- Key-encryption key k (R461). -/
def KEYWAY.hKek (k : Fin 16) : Fld := ⟨Page.keyway.hidBase + 0 + 8 * k.val, 0, 256, .ro, 0⟩
/-- The command that runs (R465). -/
def KEYWAY.hOp : Fld := ⟨Page.keyway.hidBase + 128, 0, 4, .ro, 0⟩
/-- Its KW_ARG0. -/
def KEYWAY.hArg : Fld := ⟨Page.keyway.hidBase + 136, 0, 32, .ro, 0⟩
/-- Its result, once known (R472). -/
def KEYWAY.hRes : Fld := ⟨Page.keyway.hidBase + 144, 0, 3, .ro, 0⟩
/-- Its cause. -/
def KEYWAY.hCause : Fld := ⟨Page.keyway.hidBase + 152, 0, 4, .ro, 0⟩
/-- Entry r of the saved-association table is VALID (R467). -/
def KEYWAY.hSvValid (r : Fin 16384) : Fld := ⟨Page.keyway.hidBase + 160 + 8 * r.val, 0, 1, .ro, 0⟩
/-- Its serial. -/
def KEYWAY.hSvSerial (r : Fin 16384) : Fld := ⟨Page.keyway.hidBase + 131232 + 8 * r.val, 0, 32, .ro, 0⟩
/-- Its FLOOR. -/
def KEYWAY.hSvFloor (r : Fin 16384) : Fld := ⟨Page.keyway.hidBase + 262304 + 8 * r.val, 0, 64, .ro, 0⟩

/-! BOOT (18_boot_attestation.md R660) -/

/-- The block registers of the page (R660). -/
def BOOT.regs : List RegD :=
[⟨0x040, 0, 1, 0, 1, [⟨28, 4, .ro, 0, .none⟩, ⟨24, 4, .ro, 0, .none⟩, ⟨23, 1, .ro, 0, .none⟩, ⟨22, 1, .ro, 0, .none⟩, ⟨21, 1, .ro, 0, .none⟩, ⟨20, 1, .ro, 0, .none⟩, ⟨18, 2, .ro, 3, .none⟩]⟩,
    ⟨0x044, 0, 1, 0, 1, [⟨0, 16, .ro, 0, .none⟩]⟩,
    ⟨0x048, 0, 1, 0, 1, [⟨16, 16, .ro, 0, .none⟩, ⟨0, 16, .ro, 0, .none⟩]⟩,
    ⟨0x04C, 0, 1, 0, 1, [⟨8, 8, .ro, 0, .none⟩, ⟨0, 8, .ro, 0, .none⟩]⟩,
    ⟨0x050, 0, 1, 0, 1, [⟨31, 1, .ro, 0, .none⟩, ⟨30, 1, .ro, 0, .none⟩, ⟨0, 3, .ro, 0, .none⟩]⟩,
    ⟨0x054, 0, 1, 0, 1, [⟨0, 32, .ro, 0, .none⟩]⟩,
    ⟨0x058, 0, 1, 0, 1, [⟨0, 32, .ro, 0, .none⟩]⟩,
    ⟨0x05C, 0, 1, 0, 1, [⟨0, 1, .w1s, 0, .none⟩]⟩,
    ⟨0x060, 0, 1, 0, 1, [⟨0, 18, .rw, 0, .none⟩]⟩,
    ⟨0x064, 0, 1, 0, 1, [⟨0, 32, .wo, 0, .none⟩]⟩,
    ⟨0x068, 0, 1, 0, 1, [⟨0, 1, .w1s, 0, .none⟩]⟩]

def BOOT.BOOT_STAT_STAGE : Fld := ⟨Page.boot.base + 0x040, 28, 4, .ro, 0⟩
def BOOT.BOOT_STAT_CAUSE : Fld := ⟨Page.boot.base + 0x040, 24, 4, .ro, 0⟩
def BOOT.BOOT_STAT_S1_COPY : Fld := ⟨Page.boot.base + 0x040, 23, 1, .ro, 0⟩
def BOOT.BOOT_STAT_FW_COPY : Fld := ⟨Page.boot.base + 0x040, 22, 1, .ro, 0⟩
def BOOT.BOOT_STAT_CORE_COPY : Fld := ⟨Page.boot.base + 0x040, 21, 1, .ro, 0⟩
def BOOT.BOOT_STAT_RCV_IMAGE : Fld := ⟨Page.boot.base + 0x040, 20, 1, .ro, 0⟩
def BOOT.BOOT_STAT_OWNER_SLOT : Fld := ⟨Page.boot.base + 0x040, 18, 2, .ro, 3⟩
def BOOT.BOOT_TIME : Fld := ⟨Page.boot.base + 0x044, 0, 16, .ro, 0⟩
def BOOT.FW_ID_PROG_ID : Fld := ⟨Page.boot.base + 0x048, 16, 16, .ro, 0⟩
def BOOT.FW_ID_VERSION : Fld := ⟨Page.boot.base + 0x048, 0, 16, .ro, 0⟩
def BOOT.SECVER_SECURITY_VERSION : Fld := ⟨Page.boot.base + 0x04C, 8, 8, .ro, 0⟩
def BOOT.SECVER_FW_SECVER : Fld := ⟨Page.boot.base + 0x04C, 0, 8, .ro, 0⟩
def BOOT.DBG_STAT_EVER : Fld := ⟨Page.boot.base + 0x050, 30, 1, .ro, 0⟩
def BOOT.DBG_STAT_SCOPE : Fld := ⟨Page.boot.base + 0x050, 0, 3, .ro, 0⟩
def BOOT.DBG_CHAL_LO : Fld := ⟨Page.boot.base + 0x054, 0, 32, .ro, 0⟩
def BOOT.DBG_CHAL_HI : Fld := ⟨Page.boot.base + 0x058, 0, 32, .ro, 0⟩
def BOOT.DBG_CMD_LOCK : Fld := ⟨Page.boot.base + 0x05C, 0, 1, .w1s, 0⟩
def BOOT.RCV_ADDR : Fld := ⟨Page.boot.base + 0x060, 0, 18, .rw, 0⟩
def BOOT.RCV_DATA : Fld := ⟨Page.boot.base + 0x064, 0, 32, .wo, 0⟩
def BOOT.RCV_CMD_GO : Fld := ⟨Page.boot.base + 0x068, 0, 1, .w1s, 0⟩
/-- Measurement i of the attestation report, byte 0 lowest (R655). -/
def BOOT.hMeas (i : Fin 38) : Fld := ⟨Page.boot.hidBase + 0 + 8 * i.val, 0, 320, .ro, 0⟩
/-- PK.root of the identity key (R652). -/
def BOOT.hIdRoot : Fld := ⟨Page.boot.hidBase + 304, 0, 128, .ro, 0⟩
/-- The certificate check has passed (R652). -/
def BOOT.hCertOk : Fld := ⟨Page.boot.hidBase + 312, 0, 1, .ro, 0⟩
/-- A copy of kind k (stage 1, firmware, core programs) is in use (R643). -/
def BOOT.hCopyUsed (k : Fin 3) : Fld := ⟨Page.boot.hidBase + 320 + 8 * k.val, 0, 1, .ro, 0⟩

/-! DMA (17_host_dma.md R634) -/

/-- The block registers of the page (R634). -/
def DMA.regs : List RegD :=
[⟨0x040, 0, 1, 0, 1, [⟨30, 2, .rw, 0, .none⟩, ⟨24, 4, .rw, 8, .none⟩, ⟨20, 4, .rw, 8, .none⟩, ⟨18, 2, .rw, 3, .none⟩, ⟨8, 8, .rw, 0xC0, .none⟩, ⟨0, 8, .rw, 0x40, .none⟩]⟩,
    ⟨0x044, 0, 1, 0, 1, [⟨0, 32, .rw, 0, .none⟩]⟩,
    ⟨0x048, 0, 1, 0, 1, [⟨0, 32, .rw, 0, .none⟩]⟩,
    ⟨0x04C, 0, 1, 0, 1, [⟨0, 32, .rw, 0, .none⟩]⟩,
    ⟨0x050, 0, 1, 0, 1, [⟨0, 32, .rw, 0, .none⟩]⟩,
    ⟨0x054, 0, 1, 0, 1, [⟨1, 1, .w1s, 0, .none⟩, ⟨0, 1, .w1s, 0, .none⟩]⟩,
    ⟨0x058, 0, 1, 0, 1, [⟨30, 2, .ro, 0, .none⟩, ⟨27, 3, .ro, 0, .none⟩, ⟨26, 1, .ro, 0, .none⟩, ⟨25, 1, .ro, 0, .none⟩, ⟨24, 1, .ro, 0, .none⟩, ⟨12, 12, .ro, 0, .none⟩, ⟨0, 12, .ro, 0, .none⟩]⟩,
    ⟨0x05C, 0, 1, 0, 1, [⟨16, 12, .ro, 0, .none⟩, ⟨0, 12, .ro, 0, .none⟩]⟩,
    ⟨0x060, 0, 1, 0, 1, [⟨0, 32, .ro, 0, .none⟩]⟩]

def DMA.DMA_CFG_KIND (n : Fin 16) : Fld := ⟨(Page.dma n).base + 0x040, 30, 2, .rw, 0⟩
def DMA.DMA_CFG_RING_LOG2 (n : Fin 16) : Fld := ⟨(Page.dma n).base + 0x040, 24, 4, .rw, 8⟩
def DMA.DMA_CFG_CQ_LOG2 (n : Fin 16) : Fld := ⟨(Page.dma n).base + 0x040, 20, 4, .rw, 8⟩
def DMA.DMA_CFG_BURST (n : Fin 16) : Fld := ⟨(Page.dma n).base + 0x040, 18, 2, .rw, 3⟩
def DMA.DMA_CFG_HIGH (n : Fin 16) : Fld := ⟨(Page.dma n).base + 0x040, 8, 8, .rw, 0xC0⟩
def DMA.DMA_CFG_LOW (n : Fin 16) : Fld := ⟨(Page.dma n).base + 0x040, 0, 8, .rw, 0x40⟩
def DMA.RING_BASE_LO (n : Fin 16) : Fld := ⟨(Page.dma n).base + 0x044, 0, 32, .rw, 0⟩
def DMA.RING_BASE_HI (n : Fin 16) : Fld := ⟨(Page.dma n).base + 0x048, 0, 32, .rw, 0⟩
def DMA.CQ_BASE_LO (n : Fin 16) : Fld := ⟨(Page.dma n).base + 0x04C, 0, 32, .rw, 0⟩
def DMA.CQ_BASE_HI (n : Fin 16) : Fld := ⟨(Page.dma n).base + 0x050, 0, 32, .rw, 0⟩
def DMA.DMA_CMD_RESUME (n : Fin 16) : Fld := ⟨(Page.dma n).base + 0x054, 1, 1, .w1s, 0⟩
def DMA.DMA_CMD_ABORT (n : Fin 16) : Fld := ⟨(Page.dma n).base + 0x054, 0, 1, .w1s, 0⟩
def DMA.DMA_STAT_STATE (n : Fin 16) : Fld := ⟨(Page.dma n).base + 0x058, 30, 2, .ro, 0⟩
def DMA.DMA_STAT_CAUSE (n : Fin 16) : Fld := ⟨(Page.dma n).base + 0x058, 27, 3, .ro, 0⟩
def DMA.DMA_STAT_OWN_WAIT (n : Fin 16) : Fld := ⟨(Page.dma n).base + 0x058, 26, 1, .ro, 0⟩
def DMA.DMA_STAT_CQ_FULL (n : Fin 16) : Fld := ⟨(Page.dma n).base + 0x058, 25, 1, .ro, 0⟩
def DMA.DMA_STAT_BUSY (n : Fin 16) : Fld := ⟨(Page.dma n).base + 0x058, 24, 1, .ro, 0⟩
def DMA.DMA_STAT_HEAD (n : Fin 16) : Fld := ⟨(Page.dma n).base + 0x058, 12, 12, .ro, 0⟩
def DMA.DMA_STAT_CQ_TAIL (n : Fin 16) : Fld := ⟨(Page.dma n).base + 0x058, 0, 12, .ro, 0⟩
def DMA.DOORBELLS_CQ_HEAD (n : Fin 16) : Fld := ⟨(Page.dma n).base + 0x05C, 16, 12, .ro, 0⟩
def DMA.DOORBELLS_SQ_TAIL (n : Fin 16) : Fld := ⟨(Page.dma n).base + 0x05C, 0, 12, .ro, 0⟩
def DMA.DESC_CNT (n : Fin 16) : Fld := ⟨(Page.dma n).base + 0x060, 0, 32, .ro, 0⟩
/-- KIND as sampled (R624). -/
def DMA.hKind (n : Fin 16) : Fld := ⟨(Page.dma n).hidBase + 0, 0, 2, .ro, 0⟩
/-- RING_LOG2 as sampled. -/
def DMA.hRing (n : Fin 16) : Fld := ⟨(Page.dma n).hidBase + 8, 0, 4, .ro, 8⟩
/-- CQ_LOG2 as sampled. -/
def DMA.hCq (n : Fin 16) : Fld := ⟨(Page.dma n).hidBase + 16, 0, 4, .ro, 8⟩
/-- BURST as sampled. -/
def DMA.hBurst (n : Fin 16) : Fld := ⟨(Page.dma n).hidBase + 24, 0, 2, .ro, 3⟩
/-- HIGH as sampled. -/
def DMA.hHigh (n : Fin 16) : Fld := ⟨(Page.dma n).hidBase + 32, 0, 8, .ro, 0xC0⟩
/-- LOW as sampled. -/
def DMA.hLow (n : Fin 16) : Fld := ⟨(Page.dma n).hidBase + 40, 0, 8, .ro, 0x40⟩
/-- Ring address as sampled. -/
def DMA.hRingBase (n : Fin 16) : Fld := ⟨(Page.dma n).hidBase + 48, 0, 64, .ro, 0⟩
/-- Completion queue address as sampled. -/
def DMA.hCqBase (n : Fin 16) : Fld := ⟨(Page.dma n).hidBase + 56, 0, 64, .ro, 0⟩
/-- PHASE of the pass in progress (R619). -/
def DMA.hPhase (n : Fin 16) : Fld := ⟨(Page.dma n).hidBase + 64, 0, 1, .ro, 1⟩
/-- CTRL of the descriptor that runs (R615). -/
def DMA.hCtrl (n : Fin 16) : Fld := ⟨(Page.dma n).hidBase + 72, 0, 32, .ro, 0⟩
/-- Its LEN. -/
def DMA.hLen (n : Fin 16) : Fld := ⟨(Page.dma n).hidBase + 80, 0, 32, .ro, 0⟩
/-- Its HOST_ADDR. -/
def DMA.hHost (n : Fin 16) : Fld := ⟨(Page.dma n).hidBase + 88, 0, 64, .ro, 0⟩
/-- Its DEV_ADDR. -/
def DMA.hDev (n : Fin 16) : Fld := ⟨(Page.dma n).hidBase + 96, 0, 64, .ro, 0⟩
/-- Its COOKIE. -/
def DMA.hCookie (n : Fin 16) : Fld := ⟨(Page.dma n).hidBase + 104, 0, 32, .ro, 0⟩
/-- Its ring slot. -/
def DMA.hSlot (n : Fin 16) : Fld := ⟨(Page.dma n).hidBase + 112, 0, 12, .ro, 0⟩
/-- Bytes of it read from the source. -/
def DMA.hRead (n : Fin 16) : Fld := ⟨(Page.dma n).hidBase + 120, 0, 32, .ro, 0⟩
/-- Bytes of it moved. -/
def DMA.hMoved (n : Fin 16) : Fld := ⟨(Page.dma n).hidBase + 128, 0, 32, .ro, 0⟩
/-- Its running CRC-32C before the final XOR (R622). -/
def DMA.hCrc (n : Fin 16) : Fld := ⟨(Page.dma n).hidBase + 136, 0, 32, .ro, 0⟩
/-- Its status, once decided (R619). -/
def DMA.hStatus (n : Fin 16) : Fld := ⟨(Page.dma n).hidBase + 144, 0, 3, .ro, 0⟩
/-- It moves no further data and is to be retired. -/
def DMA.hEnded (n : Fin 16) : Fld := ⟨(Page.dma n).hidBase + 152, 0, 1, .ro, 0⟩
/-- An ABORT has come (R625). -/
def DMA.hAborting (n : Fin 16) : Fld := ⟨(Page.dma n).hidBase + 160, 0, 1, .ro, 0⟩
/-- Source reads are stopped until the fill falls to LOW (R623). -/
def DMA.hPause (n : Fin 16) : Fld := ⟨(Page.dma n).hidBase + 168, 0, 1, .ro, 0⟩

/-! PCIE (17_host_dma.md R637) -/

/-- The block registers of the page (R637). -/
def PCIE.regs : List RegD :=
[⟨0x040, 0, 1, 0, 1, [⟨31, 1, .ro, 0, .none⟩, ⟨16, 4, .ro, 0, .none⟩, ⟨0, 6, .ro, 0, .none⟩]⟩,
    ⟨0x044, 0, 1, 0, 1, [⟨16, 16, .ro, 0, .none⟩, ⟨0, 16, .ro, 0, .none⟩]⟩,
    ⟨0x048, 0, 1, 0, 1, [⟨16, 16, .ro, 0, .none⟩, ⟨0, 16, .ro, 0, .none⟩]⟩]

def PCIE.LINK_STAT_DL_UP : Fld := ⟨Page.pcie.base + 0x040, 31, 1, .ro, 0⟩
def PCIE.LINK_STAT_SPEED : Fld := ⟨Page.pcie.base + 0x040, 16, 4, .ro, 0⟩
def PCIE.LINK_STAT_WIDTH : Fld := ⟨Page.pcie.base + 0x040, 0, 6, .ro, 0⟩
def PCIE.LINK_EVT_DOWNS : Fld := ⟨Page.pcie.base + 0x044, 16, 16, .ro, 0⟩
def PCIE.LINK_EVT_RESETS : Fld := ⟨Page.pcie.base + 0x044, 0, 16, .ro, 0⟩
def PCIE.ERR_CNT_CORR : Fld := ⟨Page.pcie.base + 0x048, 16, 16, .ro, 0⟩
def PCIE.ERR_CNT_UNCORR : Fld := ⟨Page.pcie.base + 0x048, 0, 16, .ro, 0⟩
/-- I2C_ADDR[1:0] as sampled at RESET_N release (R610). -/
def PCIE.hStrap : Fld := ⟨Page.pcie.hidBase + 0, 0, 2, .ro, 0⟩
/-- IA_ADDR of the I2C target (R611). -/
def PCIE.hIaAddr : Fld := ⟨Page.pcie.hidBase + 8, 0, 32, .ro, 0⟩
/-- IA_DATA. -/
def PCIE.hIaData : Fld := ⟨Page.pcie.hidBase + 16, 0, 32, .ro, 0⟩
/-- IA_CMD.BUSY. -/
def PCIE.hIaBusy : Fld := ⟨Page.pcie.hidBase + 24, 0, 1, .ro, 0⟩
/-- IA_CMD.ERR. -/
def PCIE.hIaErr : Fld := ⟨Page.pcie.hidBase + 32, 0, 1, .ro, 0⟩
/-- The access in progress was dropped or not issued (R612). -/
def PCIE.hIaFail : Fld := ⟨Page.pcie.hidBase + 40, 0, 1, .ro, 0⟩

/-! MON (16_monitor_thermal.md R606) -/

/-- The block registers of the page (R606). -/
def MON.regs : List RegD :=
[⟨0x040, 0, 1, 0, 1, [⟨31, 1, .rw, 0, .none⟩, ⟨30, 1, .rw, 1, .none⟩, ⟨16, 10, .rw, 0, .u 0 799⟩, ⟨8, 4, .rw, 0xF, .none⟩, ⟨0, 3, .rw, 4, .none⟩]⟩,
    ⟨0x044, 0, 1, 0, 1, [⟨31, 1, .ro, 0, .none⟩, ⟨30, 1, .ro, 0, .none⟩, ⟨20, 4, .ro, 0, .none⟩, ⟨16, 4, .ro, 0, .none⟩, ⟨0, 16, .ro, 0, .none⟩]⟩,
    ⟨0x048, 0, 1, 0, 1, [⟨0, 20, .ro, 0xD0DB, .none⟩]⟩,
    ⟨0x04C, 0, 1, 0, 1, [⟨0, 16, .w1s, 0, .none⟩]⟩,
    ⟨0x080, 4, 16, 0, 1, [⟨24, 7, .rw, 0, .none⟩, ⟨16, 3, .rw, 0, .none⟩, ⟨0, 8, .rw, 1, .none⟩]⟩,
    ⟨0x100, 32, 16, 0, 1, [⟨0, 32, .ro, 0, .none⟩]⟩,
    ⟨0x104, 32, 16, 0, 1, [⟨0, 32, .ro, 0, .none⟩]⟩,
    ⟨0x108, 32, 16, 0, 1, [⟨31, 1, .ro, 0, .none⟩, ⟨0, 16, .ro, 0, .none⟩]⟩,
    ⟨0x10C, 32, 16, 0, 1, [⟨0, 32, .ro, 0, .none⟩]⟩,
    ⟨0x110, 32, 16, 0, 1, [⟨0, 24, .ro, 0x7FFFFF, .none⟩]⟩,
    ⟨0x114, 32, 16, 0, 1, [⟨0, 24, .ro, 0x800000, .none⟩]⟩,
    ⟨0x118, 32, 16, 0, 1, [⟨0, 16, .ro, 0, .none⟩]⟩]

def MON.MON_CFG_LP (d : Fin 5) : Fld := ⟨(Page.mon d).base + 0x040, 31, 1, .rw, 0⟩
def MON.MON_CFG_TRIG (d : Fin 5) : Fld := ⟨(Page.mon d).base + 0x040, 30, 1, .rw, 1⟩
def MON.MON_CFG_DELAY (d : Fin 5) : Fld := ⟨(Page.mon d).base + 0x040, 16, 10, .rw, 0⟩
def MON.MON_CFG_LAST (d : Fin 5) : Fld := ⟨(Page.mon d).base + 0x040, 8, 4, .rw, 0xF⟩
def MON.MON_CFG_DEC (d : Fin 5) : Fld := ⟨(Page.mon d).base + 0x040, 0, 3, .rw, 4⟩
def MON.MON_STAT_RUNNING (d : Fin 5) : Fld := ⟨(Page.mon d).base + 0x044, 31, 1, .ro, 0⟩
def MON.MON_STAT_SHORT (d : Fin 5) : Fld := ⟨(Page.mon d).base + 0x044, 30, 1, .ro, 0⟩
def MON.MON_STAT_CUR (d : Fin 5) : Fld := ⟨(Page.mon d).base + 0x044, 20, 4, .ro, 0⟩
def MON.MON_STAT_OVERRUN (d : Fin 5) : Fld := ⟨(Page.mon d).base + 0x044, 16, 4, .ro, 0⟩
def MON.MON_STAT_PASSES (d : Fin 5) : Fld := ⟨(Page.mon d).base + 0x044, 0, 16, .ro, 0⟩
def MON.GRP_DELAY_D (d : Fin 5) : Fld := ⟨(Page.mon d).base + 0x048, 0, 20, .ro, 0xD0DB⟩
def MON.ACC_CLR (d : Fin 5) : Fld := ⟨(Page.mon d).base + 0x04C, 0, 16, .w1s, 0⟩
def MON.SEQ_INPUT (d : Fin 5) (e : Fin 16) : Fld := ⟨(Page.mon d).base + 0x080 + 4 * e.val, 24, 7, .rw, 0⟩
def MON.SEQ_GAIN (d : Fin 5) (e : Fin 16) : Fld := ⟨(Page.mon d).base + 0x080 + 4 * e.val, 16, 3, .rw, 0⟩
def MON.SEQ_DWELL (d : Fin 5) (e : Fin 16) : Fld := ⟨(Page.mon d).base + 0x080 + 4 * e.val, 0, 8, .rw, 1⟩
def MON.MEAN (d : Fin 5) (e : Fin 16) : Fld := ⟨(Page.mon d).base + 0x100 + 32 * e.val, 0, 32, .ro, 0⟩
def MON.SUM_LO (d : Fin 5) (e : Fin 16) : Fld := ⟨(Page.mon d).base + 0x104 + 32 * e.val, 0, 32, .ro, 0⟩
def MON.SUM_HI_SAT (d : Fin 5) (e : Fin 16) : Fld := ⟨(Page.mon d).base + 0x108 + 32 * e.val, 31, 1, .ro, 0⟩
def MON.SUM_HI_SUM (d : Fin 5) (e : Fin 16) : Fld := ⟨(Page.mon d).base + 0x108 + 32 * e.val, 0, 16, .ro, 0⟩
def MON.COUNT (d : Fin 5) (e : Fin 16) : Fld := ⟨(Page.mon d).base + 0x10C + 32 * e.val, 0, 32, .ro, 0⟩
def MON.MIN (d : Fin 5) (e : Fin 16) : Fld := ⟨(Page.mon d).base + 0x110 + 32 * e.val, 0, 24, .ro, 0x7FFFFF⟩
def MON.MAX (d : Fin 5) (e : Fin 16) : Fld := ⟨(Page.mon d).base + 0x114 + 32 * e.val, 0, 24, .ro, 0x800000⟩
def MON.PASS (d : Fin 5) (e : Fin 16) : Fld := ⟨(Page.mon d).base + 0x118 + 32 * e.val, 0, 16, .ro, 0⟩
/-- LP as sampled at the last enable (R587). -/
def MON.hLp (d : Fin 5) : Fld := ⟨(Page.mon d).hidBase + 0, 0, 1, .ro, 0⟩
/-- DEC as sampled at the last enable, 1 to 6 (R587). -/
def MON.hDec (d : Fin 5) : Fld := ⟨(Page.mon d).hidBase + 8, 0, 3, .ro, 4⟩
/-- TRIG as sampled at the start of the pass (R591). -/
def MON.hTrig (d : Fin 5) : Fld := ⟨(Page.mon d).hidBase + 16, 0, 1, .ro, 1⟩
/-- LAST as sampled at the start of the pass (R591). -/
def MON.hLast (d : Fin 5) : Fld := ⟨(Page.mon d).hidBase + 24, 0, 4, .ro, 0xF⟩
/-- SEQ[e] as sampled at the start of the pass (R591). -/
def MON.hSeq (d : Fin 5) (e : Fin 16) : Fld := ⟨(Page.mon d).hidBase + 32 + 8 * e.val, 0, 32, .ro, 1⟩
/-- A TICK-triggered pass is due (R591). -/
def MON.hDue (d : Fin 5) : Fld := ⟨(Page.mon d).hidBase + 160, 0, 1, .ro, 0⟩
/-- The last output of the pass is in: of the earlier pass while hTail is 1. -/
def MON.hDone (d : Fin 5) : Fld := ⟨(Page.mon d).hidBase + 168, 0, 1, .ro, 0⟩
/-- A free-running pass has started before the last outputs of the earlier one are in (R591). -/
def MON.hTail (d : Fin 5) : Fld := ⟨(Page.mon d).hidBase + 176, 0, 1, .ro, 0⟩
/-- The last entry of the earlier pass. -/
def MON.hTailE (d : Fin 5) : Fld := ⟨(Page.mon d).hidBase + 184, 0, 4, .ro, 0⟩
/-- The dwell of that entry, in µs. -/
def MON.hTailDwell (d : Fin 5) : Fld := ⟨(Page.mon d).hidBase + 192, 0, 8, .ro, 1⟩
/-- The earlier pass held a short entry (R593). -/
def MON.hTailShort (d : Fin 5) : Fld := ⟨(Page.mon d).hidBase + 200, 0, 1, .ro, 0⟩

/-! XQSW (09_tributary_switching.md R371) -/

/-- The block registers of the page (R371). -/
def XQSW.regs : List RegD :=
[⟨0x040, 4, 4, 0, 1, [⟨16, 11, .ro, 0, .none⟩, ⟨0, 11, .ro, 0, .none⟩]⟩,
    ⟨0x050, 0, 1, 0, 1, [⟨0, 32, .ro, 0, .none⟩]⟩]

def XQSW.USE_OUT (q : Fin 4) : Fld := ⟨Page.xqsw.base + 0x040 + 4 * q.val, 16, 11, .ro, 0⟩
def XQSW.USE_IN (q : Fin 4) : Fld := ⟨Page.xqsw.base + 0x040 + 4 * q.val, 0, 11, .ro, 0⟩
def XQSW.SLIP_CNT : Fld := ⟨Page.xqsw.base + 0x050, 0, 32, .ro, 0⟩
/-- Inbound port slots of quadrant q whose XQSW entry has changed and which no TSI has selected anew, slot 64 w + i in bit i (R368). -/
def XQSW.hBad (q : Fin 4) (w : Fin 20) : Fld := ⟨Page.xqsw.hidBase + 0 + 160 * q.val + 8 * w.val, 0, 64, .ro, 0⟩

/-! MBOX (17_host_dma.md R635) -/

/-- The block registers of the page (R635). -/
def MBOX.regs : List RegD :=
[⟨0x040, 0, 1, 0, 1, [⟨0, 32, .ro, 0, .none⟩]⟩,
    ⟨0x044, 0, 1, 0, 1, [⟨0, 10, .ro, 0, .none⟩]⟩,
    ⟨0x048, 0, 1, 0, 1, [⟨0, 10, .ro, 0, .none⟩]⟩,
    ⟨0x04C, 0, 1, 0, 1, [⟨0, 32, .ro, 0, .none⟩]⟩,
    ⟨0x050, 0, 1, 0, 1, [⟨0, 1, .rw, 0, .none⟩]⟩]

def MBOX.EVT_CFG_USER_TRAP : Fld := ⟨Page.mbox.base + 0x050, 0, 1, .rw, 0⟩
/-- SEQ of the next event (R633). -/
def MBOX.hSeq : Fld := ⟨Page.mbox.hidBase + 0, 0, 16, .ro, 0⟩
/-- OPCODE of the command in execution (R629). -/
def MBOX.hOp : Fld := ⟨Page.mbox.hidBase + 8, 0, 16, .ro, 0⟩
/-- Its TAG. -/
def MBOX.hTag : Fld := ⟨Page.mbox.hidBase + 16, 0, 32, .ro, 0⟩
/-- Firmware has executed it and prepared the response. -/
def MBOX.hDone : Fld := ⟨Page.mbox.hidBase + 24, 0, 1, .ro, 0⟩
/-- A command submitted since waits until the one in execution, whose response is discarded, has completed (R609, R630). -/
def MBOX.hNext : Fld := ⟨Page.mbox.hidBase + 32, 0, 1, .ro, 0⟩
/-- Its OPCODE. -/
def MBOX.hNextOp : Fld := ⟨Page.mbox.hidBase + 40, 0, 16, .ro, 0⟩
/-- Its TAG. -/
def MBOX.hNextTag : Fld := ⟨Page.mbox.hidBase + 48, 0, 32, .ro, 0⟩
/-- Its response is discarded (R609). -/
def MBOX.hDiscard : Fld := ⟨Page.mbox.hidBase + 56, 0, 1, .ro, 0⟩

/-! FUSE (18_boot_attestation.md R661) -/

/-- The block registers of the page (R661). -/
def FUSE.regs : List RegD :=
[⟨0x040, 0, 1, 0, 1, [⟨31, 1, .ro, 0, .none⟩, ⟨28, 3, .ro, 0, .none⟩, ⟨24, 4, .ro, 0, .none⟩, ⟨22, 2, .ro, 0, .none⟩, ⟨20, 2, .ro, 0, .none⟩, ⟨18, 2, .ro, 0, .none⟩, ⟨17, 1, .ro, 0, .none⟩, ⟨16, 1, .ro, 0, .none⟩, ⟨15, 1, .ro, 0, .none⟩, ⟨0, 7, .ro, 0, .none⟩]⟩,
    ⟨0x044, 0, 1, 0, 1, [⟨28, 4, .wo, 0, .none⟩, ⟨0, 8, .wo, 0, .none⟩]⟩,
    ⟨0x048, 0, 1, 0, 1, [⟨0, 32, .ro, 0, .none⟩]⟩,
    ⟨0x04C, 0, 1, 0, 1, [⟨0, 32, .ro, 0, .none⟩]⟩,
    ⟨0x100, 4, 8, 0, 1, [⟨0, 32, .ro, 0, .none⟩]⟩,
    ⟨0x120, 32, 2, 4, 8, [⟨0, 32, .ro, 0, .none⟩]⟩,
    ⟨0x180, 4, 8, 0, 1, [⟨0, 32, .wo, 0, .none⟩]⟩]

def FUSE.FUSE_STAT_BUSY : Fld := ⟨Page.fuse.base + 0x040, 31, 1, .ro, 0⟩
def FUSE.FUSE_STAT_RESULT : Fld := ⟨Page.fuse.base + 0x040, 28, 3, .ro, 0⟩
def FUSE.FUSE_STAT_CAUSE : Fld := ⟨Page.fuse.base + 0x040, 24, 4, .ro, 0⟩
def FUSE.FUSE_STAT_REVOKE : Fld := ⟨Page.fuse.base + 0x040, 18, 2, .ro, 0⟩
def FUSE.FUSE_STAT_KEK_SEED_SET : Fld := ⟨Page.fuse.base + 0x040, 17, 1, .ro, 0⟩
def FUSE.FUSE_STAT_OWNER_COSIGN : Fld := ⟨Page.fuse.base + 0x040, 16, 1, .ro, 0⟩
def FUSE.FUSE_STAT_DEBUG_DISABLE : Fld := ⟨Page.fuse.base + 0x040, 15, 1, .ro, 0⟩
def FUSE.FUSE_STAT_ARB : Fld := ⟨Page.fuse.base + 0x040, 0, 7, .ro, 0⟩
def FUSE.FUSE_CMD_OP : Fld := ⟨Page.fuse.base + 0x044, 28, 4, .wo, 0⟩
def FUSE.FUSE_CMD_ARG : Fld := ⟨Page.fuse.base + 0x044, 0, 8, .wo, 0⟩
def FUSE.TAWELL_PK (w : Fin 8) : Fld := ⟨Page.fuse.base + 0x100 + 4 * w.val, 0, 32, .ro, 0⟩
def FUSE.OWNER_PK (s : Fin 2) (w : Fin 8) : Fld := ⟨Page.fuse.base + 0x120 + 32 * s.val + 4 * w.val, 0, 32, .ro, 0⟩
def FUSE.KEY_BUF (w : Fin 8) : Fld := ⟨Page.fuse.base + 0x180 + 4 * w.val, 0, 32, .wo, 0⟩
/-- IDENTITY_SEED (R638). -/
def FUSE.hIdSeed : Fld := ⟨Page.fuse.hidBase + 0, 0, 256, .ro, 0⟩
/-- KEK_SEED (R638). -/
def FUSE.hKekSeed : Fld := ⟨Page.fuse.hidBase + 8, 0, 256, .ro, 0⟩
/-- CRC-16 of owner slot s (R638). -/
def FUSE.hOwnCrc (s : Fin 2) : Fld := ⟨Page.fuse.hidBase + 16 + 8 * s.val, 0, 16, .ro, 0⟩
/-- PROGRAMMED bit of owner slot s (R638). -/
def FUSE.hOwnProg (s : Fin 2) : Fld := ⟨Page.fuse.hidBase + 32 + 8 * s.val, 0, 1, .ro, 0⟩
/-- The fuse command that runs (R663). -/
def FUSE.hOp : Fld := ⟨Page.fuse.hidBase + 48, 0, 4, .ro, 0⟩
/-- Its ARG. -/
def FUSE.hArg : Fld := ⟨Page.fuse.hidBase + 56, 0, 8, .ro, 0⟩

/-! FRM (08_line_framing.md R339) -/

/-- The block registers of the page (R339). -/
def FRM.regs : List RegD :=
[⟨0x040, 0, 1, 0, 1, [⟨8, 8, .rw, 3, .none⟩, ⟨0, 4, .rw, 3, .none⟩]⟩,
    ⟨0x044, 0, 1, 0, 1, [⟨0, 16, .ro, 0, .none⟩]⟩,
    ⟨0x048, 0, 1, 0, 1, [⟨0, 32, .rol, 0, .none⟩]⟩,
    ⟨0x04C, 0, 1, 0, 1, [⟨31, 1, .rol, 0, .none⟩, ⟨30, 1, .rol, 0, .none⟩, ⟨0, 16, .rol, 0, .none⟩]⟩]

def FRM.FRM_CFG_LOM_MF (q : Fin 4) : Fld := ⟨(Page.frm q).base + 0x040, 8, 8, .rw, 3⟩
def FRM.FRM_CFG_LOF_MS (q : Fin 4) : Fld := ⟨(Page.frm q).base + 0x040, 0, 4, .rw, 3⟩
def FRM.DEF_SUM_CARRIER_DEF (q : Fin 4) : Fld := ⟨(Page.frm q).base + 0x044, 0, 16, .ro, 0⟩
def FRM.PM_SEC (q : Fin 4) : Fld := ⟨(Page.frm q).base + 0x048, 0, 32, .rol, 0⟩
def FRM.PM_TICKS_PARTIAL (q : Fin 4) : Fld := ⟨(Page.frm q).base + 0x04C, 31, 1, .rol, 0⟩
def FRM.PM_TICKS_CLK_GAP (q : Fin 4) : Fld := ⟨(Page.frm q).base + 0x04C, 30, 1, .rol, 0⟩
def FRM.PM_TICKS_TICKS (q : Fin 4) : Fld := ⟨(Page.frm q).base + 0x04C, 0, 16, .rol, 0⟩
/-- PARTIAL of the interval in progress (R333). -/
def FRM.hPartial (q : Fin 4) : Fld := ⟨(Page.frm q).hidBase + 0, 0, 1, .ro, 1⟩

/-! TSI (09_tributary_switching.md R369) -/

/-- The block registers of the page (R369). -/
def TSI.regs : List RegD :=
[⟨0x048, 0, 1, 0, 1, [⟨0, 32, .ro, 0, .none⟩]⟩,
    ⟨0x040, 0, 1, 0, 1, [⟨24, 1, .rw, 0, .none⟩, ⟨20, 4, .rw, 0, .none⟩, ⟨0, 16, .rw, 0xBB8, .none⟩]⟩,
    ⟨0x044, 0, 1, 0, 1, [⟨30, 2, .wo, 0, .none⟩, ⟨0, 8, .wo, 0, .none⟩]⟩,
    ⟨0x04C, 0, 1, 0, 1, [⟨0, 32, .ro, 0, .none⟩]⟩]

def TSI.TSI_CFG_REVERT (q : Fin 4) : Fld := ⟨(Page.tsi q).base + 0x040, 24, 1, .rw, 0⟩
def TSI.TSI_CFG_HOLDOFF (q : Fin 4) : Fld := ⟨(Page.tsi q).base + 0x040, 20, 4, .rw, 0⟩
def TSI.TSI_CFG_WTR (q : Fin 4) : Fld := ⟨(Page.tsi q).base + 0x040, 0, 16, .rw, 0xBB8⟩
def TSI.PROT_CMD_CMD (q : Fin 4) : Fld := ⟨(Page.tsi q).base + 0x044, 30, 2, .wo, 0⟩
def TSI.PROT_CMD_T (q : Fin 4) : Fld := ⟨(Page.tsi q).base + 0x044, 0, 8, .wo, 0⟩
def TSI.SLIP_CNT (q : Fin 4) : Fld := ⟨(Page.tsi q).base + 0x04C, 0, 32, .ro, 0⟩
/-- Enabled tributaries of the active page; STATUS.BLOCK_STATE (R369). -/
def TSI.hEn (q : Fin 4) : Fld := ⟨(Page.tsi q).hidBase + 0, 0, 9, .ro, 0⟩
/-- Side in force of tributary t: 0 A, 1 B (R362). -/
def TSI.hSel (q : Fin 4) (t : Fin 256) : Fld := ⟨(Page.tsi q).hidBase + 8 + 8 * t.val, 0, 1, .ro, 0⟩
/-- Force command of tributary t: 0 none, 1 A, 2 B (R362). -/
def TSI.hForce (q : Fin 4) (t : Fin 256) : Fld := ⟨(Page.tsi q).hidBase + 2056 + 8 * t.val, 0, 2, .ro, 0⟩
/-- Side decided and not yet taken: 0 none, 1 A, 2 B (R363). -/
def TSI.hNext (q : Fin 4) (t : Fin 256) : Fld := ⟨(Page.tsi q).hidBase + 4104 + 8 * t.val, 0, 2, .ro, 0⟩
/-- The demapper of side x has ODUflex alignment (R344). -/
def TSI.hOdu (q : Fin 4) (t : Fin 256) (x : Fin 2) : Fld := ⟨(Page.tsi q).hidBase + 6152 + 16 * t.val + 8 * x.val, 0, 1, .ro, 0⟩
/-- ODUflex PM STAT of side x where it is AIS, LCK or OCI, else 0 (R360). -/
def TSI.hStat (q : Fin 4) (t : Fin 256) (x : Fin 2) : Fld := ⟨(Page.tsi q).hidBase + 10248 + 16 * t.val + 8 * x.val, 0, 3, .ro, 0⟩
/-- dMSIM of side x (R361). -/
def TSI.hMsim (q : Fin 4) (t : Fin 256) (x : Fin 2) : Fld := ⟨(Page.tsi q).hidBase + 14344 + 16 * t.val + 8 * x.val, 0, 1, .ro, 0⟩
/-- Sides in SF as last reported, A in bit 0 (R360). -/
def TSI.hSf (q : Fin 4) (t : Fin 256) : Fld := ⟨(Page.tsi q).hidBase + 18440 + 8 * t.val, 0, 2, .ro, 0⟩
/-- RPL toward the client as last reported (R364). -/
def TSI.hRpl (q : Fin 4) (t : Fin 256) : Fld := ⟨(Page.tsi q).hidBase + 20488 + 8 * t.val, 0, 1, .ro, 0⟩
/-- Ticks for which the side in force has been in SF, up to 15 (R362). -/
def TSI.hSfTicks (q : Fin 4) (t : Fin 256) : Fld := ⟨(Page.tsi q).hidBase + 22536 + 8 * t.val, 0, 4, .ro, 0⟩
/-- Ticks for which side A has been free of SF (R362). -/
def TSI.hFree (q : Fin 4) (t : Fin 256) : Fld := ⟨(Page.tsi q).hidBase + 24584 + 8 * t.val, 0, 23, .ro, 0⟩
/-- SWITCHES (R370). -/
def TSI.hSwitches (q : Fin 4) (t : Fin 256) : Fld := ⟨(Page.tsi q).hidBase + 26632 + 8 * t.val, 0, 16, .ro, 0⟩

/-! TM (11_traffic_manager.md R439) -/

/-- The block registers of the page (R439). -/
def TM.regs : List RegD :=
[⟨0x040, 0, 1, 0, 1, [⟨0, 18, .rw, 0x6666, .none⟩]⟩,
    ⟨0x044, 0, 1, 0, 1, [⟨24, 7, .ro, 0, .none⟩, ⟨0, 18, .ro, 0, .none⟩]⟩,
    ⟨0x048, 0, 1, 0, 1, [⟨16, 14, .ro, 0, .none⟩, ⟨0, 13, .ro, 0, .none⟩]⟩,
    ⟨0x04C, 0, 1, 0, 1, [⟨31, 1, .w1c, 0, .none⟩, ⟨28, 3, .ro, 0, .none⟩, ⟨0, 14, .ro, 0, .none⟩]⟩,
    ⟨0x050, 8, 8, 0, 1, [⟨0, 32, .rol, 0, .none⟩]⟩,
    ⟨0x054, 8, 8, 0, 1, [⟨31, 1, .rol, 0, .none⟩, ⟨0, 16, .rol, 0, .none⟩]⟩]

def TM.TM_CFG_BUF_YEL (q : Fin 4) : Fld := ⟨(Page.tm q).base + 0x040, 0, 18, .rw, 0x6666⟩
def TM.CFG_REJ_VALID (q : Fin 4) : Fld := ⟨(Page.tm q).base + 0x04C, 31, 1, .w1c, 0⟩
def TM.CFG_REJ_CAUSE (q : Fin 4) : Fld := ⟨(Page.tm q).base + 0x04C, 28, 3, .ro, 0⟩
def TM.CFG_REJ_INDEX (q : Fin 4) : Fld := ⟨(Page.tm q).base + 0x04C, 0, 14, .ro, 0⟩
def TM.CNT_LO (q : Fin 4) (i : Fin 8) : Fld := ⟨(Page.tm q).base + 0x050 + 8 * i.val, 0, 32, .rol, 0⟩
def TM.CNT_HI_SATURATED (q : Fin 4) (i : Fin 8) : Fld := ⟨(Page.tm q).base + 0x054 + 8 * i.val, 31, 1, .rol, 0⟩
def TM.CNT_HI_COUNT (q : Fin 4) (i : Fin 8) : Fld := ⟨(Page.tm q).base + 0x054 + 8 * i.val, 0, 16, .rol, 0⟩
/-- Credits of the buckets and shapers so far (R409). -/
def TM.hCredit (q : Fin 4) : Fld := ⟨(Page.tm q).hidBase + 0, 0, 64, .ro, 0⟩
/-- Beats of the scheduler of carrier 4q + k so far (R419). -/
def TM.hBeat (q : Fin 4) (k : Fin 4) : Fld := ⟨(Page.tm q).hidBase + 8 + 8 * k.val, 0, 64, .ro, 0⟩
/-- Its pointer in the calendar (R419). -/
def TM.hPtr (q : Fin 4) (k : Fin 4) : Fld := ⟨(Page.tm q).hidBase + 40 + 8 * k.val, 0, 11, .ro, 0⟩
/-- Charged bytes released to port n and not yet sent on its stream (R421). -/
def TM.hUnsent (q : Fin 4) (k : Fin 4) (n : Fin 16) : Fld := ⟨(Page.tm q).hidBase + 72 + 128 * k.val + 8 * n.val, 0, 32, .ro, 0⟩
/-- Port n is not ready in the next beat (R427). -/
def TM.hHold (q : Fin 4) (k : Fin 4) (n : Fin 16) : Fld := ⟨(Page.tm q).hidBase + 584 + 128 * k.val + 8 * n.val, 0, 1, .ro, 0⟩
/-- Service node that port n's round robin has credited in its visit, plus 1 (R422). -/
def TM.hCurSvc (q : Fin 4) (k : Fin 4) (n : Fin 16) : Fld := ⟨(Page.tm q).hidBase + 1096 + 128 * k.val + 8 * n.val, 0, 9, .ro, 0⟩
/-- Subscriber node that service node v has credited in its visit, plus 1 (R422). -/
def TM.hCurSub (q : Fin 4) (k : Fin 4) (v : Fin 256) : Fld := ⟨(Page.tm q).hidBase + 1608 + 2048 * k.val + 8 * v.val, 0, 13, .ro, 0⟩
/-- Level of the Express shaper of port n, signed, 2^-16 byte (R423). -/
def TM.hExpLvl (q : Fin 4) (k : Fin 4) (n : Fin 16) : Fld := ⟨(Page.tm q).hidBase + 9800 + 128 * k.val + 8 * n.val, 0, 48, .ro, 0⟩
/-- Its next-eligible beat on the timing wheel plus 1; 0 off the wheel (R424). -/
def TM.hExpE (q : Fin 4) (k : Fin 4) (n : Fin 16) : Fld := ⟨(Page.tm q).hidBase + 10312 + 128 * k.val + 8 * n.val, 0, 64, .ro, 0⟩
/-- It is on the coarse ring. -/
def TM.hExpRing (q : Fin 4) (k : Fin 4) (n : Fin 16) : Fld := ⟨(Page.tm q).hidBase + 10824 + 128 * k.val + 8 * n.val, 0, 1, .ro, 0⟩
/-- Level of the shaper of service node v, signed, 2^-16 byte (R423). -/
def TM.hSvcLvl (q : Fin 4) (k : Fin 4) (v : Fin 256) : Fld := ⟨(Page.tm q).hidBase + 11336 + 2048 * k.val + 8 * v.val, 0, 48, .ro, 0⟩
/-- Its next-eligible beat plus 1; 0 off the wheel. -/
def TM.hSvcE (q : Fin 4) (k : Fin 4) (v : Fin 256) : Fld := ⟨(Page.tm q).hidBase + 19528 + 2048 * k.val + 8 * v.val, 0, 64, .ro, 0⟩
/-- It is on the coarse ring. -/
def TM.hSvcRing (q : Fin 4) (k : Fin 4) (v : Fin 256) : Fld := ⟨(Page.tm q).hidBase + 27720 + 2048 * k.val + 8 * v.val, 0, 1, .ro, 0⟩
/-- Deficit of service node v (R422). -/
def TM.hSvcDef (q : Fin 4) (k : Fin 4) (v : Fin 256) : Fld := ⟨(Page.tm q).hidBase + 35912 + 2048 * k.val + 8 * v.val, 0, 24, .ro, 0⟩
/-- Level of the shaper of subscriber node x, signed, 2^-16 byte (R423). -/
def TM.hSubLvl (q : Fin 4) (x : Fin 4096) : Fld := ⟨(Page.tm q).hidBase + 44104 + 8 * x.val, 0, 48, .ro, 0⟩
/-- Its next-eligible beat plus 1; 0 off the wheel. -/
def TM.hSubE (q : Fin 4) (x : Fin 4096) : Fld := ⟨(Page.tm q).hidBase + 76872 + 8 * x.val, 0, 64, .ro, 0⟩
/-- It is on the coarse ring. -/
def TM.hSubRing (q : Fin 4) (x : Fin 4096) : Fld := ⟨(Page.tm q).hidBase + 109640 + 8 * x.val, 0, 1, .ro, 0⟩
/-- Deficit of subscriber node x (R422). -/
def TM.hSubDef (q : Fin 4) (x : Fin 4096) : Fld := ⟨(Page.tm q).hidBase + 142408 + 8 * x.val, 0, 24, .ro, 0⟩
/-- 2^-16 bytes of the first policer bucket of context x (R409). -/
def TM.hFracC (q : Fin 4) (x : Fin 4096) : Fld := ⟨(Page.tm q).hidBase + 175176 + 8 * x.val, 0, 16, .ro, 0⟩
/-- 2^-16 bytes of its second bucket. -/
def TM.hFrac2 (q : Fin 4) (x : Fin 4096) : Fld := ⟨(Page.tm q).hidBase + 207944 + 8 * x.val, 0, 16, .ro, 0⟩
/-- Context x is FAULTED (R406). -/
def TM.hFault (q : Fin 4) (x : Fin 4096) : Fld := ⟨(Page.tm q).hidBase + 240712 + 8 * x.val, 0, 1, .ro, 0⟩
/-- Running counters of R438 in the interval. -/
def TM.hCnt (q : Fin 4) (i : Fin 8) : Fld := ⟨(Page.tm q).hidBase + 273480 + 8 * i.val, 0, 49, .ro, 0⟩

/-! CIPH (12_cipher_keyway.md R470) -/

/-- The block registers of the page (R470). -/
def CIPH.regs : List RegD :=
[⟨0x040, 0, 1, 0, 1, [⟨26, 6, .rw, 32, .u 20 48⟩, ⟨8, 8, .rw, 0x10, .none⟩, ⟨0, 8, .rw, 4, .none⟩]⟩,
    ⟨0x044, 0, 1, 0, 1, [⟨16, 9, .ro, 0, .none⟩, ⟨0, 10, .ro, 0, .none⟩]⟩,
    ⟨0x048, 0, 1, 0, 1, [⟨31, 1, .w1c, 0, .none⟩, ⟨28, 3, .ro, 0, .none⟩, ⟨0, 10, .ro, 0, .none⟩]⟩,
    ⟨0x060, 8, 10, 0, 1, [⟨0, 32, .rol, 0, .none⟩]⟩,
    ⟨0x064, 8, 10, 0, 1, [⟨31, 1, .rol, 0, .none⟩, ⟨0, 16, .rol, 0, .none⟩]⟩]

def CIPH.CIPH_CFG_WEAR_LOG2 (q : Fin 4) : Fld := ⟨(Page.ciph q).base + 0x040, 26, 6, .rw, 32⟩
def CIPH.CIPH_CFG_VF_PASS (q : Fin 4) : Fld := ⟨(Page.ciph q).base + 0x040, 8, 8, .rw, 0x10⟩
def CIPH.CIPH_CFG_FAIL_RUN (q : Fin 4) : Fld := ⟨(Page.ciph q).base + 0x040, 0, 8, .rw, 4⟩
def CIPH.CFG_REJ_VALID (q : Fin 4) : Fld := ⟨(Page.ciph q).base + 0x048, 31, 1, .w1c, 0⟩
def CIPH.CFG_REJ_CAUSE (q : Fin 4) : Fld := ⟨(Page.ciph q).base + 0x048, 28, 3, .ro, 0⟩
def CIPH.CFG_REJ_INDEX (q : Fin 4) : Fld := ⟨(Page.ciph q).base + 0x048, 0, 10, .ro, 0⟩
def CIPH.CNT_LO (q : Fin 4) (i : Fin 10) : Fld := ⟨(Page.ciph q).base + 0x060 + 8 * i.val, 0, 32, .rol, 0⟩
def CIPH.CNT_HI_SATURATED (q : Fin 4) (i : Fin 10) : Fld := ⟨(Page.ciph q).base + 0x064 + 8 * i.val, 31, 1, .rol, 0⟩
def CIPH.CNT_HI_COUNT (q : Fin 4) (i : Fin 10) : Fld := ⟨(Page.ciph q).base + 0x064 + 8 * i.val, 0, 16, .rol, 0⟩
/-- Running quadrant counters in the interval (R470). -/
def CIPH.hCnt (q : Fin 4) (i : Fin 10) : Fld := ⟨(Page.ciph q).hidBase + 0 + 8 * i.val, 0, 49, .ro, 0⟩
/-- CUR of key slot s (R460). -/
def CIPH.hCur (q : Fin 4) (s : Fin 1024) : Fld := ⟨(Page.ciph q).hidBase + 80 + 8 * s.val, 0, 256, .ro, 0⟩
/-- PREV of key slot s. -/
def CIPH.hPrev (q : Fin 4) (s : Fin 1024) : Fld := ⟨(Page.ciph q).hidBase + 8272 + 8 * s.val, 0, 256, .ro, 0⟩
/-- The key staged for slot s (R462). -/
def CIPH.hNew (q : Fin 4) (s : Fin 1024) : Fld := ⟨(Page.ciph q).hidBase + 16464 + 8 * s.val, 0, 256, .ro, 0⟩
/-- Staged for slot s: 0 nothing, 1 an import, 2 an erase (R462, R463). -/
def CIPH.hStage (q : Fin 4) (s : Fin 1024) : Fld := ⟨(Page.ciph q).hidBase + 24656 + 8 * s.val, 0, 2, .ro, 0⟩
/-- Association a has reached its boundary for the staged command of its slot. -/
def CIPH.hTook (q : Fin 4) (a : Fin 1024) : Fld := ⟨(Page.ciph q).hidBase + 32848 + 8 * a.val, 0, 1, .ro, 0⟩
/-- A SAVE of association a is due at its next segment boundary (R467). -/
def CIPH.hSaving (q : Fin 4) (a : Fin 1024) : Fld := ⟨(Page.ciph q).hidBase + 41040 + 8 * a.val, 0, 1, .ro, 0⟩
/-- Consecutive segments of association a that passed (R459). -/
def CIPH.hPass (q : Fin 4) (a : Fin 1024) : Fld := ⟨(Page.ciph q).hidBase + 49232 + 8 * a.val, 0, 9, .ro, 0⟩
/-- Consecutive segments of association a that failed (R459). -/
def CIPH.hFail (q : Fin 4) (a : Fin 1024) : Fld := ⟨(Page.ciph q).hidBase + 57424 + 8 * a.val, 0, 9, .ro, 0⟩
/-- Key generation of the previous segment received (R455). -/
def CIPH.hGen (q : Fin 4) (a : Fin 1024) : Fld := ⟨(Page.ciph q).hidBase + 65616 + 8 * a.val, 0, 8, .ro, 0⟩
/-- A read of a word of association a has found an uncorrectable error since word 0 was last written (R539). -/
def CIPH.hBad (q : Fin 4) (a : Fin 1024) : Fld := ⟨(Page.ciph q).hidBase + 73808 + 8 * a.val, 0, 1, .ro, 0⟩

/-! MEM (14_memories.md R556) -/

/-- The block registers of the page (R556). -/
def MEM.regs : List RegD :=
[⟨0x040, 0, 1, 0, 1, [⟨31, 1, .ro, 0, .none⟩, ⟨30, 1, .ro, 0, .none⟩, ⟨29, 1, .ro, 0, .none⟩, ⟨28, 1, .ro, 0, .none⟩, ⟨0, 16, .ro, 0, .none⟩]⟩,
    ⟨0x044, 0, 1, 0, 1, [⟨16, 10, .rw, 0x1F4, .none⟩, ⟨0, 10, .rw, 0x1F4, .none⟩]⟩,
    ⟨0x048, 0, 1, 0, 1, [⟨24, 8, .rw, 0x40, .none⟩, ⟨8, 8, .rw, 8, .none⟩, ⟨0, 8, .rw, 4, .none⟩]⟩,
    ⟨0x04C, 0, 1, 0, 1, [⟨16, 16, .ro, 0, .none⟩, ⟨0, 16, .ro, 0, .none⟩]⟩,
    ⟨0x050, 0, 1, 0, 1, [⟨31, 1, .rw, 1, .none⟩, ⟨0, 24, .rw, 0x4E2, .none⟩]⟩,
    ⟨0x054, 0, 1, 0, 1, [⟨31, 1, .rw, 0, .none⟩, ⟨30, 1, .w1s, 0, .none⟩, ⟨0, 8, .rw, 0, .none⟩]⟩,
    ⟨0x058, 0, 1, 0, 1, [⟨0, 8, .ro, 0, .none⟩]⟩,
    ⟨0x05C, 0, 1, 0, 1, [⟨0, 24, .rw, 0, .none⟩]⟩,
    ⟨0x060, 0, 1, 0, 1, [⟨31, 1, .ro, 0, .none⟩, ⟨30, 1, .ro, 0, .none⟩, ⟨0, 2, .wo, 0, .none⟩]⟩,
    ⟨0x064, 0, 1, 0, 1, [⟨0, 32, .rw, 0, .none⟩]⟩,
    ⟨0x068, 0, 1, 0, 1, [⟨0, 32, .rw, 0, .none⟩]⟩,
    ⟨0x06C, 0, 1, 0, 1, [⟨0, 8, .rw, 0, .none⟩]⟩]
  ++ [⟨0x070, 0, 1, 0, 1, [⟨24, 8, .ro, 0, .none⟩, ⟨16, 4, .ro, 0, .none⟩, ⟨0, 10, .ro, 0, .none⟩]⟩,
    ⟨0x074, 0, 1, 0, 1, [⟨16, 16, .ro, 0, .none⟩, ⟨0, 16, .ro, 0, .none⟩]⟩,
    ⟨0x080, 0, 1, 0, 1, [⟨31, 1, .w1c, 0, .none⟩, ⟨30, 1, .ro, 0, .none⟩, ⟨29, 1, .ro, 0, .none⟩, ⟨24, 4, .ro, 0, .none⟩, ⟨0, 8, .ro, 0, .none⟩]⟩,
    ⟨0x084, 0, 1, 0, 1, [⟨0, 24, .ro, 0, .none⟩]⟩,
    ⟨0x088, 0, 1, 0, 1, [⟨31, 1, .ro, 0, .none⟩, ⟨30, 1, .ro, 0, .none⟩, ⟨29, 1, .ro, 0, .none⟩, ⟨24, 4, .ro, 0, .none⟩, ⟨0, 8, .ro, 0, .none⟩]⟩,
    ⟨0x08C, 0, 1, 0, 1, [⟨0, 24, .ro, 0, .none⟩]⟩,
    ⟨0x100, 32, 16, 0, 1, [⟨16, 16, .rw, 0x04E2, .none⟩, ⟨0, 16, .rw, 0x0010, .none⟩]⟩,
    ⟨0x104, 32, 16, 0, 1, [⟨31, 1, .ro, 0, .none⟩, ⟨0, 16, .ro, 0, .none⟩]⟩,
    ⟨0x108, 32, 16, 0, 1, [⟨0, 32, .ro, 0, .none⟩]⟩,
    ⟨0x10C, 32, 16, 0, 1, [⟨0, 32, .ro, 0, .none⟩]⟩,
    ⟨0x110, 32, 16, 0, 1, [⟨31, 1, .ro, 0, .none⟩, ⟨30, 1, .ro, 0, .none⟩, ⟨0, 16, .ro, 0, .none⟩]⟩,
    ⟨0x114, 32, 16, 0, 1, [⟨0, 24, .ro, 0, .none⟩]⟩]
  ++ [⟨0x118, 32, 16, 0, 1, [⟨0, 24, .ro, 0, .none⟩]⟩]

def MEM.MEM_STAT_INIT_DONE (q : Fin 4) : Fld := ⟨(Page.mem q).base + 0x040, 31, 1, .ro, 0⟩
def MEM.MEM_STAT_SELF_REFRESH (q : Fin 4) : Fld := ⟨(Page.mem q).base + 0x040, 30, 1, .ro, 0⟩
def MEM.MEM_STAT_ARB_REJ (q : Fin 4) : Fld := ⟨(Page.mem q).base + 0x040, 29, 1, .ro, 0⟩
def MEM.MEM_STAT_RETAINED (q : Fin 4) : Fld := ⟨(Page.mem q).base + 0x040, 28, 1, .ro, 0⟩
def MEM.ARB_CFG0_PKT_RD (q : Fin 4) : Fld := ⟨(Page.mem q).base + 0x044, 16, 10, .rw, 0x1F4⟩
def MEM.ARB_CFG0_PKT_WR (q : Fin 4) : Fld := ⟨(Page.mem q).base + 0x044, 0, 10, .rw, 0x1F4⟩
def MEM.ARB_CFG1_WAIT_MAX (q : Fin 4) : Fld := ⟨(Page.mem q).base + 0x048, 24, 8, .rw, 0x40⟩
def MEM.ARB_CFG1_DMA (q : Fin 4) : Fld := ⟨(Page.mem q).base + 0x048, 8, 8, .rw, 8⟩
def MEM.ARB_CFG1_SCRUB (q : Fin 4) : Fld := ⟨(Page.mem q).base + 0x048, 0, 8, .rw, 4⟩
def MEM.ARB_STAT_FORCED (q : Fin 4) : Fld := ⟨(Page.mem q).base + 0x04C, 16, 16, .ro, 0⟩
def MEM.ARB_STAT_FORCED_REF (q : Fin 4) : Fld := ⟨(Page.mem q).base + 0x04C, 0, 16, .ro, 0⟩
def MEM.SCRUB_CFG_EN (q : Fin 4) : Fld := ⟨(Page.mem q).base + 0x050, 31, 1, .rw, 1⟩
def MEM.SCRUB_CFG_PACE (q : Fin 4) : Fld := ⟨(Page.mem q).base + 0x050, 0, 24, .rw, 0x4E2⟩
def MEM.ECC_TEST_RAW (q : Fin 4) : Fld := ⟨(Page.mem q).base + 0x054, 31, 1, .rw, 0⟩
def MEM.ECC_TEST_ARM (q : Fin 4) : Fld := ⟨(Page.mem q).base + 0x054, 30, 1, .w1s, 0⟩
def MEM.ECC_TEST_CHK (q : Fin 4) : Fld := ⟨(Page.mem q).base + 0x054, 0, 8, .rw, 0⟩
def MEM.ECC_CHK_RD (q : Fin 4) : Fld := ⟨(Page.mem q).base + 0x058, 0, 8, .ro, 0⟩
def MEM.DR_ADDR (q : Fin 4) : Fld := ⟨(Page.mem q).base + 0x05C, 0, 24, .rw, 0⟩
def MEM.DR_CMD_BUSY (q : Fin 4) : Fld := ⟨(Page.mem q).base + 0x060, 31, 1, .ro, 0⟩
def MEM.DR_CMD_UE (q : Fin 4) : Fld := ⟨(Page.mem q).base + 0x060, 30, 1, .ro, 0⟩
def MEM.DR_CMD_OP (q : Fin 4) : Fld := ⟨(Page.mem q).base + 0x060, 0, 2, .wo, 0⟩
def MEM.DR_DATA_LO (q : Fin 4) : Fld := ⟨(Page.mem q).base + 0x064, 0, 32, .rw, 0⟩
def MEM.DR_DATA_HI (q : Fin 4) : Fld := ⟨(Page.mem q).base + 0x068, 0, 32, .rw, 0⟩
def MEM.DR_CHK (q : Fin 4) : Fld := ⟨(Page.mem q).base + 0x06C, 0, 8, .rw, 0⟩
def MEM.REPAIR_DRAM_FULL (q : Fin 4) : Fld := ⟨(Page.mem q).base + 0x070, 24, 8, .ro, 0⟩
def MEM.REPAIR_DRAM_MOST (q : Fin 4) : Fld := ⟨(Page.mem q).base + 0x070, 16, 4, .ro, 0⟩
def MEM.REPAIR_DRAM_ROWS (q : Fin 4) : Fld := ⟨(Page.mem q).base + 0x070, 0, 10, .ro, 0⟩
def MEM.REPAIR_SRAM_FULL (q : Fin 4) : Fld := ⟨(Page.mem q).base + 0x074, 16, 16, .ro, 0⟩
def MEM.REPAIR_SRAM_COLS (q : Fin 4) : Fld := ⟨(Page.mem q).base + 0x074, 0, 16, .ro, 0⟩
def MEM.UE_LOG_VALID (q : Fin 4) : Fld := ⟨(Page.mem q).base + 0x080, 31, 1, .w1c, 0⟩
def MEM.UE_LOG_OVERRUN (q : Fin 4) : Fld := ⟨(Page.mem q).base + 0x080, 30, 1, .ro, 0⟩
def MEM.UE_LOG_SCRUB (q : Fin 4) : Fld := ⟨(Page.mem q).base + 0x080, 29, 1, .ro, 0⟩
def MEM.UE_LOG_REGION (q : Fin 4) : Fld := ⟨(Page.mem q).base + 0x080, 24, 4, .ro, 0⟩
def MEM.UE_LOG_SYNDROME (q : Fin 4) : Fld := ⟨(Page.mem q).base + 0x080, 0, 8, .ro, 0⟩
def MEM.UE_ADDR (q : Fin 4) : Fld := ⟨(Page.mem q).base + 0x084, 0, 24, .ro, 0⟩
def MEM.CE_LOG_VALID (q : Fin 4) : Fld := ⟨(Page.mem q).base + 0x088, 31, 1, .ro, 0⟩
def MEM.CE_LOG_OVERRUN (q : Fin 4) : Fld := ⟨(Page.mem q).base + 0x088, 30, 1, .ro, 0⟩
def MEM.CE_LOG_SCRUB (q : Fin 4) : Fld := ⟨(Page.mem q).base + 0x088, 29, 1, .ro, 0⟩
def MEM.CE_LOG_REGION (q : Fin 4) : Fld := ⟨(Page.mem q).base + 0x088, 24, 4, .ro, 0⟩
def MEM.CE_LOG_SYNDROME (q : Fin 4) : Fld := ⟨(Page.mem q).base + 0x088, 0, 8, .ro, 0⟩
def MEM.CE_ADDR (q : Fin 4) : Fld := ⟨(Page.mem q).base + 0x08C, 0, 24, .ro, 0⟩
def MEM.BKT_CFG_LEAK_TICKS (q : Fin 4) (r : Fin 16) : Fld := ⟨(Page.mem q).base + 0x100 + 32 * r.val, 16, 16, .rw, 0x04E2⟩
def MEM.BKT_CFG_THR (q : Fin 4) (r : Fin 16) : Fld := ⟨(Page.mem q).base + 0x100 + 32 * r.val, 0, 16, .rw, 0x0010⟩
def MEM.BKT_LVL_OVER (q : Fin 4) (r : Fin 16) : Fld := ⟨(Page.mem q).base + 0x104 + 32 * r.val, 31, 1, .ro, 0⟩
def MEM.BKT_LVL_LEVEL (q : Fin 4) (r : Fin 16) : Fld := ⟨(Page.mem q).base + 0x104 + 32 * r.val, 0, 16, .ro, 0⟩
def MEM.CE_CNT (q : Fin 4) (r : Fin 16) : Fld := ⟨(Page.mem q).base + 0x108 + 32 * r.val, 0, 32, .ro, 0⟩
def MEM.UE_CNT (q : Fin 4) (r : Fin 16) : Fld := ⟨(Page.mem q).base + 0x10C + 32 * r.val, 0, 32, .ro, 0⟩
def MEM.LAP_STAT_LAP_SLOW (q : Fin 4) (r : Fin 16) : Fld := ⟨(Page.mem q).base + 0x110 + 32 * r.val, 31, 1, .ro, 0⟩
def MEM.LAP_STAT_LAPS (q : Fin 4) (r : Fin 16) : Fld := ⟨(Page.mem q).base + 0x110 + 32 * r.val, 0, 16, .ro, 0⟩
def MEM.LAP_TIME (q : Fin 4) (r : Fin 16) : Fld := ⟨(Page.mem q).base + 0x114 + 32 * r.val, 0, 24, .ro, 0⟩
def MEM.SCRUB_POS (q : Fin 4) (r : Fin 16) : Fld := ⟨(Page.mem q).base + 0x118 + 32 * r.val, 0, 24, .ro, 0⟩
/-- Ticks of the scrub lap of region r in progress (R543, R545). -/
def MEM.hLapTicks (q : Fin 4) (r : Fin 16) : Fld := ⟨(Page.mem q).hidBase + 0 + 8 * r.val, 0, 25, .ro, 0⟩
/-- Ticks since the bucket of region r last leaked (R536). -/
def MEM.hLeak (q : Fin 4) (r : Fin 16) : Fld := ⟨(Page.mem q).hidBase + 128 + 8 * r.val, 0, 17, .ro, 0⟩
/-- The indirect access that runs (R535). -/
def MEM.hDrOp (q : Fin 4) : Fld := ⟨(Page.mem q).hidBase + 256, 0, 2, .ro, 0⟩
/-- Its word address. -/
def MEM.hDrAddr (q : Fin 4) : Fld := ⟨(Page.mem q).hidBase + 264, 0, 24, .ro, 0⟩
/-- Its data. -/
def MEM.hDrData (q : Fin 4) : Fld := ⟨(Page.mem q).hidBase + 272, 0, 64, .ro, 0⟩
/-- Its check bits. -/
def MEM.hDrChk (q : Fin 4) : Fld := ⟨(Page.mem q).hidBase + 280, 0, 8, .ro, 0⟩
/-- ECC_TEST.RAW when it started. -/
def MEM.hDrRaw (q : Fin 4) : Fld := ⟨(Page.mem q).hidBase + 288, 0, 1, .ro, 0⟩
/-- Credits left of PKT_RD, PKT_WR, DMA and SCRUB at channel h (R548). -/
def MEM.hCred (q : Fin 4) (h : Fin 64) (k : Fin 4) : Fld := ⟨(Page.mem q).hidBase + 296 + 32 * h.val + 8 * k.val, 0, 10, .ro, 0⟩
/-- Entries of their request queues. -/
def MEM.hFill (q : Fin 4) (h : Fin 64) (k : Fin 4) : Fld := ⟨(Page.mem q).hidBase + 2344 + 32 * h.val + 8 * k.val, 0, 5, .ro, 0⟩
/-- Their wait counters (R550). -/
def MEM.hWait (q : Fin 4) (h : Fin 64) (k : Fin 4) : Fld := ⟨(Page.mem q).hidBase + 4392 + 32 * h.val + 8 * k.val, 0, 8, .ro, 0⟩
/-- WAIT_MAX in force at channel h (R552). -/
def MEM.hWaitMax (q : Fin 4) (h : Fin 64) : Fld := ⟨(Page.mem q).hidBase + 6440 + 8 * h.val, 0, 8, .ro, 1⟩
/-- Refresh commands pending at channel h (R551). -/
def MEM.hRefresh (q : Fin 4) (h : Fin 64) : Fld := ⟨(Page.mem q).hidBase + 6952 + 8 * h.val, 0, 8, .ro, 0⟩
/-- Slots that the refresh command in progress still occupies. -/
def MEM.hRefSlots (q : Fin 4) (h : Fin 64) : Fld := ⟨(Page.mem q).hidBase + 7464 + 8 * h.val, 0, 6, .ro, 0⟩

/-! LANEGRP (10_client_lanes.md R397) -/

/-- The block registers of the page (R397). -/
def LANEGRP.regs : List RegD :=
[⟨0x040, 0, 1, 0, 1, [⟨0, 32, .ro, 0, .none⟩]⟩,
    ⟨0x100, 64, 8, 0, 1, [⟨3, 1, .rw, 0, .none⟩, ⟨2, 1, .rw, 0, .none⟩, ⟨1, 1, .rw, 0, .none⟩, ⟨0, 1, .rw, 0, .none⟩]⟩,
    ⟨0x104, 64, 8, 0, 1, [⟨24, 8, .rw, 0x50, .none⟩, ⟨18, 6, .rw, 0, .none⟩, ⟨12, 6, .rw, 0, .none⟩, ⟨6, 6, .rw, 0x38, .none⟩, ⟨0, 6, .rw, 0, .none⟩]⟩,
    ⟨0x108, 64, 8, 0, 1, [⟨31, 1, .rw, 0, .none⟩, ⟨30, 1, .rw, 0, .none⟩, ⟨0, 6, .rw, 0, .u 0 40⟩]⟩,
    ⟨0x10C, 64, 8, 0, 1, [⟨1, 1, .w1s, 0, .none⟩, ⟨0, 1, .w1s, 0, .none⟩]⟩,
    ⟨0x110, 64, 8, 0, 1, [⟨31, 1, .ro, 0, .none⟩, ⟨30, 1, .ro, 0, .none⟩, ⟨29, 1, .ro, 0, .none⟩, ⟨28, 1, .ro, 0, .none⟩, ⟨16, 7, .ro, 0, .none⟩, ⟨8, 8, .ro, 0, .none⟩, ⟨0, 8, .ro, 0, .none⟩]⟩,
    ⟨0x114, 64, 8, 0, 1, [⟨31, 1, .rw, 0, .none⟩, ⟨30, 1, .rw, 0, .none⟩, ⟨28, 2, .rw, 0, .none⟩, ⟨27, 1, .rw, 0, .none⟩, ⟨26, 1, .w1s, 0, .none⟩]⟩,
    ⟨0x118, 64, 8, 0, 1, [⟨0, 32, .ro, 0, .none⟩]⟩,
    ⟨0x11C, 64, 8, 0, 1, [⟨31, 1, .ro, 0, .none⟩, ⟨30, 1, .ro, 0, .none⟩, ⟨0, 16, .ro, 0, .none⟩]⟩,
    ⟨0x400, 64, 8, 0, 1, [⟨31, 1, .rw, 0, .none⟩, ⟨29, 2, .rw, 0, .none⟩, ⟨27, 2, .rw, 0, .none⟩, ⟨26, 1, .rw, 0, .none⟩]⟩,
    ⟨0x404, 64, 8, 0, 1, [⟨29, 3, .ro, 0, .none⟩, ⟨28, 1, .ro, 0, .none⟩, ⟨27, 1, .ro, 0, .none⟩, ⟨0, 8, .ro, 0, .none⟩]⟩,
    ⟨0x408, 64, 8, 0, 1, [⟨0, 16, .rw, 0, .none⟩]⟩]
  ++ [⟨0x40C, 64, 8, 0, 1, [⟨0, 16, .rw, 0, .none⟩]⟩,
    ⟨0x410, 64, 8, 8, 4, [⟨0, 32, .rol, 0, .none⟩]⟩,
    ⟨0x414, 64, 8, 8, 4, [⟨31, 1, .rol, 0, .none⟩, ⟨0, 16, .rol, 0, .none⟩]⟩]

def LANEGRP.LANE_CTRL_RX_INV (g : Fin 32) (r : Fin 8) : Fld := ⟨(Page.lanegrp g).base + 0x100 + 64 * r.val, 3, 1, .rw, 0⟩
def LANEGRP.LANE_CTRL_TX_INV (g : Fin 32) (r : Fin 8) : Fld := ⟨(Page.lanegrp g).base + 0x100 + 64 * r.val, 2, 1, .rw, 0⟩
def LANEGRP.LANE_CTRL_LPBK (g : Fin 32) (r : Fin 8) : Fld := ⟨(Page.lanegrp g).base + 0x100 + 64 * r.val, 1, 1, .rw, 0⟩
def LANEGRP.LANE_CTRL_EN (g : Fin 32) (r : Fin 8) : Fld := ⟨(Page.lanegrp g).base + 0x100 + 64 * r.val, 0, 1, .rw, 0⟩
def LANEGRP.TX_EQ_SWING (g : Fin 32) (r : Fin 8) : Fld := ⟨(Page.lanegrp g).base + 0x104 + 64 * r.val, 24, 8, .rw, 0x50⟩
def LANEGRP.TX_EQ_PRE3 (g : Fin 32) (r : Fin 8) : Fld := ⟨(Page.lanegrp g).base + 0x104 + 64 * r.val, 18, 6, .rw, 0⟩
def LANEGRP.TX_EQ_PRE2 (g : Fin 32) (r : Fin 8) : Fld := ⟨(Page.lanegrp g).base + 0x104 + 64 * r.val, 12, 6, .rw, 0⟩
def LANEGRP.TX_EQ_PRE1 (g : Fin 32) (r : Fin 8) : Fld := ⟨(Page.lanegrp g).base + 0x104 + 64 * r.val, 6, 6, .rw, 0x38⟩
def LANEGRP.TX_EQ_POST1 (g : Fin 32) (r : Fin 8) : Fld := ⟨(Page.lanegrp g).base + 0x104 + 64 * r.val, 0, 6, .rw, 0⟩
def LANEGRP.RX_EQ_MODE (g : Fin 32) (r : Fin 8) : Fld := ⟨(Page.lanegrp g).base + 0x108 + 64 * r.val, 31, 1, .rw, 0⟩
def LANEGRP.RX_EQ_EQ_FREEZE (g : Fin 32) (r : Fin 8) : Fld := ⟨(Page.lanegrp g).base + 0x108 + 64 * r.val, 30, 1, .rw, 0⟩
def LANEGRP.RX_EQ_PEAK (g : Fin 32) (r : Fin 8) : Fld := ⟨(Page.lanegrp g).base + 0x108 + 64 * r.val, 0, 6, .rw, 0⟩
def LANEGRP.LANE_CMD_SLIP (g : Fin 32) (r : Fin 8) : Fld := ⟨(Page.lanegrp g).base + 0x10C + 64 * r.val, 1, 1, .w1s, 0⟩
def LANEGRP.LANE_CMD_RESTART (g : Fin 32) (r : Fin 8) : Fld := ⟨(Page.lanegrp g).base + 0x10C + 64 * r.val, 0, 1, .w1s, 0⟩
def LANEGRP.LANE_STAT_CLK_PRESENT (g : Fin 32) (r : Fin 8) : Fld := ⟨(Page.lanegrp g).base + 0x110 + 64 * r.val, 31, 1, .ro, 0⟩
def LANEGRP.LANE_STAT_CDR_LOCK (g : Fin 32) (r : Fin 8) : Fld := ⟨(Page.lanegrp g).base + 0x110 + 64 * r.val, 30, 1, .ro, 0⟩
def LANEGRP.LANE_STAT_EQ_CONV (g : Fin 32) (r : Fin 8) : Fld := ⟨(Page.lanegrp g).base + 0x110 + 64 * r.val, 29, 1, .ro, 0⟩
def LANEGRP.LANE_STAT_TXEQ_REJ (g : Fin 32) (r : Fin 8) : Fld := ⟨(Page.lanegrp g).base + 0x110 + 64 * r.val, 28, 1, .ro, 0⟩
def LANEGRP.LANE_STAT_SLIP_POS (g : Fin 32) (r : Fin 8) : Fld := ⟨(Page.lanegrp g).base + 0x110 + 64 * r.val, 16, 7, .ro, 0⟩
def LANEGRP.LANE_STAT_EYE_H (g : Fin 32) (r : Fin 8) : Fld := ⟨(Page.lanegrp g).base + 0x110 + 64 * r.val, 8, 8, .ro, 0⟩
def LANEGRP.LANE_STAT_EYE_V (g : Fin 32) (r : Fin 8) : Fld := ⟨(Page.lanegrp g).base + 0x110 + 64 * r.val, 0, 8, .ro, 0⟩
def LANEGRP.PRBS_CTRL_TX_EN (g : Fin 32) (r : Fin 8) : Fld := ⟨(Page.lanegrp g).base + 0x114 + 64 * r.val, 31, 1, .rw, 0⟩
def LANEGRP.PRBS_CTRL_RX_EN (g : Fin 32) (r : Fin 8) : Fld := ⟨(Page.lanegrp g).base + 0x114 + 64 * r.val, 30, 1, .rw, 0⟩
def LANEGRP.PRBS_CTRL_PATTERN (g : Fin 32) (r : Fin 8) : Fld := ⟨(Page.lanegrp g).base + 0x114 + 64 * r.val, 28, 2, .rw, 0⟩
def LANEGRP.PRBS_CTRL_MANUAL (g : Fin 32) (r : Fin 8) : Fld := ⟨(Page.lanegrp g).base + 0x114 + 64 * r.val, 27, 1, .rw, 0⟩
def LANEGRP.PRBS_CTRL_CLR (g : Fin 32) (r : Fin 8) : Fld := ⟨(Page.lanegrp g).base + 0x114 + 64 * r.val, 26, 1, .w1s, 0⟩
def LANEGRP.PRBS_ERR_LO (g : Fin 32) (r : Fin 8) : Fld := ⟨(Page.lanegrp g).base + 0x118 + 64 * r.val, 0, 32, .ro, 0⟩
def LANEGRP.PRBS_ERR_HI_SATURATED (g : Fin 32) (r : Fin 8) : Fld := ⟨(Page.lanegrp g).base + 0x11C + 64 * r.val, 31, 1, .ro, 0⟩
def LANEGRP.PRBS_ERR_HI_LOCKED (g : Fin 32) (r : Fin 8) : Fld := ⟨(Page.lanegrp g).base + 0x11C + 64 * r.val, 30, 1, .ro, 0⟩
def LANEGRP.PRBS_ERR_HI_COUNT (g : Fin 32) (r : Fin 8) : Fld := ⟨(Page.lanegrp g).base + 0x11C + 64 * r.val, 0, 16, .ro, 0⟩
def LANEGRP.PORT_CFG_EN (g : Fin 32) (n : Fin 8) : Fld := ⟨(Page.lanegrp g).base + 0x400 + 64 * n.val, 31, 1, .rw, 0⟩
def LANEGRP.PORT_CFG_USE (g : Fin 32) (n : Fin 8) : Fld := ⟨(Page.lanegrp g).base + 0x400 + 64 * n.val, 29, 2, .rw, 0⟩
def LANEGRP.PORT_CFG_RATE (g : Fin 32) (n : Fin 8) : Fld := ⟨(Page.lanegrp g).base + 0x400 + 64 * n.val, 27, 2, .rw, 0⟩
def LANEGRP.PORT_CFG_TS_EN (g : Fin 32) (n : Fin 8) : Fld := ⟨(Page.lanegrp g).base + 0x400 + 64 * n.val, 26, 1, .rw, 0⟩
def LANEGRP.PORT_STAT_STATE (g : Fin 32) (n : Fin 8) : Fld := ⟨(Page.lanegrp g).base + 0x404 + 64 * n.val, 29, 3, .ro, 0⟩
def LANEGRP.PORT_STAT_HI_SER (g : Fin 32) (n : Fin 8) : Fld := ⟨(Page.lanegrp g).base + 0x404 + 64 * n.val, 28, 1, .ro, 0⟩
def LANEGRP.PORT_STAT_RF_RX (g : Fin 32) (n : Fin 8) : Fld := ⟨(Page.lanegrp g).base + 0x404 + 64 * n.val, 27, 1, .ro, 0⟩
def LANEGRP.PORT_STAT_LANES_ALIGNED (g : Fin 32) (n : Fin 8) : Fld := ⟨(Page.lanegrp g).base + 0x404 + 64 * n.val, 0, 8, .ro, 0⟩
def LANEGRP.TS_ADJ_TX (g : Fin 32) (n : Fin 8) : Fld := ⟨(Page.lanegrp g).base + 0x408 + 64 * n.val, 0, 16, .rw, 0⟩
def LANEGRP.TS_ADJ_RX (g : Fin 32) (n : Fin 8) : Fld := ⟨(Page.lanegrp g).base + 0x40C + 64 * n.val, 0, 16, .rw, 0⟩
def LANEGRP.CNT_LO (g : Fin 32) (n : Fin 8) (i : Fin 4) : Fld := ⟨(Page.lanegrp g).base + 0x410 + 64 * n.val + 8 * i.val, 0, 32, .rol, 0⟩
def LANEGRP.CNT_HI_SATURATED (g : Fin 32) (n : Fin 8) (i : Fin 4) : Fld := ⟨(Page.lanegrp g).base + 0x414 + 64 * n.val + 8 * i.val, 31, 1, .rol, 0⟩
def LANEGRP.CNT_HI_COUNT (g : Fin 32) (n : Fin 8) (i : Fin 4) : Fld := ⟨(Page.lanegrp g).base + 0x414 + 64 * n.val + 8 * i.val, 0, 16, .rol, 0⟩
/-- MODE and PEAK of lane r as last sampled, MODE in bit 6 (R381). -/
def LANEGRP.hMode (g : Fin 32) (r : Fin 8) : Fld := ⟨(Page.lanegrp g).hidBase + 0 + 8 * r.val, 0, 7, .ro, 0⟩
/-- USE, RATE and TS_EN of port n as sampled, in bits 4 to 3, 2 to 1 and 0 (R387). -/
def LANEGRP.hCfg (g : Fin 32) (n : Fin 8) : Fld := ⟨(Page.lanegrp g).hidBase + 64 + 8 * n.val, 0, 5, .ro, 0⟩
/-- Running counters of port n in the interval (R396). -/
def LANEGRP.hCnt (g : Fin 32) (n : Fin 8) (i : Fin 4) : Fld := ⟨(Page.lanegrp g).hidBase + 128 + 32 * n.val + 8 * i.val, 0, 49, .ro, 0⟩

/-! HTR (16_monitor_thermal.md R607) -/

/-- The block registers of the page (R607). -/
def HTR.regs : List RegD :=
[⟨0x048, 0, 1, 0, 1, [⟨0, 32, .ro, 0, .none⟩]⟩,
    ⟨0x040, 0, 1, 0, 1, [⟨0, 10, .rw, 0x3D9, .u 0 985⟩]⟩,
    ⟨0x044, 0, 1, 0, 1, [⟨31, 1, .ro, 0, .none⟩, ⟨30, 1, .ro, 0, .none⟩, ⟨29, 1, .w1c, 0, .none⟩, ⟨0, 10, .ro, 0, .none⟩]⟩,
    ⟨0x04C, 0, 1, 0, 1, [⟨0, 16, .rw, 0x2AF8, .u 8000 12500⟩]⟩,
    ⟨0x100, 16, 32, 0, 1, [⟨0, 13, .rw, 0, .u 0 6000⟩]⟩,
    ⟨0x104, 16, 32, 0, 1, [⟨31, 1, .rw, 0, .none⟩, ⟨24, 6, .rw, 0, .none⟩, ⟨16, 8, .rw, 0, .none⟩, ⟨0, 8, .rw, 0, .none⟩]⟩,
    ⟨0x108, 16, 32, 0, 1, [⟨16, 13, .rw, 0x1770, .u 0 6000⟩, ⟨0, 13, .rw, 0, .u 0 6000⟩]⟩,
    ⟨0x10C, 16, 32, 0, 1, [⟨31, 1, .w1c, 0, .none⟩, ⟨30, 1, .w1s, 0, .none⟩, ⟨26, 3, .ro, 0, .none⟩, ⟨0, 13, .ro, 0, .none⟩]⟩]

def HTR.HTR_CFG_TOT_LIM (q : Fin 4) : Fld := ⟨(Page.htr q).base + 0x040, 0, 10, .rw, 0x3D9⟩
def HTR.HTR_STAT_VDD_OK (q : Fin 4) : Fld := ⟨(Page.htr q).base + 0x044, 31, 1, .ro, 0⟩
def HTR.HTR_STAT_TRIP (q : Fin 4) : Fld := ⟨(Page.htr q).base + 0x044, 30, 1, .ro, 0⟩
def HTR.HTR_STAT_ILIM_REJ (q : Fin 4) : Fld := ⟨(Page.htr q).base + 0x044, 29, 1, .w1c, 0⟩
def HTR.TRIP_CFG_THERM_TRIP (q : Fin 4) : Fld := ⟨(Page.htr q).base + 0x04C, 0, 16, .rw, 0x2AF8⟩
def HTR.SETPT (q : Fin 4) (h : Fin 32) : Fld := ⟨(Page.htr q).base + 0x100 + 16 * h.val, 0, 13, .rw, 0⟩
def HTR.CH_CFG_EN (q : Fin 4) (h : Fin 32) : Fld := ⟨(Page.htr q).base + 0x104 + 16 * h.val, 31, 1, .rw, 0⟩
def HTR.CH_CFG_OWNER (q : Fin 4) (h : Fin 32) : Fld := ⟨(Page.htr q).base + 0x104 + 16 * h.val, 24, 6, .rw, 0⟩
def HTR.CH_CFG_WD_TICKS (q : Fin 4) (h : Fin 32) : Fld := ⟨(Page.htr q).base + 0x104 + 16 * h.val, 16, 8, .rw, 0⟩
def HTR.CH_CFG_SLEW (q : Fin 4) (h : Fin 32) : Fld := ⟨(Page.htr q).base + 0x104 + 16 * h.val, 0, 8, .rw, 0⟩
def HTR.CH_LIM_MAX (q : Fin 4) (h : Fin 32) : Fld := ⟨(Page.htr q).base + 0x108 + 16 * h.val, 16, 13, .rw, 0x1770⟩
def HTR.CH_LIM_SAFE (q : Fin 4) (h : Fin 32) : Fld := ⟨(Page.htr q).base + 0x108 + 16 * h.val, 0, 13, .rw, 0⟩
def HTR.CH_STAT_FAULTED (q : Fin 4) (h : Fin 32) : Fld := ⟨(Page.htr q).base + 0x10C + 16 * h.val, 31, 1, .w1c, 0⟩
def HTR.CH_STAT_FORCE_SAFE (q : Fin 4) (h : Fin 32) : Fld := ⟨(Page.htr q).base + 0x10C + 16 * h.val, 30, 1, .w1s, 0⟩
def HTR.CH_STAT_CAUSE (q : Fin 4) (h : Fin 32) : Fld := ⟨(Page.htr q).base + 0x10C + 16 * h.val, 26, 3, .ro, 0⟩
def HTR.CH_STAT_OUT (q : Fin 4) (h : Fin 32) : Fld := ⟨(Page.htr q).base + 0x10C + 16 * h.val, 0, 13, .ro, 0⟩
/-- A soft reset has set the target of channel h to 0 (R607). -/
def HTR.hZero (q : Fin 4) (h : Fin 32) : Fld := ⟨(Page.htr q).hidBase + 0 + 8 * h.val, 0, 1, .ro, 0⟩
/-- Ticks since the owner last wrote SETPT of channel h (R598). -/
def HTR.hStale (q : Fin 4) (h : Fin 32) : Fld := ⟨(Page.htr q).hidBase + 256 + 8 * h.val, 0, 16, .ro, 0⟩
/-- The source of channel h cannot deliver OUT (R598). -/
def HTR.hOpen (q : Fin 4) (h : Fin 32) : Fld := ⟨(Page.htr q).hidBase + 512 + 8 * h.val, 0, 1, .ro, 0⟩
/-- The sensed current of channel h exceeds its limit (R598). -/
def HTR.hShort (q : Fin 4) (h : Fin 32) : Fld := ⟨(Page.htr q).hidBase + 768 + 8 * h.val, 0, 1, .ro, 0⟩
/-- The substrate reading of the last tick of Tumbler 16's program, 0.01 °C (R604). -/
def HTR.hRead (q : Fin 4) : Fld := ⟨(Page.htr q).hidBase + 1024, 0, 16, .ro, 0⟩
/-- There is such a reading. -/
def HTR.hHasRead (q : Fin 4) : Fld := ⟨(Page.htr q).hidBase + 1032, 0, 1, .ro, 0⟩
/-- The last credible reading, 0.01 °C (R605). -/
def HTR.hCred (q : Fin 4) : Fld := ⟨(Page.htr q).hidBase + 1040, 0, 16, .ro, 0⟩
/-- The working target, in 1/1,250 of 0.01 °C (R603). -/
def HTR.hWork (q : Fin 4) : Fld := ⟨(Page.htr q).hidBase + 1048, 0, 32, .ro, 0⟩
/-- The integral of the substrate loop, signed, in 1/125,000 of 10 µA (R603). -/
def HTR.hAccu (q : Fin 4) : Fld := ⟨(Page.htr q).hidBase + 1056, 0, 64, .ro, 0⟩
/-- The current last written, 10 µA (R605). -/
def HTR.hCur (q : Fin 4) : Fld := ⟨(Page.htr q).hidBase + 1064, 0, 16, .ro, 0⟩
/-- Consecutive ticks without a credible reading, up to 2 (R604). -/
def HTR.hBadRead (q : Fin 4) : Fld := ⟨(Page.htr q).hidBase + 1072, 0, 2, .ro, 0⟩
/-- Consecutive ticks of credible readings, up to 1,250 (R604). -/
def HTR.hGoodRead (q : Fin 4) : Fld := ⟨(Page.htr q).hidBase + 1080, 0, 16, .ro, 0⟩
/-- The sensor of the quadrant is suspended (R604). -/
def HTR.hSuspend (q : Fin 4) : Fld := ⟨(Page.htr q).hidBase + 1088, 0, 1, .ro, 0⟩
/-- Consecutive ticks outside the alarm band, up to 1,250 (R604). -/
def HTR.hOutBand (q : Fin 4) : Fld := ⟨(Page.htr q).hidBase + 1096, 0, 16, .ro, 0⟩
/-- VDD_HTR is outside its recommended range (R598). -/
def HTR.hSupply (q : Fin 4) : Fld := ⟨(Page.htr q).hidBase + 1104, 0, 1, .ro, 0⟩

/-! QINT (02_register_model.md R91) -/

/-- The block registers of the page (R91). -/
def QINT.regs : List RegD :=
[⟨0x040, 0, 1, 0, 1, [⟨0, 32, .ro, 0, .none⟩]⟩,
    ⟨0x044, 0, 1, 0, 1, [⟨0, 32, .rw, 0x00FFFF0F, .none⟩]⟩]

def QINT.SUM_EN (q : Fin 4) : Fld := ⟨(Page.qint q).base + 0x044, 0, 32, .rw, 0x00FFFF0F⟩

/-! CONV (03_line_converters.md R701) -/

/-- The block registers of the page (R701). -/
def CONV.regs : List RegD :=
[⟨0x040, 0, 1, 0, 1, [⟨1, 1, .rw, 0, .none⟩, ⟨0, 1, .rw, 0, .none⟩]⟩,
    ⟨0x044, 0, 1, 0, 1, [⟨31, 1, .ro, 0, .none⟩, ⟨30, 1, .ro, 0, .none⟩, ⟨29, 1, .ro, 0, .none⟩, ⟨28, 1, .ro, 0, .none⟩, ⟨0, 16, .ro, 0, .none⟩]⟩,
    ⟨0x048, 0, 1, 0, 1, [⟨0, 8, .rw, 0x9C, .i (-100) (10)⟩]⟩,
    ⟨0x04C, 0, 1, 0, 1, [⟨24, 8, .rw, 4, .u 0 60⟩, ⟨8, 8, .rw, 0x14, .u 1 100⟩, ⟨0, 8, .rw, 0x14, .u 1 100⟩]⟩,
    ⟨0x050, 0, 1, 0, 1, [⟨1, 1, .w1s, 0, .none⟩, ⟨0, 1, .w1s, 0, .none⟩]⟩,
    ⟨0x054, 0, 1, 0, 1, [⟨29, 3, .ro, 0, .none⟩, ⟨28, 1, .ro, 0, .none⟩, ⟨0, 16, .ro, 0, .none⟩]⟩,
    ⟨0x058, 0, 1, 0, 1, [⟨8, 4, .rw, 8, .none⟩, ⟨0, 8, .rw, 0xD0, .none⟩]⟩,
    ⟨0x05C, 0, 1, 0, 1, [⟨31, 1, .ro, 1, .none⟩, ⟨30, 1, .ro, 0, .none⟩, ⟨29, 1, .ro, 0, .none⟩, ⟨16, 8, .ro, 0, .none⟩, ⟨0, 16, .ro, 0, .none⟩]⟩,
    ⟨0x060, 0, 1, 0, 1, [⟨17, 1, .w1s, 0, .none⟩, ⟨16, 1, .rw, 1, .none⟩, ⟨8, 8, .rw, 0x1E, .none⟩, ⟨0, 8, .rw, 4, .none⟩]⟩,
    ⟨0x070, 8, 4, 0, 1, [⟨31, 1, .ro, 0, .none⟩, ⟨30, 1, .ro, 0, .none⟩, ⟨29, 1, .ro, 0, .none⟩, ⟨16, 8, .ro, 0, .none⟩, ⟨0, 16, .ro, 0, .none⟩]⟩,
    ⟨0x074, 8, 4, 0, 1, [⟨0, 16, .ro, 0, .none⟩]⟩]

def CONV.LASER_CTRL_AUTO_RELIGHT (c : Fin 16) : Fld := ⟨(Page.conv c).base + 0x040, 1, 1, .rw, 0⟩
def CONV.LASER_CTRL_EN (c : Fin 16) : Fld := ⟨(Page.conv c).base + 0x040, 0, 1, .rw, 0⟩
def CONV.LASER_STAT_LASER_EN (c : Fin 16) : Fld := ⟨(Page.conv c).base + 0x044, 31, 1, .ro, 0⟩
def CONV.LASER_STAT_LIGHT (c : Fin 16) : Fld := ⟨(Page.conv c).base + 0x044, 30, 1, .ro, 0⟩
def CONV.LASER_STAT_IN_RANGE (c : Fin 16) : Fld := ⟨(Page.conv c).base + 0x044, 29, 1, .ro, 0⟩
def CONV.LASER_STAT_MEAS_VALID (c : Fin 16) : Fld := ⟨(Page.conv c).base + 0x044, 28, 1, .ro, 0⟩
def CONV.LASER_STAT_PWR (c : Fin 16) : Fld := ⟨(Page.conv c).base + 0x044, 0, 16, .ro, 0⟩
def CONV.TX_TARGET_TARGET (c : Fin 16) : Fld := ⟨(Page.conv c).base + 0x048, 0, 8, .rw, 0x9C⟩
def CONV.TX_RAMP_BURST (c : Fin 16) : Fld := ⟨(Page.conv c).base + 0x04C, 24, 8, .rw, 4⟩
def CONV.TX_RAMP_DN_MS (c : Fin 16) : Fld := ⟨(Page.conv c).base + 0x04C, 8, 8, .rw, 0x14⟩
def CONV.TX_RAMP_UP_MS (c : Fin 16) : Fld := ⟨(Page.conv c).base + 0x04C, 0, 8, .rw, 0x14⟩
def CONV.TX_CMD_OFF (c : Fin 16) : Fld := ⟨(Page.conv c).base + 0x050, 1, 1, .w1s, 0⟩
def CONV.TX_CMD_ON (c : Fin 16) : Fld := ⟨(Page.conv c).base + 0x050, 0, 1, .w1s, 0⟩
def CONV.TX_STAT_STATE (c : Fin 16) : Fld := ⟨(Page.conv c).base + 0x054, 29, 3, .ro, 0⟩
def CONV.TX_STAT_PWR_DEV (c : Fin 16) : Fld := ⟨(Page.conv c).base + 0x054, 28, 1, .ro, 0⟩
def CONV.TX_STAT_PWR (c : Fin 16) : Fld := ⟨(Page.conv c).base + 0x054, 0, 16, .ro, 0⟩
def CONV.RX_OSD_HYST (c : Fin 16) : Fld := ⟨(Page.conv c).base + 0x058, 8, 4, .rw, 8⟩
def CONV.RX_OSD_THR (c : Fin 16) : Fld := ⟨(Page.conv c).base + 0x058, 0, 8, .rw, 0xD0⟩
def CONV.RX_STAT_SIG_ABSENT (c : Fin 16) : Fld := ⟨(Page.conv c).base + 0x05C, 31, 1, .ro, 1⟩
def CONV.RX_STAT_OVERLOAD (c : Fin 16) : Fld := ⟨(Page.conv c).base + 0x05C, 30, 1, .ro, 0⟩
def CONV.RX_STAT_AGC_HOLD (c : Fin 16) : Fld := ⟨(Page.conv c).base + 0x05C, 29, 1, .ro, 0⟩
def CONV.RX_STAT_TIA_GAIN (c : Fin 16) : Fld := ⟨(Page.conv c).base + 0x05C, 16, 8, .ro, 0⟩
def CONV.RX_STAT_PWR (c : Fin 16) : Fld := ⟨(Page.conv c).base + 0x05C, 0, 16, .ro, 0⟩
def CONV.MIS_CTRL_RESTORE (c : Fin 16) : Fld := ⟨(Page.conv c).base + 0x060, 17, 1, .w1s, 0⟩
def CONV.MIS_CTRL_BG_EN (c : Fin 16) : Fld := ⟨(Page.conv c).base + 0x060, 16, 1, .rw, 1⟩
def CONV.MIS_CTRL_THR (c : Fin 16) : Fld := ⟨(Page.conv c).base + 0x060, 8, 8, .rw, 0x1E⟩
def CONV.MIS_CTRL_INTERVAL (c : Fin 16) : Fld := ⟨(Page.conv c).base + 0x060, 0, 8, .rw, 4⟩
def CONV.MIS_STAT0_CONVERGED (c : Fin 16) (n : Fin 4) : Fld := ⟨(Page.conv c).base + 0x070 + 8 * n.val, 31, 1, .ro, 0⟩
def CONV.MIS_STAT0_ACTIVE (c : Fin 16) (n : Fin 4) : Fld := ⟨(Page.conv c).base + 0x070 + 8 * n.val, 30, 1, .ro, 0⟩
def CONV.MIS_STAT0_SKIPPED (c : Fin 16) (n : Fin 4) : Fld := ⟨(Page.conv c).base + 0x070 + 8 * n.val, 29, 1, .ro, 0⟩
def CONV.MIS_STAT0_SLICES_AT_LIMIT (c : Fin 16) (n : Fin 4) : Fld := ⟨(Page.conv c).base + 0x070 + 8 * n.val, 16, 8, .ro, 0⟩
def CONV.MIS_STAT0_UPDATES (c : Fin 16) (n : Fin 4) : Fld := ⟨(Page.conv c).base + 0x070 + 8 * n.val, 0, 16, .ro, 0⟩
def CONV.MIS_STAT1_RESIDUAL (c : Fin 16) (n : Fin 4) : Fld := ⟨(Page.conv c).base + 0x074 + 8 * n.val, 0, 16, .ro, 0⟩
/-- Output level of the transmitter under its ramp, signed, 0.000001 dBm units (R117). -/
def CONV.hLevel (c : Fin 16) : Fld := ⟨(Page.conv c).hidBase + 0, 0, 40, .ro, 0⟩
/-- UP_MS of the ramp in progress (R119). -/
def CONV.hUpMs (c : Fin 16) : Fld := ⟨(Page.conv c).hidBase + 8, 0, 7, .ro, 0x14⟩
/-- DN_MS of the ramp in progress (R119). -/
def CONV.hDnMs (c : Fin 16) : Fld := ⟨(Page.conv c).hidBase + 16, 0, 7, .ro, 0x14⟩
/-- Ticks in LIT or BURST_GATED, up to 255 (R120). -/
def CONV.hLitTicks (c : Fin 16) : Fld := ⟨(Page.conv c).hidBase + 24, 0, 8, .ro, 0⟩
/-- Consecutive ticks with the power more than 1.0 dB off (R120). -/
def CONV.hDevCnt (c : Fin 16) : Fld := ⟨(Page.conv c).hidBase + 32, 0, 8, .ro, 0⟩
/-- Consecutive ticks with the power within 0.5 dB (R120). -/
def CONV.hOkCnt (c : Fin 16) : Fld := ⟨(Page.conv c).hidBase + 40, 0, 8, .ro, 0⟩
/-- Consecutive ticks with LIGHT = 1 in SHUTTERED (R122). -/
def CONV.hRelight (c : Fin 16) : Fld := ⟨(Page.conv c).hidBase + 48, 0, 8, .ro, 0⟩
/-- RESTORE is due at the next tick (R107). -/
def CONV.hRestore (c : Fin 16) : Fld := ⟨(Page.conv c).hidBase + 56, 0, 1, .ro, 0⟩
/-- Ticks since the last applied update of ADC n (R102). -/
def CONV.hMisTicks (c : Fin 16) (n : Fin 4) : Fld := ⟨(Page.conv c).hidBase + 64 + 8 * n.val, 0, 9, .ro, 511⟩
/-- SIG_ABSENT was 1 during the accumulation of ADC n (R104). -/
def CONV.hMisAbsent (c : Fin 16) (n : Fin 4) : Fld := ⟨(Page.conv c).hidBase + 96 + 8 * n.val, 0, 1, .ro, 0⟩
/-- Ticks that the accumulation of ADC n has run, up to 511 (R102). -/
def CONV.hMisAcc (c : Fin 16) (n : Fin 4) : Fld := ⟨(Page.conv c).hidBase + 128 + 8 * n.val, 0, 9, .ro, 0⟩
/-- Consecutive applied updates with RESIDUAL at or below -40.0 dBc (R105). -/
def CONV.hMisGood (c : Fin 16) (n : Fin 4) : Fld := ⟨(Page.conv c).hidBase + 160 + 8 * n.val, 0, 3, .ro, 0⟩
/-- Correction k (offset, gain, skew, bandwidth) of slice i of ADC n, signed, in eighths of its resolution (R100, R103). -/
def CONV.hCorr (c : Fin 16) (n : Fin 4) (i : Fin 64) (k : Fin 4) : Fld := ⟨(Page.conv c).hidBase + 192 + 2048 * n.val + 32 * i.val + 8 * k.val, 0, 16, .ro, 0⟩
/-- The same, of the last successful foreground calibration (R107). -/
def CONV.hForegnd (c : Fin 16) (n : Fin 4) (i : Fin 64) (k : Fin 4) : Fld := ⟨(Page.conv c).hidBase + 8384 + 2048 * n.val + 32 * i.val + 8 * k.val, 0, 16, .ro, 0⟩

/-! CAL (03_line_converters.md R140) -/

/-- The block registers of the page (R140). -/
def CAL.regs : List RegD :=
[⟨0x040, 0, 1, 0, 1, [⟨3, 1, .w1s, 0, .none⟩, ⟨2, 1, .rw, 0, .none⟩, ⟨1, 1, .rw, 0, .none⟩, ⟨0, 1, .w1s, 0, .none⟩]⟩,
    ⟨0x044, 0, 1, 0, 1, [⟨31, 1, .ro, 0, .none⟩, ⟨28, 3, .ro, 0, .none⟩, ⟨24, 4, .ro, 0, .none⟩, ⟨20, 4, .ro, 0, .none⟩, ⟨19, 1, .ro, 0, .none⟩, ⟨18, 1, .ro, 0, .none⟩]⟩,
    ⟨0x048, 0, 1, 0, 1, [⟨0, 32, .ro, 0, .none⟩]⟩,
    ⟨0x04C, 0, 1, 0, 1, [⟨31, 1, .ro, 0, .none⟩, ⟨0, 16, .ro, 0, .none⟩]⟩,
    ⟨0x050, 0, 1, 0, 1, [⟨0, 32, .ro, 0, .none⟩]⟩,
    ⟨0x054, 0, 1, 0, 1, [⟨0, 30, .ro, 0, .none⟩]⟩,
    ⟨0x058, 0, 1, 0, 1, [⟨31, 1, .ro, 0, .none⟩, ⟨28, 3, .ro, 0, .none⟩, ⟨24, 1, .ro, 0, .none⟩, ⟨0, 24, .ro, 0, .none⟩]⟩,
    ⟨0x05C, 0, 1, 0, 1, [⟨0, 1, .rw, 1, .none⟩]⟩]

def CAL.CAL_CTRL_ABORT (c : Fin 16) : Fld := ⟨(Page.cal c).base + 0x040, 3, 1, .w1s, 0⟩
def CAL.CAL_CTRL_FULL (c : Fin 16) : Fld := ⟨(Page.cal c).base + 0x040, 2, 1, .rw, 0⟩
def CAL.CAL_CTRL_FORCE (c : Fin 16) : Fld := ⟨(Page.cal c).base + 0x040, 1, 1, .rw, 0⟩
def CAL.CAL_CTRL_START (c : Fin 16) : Fld := ⟨(Page.cal c).base + 0x040, 0, 1, .w1s, 0⟩
def CAL.CAL_STAT_BUSY (c : Fin 16) : Fld := ⟨(Page.cal c).base + 0x044, 31, 1, .ro, 0⟩
def CAL.CAL_STAT_RESULT (c : Fin 16) : Fld := ⟨(Page.cal c).base + 0x044, 28, 3, .ro, 0⟩
def CAL.CAL_STAT_CAUSE (c : Fin 16) : Fld := ⟨(Page.cal c).base + 0x044, 24, 4, .ro, 0⟩
def CAL.CAL_STAT_PHASE (c : Fin 16) : Fld := ⟨(Page.cal c).base + 0x044, 20, 4, .ro, 0⟩
def CAL.CAL_STAT_FULL_RUN (c : Fin 16) : Fld := ⟨(Page.cal c).base + 0x044, 19, 1, .ro, 0⟩
def CAL.CAL_STAT_DEFAULTS (c : Fin 16) : Fld := ⟨(Page.cal c).base + 0x044, 18, 1, .ro, 0⟩
def CAL.CAL_COUNT (c : Fin 16) : Fld := ⟨(Page.cal c).base + 0x048, 0, 32, .ro, 0⟩
def CAL.LAST_SEC_HI_TIME_VALID (c : Fin 16) : Fld := ⟨(Page.cal c).base + 0x04C, 31, 1, .ro, 0⟩
def CAL.LAST_SEC_HI_SEC (c : Fin 16) : Fld := ⟨(Page.cal c).base + 0x04C, 0, 16, .ro, 0⟩
def CAL.LAST_SEC_LO (c : Fin 16) : Fld := ⟨(Page.cal c).base + 0x050, 0, 32, .ro, 0⟩
def CAL.LAST_NS (c : Fin 16) : Fld := ⟨(Page.cal c).base + 0x054, 0, 30, .ro, 0⟩
def CAL.NVM_STAT_STORE_BUSY (c : Fin 16) : Fld := ⟨(Page.cal c).base + 0x058, 31, 1, .ro, 0⟩
def CAL.NVM_STAT_LAST (c : Fin 16) : Fld := ⟨(Page.cal c).base + 0x058, 28, 3, .ro, 0⟩
def CAL.NVM_STAT_COPY (c : Fin 16) : Fld := ⟨(Page.cal c).base + 0x058, 24, 1, .ro, 0⟩
def CAL.NVM_STAT_SEQ (c : Fin 16) : Fld := ⟨(Page.cal c).base + 0x058, 0, 24, .ro, 0⟩
def CAL.NVM_CTRL_STORE_EN (c : Fin 16) : Fld := ⟨(Page.cal c).base + 0x05C, 0, 1, .rw, 1⟩
/-- The carrier holds valid calibration values (R125). -/
def CAL.hVals (c : Fin 16) : Fld := ⟨(Page.cal c).hidBase + 0, 0, 1, .ro, 0⟩
/-- Ticks since the calibration that runs, or the last, began, up to 2,047 (R126). -/
def CAL.hTicks (c : Fin 16) : Fld := ⟨(Page.cal c).hidBase + 8, 0, 11, .ro, 0⟩
/-- One further store follows the running one (R138). -/
def CAL.hStoreNext (c : Fin 16) : Fld := ⟨(Page.cal c).hidBase + 16, 0, 1, .ro, 0⟩
/-- A soft reset in progress aborted a calibration (R140). -/
def CAL.hResetAbort (c : Fin 16) : Fld := ⟨(Page.cal c).hidBase + 24, 0, 1, .ro, 0⟩
/-- A copy of the flash record is in use (R137). -/
def CAL.hRecValid (c : Fin 16) : Fld := ⟨(Page.cal c).hidBase + 32, 0, 1, .ro, 0⟩

/-! TXDSP (04_transmit_dsp.md R172) -/

/-- The block registers of the page (R172). -/
def TXDSP.regs : List RegD :=
[⟨0x044, 0, 1, 0, 1, [⟨0, 32, .ro, 0, .none⟩]⟩,
    ⟨0x040, 0, 1, 0, 1, [⟨30, 2, .rw, 0, .none⟩, ⟨28, 2, .rw, 0, .none⟩, ⟨16, 6, .rw, 0x20, .none⟩, ⟨0, 8, .rw, 0xA8, .none⟩]⟩,
    ⟨0x048, 0, 1, 0, 1, [⟨31, 1, .rw, 1, .none⟩, ⟨16, 8, .rw, 0, .none⟩, ⟨0, 8, .rw, 0x20, .u 25 40⟩]⟩,
    ⟨0x04C, 0, 1, 0, 1, [⟨31, 1, .rw, 1, .none⟩, ⟨0, 4, .rw, 6, .u 0 10⟩]⟩,
    ⟨0x050, 0, 1, 0, 1, [⟨0, 16, .rw, 0, .i (-5000) (5000)⟩]⟩,
    ⟨0x060, 4, 4, 0, 1, [⟨0, 12, .rw, 0, .i (-1000) (1000)⟩]⟩,
    ⟨0x070, 4, 4, 0, 1, [⟨0, 12, .ro, 0, .none⟩]⟩,
    ⟨0x080, 0, 1, 0, 1, [⟨31, 1, .rw, 1, .none⟩, ⟨30, 1, .w1s, 0, .none⟩, ⟨16, 8, .rw, 4, .none⟩, ⟨0, 16, .rw, 0xD20, .none⟩]⟩,
    ⟨0x084, 0, 1, 0, 1, [⟨31, 1, .ro, 0, .none⟩, ⟨30, 1, .ro, 0, .none⟩, ⟨29, 1, .ro, 0, .none⟩, ⟨26, 3, .ro, 0, .none⟩, ⟨23, 3, .ro, 0, .none⟩, ⟨20, 3, .ro, 0, .none⟩, ⟨0, 16, .ro, 0, .none⟩]⟩,
    ⟨0x088, 0, 1, 0, 1, [⟨16, 16, .ro, 0, .none⟩, ⟨0, 16, .ro, 0, .none⟩]⟩,
    ⟨0x08C, 0, 1, 0, 1, [⟨0, 32, .ro, 0, .none⟩]⟩,
    ⟨0x090, 0, 1, 0, 1, [⟨0, 32, .rol, 0, .none⟩]⟩]
  ++ [⟨0x094, 0, 1, 0, 1, [⟨31, 1, .rol, 0, .none⟩, ⟨0, 16, .rol, 0, .none⟩]⟩]

def TXDSP.MODE_LINE_MODE (c : Fin 16) : Fld := ⟨(Page.txdsp c).base + 0x040, 30, 2, .rw, 0⟩
def TXDSP.MODE_FEC_RATE (c : Fin 16) : Fld := ⟨(Page.txdsp c).base + 0x040, 28, 2, .rw, 0⟩
def TXDSP.MODE_N (c : Fin 16) : Fld := ⟨(Page.txdsp c).base + 0x040, 16, 6, .rw, 0x20⟩
def TXDSP.MODE_SC_RATE (c : Fin 16) : Fld := ⟨(Page.txdsp c).base + 0x040, 0, 8, .rw, 0xA8⟩
def TXDSP.SHAPE_CTRL_WHITEN_EN (c : Fin 16) : Fld := ⟨(Page.txdsp c).base + 0x048, 31, 1, .rw, 1⟩
def TXDSP.SHAPE_CTRL_TILT (c : Fin 16) : Fld := ⟨(Page.txdsp c).base + 0x048, 16, 8, .rw, 0⟩
def TXDSP.SHAPE_CTRL_CLIP (c : Fin 16) : Fld := ⟨(Page.txdsp c).base + 0x048, 0, 8, .rw, 0x20⟩
def TXDSP.PILOT_CTRL_EN (c : Fin 16) : Fld := ⟨(Page.txdsp c).base + 0x04C, 31, 1, .rw, 1⟩
def TXDSP.PILOT_CTRL_LVL (c : Fin 16) : Fld := ⟨(Page.txdsp c).base + 0x04C, 0, 4, .rw, 6⟩
def TXDSP.FREQ_SHIFT (c : Fin 16) : Fld := ⟨(Page.txdsp c).base + 0x050, 0, 16, .rw, 0⟩
def TXDSP.SKEW_ADJ (c : Fin 16) (n : Fin 4) : Fld := ⟨(Page.txdsp c).base + 0x060 + 4 * n.val, 0, 12, .rw, 0⟩
def TXDSP.SKEW_CAL (c : Fin 16) (n : Fin 4) : Fld := ⟨(Page.txdsp c).base + 0x070 + 4 * n.val, 0, 12, .ro, 0⟩
def TXDSP.LOAD_CTRL_AUTO_ACCEPT (c : Fin 16) : Fld := ⟨(Page.txdsp c).base + 0x080, 31, 1, .rw, 1⟩
def TXDSP.LOAD_CTRL_FALLBACK_NOW (c : Fin 16) : Fld := ⟨(Page.txdsp c).base + 0x080, 30, 1, .w1s, 0⟩
def TXDSP.LOAD_CTRL_MIN_LEAD (c : Fin 16) : Fld := ⟨(Page.txdsp c).base + 0x080, 16, 8, .rw, 4⟩
def TXDSP.LOAD_CTRL_FB_AUTO (c : Fin 16) : Fld := ⟨(Page.txdsp c).base + 0x080, 0, 16, .rw, 0xD20⟩
def TXDSP.LOAD_STAT_FALLBACK_ACTIVE (c : Fin 16) : Fld := ⟨(Page.txdsp c).base + 0x084, 31, 1, .ro, 0⟩
def TXDSP.LOAD_STAT_SERVE_PENDING (c : Fin 16) : Fld := ⟨(Page.txdsp c).base + 0x084, 30, 1, .ro, 0⟩
def TXDSP.LOAD_STAT_REQ_PENDING (c : Fin 16) : Fld := ⟨(Page.txdsp c).base + 0x084, 29, 1, .ro, 0⟩
def TXDSP.LOAD_STAT_LAST_RX_TYPE (c : Fin 16) : Fld := ⟨(Page.txdsp c).base + 0x084, 26, 3, .ro, 0⟩
def TXDSP.LOAD_STAT_SENT_REASON (c : Fin 16) : Fld := ⟨(Page.txdsp c).base + 0x084, 23, 3, .ro, 0⟩
def TXDSP.LOAD_STAT_RCVD_REASON (c : Fin 16) : Fld := ⟨(Page.txdsp c).base + 0x084, 20, 3, .ro, 0⟩
def TXDSP.LOAD_STAT_LAST_SEQ (c : Fin 16) : Fld := ⟨(Page.txdsp c).base + 0x084, 0, 16, .ro, 0⟩
def TXDSP.LOAD_MFN_TX (c : Fin 16) : Fld := ⟨(Page.txdsp c).base + 0x088, 16, 16, .ro, 0⟩
def TXDSP.LOAD_MFN_RX (c : Fin 16) : Fld := ⟨(Page.txdsp c).base + 0x088, 0, 16, .ro, 0⟩
def TXDSP.LDMSG_ERR (c : Fin 16) : Fld := ⟨(Page.txdsp c).base + 0x08C, 0, 32, .ro, 0⟩
def TXDSP.CLIP_CNT_LO (c : Fin 16) : Fld := ⟨(Page.txdsp c).base + 0x090, 0, 32, .rol, 0⟩
def TXDSP.CLIP_CNT_HI_SATURATED (c : Fin 16) : Fld := ⟨(Page.txdsp c).base + 0x094, 31, 1, .rol, 0⟩
def TXDSP.CLIP_CNT_HI_COUNT (c : Fin 16) : Fld := ⟨(Page.txdsp c).base + 0x094, 0, 16, .rol, 0⟩
/-- MODE as last sampled (R143). -/
def TXDSP.hMode (c : Fin 16) : Fld := ⟨(Page.txdsp c).hidBase + 0, 0, 32, .ro, 0x002000A8⟩
/-- STATUS.BLOCK_STATE: 0 IDLE, 1 RUNNING, 2 CFG_ERROR, 3 FALLBACK (R172). -/
def TXDSP.hState (c : Fin 16) : Fld := ⟨(Page.txdsp c).hidBase + 8, 0, 2, .ro, 0⟩
/-- FREQ_SHIFT in force (R154). -/
def TXDSP.hFreq (c : Fin 16) : Fld := ⟨(Page.txdsp c).hidBase + 16, 0, 16, .ro, 0⟩
/-- The requester's sequence number (R164). -/
def TXDSP.hSeq (c : Fin 16) : Fld := ⟨(Page.txdsp c).hidBase + 24, 0, 16, .ro, 0⟩
/-- An ACCEPT for the pending request has arrived (R164). -/
def TXDSP.hAcc (c : Fin 16) : Fld := ⟨(Page.txdsp c).hidBase + 32, 0, 1, .ro, 0⟩
/-- A PROPOSE has been answered (R165). -/
def TXDSP.hAnsValid (c : Fin 16) : Fld := ⟨(Page.txdsp c).hidBase + 40, 0, 1, .ro, 0⟩
/-- SEQ of the PROPOSE last answered (R165). -/
def TXDSP.hAnsSeq (c : Fin 16) : Fld := ⟨(Page.txdsp c).hidBase + 48, 0, 16, .ro, 0⟩
/-- The answer is being sent (R165). -/
def TXDSP.hAnsOn (c : Fin 16) : Fld := ⟨(Page.txdsp c).hidBase + 56, 0, 1, .ro, 0⟩
/-- TYPE of the answer. -/
def TXDSP.hAnsType (c : Fin 16) : Fld := ⟨(Page.txdsp c).hidBase + 64, 0, 8, .ro, 0⟩
/-- TARGET_MFN of the answer. -/
def TXDSP.hAnsM (c : Fin 16) : Fld := ⟨(Page.txdsp c).hidBase + 72, 0, 16, .ro, 0⟩
/-- REASON of the answer. -/
def TXDSP.hAnsReason (c : Fin 16) : Fld := ⟨(Page.txdsp c).hidBase + 80, 0, 8, .ro, 0⟩
/-- The rows of the answer (R161). -/
def TXDSP.hAnsRow (c : Fin 16) (s : Fin 16) : Fld := ⟨(Page.txdsp c).hidBase + 88 + 8 * s.val, 0, 16, .ro, 0⟩
/-- Received multiframes since the last valid FALLBACK_REQ, up to 15 (R168). -/
def TXDSP.hFbAge (c : Fin 16) : Fld := ⟨(Page.txdsp c).hidBase + 216, 0, 4, .ro, 15⟩
/-- Transmit multiframes since the last valid loading message or fallback (R168). -/
def TXDSP.hFbCnt (c : Fin 16) : Fld := ⟨(Page.txdsp c).hidBase + 224, 0, 16, .ro, 0⟩
/-- A fallback is due at the next transmit multiframe (R169). -/
def TXDSP.hFbPend (c : Fin 16) : Fld := ⟨(Page.txdsp c).hidBase + 232, 0, 1, .ro, 0⟩
/-- The message type last sent in the turn of R163: 1 FALLBACK_REQ, 2 answer, 3 PROPOSE. -/
def TXDSP.hTurn (c : Fin 16) : Fld := ⟨(Page.txdsp c).hidBase + 240, 0, 2, .ro, 0⟩
/-- Clipped samples since the last PM second, bit 48 for saturation (R155). -/
def TXDSP.hClip (c : Fin 16) : Fld := ⟨(Page.txdsp c).hidBase + 248, 0, 49, .ro, 0⟩
/-- FALLBACK_REQ messages that a HUB carrier has counted and ignored (R296). -/
def TXDSP.hFbReqs (c : Fin 16) : Fld := ⟨(Page.txdsp c).hidBase + 256, 0, 32, .ro, 0⟩
/-- The pending hinge was armed by an order of R295. -/
def TXDSP.hOrder (c : Fin 16) : Fld := ⟨(Page.txdsp c).hidBase + 264, 0, 1, .ro, 0⟩

/-! RXDSP (05_receive_dsp.md R214) -/

/-- The block registers of the page (R214). -/
def RXDSP.regs : List RegD :=
[⟨0x040, 0, 1, 0, 1, [⟨30, 2, .rw, 0, .none⟩, ⟨28, 2, .rw, 0, .none⟩, ⟨16, 6, .rw, 0x20, .none⟩, ⟨0, 8, .rw, 0xA8, .none⟩]⟩,
    ⟨0x044, 0, 1, 0, 1, [⟨29, 3, .ro, 0, .none⟩, ⟨28, 1, .ro, 0, .none⟩, ⟨24, 4, .ro, 0, .none⟩, ⟨20, 4, .ro, 0, .none⟩, ⟨16, 3, .ro, 0, .none⟩, ⟨8, 8, .ro, 0, .none⟩]⟩,
    ⟨0x048, 0, 1, 0, 1, [⟨2, 1, .w1s, 0, .none⟩, ⟨1, 1, .w1s, 0, .none⟩, ⟨0, 1, .w1s, 0, .none⟩]⟩,
    ⟨0x04C, 0, 1, 0, 1, [⟨24, 8, .rw, 0, .none⟩, ⟨16, 8, .rw, 0x10, .none⟩, ⟨0, 16, .rw, 0x7D, .none⟩]⟩,
    ⟨0x050, 0, 1, 0, 1, [⟨1, 1, .rw, 1, .none⟩, ⟨0, 1, .rw, 1, .none⟩]⟩,
    ⟨0x054, 0, 1, 0, 1, [⟨31, 1, .ro, 0, .none⟩, ⟨16, 12, .ro, 0, .none⟩, ⟨0, 11, .ro, 0, .none⟩]⟩,
    ⟨0x058, 0, 1, 0, 1, [⟨31, 1, .ro, 0, .none⟩, ⟨16, 12, .ro, 0, .none⟩, ⟨0, 11, .ro, 0, .none⟩]⟩,
    ⟨0x05C, 0, 1, 0, 1, [⟨0, 16, .rw, 0xFA0, .none⟩]⟩,
    ⟨0x060, 0, 1, 0, 1, [⟨31, 1, .ro, 0, .none⟩, ⟨30, 1, .ro, 0, .none⟩, ⟨29, 1, .ro, 0, .none⟩, ⟨0, 16, .ro, 0, .none⟩]⟩,
    ⟨0x064, 0, 1, 0, 1, [⟨30, 2, .rw, 0, .none⟩, ⟨0, 16, .rw, 0, .none⟩]⟩,
    ⟨0x068, 0, 1, 0, 1, [⟨31, 1, .ro, 0, .none⟩, ⟨0, 16, .ro, 0, .none⟩]⟩,
    ⟨0x06C, 0, 1, 0, 1, [⟨8, 1, .rw, 1, .none⟩, ⟨0, 4, .rw, 0xA, .u 6 14⟩]⟩]
  ++ [⟨0x070, 0, 1, 0, 1, [⟨0, 16, .rw, 0, .none⟩]⟩,
    ⟨0x074, 0, 1, 0, 1, [⟨0, 16, .w1s, 0, .none⟩]⟩,
    ⟨0x078, 0, 1, 0, 1, [⟨0, 2, .rw, 1, .none⟩]⟩,
    ⟨0x07C, 0, 1, 0, 1, [⟨0, 2, .rw, 2, .none⟩]⟩,
    ⟨0x080, 0, 1, 0, 1, [⟨31, 1, .ro, 0, .none⟩, ⟨0, 16, .ro, 0, .none⟩]⟩,
    ⟨0x084, 0, 1, 0, 1, [⟨8, 8, .rw, 0, .none⟩, ⟨0, 4, .rw, 4, .u 0 10⟩]⟩,
    ⟨0x088, 0, 1, 0, 1, [⟨16, 16, .ro, 0, .none⟩, ⟨0, 16, .ro, 0, .none⟩]⟩,
    ⟨0x08C, 0, 1, 0, 1, [⟨0, 32, .rol, 0, .none⟩]⟩,
    ⟨0x090, 0, 1, 0, 1, [⟨31, 1, .rol, 0, .none⟩, ⟨0, 16, .rol, 0, .none⟩]⟩,
    ⟨0x0A0, 0, 1, 0, 1, [⟨31, 1, .w1s, 0, .none⟩, ⟨30, 1, .w1s, 0, .none⟩, ⟨28, 2, .rw, 0, .none⟩, ⟨25, 3, .rw, 0, .none⟩, ⟨16, 4, .rw, 0, .none⟩, ⟨0, 16, .rw, 0, .none⟩]⟩,
    ⟨0x0A4, 0, 1, 0, 1, [⟨31, 1, .ro, 0, .none⟩, ⟨30, 1, .ro, 0, .none⟩, ⟨29, 1, .ro, 0, .none⟩, ⟨28, 1, .ro, 0, .none⟩, ⟨0, 16, .ro, 0, .none⟩]⟩,
    ⟨0x200, 16, 16, 0, 1, [⟨31, 1, .ro, 0, .none⟩, ⟨30, 1, .ro, 0, .none⟩, ⟨29, 1, .ro, 0, .none⟩, ⟨28, 1, .ro, 0, .none⟩, ⟨27, 1, .ro, 0, .none⟩, ⟨0, 16, .ro, 0, .none⟩]⟩]
  ++ [⟨0x204, 16, 16, 0, 1, [⟨16, 16, .ro, 0, .none⟩, ⟨0, 16, .ro, 0, .none⟩]⟩,
    ⟨0x208, 16, 16, 0, 1, [⟨16, 16, .ro, 0, .none⟩, ⟨8, 8, .ro, 0, .none⟩]⟩]

def RXDSP.MODE_LINE_MODE (c : Fin 16) : Fld := ⟨(Page.rxdsp c).base + 0x040, 30, 2, .rw, 0⟩
def RXDSP.MODE_FEC_RATE (c : Fin 16) : Fld := ⟨(Page.rxdsp c).base + 0x040, 28, 2, .rw, 0⟩
def RXDSP.MODE_N (c : Fin 16) : Fld := ⟨(Page.rxdsp c).base + 0x040, 16, 6, .rw, 0x20⟩
def RXDSP.MODE_SC_RATE (c : Fin 16) : Fld := ⟨(Page.rxdsp c).base + 0x040, 0, 8, .rw, 0xA8⟩
def RXDSP.CARRIER_STAT_STATE (c : Fin 16) : Fld := ⟨(Page.rxdsp c).base + 0x044, 29, 3, .ro, 0⟩
def RXDSP.CARRIER_STAT_CFG_ERROR (c : Fin 16) : Fld := ⟨(Page.rxdsp c).base + 0x044, 28, 1, .ro, 0⟩
def RXDSP.CARRIER_STAT_ACQ_STAGE (c : Fin 16) : Fld := ⟨(Page.rxdsp c).base + 0x044, 24, 4, .ro, 0⟩
def RXDSP.CARRIER_STAT_LAST_CAUSE (c : Fin 16) : Fld := ⟨(Page.rxdsp c).base + 0x044, 20, 4, .ro, 0⟩
def RXDSP.CARRIER_STAT_DEG_CAUSE (c : Fin 16) : Fld := ⟨(Page.rxdsp c).base + 0x044, 16, 3, .ro, 0⟩
def RXDSP.CARRIER_STAT_FAIL_CNT (c : Fin 16) : Fld := ⟨(Page.rxdsp c).base + 0x044, 8, 8, .ro, 0⟩
def RXDSP.RX_CMD_REACQ (c : Fin 16) : Fld := ⟨(Page.rxdsp c).base + 0x048, 2, 1, .w1s, 0⟩
def RXDSP.RX_CMD_RESTORE (c : Fin 16) : Fld := ⟨(Page.rxdsp c).base + 0x048, 1, 1, .w1s, 0⟩
def RXDSP.RX_CMD_OOS (c : Fin 16) : Fld := ⟨(Page.rxdsp c).base + 0x048, 0, 1, .w1s, 0⟩
def RXDSP.ACQ_CTRL_ACQ_RETRY (c : Fin 16) : Fld := ⟨(Page.rxdsp c).base + 0x04C, 24, 8, .rw, 0⟩
def RXDSP.ACQ_CTRL_VERIFY_MF (c : Fin 16) : Fld := ⟨(Page.rxdsp c).base + 0x04C, 16, 8, .rw, 0x10⟩
def RXDSP.ACQ_CTRL_ACQ_TIMEOUT (c : Fin 16) : Fld := ⟨(Page.rxdsp c).base + 0x04C, 0, 16, .rw, 0x7D⟩
def RXDSP.FE_CTRL_IQ_EN (c : Fin 16) : Fld := ⟨(Page.rxdsp c).base + 0x050, 1, 1, .rw, 1⟩
def RXDSP.FE_CTRL_DESKEW_EN (c : Fin 16) : Fld := ⟨(Page.rxdsp c).base + 0x050, 0, 1, .rw, 1⟩
def RXDSP.FE_STAT0_IQ_LIMIT (c : Fin 16) : Fld := ⟨(Page.rxdsp c).base + 0x054, 31, 1, .ro, 0⟩
def RXDSP.FE_STAT0_GAIN (c : Fin 16) : Fld := ⟨(Page.rxdsp c).base + 0x054, 16, 12, .ro, 0⟩
def RXDSP.FE_STAT0_PHASE (c : Fin 16) : Fld := ⟨(Page.rxdsp c).base + 0x054, 0, 11, .ro, 0⟩
def RXDSP.FE_STAT1_IQ_LIMIT (c : Fin 16) : Fld := ⟨(Page.rxdsp c).base + 0x058, 31, 1, .ro, 0⟩
def RXDSP.FE_STAT1_GAIN (c : Fin 16) : Fld := ⟨(Page.rxdsp c).base + 0x058, 16, 12, .ro, 0⟩
def RXDSP.FE_STAT1_PHASE (c : Fin 16) : Fld := ⟨(Page.rxdsp c).base + 0x058, 0, 11, .ro, 0⟩
def RXDSP.FREQ_CTRL_WARN (c : Fin 16) : Fld := ⟨(Page.rxdsp c).base + 0x05C, 0, 16, .rw, 0xFA0⟩
def RXDSP.FREQ_STAT_VALID (c : Fin 16) : Fld := ⟨(Page.rxdsp c).base + 0x060, 31, 1, .ro, 0⟩
def RXDSP.FREQ_STAT_WARN (c : Fin 16) : Fld := ⟨(Page.rxdsp c).base + 0x060, 30, 1, .ro, 0⟩
def RXDSP.FREQ_STAT_OOR (c : Fin 16) : Fld := ⟨(Page.rxdsp c).base + 0x060, 29, 1, .ro, 0⟩
def RXDSP.FREQ_STAT_OFS (c : Fin 16) : Fld := ⟨(Page.rxdsp c).base + 0x060, 0, 16, .ro, 0⟩
def RXDSP.CD_CTRL_MODE (c : Fin 16) : Fld := ⟨(Page.rxdsp c).base + 0x064, 30, 2, .rw, 0⟩
def RXDSP.CD_CTRL_VALUE (c : Fin 16) : Fld := ⟨(Page.rxdsp c).base + 0x064, 0, 16, .rw, 0⟩
def RXDSP.CD_STAT_VALID (c : Fin 16) : Fld := ⟨(Page.rxdsp c).base + 0x068, 31, 1, .ro, 0⟩
def RXDSP.CD_STAT_CD (c : Fin 16) : Fld := ⟨(Page.rxdsp c).base + 0x068, 0, 16, .ro, 0⟩
def RXDSP.EQ_CTRL_LEAK_EN (c : Fin 16) : Fld := ⟨(Page.rxdsp c).base + 0x06C, 8, 1, .rw, 1⟩
def RXDSP.EQ_CTRL_MU (c : Fin 16) : Fld := ⟨(Page.rxdsp c).base + 0x06C, 0, 4, .rw, 0xA⟩
def RXDSP.EQ_FREEZE (c : Fin 16) : Fld := ⟨(Page.rxdsp c).base + 0x070, 0, 16, .rw, 0⟩
def RXDSP.EQ_CMD (c : Fin 16) : Fld := ⟨(Page.rxdsp c).base + 0x074, 0, 16, .w1s, 0⟩
def RXDSP.CR_CTRL_BW (c : Fin 16) : Fld := ⟨(Page.rxdsp c).base + 0x078, 0, 2, .rw, 1⟩
def RXDSP.TR_CTRL_BW (c : Fin 16) : Fld := ⟨(Page.rxdsp c).base + 0x07C, 0, 2, .rw, 2⟩
def RXDSP.TR_STAT_LOCK (c : Fin 16) : Fld := ⟨(Page.rxdsp c).base + 0x080, 31, 1, .ro, 0⟩
def RXDSP.TR_STAT_PPM (c : Fin 16) : Fld := ⟨(Page.rxdsp c).base + 0x080, 0, 16, .ro, 0⟩
def RXDSP.SNR_CTRL_SNR_DEG (c : Fin 16) : Fld := ⟨(Page.rxdsp c).base + 0x084, 8, 8, .rw, 0⟩
def RXDSP.SNR_CTRL_AVG (c : Fin 16) : Fld := ⟨(Page.rxdsp c).base + 0x084, 0, 4, .rw, 4⟩
def RXDSP.ACQ_COUNTS_LOSS_CNT (c : Fin 16) : Fld := ⟨(Page.rxdsp c).base + 0x088, 16, 16, .ro, 0⟩
def RXDSP.ACQ_COUNTS_ACQ_CNT (c : Fin 16) : Fld := ⟨(Page.rxdsp c).base + 0x088, 0, 16, .ro, 0⟩
def RXDSP.CS_CNT_LO (c : Fin 16) : Fld := ⟨(Page.rxdsp c).base + 0x08C, 0, 32, .rol, 0⟩
def RXDSP.CS_CNT_HI_SATURATED (c : Fin 16) : Fld := ⟨(Page.rxdsp c).base + 0x090, 31, 1, .rol, 0⟩
def RXDSP.CS_CNT_HI_COUNT (c : Fin 16) : Fld := ⟨(Page.rxdsp c).base + 0x090, 0, 16, .rol, 0⟩
def RXDSP.CAP_CTRL_ARM (c : Fin 16) : Fld := ⟨(Page.rxdsp c).base + 0x0A0, 31, 1, .w1s, 0⟩
def RXDSP.CAP_CTRL_ABORT (c : Fin 16) : Fld := ⟨(Page.rxdsp c).base + 0x0A0, 30, 1, .w1s, 0⟩
def RXDSP.CAP_CTRL_SRC (c : Fin 16) : Fld := ⟨(Page.rxdsp c).base + 0x0A0, 28, 2, .rw, 0⟩
def RXDSP.CAP_CTRL_TRIG (c : Fin 16) : Fld := ⟨(Page.rxdsp c).base + 0x0A0, 25, 3, .rw, 0⟩
def RXDSP.CAP_CTRL_SEL (c : Fin 16) : Fld := ⟨(Page.rxdsp c).base + 0x0A0, 16, 4, .rw, 0⟩
def RXDSP.CAP_CTRL_LEN (c : Fin 16) : Fld := ⟨(Page.rxdsp c).base + 0x0A0, 0, 16, .rw, 0⟩
def RXDSP.CAP_STAT_ARMED (c : Fin 16) : Fld := ⟨(Page.rxdsp c).base + 0x0A4, 31, 1, .ro, 0⟩
def RXDSP.CAP_STAT_RUNNING (c : Fin 16) : Fld := ⟨(Page.rxdsp c).base + 0x0A4, 30, 1, .ro, 0⟩
def RXDSP.CAP_STAT_DONE (c : Fin 16) : Fld := ⟨(Page.rxdsp c).base + 0x0A4, 29, 1, .ro, 0⟩
def RXDSP.CAP_STAT_ABORTED (c : Fin 16) : Fld := ⟨(Page.rxdsp c).base + 0x0A4, 28, 1, .ro, 0⟩
def RXDSP.CAP_STAT_WORDS (c : Fin 16) : Fld := ⟨(Page.rxdsp c).base + 0x0A4, 0, 16, .ro, 0⟩
def RXDSP.SC_STAT0_SC_LOCK (c : Fin 16) (s : Fin 16) : Fld := ⟨(Page.rxdsp c).base + 0x200 + 16 * s.val, 31, 1, .ro, 0⟩
def RXDSP.SC_STAT0_VALID (c : Fin 16) (s : Fin 16) : Fld := ⟨(Page.rxdsp c).base + 0x200 + 16 * s.val, 30, 1, .ro, 0⟩
def RXDSP.SC_STAT0_CONV_UNCONV (c : Fin 16) (s : Fin 16) : Fld := ⟨(Page.rxdsp c).base + 0x200 + 16 * s.val, 29, 1, .ro, 0⟩
def RXDSP.SC_STAT0_FROZEN (c : Fin 16) (s : Fin 16) : Fld := ⟨(Page.rxdsp c).base + 0x200 + 16 * s.val, 28, 1, .ro, 0⟩
def RXDSP.SC_STAT0_EN (c : Fin 16) (s : Fin 16) : Fld := ⟨(Page.rxdsp c).base + 0x200 + 16 * s.val, 27, 1, .ro, 0⟩
def RXDSP.SC_STAT0_SNR (c : Fin 16) (s : Fin 16) : Fld := ⟨(Page.rxdsp c).base + 0x200 + 16 * s.val, 0, 16, .ro, 0⟩
def RXDSP.SC_STAT1_SNR_DIFF (c : Fin 16) (s : Fin 16) : Fld := ⟨(Page.rxdsp c).base + 0x204 + 16 * s.val, 16, 16, .ro, 0⟩
def RXDSP.SC_STAT1_SLIPS (c : Fin 16) (s : Fin 16) : Fld := ⟨(Page.rxdsp c).base + 0x204 + 16 * s.val, 0, 16, .ro, 0⟩
def RXDSP.SC_STAT2_DGD (c : Fin 16) (s : Fin 16) : Fld := ⟨(Page.rxdsp c).base + 0x208 + 16 * s.val, 16, 16, .ro, 0⟩
def RXDSP.SC_STAT2_SING (c : Fin 16) (s : Fin 16) : Fld := ⟨(Page.rxdsp c).base + 0x208 + 16 * s.val, 8, 8, .ro, 0⟩
/-- The line receive clock of the carrier is present (R30); STATUS.CLK_PRESENT of RXDSP, FEC, OTU and HUB. -/
def RXDSP.hLineClk (c : Fin 16) : Fld := ⟨(Page.rxdsp c).hidBase + 0, 0, 1, .ro, 0⟩
/-- MODE as last sampled (R174, R143). -/
def RXDSP.hMode (c : Fin 16) : Fld := ⟨(Page.rxdsp c).hidBase + 8, 0, 32, .ro, 0x002000A8⟩
/-- MODE was in range when last sampled. -/
def RXDSP.hModeOk (c : Fin 16) : Fld := ⟨(Page.rxdsp c).hidBase + 16, 0, 1, .ro, 0⟩
/-- Consecutive multiframes without an uncorrectable codeword in stage 8 (R202). -/
def RXDSP.hVerify (c : Fin 16) : Fld := ⟨(Page.rxdsp c).hidBase + 24, 0, 8, .ro, 0⟩
/-- The received multiframe in progress holds an uncorrectable codeword (R202). -/
def RXDSP.hVerifyBad (c : Fin 16) : Fld := ⟨(Page.rxdsp c).hidBase + 32, 0, 1, .ro, 0⟩
/-- Ticks since stage 2 of the attempt began (R203). -/
def RXDSP.hAcqTicks (c : Fin 16) : Fld := ⟨(Page.rxdsp c).hidBase + 40, 0, 16, .ro, 0⟩
/-- Consecutive ticks without a degrade condition (R205). -/
def RXDSP.hDegClr (c : Fin 16) : Fld := ⟨(Page.rxdsp c).hidBase + 48, 0, 8, .ro, 0⟩
/-- Ticks with SC_LOCK = 1 (R201). -/
def RXDSP.hSnrTicks (c : Fin 16) (s : Fin 16) : Fld := ⟨(Page.rxdsp c).hidBase + 56 + 8 * s.val, 0, 16, .ro, 0⟩
/-- Ticks since subcarrier s was last locked, up to 255 (R189). -/
def RXDSP.hSinceLock (c : Fin 16) (s : Fin 16) : Fld := ⟨(Page.rxdsp c).hidBase + 184 + 8 * s.val, 0, 8, .ro, 255⟩
/-- The adaptive residual of the delay of ADC n, signed, 0.01 ps (R175). -/
def RXDSP.hDeskew (c : Fin 16) (n : Fin 4) : Fld := ⟨(Page.rxdsp c).hidBase + 312 + 8 * n.val, 0, 16, .ro, 0⟩
/-- Cycle slips since the last PM second, bit 48 for saturation (R192). -/
def RXDSP.hSlipCnt (c : Fin 16) : Fld := ⟨(Page.rxdsp c).hidBase + 344, 0, 49, .ro, 0⟩
/-- The trigger of the armed capture has occurred (R211). -/
def RXDSP.hTrig (c : Fin 16) : Fld := ⟨(Page.rxdsp c).hidBase + 352, 0, 1, .ro, 0⟩
/-- The pending hinge was armed by an order of R295. -/
def RXDSP.hOrder (c : Fin 16) : Fld := ⟨(Page.rxdsp c).hidBase + 360, 0, 1, .ro, 0⟩

/-! FEC (06_soft_decision_coding.md R244) -/

/-- The block registers of the page (R244). -/
def FEC.regs : List RegD :=
[⟨0x040, 0, 1, 0, 1, [⟨8, 1, .rw, 1, .none⟩, ⟨0, 4, .rw, 0xC, .u 4 12⟩]⟩,
    ⟨0x044, 0, 1, 0, 1, [⟨31, 1, .ro, 0, .none⟩, ⟨30, 1, .ro, 0, .none⟩, ⟨29, 1, .ro, 0, .none⟩, ⟨28, 1, .ro, 0, .none⟩, ⟨24, 4, .ro, 0, .none⟩, ⟨0, 12, .ro, 0, .none⟩]⟩,
    ⟨0x048, 0, 1, 0, 1, [⟨0, 32, .ro, 0, .none⟩]⟩,
    ⟨0x04C, 0, 1, 0, 1, [⟨0, 32, .rw, 0x028F5C29, .none⟩]⟩,
    ⟨0x050, 0, 1, 0, 1, [⟨0, 32, .rw, 0x020C49BA, .none⟩]⟩,
    ⟨0x054, 0, 1, 0, 1, [⟨8, 8, .rw, 0x7D, .none⟩, ⟨0, 8, .rw, 0x7D, .none⟩]⟩,
    ⟨0x058, 0, 1, 0, 1, [⟨0, 32, .rw, 0x051EB852, .none⟩]⟩,
    ⟨0x05C, 0, 1, 0, 1, [⟨16, 16, .ro, 0, .none⟩, ⟨0, 16, .ro, 0, .none⟩]⟩,
    ⟨0x060, 8, 6, 0, 1, [⟨0, 32, .rol, 0, .none⟩]⟩,
    ⟨0x064, 8, 6, 0, 1, [⟨31, 1, .rol, 0, .none⟩, ⟨0, 16, .rol, 0, .none⟩]⟩,
    ⟨0x090, 0, 1, 0, 1, [⟨0, 32, .rol, 0, .none⟩]⟩]

def FEC.FEC_CTRL_EARLY_STOP (c : Fin 16) : Fld := ⟨(Page.fec c).base + 0x040, 8, 1, .rw, 1⟩
def FEC.FEC_CTRL_ITER_MAX (c : Fin 16) : Fld := ⟨(Page.fec c).base + 0x040, 0, 4, .rw, 0xC⟩
def FEC.FEC_STAT_CW_LOCK (c : Fin 16) : Fld := ⟨(Page.fec c).base + 0x044, 31, 1, .ro, 0⟩
def FEC.FEC_STAT_OUTER_LOCK (c : Fin 16) : Fld := ⟨(Page.fec c).base + 0x044, 30, 1, .ro, 0⟩
def FEC.FEC_STAT_DEG (c : Fin 16) : Fld := ⟨(Page.fec c).base + 0x044, 29, 1, .ro, 0⟩
def FEC.FEC_STAT_EXC (c : Fin 16) : Fld := ⟨(Page.fec c).base + 0x044, 28, 1, .ro, 0⟩
def FEC.FEC_STAT_ITER_ACT (c : Fin 16) : Fld := ⟨(Page.fec c).base + 0x044, 24, 4, .ro, 0⟩
def FEC.FEC_STAT_LAT_NS (c : Fin 16) : Fld := ⟨(Page.fec c).base + 0x044, 0, 12, .ro, 0⟩
def FEC.BER_TICK (c : Fin 16) : Fld := ⟨(Page.fec c).base + 0x048, 0, 32, .ro, 0⟩
def FEC.DEG_SET (c : Fin 16) : Fld := ⟨(Page.fec c).base + 0x04C, 0, 32, .rw, 0x028F5C29⟩
def FEC.DEG_CLR (c : Fin 16) : Fld := ⟨(Page.fec c).base + 0x050, 0, 32, .rw, 0x020C49BA⟩
def FEC.DEG_TIME_SET_TICKS (c : Fin 16) : Fld := ⟨(Page.fec c).base + 0x054, 8, 8, .rw, 0x7D⟩
def FEC.DEG_TIME_CLR_TICKS (c : Fin 16) : Fld := ⟨(Page.fec c).base + 0x054, 0, 8, .rw, 0x7D⟩
def FEC.EXC_THR (c : Fin 16) : Fld := ⟨(Page.fec c).base + 0x058, 0, 32, .rw, 0x051EB852⟩
def FEC.ALIGN_CNT_INNER (c : Fin 16) : Fld := ⟨(Page.fec c).base + 0x05C, 16, 16, .ro, 0⟩
def FEC.ALIGN_CNT_OUTER (c : Fin 16) : Fld := ⟨(Page.fec c).base + 0x05C, 0, 16, .ro, 0⟩
def FEC.CNT_LO (c : Fin 16) (k : Fin 6) : Fld := ⟨(Page.fec c).base + 0x060 + 8 * k.val, 0, 32, .rol, 0⟩
def FEC.CNT_HI_SATURATED (c : Fin 16) (k : Fin 6) : Fld := ⟨(Page.fec c).base + 0x064 + 8 * k.val, 31, 1, .rol, 0⟩
def FEC.CNT_HI_COUNT (c : Fin 16) (k : Fin 6) : Fld := ⟨(Page.fec c).base + 0x064 + 8 * k.val, 0, 16, .rol, 0⟩
def FEC.PRE_BER (c : Fin 16) : Fld := ⟨(Page.fec c).base + 0x090, 0, 32, .rol, 0⟩
/-- Running counts of CORR_BITS, DEC_BITS, CW_CNT, CW_NCONV, OUTER_CORR, UNCORR in the interval (R239). -/
def FEC.hRun (c : Fin 16) (k : Fin 6) : Fld := ⟨(Page.fec c).hidBase + 0 + 8 * k.val, 0, 49, .ro, 0⟩
/-- Running histogram counts in the interval (R241). -/
def FEC.hHist (c : Fin 16) (n : Fin 16) : Fld := ⟨(Page.fec c).hidBase + 48 + 8 * n.val, 0, 49, .ro, 0⟩
/-- CORR_BITS of the tick in progress (R240). -/
def FEC.hTickCorr (c : Fin 16) : Fld := ⟨(Page.fec c).hidBase + 176, 0, 64, .ro, 0⟩
/-- DEC_BITS of the tick in progress (R240). -/
def FEC.hTickDec (c : Fin 16) : Fld := ⟨(Page.fec c).hidBase + 184, 0, 64, .ro, 0⟩
/-- Consecutive ticks with BER_TICK above DEG_SET (R242). -/
def FEC.hSetCnt (c : Fin 16) : Fld := ⟨(Page.fec c).hidBase + 192, 0, 8, .ro, 0⟩
/-- Consecutive ticks with BER_TICK below DEG_CLR (R242). -/
def FEC.hClrCnt (c : Fin 16) : Fld := ⟨(Page.fec c).hidBase + 200, 0, 8, .ro, 0⟩
/-- Consecutive codewords of branch b (0 off a hub) that converge at the candidate alignment, up to 4 (R231). -/
def FEC.hConv (c : Fin 16) (b : Fin 16) : Fld := ⟨(Page.fec c).hidBase + 208 + 8 * b.val, 0, 3, .ro, 0⟩
/-- The candidate alignment of the last codeword decoded before lock (R231). -/
def FEC.hCand (c : Fin 16) (b : Fin 16) : Fld := ⟨(Page.fec c).hidBase + 336 + 8 * b.val, 0, 16, .ro, 0⟩
/-- The block phase of the last block judged (R232). -/
def FEC.hPhase (c : Fin 16) : Fld := ⟨(Page.fec c).hidBase + 464, 0, 17, .ro, 0⟩
/-- Consecutive non-converged codewords, up to 64 (R233). -/
def FEC.hNconv (c : Fin 16) : Fld := ⟨(Page.fec c).hidBase + 472, 0, 7, .ro, 0⟩
/-- Consecutive blocks at least 99 % clean at the candidate phase, up to 2 (R232). -/
def FEC.hGoodBlk (c : Fin 16) : Fld := ⟨(Page.fec c).hidBase + 480, 0, 2, .ro, 0⟩
/-- Consecutive blocks with more than 10 % uncorrectable components, up to 16 (R233). -/
def FEC.hBadBlk (c : Fin 16) : Fld := ⟨(Page.fec c).hidBase + 488, 0, 5, .ro, 0⟩

/-! OTU (08_line_framing.md R337) -/

/-- The block registers of the page (R337). -/
def OTU.regs : List RegD :=
[⟨0x044, 0, 1, 0, 1, [⟨0, 32, .ro, 0, .none⟩]⟩,
    ⟨0x040, 0, 1, 0, 1, [⟨31, 1, .rw, 1, .none⟩, ⟨30, 1, .rw, 1, .none⟩, ⟨28, 2, .rw, 0, .none⟩, ⟨27, 1, .rw, 0, .none⟩, ⟨24, 3, .rw, 0, .none⟩]⟩,
    ⟨0x048, 0, 1, 0, 1, [⟨16, 16, .ro, 0, .none⟩, ⟨0, 16, .ro, 0, .none⟩]⟩,
    ⟨0x04C, 0, 1, 0, 1, [⟨0, 32, .rol, 0, .none⟩]⟩,
    ⟨0x050, 0, 1, 0, 1, [⟨31, 1, .rol, 0, .none⟩, ⟨30, 1, .rol, 0, .none⟩, ⟨0, 16, .rol, 0, .none⟩]⟩,
    ⟨0x054, 0, 1, 0, 1, [⟨0, 6, .rw, 0, .none⟩]⟩]

def OTU.OTU_CTRL_AUTO_BDI (c : Fin 16) : Fld := ⟨(Page.otu c).base + 0x040, 31, 1, .rw, 1⟩
def OTU.OTU_CTRL_TIM_ACT (c : Fin 16) : Fld := ⟨(Page.otu c).base + 0x040, 30, 1, .rw, 1⟩
def OTU.OTU_CTRL_TIM_MODE (c : Fin 16) : Fld := ⟨(Page.otu c).base + 0x040, 28, 2, .rw, 0⟩
def OTU.OTU_CTRL_FORCE_BDI (c : Fin 16) : Fld := ⟨(Page.otu c).base + 0x040, 27, 1, .rw, 0⟩
def OTU.OTU_CTRL_FORCE_STAT (c : Fin 16) : Fld := ⟨(Page.otu c).base + 0x040, 24, 3, .rw, 0⟩
def OTU.MFN_TX (c : Fin 16) : Fld := ⟨(Page.otu c).base + 0x048, 16, 16, .ro, 0⟩
def OTU.MFN_RX (c : Fin 16) : Fld := ⟨(Page.otu c).base + 0x048, 0, 16, .ro, 0⟩
def OTU.PM_SEC (c : Fin 16) : Fld := ⟨(Page.otu c).base + 0x04C, 0, 32, .rol, 0⟩
def OTU.PM_TICKS_PARTIAL (c : Fin 16) : Fld := ⟨(Page.otu c).base + 0x050, 31, 1, .rol, 0⟩
def OTU.PM_TICKS_CLK_GAP (c : Fin 16) : Fld := ⟨(Page.otu c).base + 0x050, 30, 1, .rol, 0⟩
def OTU.PM_TICKS_TICKS (c : Fin 16) : Fld := ⟨(Page.otu c).base + 0x050, 0, 16, .rol, 0⟩
def OTU.ZR_PORT_LANE (c : Fin 16) : Fld := ⟨(Page.otu c).base + 0x054, 0, 6, .rw, 0⟩
/-- CLK_PRESENT read 0 at some time in the PM interval (R333). -/
def OTU.hClkGap (c : Fin 16) : Fld := ⟨(Page.otu c).hidBase + 0, 0, 1, .ro, 0⟩
/-- Framer state of stream i: 0 HUNT, 1 CANDIDATE, 2 FRAME, 3 ALIGNED. -/
def OTU.hFrmState (c : Fin 16) (i : Fin 16) : Fld := ⟨(Page.otu c).hidBase + 8 + 8 * i.val, 0, 2, .ro, 0⟩
/-- OOF of stream i (R319). -/
def OTU.hOof (c : Fin 16) (i : Fin 16) : Fld := ⟨(Page.otu c).hidBase + 136 + 8 * i.val, 0, 1, .ro, 0⟩
/-- dLOF of stream i as detected (R326). -/
def OTU.hLof (c : Fin 16) (i : Fin 16) : Fld := ⟨(Page.otu c).hidBase + 264 + 8 * i.val, 0, 1, .ro, 0⟩
/-- dLOM of stream i as detected (R326). -/
def OTU.hLom (c : Fin 16) (i : Fin 16) : Fld := ⟨(Page.otu c).hidBase + 392 + 8 * i.val, 0, 1, .ro, 0⟩
/-- Detected dAIS, dLCK, dOCI, dBDI, dTIM of stream i, from bit 0 (R326). -/
def OTU.hDet (c : Fin 16) (i : Fin 16) : Fld := ⟨(Page.otu c).hidBase + 520 + 8 * i.val, 0, 5, .ro, 0⟩
/-- What stream i reports: LOS, OOF, LOF, LOM, AIS, LCK, OCI, BDI, TIM, RPL, from bit 0 (R334). -/
def OTU.hDef (c : Fin 16) (i : Fin 16) : Fld := ⟨(Page.otu c).hidBase + 648 + 8 * i.val, 0, 10, .ro, 0⟩
/-- The same, gathered over the PM interval (R334). -/
def OTU.hDefSec (c : Fin 16) (i : Fin 16) : Fld := ⟨(Page.otu c).hidBase + 776 + 8 * i.val, 0, 10, .ro, 0⟩
/-- Received MFN of stream i (R312). -/
def OTU.hRxMfn (c : Fin 16) (i : Fin 16) : Fld := ⟨(Page.otu c).hidBase + 904 + 8 * i.val, 0, 16, .ro, 0⟩
/-- SIZE of the aligned stream i. -/
def OTU.hSize (c : Fin 16) (i : Fin 16) : Fld := ⟨(Page.otu c).hidBase + 1032 + 8 * i.val, 0, 10, .ro, 0⟩
/-- ACC_VALID of stream i. -/
def OTU.hAcc (c : Fin 16) (i : Fin 16) : Fld := ⟨(Page.otu c).hidBase + 1160 + 8 * i.val, 0, 1, .ro, 0⟩
/-- Slice-0 PM STAT of the last frame received. -/
def OTU.hRxStat (c : Fin 16) (i : Fin 16) : Fld := ⟨(Page.otu c).hidBase + 1288 + 8 * i.val, 0, 3, .ro, 0⟩
/-- Frame index expected next (R317). -/
def OTU.hMfas (c : Fin 16) (i : Fin 16) : Fld := ⟨(Page.otu c).hidBase + 1416 + 8 * i.val, 0, 8, .ro, 0⟩
/-- Consecutive errored frames (R319). -/
def OTU.hErr (c : Fin 16) (i : Fin 16) : Fld := ⟨(Page.otu c).hidBase + 1544 + 8 * i.val, 0, 3, .ro, 0⟩
/-- Consecutive CRC-valid frames with another MFN (R319). -/
def OTU.hMis (c : Fin 16) (i : Fin 16) : Fld := ⟨(Page.otu c).hidBase + 1672 + 8 * i.val, 0, 3, .ro, 0⟩
/-- Consecutive CRC-valid frames of one multiframe that carry the MFN of hV, up to 3 (R318). -/
def OTU.hRun (c : Fin 16) (i : Fin 16) : Fld := ⟨(Page.otu c).hidBase + 1800 + 8 * i.val, 0, 2, .ro, 0⟩
/-- The MFN those frames carry (R318). -/
def OTU.hV (c : Fin 16) (i : Fin 16) : Fld := ⟨(Page.otu c).hidBase + 1928 + 8 * i.val, 0, 16, .ro, 0⟩
/-- Three such frames have arrived in this multiframe (R318). -/
def OTU.hThree (c : Fin 16) (i : Fin 16) : Fld := ⟨(Page.otu c).hidBase + 2056 + 8 * i.val, 0, 1, .ro, 0⟩
/-- R318 is met. -/
def OTU.hMet (c : Fin 16) (i : Fin 16) : Fld := ⟨(Page.otu c).hidBase + 2184 + 8 * i.val, 0, 1, .ro, 0⟩
/-- FRAMED was entered from ALIGNED (R326). -/
def OTU.hFromAl (c : Fin 16) (i : Fin 16) : Fld := ⟨(Page.otu c).hidBase + 2312 + 8 * i.val, 0, 1, .ro, 0⟩
/-- MFAS wraps since then, up to 255 (R326). -/
def OTU.hLomMf (c : Fin 16) (i : Fin 16) : Fld := ⟨(Page.otu c).hidBase + 2440 + 8 * i.val, 0, 8, .ro, 0⟩
/-- Consecutive frames that meet the entry condition of AIS, LCK, OCI, BDI (R326). -/
def OTU.hDetIn (c : Fin 16) (i : Fin 16) (k : Fin 4) : Fld := ⟨(Page.otu c).hidBase + 2568 + 32 * i.val + 8 * k.val, 0, 3, .ro, 0⟩
/-- Consecutive frames that meet its exit condition (R326). -/
def OTU.hDetOut (c : Fin 16) (i : Fin 16) (k : Fin 4) : Fld := ⟨(Page.otu c).hidBase + 3080 + 32 * i.val + 8 * k.val, 0, 3, .ro, 0⟩
/-- The TTI cycle in progress has been received from its first frame (R321). -/
def OTU.hTtiWhole (c : Fin 16) (i : Fin 16) : Fld := ⟨(Page.otu c).hidBase + 3592 + 8 * i.val, 0, 1, .ro, 0⟩
/-- Consecutive TTI cycles with the bytes of hTtiLast, up to 3 (R321). -/
def OTU.hTtiRun (c : Fin 16) (i : Fin 16) : Fld := ⟨(Page.otu c).hidBase + 3720 + 8 * i.val, 0, 2, .ro, 0⟩
/-- TTI bytes of the cycle in progress. -/
def OTU.hTtiCur (c : Fin 16) (i : Fin 16) (w : Fin 8) : Fld := ⟨(Page.otu c).hidBase + 3848 + 64 * i.val + 8 * w.val, 0, 64, .ro, 0⟩
/-- TTI bytes of the last whole cycle. -/
def OTU.hTtiLast (c : Fin 16) (i : Fin 16) (w : Fin 8) : Fld := ⟨(Page.otu c).hidBase + 4872 + 64 * i.val + 8 * w.val, 0, 64, .ro, 0⟩
/-- TX_TTI as it stood at the first frame of the cycle being sent (R320). -/
def OTU.hTtiTx (c : Fin 16) (i : Fin 16) (w : Fin 8) : Fld := ⟨(Page.otu c).hidBase + 5896 + 64 * i.val + 8 * w.val, 0, 64, .ro, 0⟩
/-- Open candidates of the framer (R315). -/
def OTU.hCandN (c : Fin 16) (i : Fin 16) : Fld := ⟨(Page.otu c).hidBase + 6920 + 8 * i.val, 0, 3, .ro, 0⟩
/-- Candidate k in the order of opening: S in bits 57 to 48, f in 47 to 40, position in 39 to 0 (R314). -/
def OTU.hCand (c : Fin 16) (i : Fin 16) (k : Fin 4) : Fld := ⟨(Page.otu c).hidBase + 7048 + 32 * i.val + 8 * k.val, 0, 64, .ro, 0⟩
/-- Running counts of SM_BIP, SM_BEI, PM_BIP, PM_BEI, CRC_ERR, OOF_EVT, HUNT_DROP in the interval (R331). -/
def OTU.hCnt (c : Fin 16) (i : Fin 16) (k : Fin 7) : Fld := ⟨(Page.otu c).hidBase + 7560 + 56 * i.val + 8 * k.val, 0, 49, .ro, 0⟩
/-- BEI that the return stream sends for slice k: SM in bits 3 to 0, PM in 7 to 4 (R323). -/
def OTU.hBei (c : Fin 16) (i : Fin 16) (k : Fin 32) : Fld := ⟨(Page.otu c).hidBase + 8456 + 256 * i.val + 8 * k.val, 0, 8, .ro, 0⟩
/-- Index of the next frame sent; 256 until the next multiframe starts (R303). -/
def OTU.hFrame (c : Fin 16) : Fld := ⟨(Page.otu c).hidBase + 12552, 0, 9, .ro, 256⟩
/-- The next transmit multiframe is the first, numbered 0 (R311). -/
def OTU.hTxFirst (c : Fin 16) : Fld := ⟨(Page.otu c).hidBase + 12560, 0, 1, .ro, 1⟩
/-- PARTIAL of the interval in progress (R333). -/
def OTU.hPartial (c : Fin 16) : Fld := ⟨(Page.otu c).hidBase + 12568, 0, 1, .ro, 1⟩
/-- Departure timestamp of the transmit multiframe of stream i whose number is m modulo 256: 2^-16 ns in bits 95 to 0, the number in 111 to 96, held in 112 (R506). -/
def OTU.hDep (c : Fin 16) (i : Fin 16) (m : Fin 256) : Fld := ⟨(Page.otu c).hidBase + 12576 + 2048 * i.val + 8 * m.val, 0, 113, .ro, 0⟩
/-- The same of the received multiframes. -/
def OTU.hArr (c : Fin 16) (i : Fin 16) (m : Fin 256) : Fld := ⟨(Page.otu c).hidBase + 45344 + 2048 * i.val + 8 * m.val, 0, 113, .ro, 0⟩
/-- Number of the last received multiframe with a timestamp, plus 1; 0 without one. -/
def OTU.hArrLast (c : Fin 16) (i : Fin 16) : Fld := ⟨(Page.otu c).hidBase + 78112 + 8 * i.val, 0, 17, .ro, 0⟩
/-- OSMC bytes of frames 0 to 63 of the received multiframe (R505). -/
def OTU.hOsmRx (c : Fin 16) (i : Fin 16) (w : Fin 8) : Fld := ⟨(Page.otu c).hidBase + 78240 + 64 * i.val + 8 * w.val, 0, 64, .ro, 0⟩
/-- How many of them have been received without a gap. -/
def OTU.hOsmN (c : Fin 16) (i : Fin 16) : Fld := ⟨(Page.otu c).hidBase + 79264 + 8 * i.val, 0, 7, .ro, 0⟩
/-- The time message of the multiframe being sent. -/
def OTU.hOsmTx (c : Fin 16) (i : Fin 16) (w : Fin 8) : Fld := ⟨(Page.otu c).hidBase + 79392 + 64 * i.val + 8 * w.val, 0, 64, .ro, 0⟩
/-- Received multiframes since the last valid time sample, up to 255 (R478). -/
def OTU.hMfSince (c : Fin 16) (i : Fin 16) : Fld := ⟨(Page.otu c).hidBase + 80416 + 8 * i.val, 0, 8, .ro, 8⟩
/-- Index of the next branch frame of branch b; 256 until the next multiframe starts (R264). -/
def OTU.hBrFrame (c : Fin 16) (b : Fin 16) : Fld := ⟨(Page.otu c).hidBase + 80544 + 8 * b.val, 0, 9, .ro, 256⟩

/-! HUB (07_hub_and_leaf.md R300) -/

/-- The block registers of the page (R300). -/
def HUB.regs : List RegD :=
[⟨0x040, 0, 1, 0, 1, [⟨0, 2, .rwh, 0, .none⟩]⟩,
    ⟨0x044, 0, 1, 0, 1, [⟨0, 17, .rwh, 0x186A0, .none⟩]⟩,
    ⟨0x048, 0, 1, 0, 1, [⟨28, 4, .rw, 6, .none⟩, ⟨16, 10, .rw, 0x100, .u 32 1023⟩, ⟨0, 8, .rw, 4, .none⟩]⟩,
    ⟨0x04C, 0, 1, 0, 1, [⟨16, 16, .rw, 0x4E2, .none⟩, ⟨8, 8, .rw, 8, .none⟩]⟩,
    ⟨0x050, 0, 1, 0, 1, [⟨0, 17, .rw, 0, .none⟩]⟩,
    ⟨0x054, 0, 1, 0, 1, [⟨0, 17, .rw, 0x7530, .none⟩]⟩,
    ⟨0x058, 0, 1, 0, 1, [⟨0, 3, .rw, 0, .none⟩]⟩,
    ⟨0x05C, 0, 1, 0, 1, [⟨16, 16, .ro, 0, .none⟩, ⟨0, 9, .ro, 0, .none⟩]⟩,
    ⟨0x060, 0, 1, 0, 1, [⟨31, 1, .w1c, 0, .none⟩, ⟨16, 4, .ro, 0, .none⟩, ⟨0, 12, .ro, 0, .none⟩]⟩,
    ⟨0x080, 4, 16, 0, 1, [⟨29, 3, .ro, 0, .none⟩, ⟨28, 1, .ro, 0, .none⟩, ⟨16, 5, .ro, 0, .none⟩]⟩,
    ⟨0x0C0, 0, 1, 0, 1, [⟨31, 1, .rwh, 0, .none⟩, ⟨16, 12, .rwh, 0, .none⟩, ⟨12, 4, .rwh, 0, .none⟩, ⟨8, 4, .rwh, 0, .none⟩]⟩,
    ⟨0x0C4, 0, 1, 0, 1, [⟨0, 10, .rwh, 0, .none⟩]⟩]
  ++ [⟨0x0C8, 0, 1, 0, 1, [⟨0, 16, .rw, 0x1F4, .none⟩]⟩,
    ⟨0x0CC, 0, 1, 0, 1, [⟨29, 3, .ro, 0, .none⟩, ⟨28, 1, .ro, 0, .none⟩, ⟨8, 8, .ro, 0, .none⟩, ⟨0, 8, .ro, 0, .none⟩]⟩,
    ⟨0x0D0, 0, 1, 0, 1, [⟨0, 32, .ro, 0, .none⟩]⟩,
    ⟨0x100, 8, 8, 0, 1, [⟨0, 32, .rol, 0, .none⟩]⟩,
    ⟨0x104, 8, 8, 0, 1, [⟨31, 1, .rol, 0, .none⟩, ⟨0, 16, .rol, 0, .none⟩]⟩]

def HUB.CAR_MODE (c : Fin 16) : Fld := ⟨(Page.hub c).base + 0x040, 0, 2, .rwh, 0⟩
def HUB.EQ_RTD (c : Fin 16) : Fld := ⟨(Page.hub c).base + 0x044, 0, 17, .rwh, 0x186A0⟩
def HUB.CAP_CFG_RECAP_DB (c : Fin 16) : Fld := ⟨(Page.hub c).base + 0x048, 28, 4, .rw, 6⟩
def HUB.CAP_CFG_CAP_TOL (c : Fin 16) : Fld := ⟨(Page.hub c).base + 0x048, 16, 10, .rw, 0x100⟩
def HUB.CAP_CFG_RANGE_TOL (c : Fin 16) : Fld := ⟨(Page.hub c).base + 0x048, 0, 8, .rw, 4⟩
def HUB.LEAF_POL_CTX_AGE (c : Fin 16) : Fld := ⟨(Page.hub c).base + 0x04C, 16, 16, .rw, 0x4E2⟩
def HUB.LEAF_POL_LOS_GRANTS (c : Fin 16) : Fld := ⟨(Page.hub c).base + 0x04C, 8, 8, .rw, 8⟩
def HUB.DISC_RTT_MIN (c : Fin 16) : Fld := ⟨(Page.hub c).base + 0x050, 0, 17, .rw, 0⟩
def HUB.DISC_RTT_MAX (c : Fin 16) : Fld := ⟨(Page.hub c).base + 0x054, 0, 17, .rw, 0x7530⟩
def HUB.DISC_CFG_SPREAD_LOG2 (c : Fin 16) : Fld := ⟨(Page.hub c).base + 0x058, 0, 3, .rw, 0⟩
def HUB.HUB_STAT_GCN (c : Fin 16) : Fld := ⟨(Page.hub c).base + 0x05C, 16, 16, .ro, 0⟩
def HUB.HUB_STAT_ACTIVE (c : Fin 16) : Fld := ⟨(Page.hub c).base + 0x05C, 0, 9, .ro, 0⟩
def HUB.UNKNOWN_ID_VALID (c : Fin 16) : Fld := ⟨(Page.hub c).base + 0x060, 31, 1, .w1c, 0⟩
def HUB.UNKNOWN_ID_BRANCH (c : Fin 16) : Fld := ⟨(Page.hub c).base + 0x060, 16, 4, .ro, 0⟩
def HUB.UNKNOWN_ID_LEAF_ID (c : Fin 16) : Fld := ⟨(Page.hub c).base + 0x060, 0, 12, .ro, 0⟩
def HUB.BRANCH_STAT_STATE (c : Fin 16) (b : Fin 16) : Fld := ⟨(Page.hub c).base + 0x080 + 4 * b.val, 29, 3, .ro, 0⟩
def HUB.BRANCH_STAT_UP_BURST (c : Fin 16) (b : Fin 16) : Fld := ⟨(Page.hub c).base + 0x080 + 4 * b.val, 28, 1, .ro, 0⟩
def HUB.BRANCH_STAT_ACTIVE (c : Fin 16) (b : Fin 16) : Fld := ⟨(Page.hub c).base + 0x080 + 4 * b.val, 16, 5, .ro, 0⟩
def HUB.LEAF_CFG_UP_BURST (c : Fin 16) : Fld := ⟨(Page.hub c).base + 0x0C0, 31, 1, .rwh, 0⟩
def HUB.LEAF_CFG_LEAF_ID (c : Fin 16) : Fld := ⟨(Page.hub c).base + 0x0C0, 16, 12, .rwh, 0⟩
def HUB.LEAF_CFG_SC_HI (c : Fin 16) : Fld := ⟨(Page.hub c).base + 0x0C0, 12, 4, .rwh, 0⟩
def HUB.LEAF_CFG_SC_LO (c : Fin 16) : Fld := ⟨(Page.hub c).base + 0x0C0, 8, 4, .rwh, 0⟩
def HUB.LEAF_NTS (c : Fin 16) : Fld := ⟨(Page.hub c).base + 0x0C4, 0, 10, .rwh, 0⟩
def HUB.LEAF_HOLD (c : Fin 16) : Fld := ⟨(Page.hub c).base + 0x0C8, 0, 16, .rw, 0x1F4⟩
def HUB.LEAF_STAT_STATE (c : Fin 16) : Fld := ⟨(Page.hub c).base + 0x0CC, 29, 3, .ro, 0⟩
def HUB.LEAF_STAT_SYNC (c : Fin 16) : Fld := ⟨(Page.hub c).base + 0x0CC, 28, 1, .ro, 0⟩
def HUB.LEAF_STAT_GRANTS (c : Fin 16) : Fld := ⟨(Page.hub c).base + 0x0CC, 8, 8, .ro, 0⟩
def HUB.LEAF_STAT_CSEQ (c : Fin 16) : Fld := ⟨(Page.hub c).base + 0x0CC, 0, 8, .ro, 0⟩
def HUB.LEAF_EQD (c : Fin 16) : Fld := ⟨(Page.hub c).base + 0x0D0, 0, 32, .ro, 0⟩
def HUB.CNT_LO (c : Fin 16) (i : Fin 8) : Fld := ⟨(Page.hub c).base + 0x100 + 8 * i.val, 0, 32, .rol, 0⟩
def HUB.CNT_HI_SATURATED (c : Fin 16) (i : Fin 8) : Fld := ⟨(Page.hub c).base + 0x104 + 8 * i.val, 31, 1, .rol, 0⟩
def HUB.CNT_HI_COUNT (c : Fin 16) (i : Fin 8) : Fld := ⟨(Page.hub c).base + 0x104 + 8 * i.val, 0, 16, .rol, 0⟩
/-- Acquisition stage of CONT branch b (R297). -/
def HUB.hBrStage (c : Fin 16) (b : Fin 16) : Fld := ⟨(Page.hub c).hidBase + 0 + 8 * b.val, 0, 4, .ro, 0⟩
/-- Cause of the last failure or loss of branch b. -/
def HUB.hBrCause (c : Fin 16) (b : Fin 16) : Fld := ⟨(Page.hub c).hidBase + 128 + 8 * b.val, 0, 4, .ro, 0⟩
/-- Failed attempts of branch b. -/
def HUB.hBrFail (c : Fin 16) (b : Fin 16) : Fld := ⟨(Page.hub c).hidBase + 256 + 8 * b.val, 0, 8, .ro, 0⟩
/-- Stage-8 count of branch b. -/
def HUB.hBrVerify (c : Fin 16) (b : Fin 16) : Fld := ⟨(Page.hub c).hidBase + 384 + 8 * b.val, 0, 8, .ro, 0⟩
/-- The multiframe in progress of branch b holds an uncorrectable codeword. -/
def HUB.hBrVerifyBad (c : Fin 16) (b : Fin 16) : Fld := ⟨(Page.hub c).hidBase + 512 + 8 * b.val, 0, 1, .ro, 0⟩
/-- Ticks since stage 2 of the attempt of branch b. -/
def HUB.hBrTicks (c : Fin 16) (b : Fin 16) : Fld := ⟨(Page.hub c).hidBase + 640 + 8 * b.val, 0, 16, .ro, 0⟩
/-- Consecutive ticks of branch b without a degrade condition. -/
def HUB.hBrDegClr (c : Fin 16) (b : Fin 16) : Fld := ⟨(Page.hub c).hidBase + 768 + 8 * b.val, 0, 8, .ro, 0⟩
/-- Degrade conditions of branch b (R207). -/
def HUB.hBrDegCause (c : Fin 16) (b : Fin 16) : Fld := ⟨(Page.hub c).hidBase + 896 + 8 * b.val, 0, 3, .ro, 0⟩
/-- The next grant cycle is cycle 0 (R255). -/
def HUB.hCycFirst (c : Fin 16) : Fld := ⟨(Page.hub c).hidBase + 1024, 0, 1, .ro, 1⟩
/-- Grant cycles begun since HUB mode took effect, less one (R255, R265). -/
def HUB.hCyc (c : Fin 16) : Fld := ⟨(Page.hub c).hidBase + 1032, 0, 64, .ro, 0⟩
/-- Transmit multiframes begun since HUB mode took effect, less one, modulo 2^64 (R265). -/
def HUB.hMf (c : Fin 16) : Fld := ⟨(Page.hub c).hidBase + 1040, 0, 64, .ro, 0⟩
/-- Entry index with which the next GRANTS message of branch b starts (R264). -/
def HUB.hRot (c : Fin 16) (b : Fin 16) : Fld := ⟨(Page.hub c).hidBase + 1048 + 8 * b.val, 0, 6, .ro, 0⟩
/-- Consecutive granted bursts of context row r missing or failed (R276). -/
def HUB.hConsec (c : Fin 16) (r : Fin 256) : Fld := ⟨(Page.hub c).hidBase + 1176 + 8 * r.val, 0, 8, .ro, 0⟩
/-- RANGE grants in a row without a burst (R276). -/
def HUB.hRangeMiss (c : Fin 16) (r : Fin 256) : Fld := ⟨(Page.hub c).hidBase + 3224 + 8 * r.val, 0, 2, .ro, 0⟩
/-- Head offsets gathered since the last drift adjustment, up to 8 (R280). -/
def HUB.hOfsN (c : Fin 16) (r : Fin 256) : Fld := ⟨(Page.hub c).hidBase + 5272 + 8 * r.val, 0, 4, .ro, 0⟩
/-- The last 8 head offsets of context row r, newest first, signed, 1/16 symbol (R280). -/
def HUB.hOfs (c : Fin 16) (r : Fin 256) (k : Fin 8) : Fld := ⟨(Page.hub c).hidBase + 7320 + 64 * r.val + 8 * k.val, 0, 16, .ro, 0⟩
/-- Ticks since a burst of branch b was missing, failed or held an uncorrectable codeword, up to 125 (R297). -/
def HUB.hBrGood (c : Fin 16) (b : Fin 16) : Fld := ⟨(Page.hub c).hidBase + 23704 + 8 * b.val, 0, 8, .ro, 0⟩
/-- TIA gain loaded for the expected burst (R285). -/
def HUB.hRxTia (c : Fin 16) (b : Fin 16) : Fld := ⟨(Page.hub c).hidBase + 23832 + 8 * b.val, 0, 8, .ro, 0⟩
/-- CD loaded for the expected burst (R285). -/
def HUB.hRxCd (c : Fin 16) (b : Fin 16) : Fld := ⟨(Page.hub c).hidBase + 23960 + 8 * b.val, 0, 16, .ro, 0⟩
/-- Frequency loaded for the expected burst (R285). -/
def HUB.hRxFreq (c : Fin 16) (b : Fin 16) : Fld := ⟨(Page.hub c).hidBase + 24088 + 8 * b.val, 0, 16, .ro, 0⟩
/-- Expected head position of the expected burst (R285). -/
def HUB.hRxHead (c : Fin 16) (b : Fin 16) : Fld := ⟨(Page.hub c).hidBase + 24216 + 8 * b.val, 0, 24, .ro, 0⟩
/-- Taps loaded for the expected burst: 0 identity, 1 + slot from the tap pool (R285). -/
def HUB.hRxTaps (c : Fin 16) (b : Fin 16) : Fld := ⟨(Page.hub c).hidBase + 24344 + 8 * b.val, 0, 5, .ro, 0⟩
/-- Burst capture of branch b: 0 none, 1 running, 2 header passed (R287, R289). -/
def HUB.hCap (c : Fin 16) (b : Fin 16) : Fld := ⟨(Page.hub c).hidBase + 24472 + 8 * b.val, 0, 2, .ro, 0⟩
/-- Its head P, symbols from the start of the grant's cycle, signed. -/
def HUB.hCapPos (c : Fin 16) (b : Fin 16) : Fld := ⟨(Page.hub c).hidBase + 24600 + 8 * b.val, 0, 32, .ro, 0⟩
/-- Its correlation power, signed, 0.01 dB. -/
def HUB.hCapPow (c : Fin 16) (b : Fin 16) : Fld := ⟨(Page.hub c).hidBase + 24728 + 8 * b.val, 0, 16, .ro, 0⟩
/-- The grant whose window holds its head: 0 none, otherwise 1 + 64 GCN + INDEX. -/
def HUB.hCapG (c : Fin 16) (b : Fin 16) : Fld := ⟨(Page.hub c).hidBase + 24856 + 8 * b.val, 0, 24, .ro, 0⟩
/-- Heads not taken while it runs (R290). -/
def HUB.hCapIgn (c : Fin 16) (b : Fin 16) : Fld := ⟨(Page.hub c).hidBase + 24984 + 8 * b.val, 0, 16, .ro, 0⟩
/-- It truncated a burst whose header had passed (R289). -/
def HUB.hCollide (c : Fin 16) (b : Fin 16) : Fld := ⟨(Page.hub c).hidBase + 25112 + 8 * b.val, 0, 1, .ro, 0⟩
/-- The loading sum of its branch at its first payload symbol, in eighths (R18, R274). -/
def HUB.hCapE (c : Fin 16) (b : Fin 16) : Fld := ⟨(Page.hub c).hidBase + 25240 + 8 * b.val, 0, 10, .ro, 0⟩
/-- Its payload in rounds. -/
def HUB.hCapR (c : Fin 16) (b : Fin 16) : Fld := ⟨(Page.hub c).hidBase + 25368 + 8 * b.val, 0, 13, .ro, 0⟩
/-- Codewords of its payload that have converged (R283). -/
def HUB.hCapCws (c : Fin 16) (b : Fin 16) : Fld := ⟨(Page.hub c).hidBase + 25496 + 8 * b.val, 0, 16, .ro, 0⟩
/-- Running burst counters of the interval (R300). -/
def HUB.hCnt (c : Fin 16) (i : Fin 8) : Fld := ⟨(Page.hub c).hidBase + 25624 + 8 * i.val, 0, 49, .ro, 0⟩
/-- State of the leaf before NO_DS (R277). -/
def HUB.hPrev (c : Fin 16) : Fld := ⟨(Page.hub c).hidBase + 25688, 0, 3, .ro, 0⟩
/-- Ticks in NO_DS, up to 65,535 (R277). -/
def HUB.hNoDsTicks (c : Fin 16) : Fld := ⟨(Page.hub c).hidBase + 25696, 0, 16, .ro, 0⟩
/-- GCN of the last GRANTS message received (R265). -/
def HUB.hLeafGcn (c : Fin 16) : Fld := ⟨(Page.hub c).hidBase + 25704, 0, 16, .ro, 0⟩
/-- Grants answered in the cycle in progress. -/
def HUB.hAns (c : Fin 16) : Fld := ⟨(Page.hub c).hidBase + 25712, 0, 8, .ro, 0⟩
/-- EQD of the last RANGE command (R277). -/
def HUB.hEqdNew (c : Fin 16) : Fld := ⟨(Page.hub c).hidBase + 25720, 0, 32, .ro, 0⟩
/-- It comes into force at the next cycle boundary. -/
def HUB.hEqdDue (c : Fin 16) : Fld := ⟨(Page.hub c).hidBase + 25728, 0, 1, .ro, 0⟩
/-- Framed bits of the leaf's DATA grants announced in the cycle in progress (R431). -/
def HUB.hFixAcc (c : Fin 16) : Fld := ⟨(Page.hub c).hidBase + 25736, 0, 40, .ro, 0⟩
/-- The largest of them. -/
def HUB.hFixMaxAcc (c : Fin 16) : Fld := ⟨(Page.hub c).hidBase + 25744, 0, 40, .ro, 0⟩
/-- F_fix of R431: the framed bits of the leaf's grants in the last whole cycle. -/
def HUB.hFix (c : Fin 16) : Fld := ⟨(Page.hub c).hidBase + 25752, 0, 40, .ro, 0⟩
/-- F_max of R436: the largest of those grants. -/
def HUB.hFixMax (c : Fin 16) : Fld := ⟨(Page.hub c).hidBase + 25760, 0, 40, .ro, 0⟩

/-! TUMB (15_tumbler.md R585) -/

/-- The block registers of the page (R585). -/
def TUMB.regs : List RegD :=
[⟨0x040, 0, 1, 0, 1, [⟨1, 1, .rw, 0, .none⟩, ⟨0, 1, .rw, 1, .none⟩]⟩,
    ⟨0x044, 0, 1, 0, 1, [⟨5, 1, .w1s, 0, .none⟩, ⟨4, 1, .w1s, 0, .none⟩, ⟨3, 1, .w1s, 0, .none⟩, ⟨2, 1, .w1s, 0, .none⟩, ⟨1, 1, .w1s, 0, .none⟩, ⟨0, 1, .w1s, 0, .none⟩]⟩,
    ⟨0x048, 0, 1, 0, 1, [⟨29, 3, .ro, 0, .none⟩, ⟨26, 3, .ro, 0, .none⟩, ⟨25, 1, .ro, 0, .none⟩, ⟨24, 1, .ro, 0, .none⟩, ⟨8, 8, .ro, 0, .none⟩, ⟨0, 8, .ro, 0, .none⟩]⟩,
    ⟨0x04C, 0, 1, 0, 1, [⟨16, 16, .rw, 0x300, .none⟩, ⟨0, 16, .rw, 0x100, .none⟩]⟩,
    ⟨0x050, 0, 1, 0, 1, [⟨28, 4, .ro, 0, .none⟩, ⟨0, 13, .ro, 0, .none⟩]⟩,
    ⟨0x054, 0, 1, 0, 1, [⟨0, 32, .ro, 0, .none⟩]⟩,
    ⟨0x058, 0, 1, 0, 1, [⟨28, 4, .ro, 0, .none⟩, ⟨0, 13, .ro, 0, .none⟩]⟩,
    ⟨0x05C, 0, 1, 0, 1, [⟨0, 32, .ro, 0, .none⟩]⟩,
    ⟨0x060, 0, 1, 0, 1, [⟨16, 16, .ro, 0, .none⟩, ⟨0, 16, .ro, 0, .none⟩]⟩,
    ⟨0x064, 0, 1, 0, 1, [⟨16, 16, .ro, 0, .none⟩, ⟨0, 16, .ro, 0, .none⟩]⟩,
    ⟨0x068, 0, 1, 0, 1, [⟨1, 1, .w1s, 0, .none⟩, ⟨0, 1, .w1s, 0, .none⟩]⟩,
    ⟨0x080, 4, 16, 0, 1, [⟨0, 32, .rw, 0, .none⟩]⟩]
  ++ [⟨0x0C0, 0, 1, 0, 1, [⟨31, 1, .rw, 0, .none⟩, ⟨0, 8, .w1s, 0, .none⟩]⟩,
    ⟨0x0C8, 0, 1, 0, 1, [⟨0, 32, .ro, 0, .none⟩]⟩,
    ⟨0x0CC, 0, 1, 0, 1, [⟨0, 32, .ro, 0, .none⟩]⟩,
    ⟨0x0D0, 4, 8, 0, 1, [⟨31, 1, .rw, 0, .none⟩, ⟨30, 1, .rw, 0, .none⟩, ⟨28, 2, .rw, 0, .none⟩, ⟨0, 8, .rw, 0, .none⟩]⟩,
    ⟨0x100, 8, 8, 0, 1, [⟨0, 32, .ro, 0, .none⟩]⟩,
    ⟨0x104, 8, 8, 0, 1, [⟨31, 1, .ro, 0, .none⟩, ⟨0, 16, .ro, 0, .none⟩]⟩,
    ⟨0x180, 8, 8, 0, 1, [⟨31, 1, .rw, 0, .none⟩, ⟨30, 1, .rw, 0, .none⟩, ⟨2, 24, .rw, 0, .none⟩]⟩,
    ⟨0x184, 8, 8, 0, 1, [⟨2, 24, .rw, 0, .none⟩]⟩]

def TUMB.TUMB_CTRL_AUTO_U (t : Fin 18) : Fld := ⟨(Page.tumb t).base + 0x040, 1, 1, .rw, 0⟩
def TUMB.TUMB_CTRL_AUTO_C (t : Fin 18) : Fld := ⟨(Page.tumb t).base + 0x040, 0, 1, .rw, 1⟩
def TUMB.TUMB_CMD_RESTART_U (t : Fin 18) : Fld := ⟨(Page.tumb t).base + 0x044, 5, 1, .w1s, 0⟩
def TUMB.TUMB_CMD_STOP_U (t : Fin 18) : Fld := ⟨(Page.tumb t).base + 0x044, 4, 1, .w1s, 0⟩
def TUMB.TUMB_CMD_START_U (t : Fin 18) : Fld := ⟨(Page.tumb t).base + 0x044, 3, 1, .w1s, 0⟩
def TUMB.TUMB_CMD_RESTART_C (t : Fin 18) : Fld := ⟨(Page.tumb t).base + 0x044, 2, 1, .w1s, 0⟩
def TUMB.TUMB_CMD_STOP_C (t : Fin 18) : Fld := ⟨(Page.tumb t).base + 0x044, 1, 1, .w1s, 0⟩
def TUMB.TUMB_CMD_START_C (t : Fin 18) : Fld := ⟨(Page.tumb t).base + 0x044, 0, 1, .w1s, 0⟩
def TUMB.TUMB_STAT_VALID_C (t : Fin 18) : Fld := ⟨(Page.tumb t).base + 0x048, 25, 1, .ro, 0⟩
def TUMB.TUMB_STAT_VALID_U (t : Fin 18) : Fld := ⟨(Page.tumb t).base + 0x048, 24, 1, .ro, 0⟩
def TUMB.WDOG_WDOG_C (t : Fin 18) : Fld := ⟨(Page.tumb t).base + 0x04C, 16, 16, .rw, 0x300⟩
def TUMB.WDOG_WDOG_U (t : Fin 18) : Fld := ⟨(Page.tumb t).base + 0x04C, 0, 16, .rw, 0x100⟩
def TUMB.TRAP_C0_CAUSE (t : Fin 18) : Fld := ⟨(Page.tumb t).base + 0x050, 28, 4, .ro, 0⟩
def TUMB.TRAP_C0_PC (t : Fin 18) : Fld := ⟨(Page.tumb t).base + 0x050, 0, 13, .ro, 0⟩
def TUMB.TRAP_C1_ARG (t : Fin 18) : Fld := ⟨(Page.tumb t).base + 0x054, 0, 32, .ro, 0⟩
def TUMB.TRAP_U0_CAUSE (t : Fin 18) : Fld := ⟨(Page.tumb t).base + 0x058, 28, 4, .ro, 0⟩
def TUMB.TRAP_U0_PC (t : Fin 18) : Fld := ⟨(Page.tumb t).base + 0x058, 0, 13, .ro, 0⟩
def TUMB.TRAP_U1_ARG (t : Fin 18) : Fld := ⟨(Page.tumb t).base + 0x05C, 0, 32, .ro, 0⟩
def TUMB.IMG_C_PROG_ID (t : Fin 18) : Fld := ⟨(Page.tumb t).base + 0x060, 16, 16, .ro, 0⟩
def TUMB.IMG_C_VERSION (t : Fin 18) : Fld := ⟨(Page.tumb t).base + 0x060, 0, 16, .ro, 0⟩
def TUMB.IMG_U_PROG_ID (t : Fin 18) : Fld := ⟨(Page.tumb t).base + 0x064, 16, 16, .ro, 0⟩
def TUMB.IMG_U_VERSION (t : Fin 18) : Fld := ⟨(Page.tumb t).base + 0x064, 0, 16, .ro, 0⟩
def TUMB.DOORBELL_USER (t : Fin 18) : Fld := ⟨(Page.tumb t).base + 0x068, 1, 1, .w1s, 0⟩
def TUMB.DOORBELL_CORE (t : Fin 18) : Fld := ⟨(Page.tumb t).base + 0x068, 0, 1, .w1s, 0⟩
def TUMB.PARAM (t : Fin 18) (p : Fin 16) : Fld := ⟨(Page.tumb t).base + 0x080 + 4 * p.val, 0, 32, .rw, 0⟩
def TUMB.CNT_CTRL_FREEZE (t : Fin 18) : Fld := ⟨(Page.tumb t).base + 0x0C0, 31, 1, .rw, 0⟩
def TUMB.CNT_CTRL_CLR (t : Fin 18) : Fld := ⟨(Page.tumb t).base + 0x0C0, 0, 8, .w1s, 0⟩
def TUMB.EVC_CFG_EN (t : Fin 18) (n : Fin 8) : Fld := ⟨(Page.tumb t).base + 0x0D0 + 4 * n.val, 31, 1, .rw, 0⟩
def TUMB.EVC_CFG_STICK (t : Fin 18) (n : Fin 8) : Fld := ⟨(Page.tumb t).base + 0x0D0 + 4 * n.val, 30, 1, .rw, 0⟩
def TUMB.EVC_CFG_CTX (t : Fin 18) (n : Fin 8) : Fld := ⟨(Page.tumb t).base + 0x0D0 + 4 * n.val, 28, 2, .rw, 0⟩
def TUMB.EVC_CFG_EVENT (t : Fin 18) (n : Fin 8) : Fld := ⟨(Page.tumb t).base + 0x0D0 + 4 * n.val, 0, 8, .rw, 0⟩
def TUMB.EVC_HI_OVF (t : Fin 18) (n : Fin 8) : Fld := ⟨(Page.tumb t).base + 0x104 + 8 * n.val, 31, 1, .ro, 0⟩
def TUMB.PERM_BASE_R (t : Fin 18) (w : Fin 8) : Fld := ⟨(Page.tumb t).base + 0x180 + 8 * w.val, 31, 1, .rw, 0⟩
def TUMB.PERM_BASE_W (t : Fin 18) (w : Fin 8) : Fld := ⟨(Page.tumb t).base + 0x180 + 8 * w.val, 30, 1, .rw, 0⟩
def TUMB.PERM_BASE_ADDR (t : Fin 18) (w : Fin 8) : Fld := ⟨(Page.tumb t).base + 0x180 + 8 * w.val, 2, 24, .rw, 0⟩
def TUMB.PERM_LIM_ADDR (t : Fin 18) (w : Fin 8) : Fld := ⟨(Page.tumb t).base + 0x184 + 8 * w.val, 2, 24, .rw, 0⟩
/-- State of context x, CORE 0 and USER 1: 0 IDLE, 1 RUNNING, 2 WAITING, 3 TRAPPED, 4 HALTED (R560). -/
def TUMB.hState (t : Fin 18) (x : Fin 2) : Fld := ⟨(Page.tumb t).hidBase + 0 + 8 * x.val, 0, 3, .ro, 0⟩
/-- PC of context x. -/
def TUMB.hPc (t : Fin 18) (x : Fin 2) : Fld := ⟨(Page.tumb t).hidBase + 16 + 8 * x.val, 0, 13, .ro, 4096*x.val⟩
/-- Register T[r] of context x. -/
def TUMB.hT (t : Fin 18) (x : Fin 2) (r : Fin 16) : Fld := ⟨(Page.tumb t).hidBase + 32 + 128 * x.val + 8 * r.val, 0, 36, .ro, 0⟩
/-- Accumulator A[n] of context x, signed. -/
def TUMB.hA (t : Fin 18) (x : Fin 2) (n : Fin 2) : Fld := ⟨(Page.tumb t).hidBase + 288 + 16 * x.val + 8 * n.val, 0, 72, .ro, 0⟩
/-- Pending events of context x (R578), SUMMARY apart where State.sumPend holds it. -/
def TUMB.hPend (t : Fin 18) (x : Fin 2) : Fld := ⟨(Page.tumb t).hidBase + 320 + 8 * x.val, 0, 8, .ro, 0⟩
/-- Cycles counted for the watchdog of context x (R562). -/
def TUMB.hWd (t : Fin 18) (x : Fin 2) : Fld := ⟨(Page.tumb t).hidBase + 336 + 8 * x.val, 0, 32, .ro, 0⟩
/-- Context x stalls on a page read: 1 LDP, 2 LDPW (R570). -/
def TUMB.hStall (t : Fin 18) (x : Fin 2) : Fld := ⟨(Page.tumb t).hidBase + 352 + 8 * x.val, 0, 2, .ro, 0⟩
/-- The address it reads. -/
def TUMB.hStAddr (t : Fin 18) (x : Fin 2) : Fld := ⟨(Page.tumb t).hidBase + 368 + 8 * x.val, 0, 26, .ro, 0⟩
/-- The register or accumulator that receives the data. -/
def TUMB.hStRd (t : Fin 18) (x : Fin 2) : Fld := ⟨(Page.tumb t).hidBase + 384 + 8 * x.val, 0, 4, .ro, 0⟩
/-- STOP acts when the page read completes (R560). -/
def TUMB.hStop (t : Fin 18) (x : Fin 2) : Fld := ⟨(Page.tumb t).hidBase + 400 + 8 * x.val, 0, 1, .ro, 0⟩
/-- Context x waits: 1 for a tick, 2 for an event (R578). -/
def TUMB.hWait (t : Fin 18) (x : Fin 2) : Fld := ⟨(Page.tumb t).hidBase + 416 + 8 * x.val, 0, 2, .ro, 0⟩
/-- The events it waits for. -/
def TUMB.hWaitM (t : Fin 18) (x : Fin 2) : Fld := ⟨(Page.tumb t).hidBase + 432 + 8 * x.val, 0, 8, .ro, 0⟩
/-- The register that receives them. -/
def TUMB.hWaitRd (t : Fin 18) (x : Fin 2) : Fld := ⟨(Page.tumb t).hidBase + 448 + 8 * x.val, 0, 4, .ro, 0⟩
/-- Ticks issued when the WAITT executed. -/
def TUMB.hWaitTick (t : Fin 18) (x : Fin 2) : Fld := ⟨(Page.tumb t).hidBase + 464 + 8 * x.val, 0, 64, .ro, 0⟩
/-- The CORE program begins at its first instruction (R560, R579). -/
def TUMB.hFresh (t : Fin 18) : Fld := ⟨(Page.tumb t).hidBase + 480, 0, 1, .ro, 1⟩
/-- Ticks until the loading program may arm again (R580). -/
def TUMB.hArmWait (t : Fin 18) : Fld := ⟨(Page.tumb t).hidBase + 488, 0, 32, .ro, 0⟩
/-- Context x has become HALTED by load, soft reset or wake and AUTO_x acts at the next tick (R585). -/
def TUMB.hAutoDue (t : Fin 18) (x : Fin 2) : Fld := ⟨(Page.tumb t).hidBase + 496 + 8 * x.val, 0, 1, .ro, 0⟩
/-- That tick has come. -/
def TUMB.hAutoTick (t : Fin 18) (x : Fin 2) : Fld := ⟨(Page.tumb t).hidBase + 512 + 8 * x.val, 0, 1, .ro, 0⟩
/-- CYCLE (R581). -/
def TUMB.hCycle (t : Fin 18) : Fld := ⟨(Page.tumb t).hidBase + 528, 0, 64, .ro, 0⟩
/-- Tumbler cycles of the tick in progress that the model has accounted for. -/
def TUMB.hInTick (t : Fin 18) : Fld := ⟨(Page.tumb t).hidBase + 536, 0, 18, .ro, 0⟩
/-- Raw count of EVCn (R581, R582). -/
def TUMB.hEvc (t : Fin 18) (n : Fin 8) : Fld := ⟨(Page.tumb t).hidBase + 544 + 8 * n.val, 0, 64, .ro, 0⟩
/-- Ticks since the Tumbler last left reset (RDTK). -/
def TUMB.hTicks (t : Fin 18) : Fld := ⟨(Page.tumb t).hidBase + 608, 0, 36, .ro, 0⟩
/-- SECURITY_VERSION of the CORE image (R662). -/
def TUMB.hSec (t : Fin 18) : Fld := ⟨(Page.tumb t).hidBase + 616, 0, 8, .ro, 0⟩

/-! CINT (02_register_model.md R91) -/

/-- The block registers of the page (R91). -/
def CINT.regs : List RegD :=
[⟨0x040, 0, 1, 0, 1, [⟨0, 32, .ro, 0, .none⟩]⟩,
    ⟨0x044, 0, 1, 0, 1, [⟨0, 32, .rw, 0x1FF, .none⟩]⟩]

def CINT.SUM_EN (c : Fin 16) : Fld := ⟨(Page.cint c).base + 0x044, 0, 32, .rw, 0x1FF⟩

/-! MBX (17_host_dma.md R628) -/

/-- The block registers of the page (R628). -/
def MBX.regs : List RegD :=
[⟨0x000, 0, 1, 0, 1, [⟨0, 1, .wo, 0, .none⟩]⟩,
    ⟨0x008, 0, 1, 0, 1, [⟨0, 1, .wo, 0, .none⟩]⟩,
    ⟨0x004, 0, 1, 0, 1, [⟨31, 1, .ro, 0, .none⟩, ⟨30, 1, .ro, 0, .none⟩, ⟨29, 1, .ro, 0, .none⟩, ⟨28, 1, .ro, 0, .none⟩, ⟨0, 16, .ro, 0, .none⟩]⟩,
    ⟨0x00C, 0, 1, 0, 1, [⟨0, 10, .ro, 0, .none⟩]⟩,
    ⟨0x010, 0, 1, 0, 1, [⟨0, 10, .rw, 0, .none⟩]⟩,
    ⟨0x014, 0, 1, 0, 1, [⟨0, 32, .ro, 0, .none⟩]⟩]

def MBX.MB_DOORBELL_SUBMIT : Fld := ⟨Page.mbx.base + 0x000, 0, 1, .wo, 0⟩
def MBX.MB_ACK_ACK : Fld := ⟨Page.mbx.base + 0x008, 0, 1, .wo, 0⟩
def MBX.MB_STAT_READY : Fld := ⟨Page.mbx.base + 0x004, 31, 1, .ro, 0⟩
def MBX.MB_STAT_BUSY : Fld := ⟨Page.mbx.base + 0x004, 30, 1, .ro, 0⟩
def MBX.MB_STAT_RESP_VALID : Fld := ⟨Page.mbx.base + 0x004, 29, 1, .ro, 0⟩
def MBX.MB_STAT_REJ : Fld := ⟨Page.mbx.base + 0x004, 28, 1, .ro, 0⟩
def MBX.MB_STAT_TAG : Fld := ⟨Page.mbx.base + 0x004, 0, 16, .ro, 0⟩
def MBX.EVT_TAIL : Fld := ⟨Page.mbx.base + 0x00C, 0, 10, .ro, 0⟩
def MBX.EVT_HEAD : Fld := ⟨Page.mbx.base + 0x010, 0, 10, .rw, 0⟩
def MBX.EVT_LOST : Fld := ⟨Page.mbx.base + 0x014, 0, 32, .ro, 0⟩

end Sys2Proof.Machine

namespace Sys2Proof
open Machine

/-- The block registers of every page. -/
def Page.regs : Page → List RegD
  | .devId => ID.regs
  | .hubctl => HUBCTL.regs
  | .devInt => INT.regs
  | .pwr => PWR.regs
  | .timing0 => TIMING0.regs
  | .timing1 => TIMING1.regs
  | .timing2 => TIMING2.regs
  | .timing3 => TIMING3.regs
  | .timingX _ => TIMINGX.regs
  | .ptp => PTP.regs
  | .keyway => KEYWAY.regs
  | .boot => BOOT.regs
  | .dma _ => DMA.regs
  | .pcie => PCIE.regs
  | .mon _ => MON.regs
  | .xqsw => XQSW.regs
  | .mbox => MBOX.regs
  | .fuse => FUSE.regs
  | .frm _ => FRM.regs
  | .tsi _ => TSI.regs
  | .tm _ => TM.regs
  | .ciph _ => CIPH.regs
  | .mem _ => MEM.regs
  | .lanegrp _ => LANEGRP.regs
  | .htr _ => HTR.regs
  | .qint _ => QINT.regs
  | .conv _ => CONV.regs
  | .cal _ => CAL.regs
  | .txdsp _ => TXDSP.regs
  | .rxdsp _ => RXDSP.regs
  | .fec _ => FEC.regs
  | .otu _ => OTU.regs
  | .hub _ => HUB.regs
  | .tumb _ => TUMB.regs
  | .cint _ => CINT.regs
  | .mbx => MBX.regs

end Sys2Proof
end

