-- ==== Sys2Proof/Machine/Ops.lean ====
section
/-! DEFINITION. The named operations over registers and memories: reading and writing a field, the byte memory,
and the SECDED code of R528. -/
namespace Sys2Proof.Machine

/-! ## Sparse lists by key -/

/-- The value listed under a key. -/
def Assoc.find {α : Type} (k : Nat) : List (Nat × α) → Option α
  | [] => none
  | (j, v) :: l => if j = k then some v else Assoc.find k l

/-- The list with a value under a key, keys kept rising. -/
def Assoc.ins {α : Type} (k : Nat) (v : α) : List (Nat × α) → List (Nat × α)
  | [] => [(k, v)]
  | (j, w) :: l =>
    if j = k then (k, v) :: l else if k < j then (k, v) :: (j, w) :: l else (j, w) :: Assoc.ins k v l

/-- The list with nothing under a key. -/
def Assoc.del {α : Type} (k : Nat) : List (Nat × α) → List (Nat × α)
  | [] => []
  | (j, w) :: l => if j = k then Assoc.del k l else (j, w) :: Assoc.del k l

/-- The keys of a list rise strictly from above `lo`. -/
def Assoc.rising {α : Type} : List (Nat × α) → Bool
  | [] => true
  | [_] => true
  | (j, _) :: (k, v) :: l => decide (j < k) && Assoc.rising ((k, v) :: l)

/-! ## Register fields -/

/-- The key of a field: the bit address of its least significant bit. -/
def Fld.key (f : Fld) : Nat := 8 * f.addr + f.lsb

/-- The active copy of an RWH field (R52, R53). -/
def Fld.active (f : Fld) : Fld := { f with addr := f.addr + 0x800 }

/-- The value of a field. -/
def State.get (s : State) (f : Fld) : Nat := (Assoc.find f.key s.cells).getD f.reset

/-- The state with a field set, cut to the field's width. A value equal to the reset value is not listed. -/
def State.put (s : State) (f : Fld) (v : Nat) : State :=
  { s with cells :=
      if v % 2 ^ f.width = f.reset then Assoc.del f.key s.cells else Assoc.ins f.key (v % 2 ^ f.width) s.cells }

/-- A one-bit field as a truth value. -/
def State.flag (s : State) (f : Fld) : Bool := s.get f != 0

/-- A field set to a truth value. -/
def State.putB (s : State) (f : Fld) (b : Bool) : State := s.put f b.toNat

/-- A field returned to its reset value. -/
def State.clear (s : State) (f : Fld) : State := s.put f f.reset

/-- A count that sticks at the largest value of its field. -/
def State.incStick (s : State) (f : Fld) (n : Nat) : State := s.put f (min (s.get f + n) (2 ^ f.width - 1))

/-- A count that wraps. -/
def State.incWrap (s : State) (f : Fld) (n : Nat) : State := s.put f (s.get f + n)

/-- Bit b of a field set. -/
def State.setBit (s : State) (f : Fld) (b : Nat) : State := s.put f (s.get f ||| 2 ^ b)

/-- Bit b of a field cleared. -/
def State.clrBit (s : State) (f : Fld) (b : Nat) : State :=
  if (s.get f).testBit b then s.put f (s.get f - 2 ^ b) else s

/-- Bit b of a field set to a truth value. -/
def State.putBit (s : State) (f : Fld) (b : Nat) (x : Bool) : State := if x then s.setBit f b else s.clrBit f b

/-- The cells with a key in [lo, hi) that `keep` does not name return to their reset values. -/
def State.resetRange (s : State) (lo hi : Nat) (keep : Nat → Bool) : State :=
  { s with cells := s.cells.filter fun c => !(decide (lo ≤ c.1) && decide (c.1 < hi)) || keep c.1 }

/-- The state with a free value drawn: the value is `Config.freeValue` of the counter, cut to w bits. -/
def State.draw (s : State) (w : Nat) : Nat × State :=
  (Config.freeValue s.freeCtr % 2 ^ w, { s with freeCtr := s.freeCtr + 1 })

/-- The state with a field left at a free value. -/
def State.putFree (s : State) (f : Fld) : State :=
  { s with freeCtr := s.freeCtr + 1 }.put f (Config.freeValue s.freeCtr)

/-- The state that has sent one more thing to the outside. -/
def State.send (s : State) (o : Output) : State := { s with sent := s.sent ++ [o] }

/-! ## Bit fields, signs -/

/-- Bits [lo + w - 1 : lo] of a number. -/
def bits (v lo w : Nat) : Nat := v / 2 ^ lo % 2 ^ w

/-- Bit lo of a number as a truth value. -/
def bit (v lo : Nat) : Bool := v.testBit lo

/-- A number with bits [lo + w - 1 : lo] replaced. -/
def setBits (v lo w x : Nat) : Nat := v - bits v lo w * 2 ^ lo + x % 2 ^ w * 2 ^ lo

/-- The integer a w-bit two's-complement word stands for. -/
def toInt (w v : Nat) : Int := if v % 2 ^ w < 2 ^ (w - 1) then (v % 2 ^ w : Nat) else (v % 2 ^ w : Nat) - (2 ^ w : Nat)

/-- The w-bit two's-complement word of an integer, wrapping. -/
def ofInt (w : Nat) (i : Int) : Nat := (i % (2 ^ w : Nat)).toNat

/-- An integer held to a range. -/
def clampI (lo hi i : Int) : Int := max lo (min hi i)

/-- The value of a field read as signed. -/
def State.geti (s : State) (f : Fld) : Int := toInt f.width (s.get f)

/-- A field set to a signed value, wrapping. -/
def State.puti (s : State) (f : Fld) (i : Int) : State := s.put f (ofInt f.width i)

/-- A field set to a signed value, held to the range of the field. -/
def State.putiSat (s : State) (f : Fld) (i : Int) : State :=
  s.puti f (clampI (-(2 ^ (f.width - 1) : Nat)) ((2 ^ (f.width - 1) : Nat) - 1) i)

/-- What a write of v to a field with a clamp stores (the clamp rules of the page chapters). -/
def Clamp.apply : Clamp → Nat → Nat → Nat
  | .none, _, v => v
  | .u lo hi, _, v => max lo (min hi v)
  | .i lo hi, w, v => ofInt w (clampI lo hi (toInt w v))

/-- f applied for every index below n, in order. -/
def forN {σ : Type} (n : Nat) (f : Nat → σ → σ) (s : σ) : σ := (List.range n).foldl (fun s i => f i s) s

/-- f applied for every index of Fin n, in order. -/
def forFin {σ : Type} (n : Nat) (f : Fin n → σ → σ) (s : σ) : σ := (List.finRange n).foldl (fun s i => f i s) s

/-- f applied for every member of a list, in order. -/
def forL {σ α : Type} (l : List α) (f : α → σ → σ) (s : σ) : σ := l.foldl (fun s i => f i s) s

/-- The number whose bit i is b i, for i below n. -/
def mask (n : Nat) (b : Nat → Bool) : Nat := (List.range n).foldl (fun a i => if b i then a + 2 ^ i else a) 0

/-! ## Memories -/

/-- A 72-bit word of a memory of R526: word w of region r of a quadrant, or of region Hr of the hub die. -/
inductive Loc where
  | quad (q : Fin 4) (r : Fin 16) (w : Nat)
  | hub (r : Fin 6) (w : Nat)
  deriving DecidableEq, Repr

/-- The key of the first byte of a word; its check byte has this key plus 8. -/
def Loc.key : Loc → Nat
  | .quad q r w => ((q.val * 16 + r.val) * 2 ^ 24 + w) * 16
  | .hub r w => ((64 + r.val) * 2 ^ 24 + w) * 16

/-- The word n words further in the same region. -/
def Loc.plus (n : Nat) : Loc → Loc
  | .quad q r w => .quad q r (w + n)
  | .hub r w => .hub r (w + n)

/-- A byte of memory; an unlisted byte is 0 (R527). -/
def State.byte (s : State) (k : Nat) : Byte := (Assoc.find k s.mem).getD 0

/-- Memory with one byte set, in canonical form: a byte equal to 0 is not listed. -/
def memSet (m : List Host.Cell) (k : Nat) (b : Byte) : List Host.Cell :=
  if b = 0 then Assoc.del k m else Assoc.ins k b m

/-- The state with one byte of memory set. -/
def State.setByte (s : State) (k : Nat) (b : Byte) : State := { s with mem := memSet s.mem k b }

/-- Memory is in canonical form: addresses strictly rising and no byte equal to what an unlisted one reads as. -/
def Memory.wf (m : List Host.Cell) : Bool := Assoc.rising m && m.all fun c => c.2 != 0

/-- The n bytes from key k as a little-endian number (R86: byte i holds bits [8i + 7:8i]). -/
def State.bytes (s : State) (k : Nat) : Nat → Nat
  | 0 => 0
  | n + 1 => (s.byte k).toNat + 256 * s.bytes (k + 1) n

/-- The state with n bytes from key k set from a little-endian number. -/
def State.setBytes (s : State) (k v : Nat) : Nat → State
  | 0 => s
  | n + 1 => (s.setByte k (BitVec.ofNat 8 v)).setBytes (k + 1) (v / 256) n

/-- The 64 stored data bits of a word. -/
def State.rawData (s : State) (l : Loc) : Nat := s.bytes l.key 8

/-- The 8 stored check bits of a word. -/
def State.rawCheck (s : State) (l : Loc) : Nat := (s.byte (l.key + 8)).toNat

/-- The state with the 72 bits of a word set. -/
def State.storeRaw (s : State) (l : Loc) (d c : Nat) : State :=
  (s.setBytes l.key d 8).setByte (l.key + 8) (BitVec.ofNat 8 c)

/-! ## The SECDED code -/

/-- The columns of data bits 0 to 63 (R528): the 56 values of weight 3 in ascending order, then eight of weight 5. -/
def eccColumns : List Nat :=
  [0x07, 0x0B, 0x0D, 0x0E, 0x13, 0x15, 0x16, 0x19, 0x1A, 0x1C, 0x23, 0x25, 0x26, 0x29, 0x2A, 0x2C,
    0x31, 0x32, 0x34, 0x38, 0x43, 0x45, 0x46, 0x49, 0x4A, 0x4C, 0x51, 0x52, 0x54, 0x58, 0x61, 0x62,
    0x64, 0x68, 0x70, 0x83, 0x85, 0x86, 0x89, 0x8A, 0x8C, 0x91, 0x92, 0x94, 0x98, 0xA1, 0xA2, 0xA4,
    0xA8, 0xB0, 0xC1, 0xC2, 0xC4, 0xC8, 0xD0, 0xE0, 0x1F, 0x2F, 0x37, 0x3B, 0x3D, 0x3E, 0x4F, 0x57]

/-- The check bits of 64 data bits: the XOR of the columns of the bits that are 1 (R528). -/
def eccCheckFrom (d : Nat) : List Nat → Nat
  | [] => 0
  | c :: cs => (if d % 2 = 1 then c else 0) ^^^ eccCheckFrom (d / 2) cs

/-- The check bits of 64 data bits (R528). -/
def eccCheck (d : Nat) : Nat := eccCheckFrom d eccColumns

/-- What a read finds (R529). -/
inductive EccKind where
  | ok | ce | ue
  deriving DecidableEq, Repr

/-- A word as a read delivers it: what the read finds, the data (as stored where uncorrectable), the syndrome
(R529). -/
def eccDecode (d c : Nat) : EccKind × Nat × Nat :=
  let syn := eccCheck d ^^^ c
  if syn = 0 then (.ok, d, 0)
  else if (List.range 8).any (fun i => syn == 2 ^ i) then (.ce, d, syn)
  else
    match eccColumns.findIdx? (· == syn) with
    | some i => (.ce, d ^^^ 2 ^ i, syn)
    | none => (.ue, d, syn)

/-- A word stored with generated check bits (R86). -/
def State.store (s : State) (l : Loc) (d : Nat) : State := s.storeRaw l (d % 2 ^ 64) (eccCheck (d % 2 ^ 64))

/-- A table word as its block uses it: corrected, and all-zero where uncorrectable (R539). -/
def State.word (s : State) (l : Loc) : Nat :=
  match eccDecode (s.rawData l) (s.rawCheck l) with
  | (.ue, _, _) => 0
  | (_, d, _) => d

/-- A word with an uncorrectable error. -/
def State.isUE (s : State) (l : Loc) : Bool := (eccDecode (s.rawData l) (s.rawCheck l)).1 == .ue

/-- One word copied by hardware (R531): an uncorrectable source leaves an uncorrectable destination. -/
def State.copyWord (s : State) (src dst : Loc) : State :=
  match eccDecode (s.rawData src) (s.rawCheck src) with
  | (.ue, d, _) => s.storeRaw dst d (eccCheck d ^^^ 3)
  | (_, d, _) => s.store dst d

/-- n words copied by hardware (R82, R531). -/
def State.copyRange (s : State) (src dst : Loc) (n : Nat) : State :=
  forN n (fun i s => s.copyWord (src.plus i) (dst.plus i)) s

/-- A hardware update of a word by read-modify-write: dropped where the word is uncorrectable (R541). -/
def State.modify (s : State) (l : Loc) (f : Nat → Nat) : State :=
  match eccDecode (s.rawData l) (s.rawCheck l) with
  | (.ue, _, _) => s
  | (_, d, _) => s.store l (f d)

/-- n words stored as zero. -/
def State.zeroRange (s : State) (l : Loc) (n : Nat) : State :=
  { s with mem := s.mem.filter fun c => !(decide (l.key ≤ c.1) && decide (c.1 < l.key + 16 * n)) }

/-- The words of a range of n words that hold a byte other than 0, in ascending order, by their place in the range. -/
def State.live (s : State) (l : Loc) (n : Nat) : List Nat :=
  ((s.mem.filter fun c => decide (l.key ≤ c.1) && decide (c.1 < l.key + 16 * n)).map fun c => (c.1 - l.key) / 16).foldr
    (fun i a => if a.head? = some i then a else i :: a) []

/-! ## Outcomes -/

/-- What a step answers. -/
abbrev Out := Host.Outcome State Fault Refusal

/-- A reported quotient: the whole number where it is one, otherwise one of its two neighbours (log entry 54). -/
def quot (a : Int) (d : Nat) : Int := a / d + (if a % d = 0 then 0 else (Config.quotRound a d % 2 : Nat))

end Sys2Proof.Machine
end

