-- ==== Sys2Proof/Machine/Header.lean ====
section
/-! DEFINITION. The common page header (R42 to R51), the error record (R69), hasps (R54 to R64), the check every
register write undergoes (R27, R47, R56, R63) and the interrupt summary chain (R90 to R95). -/
namespace Sys2Proof.Machine

/-! ## The header registers -/

/-- The reset value of CTRL.ENABLE (R45). -/
def enableReset : Page → Nat
  | .devId | .hubctl | .devInt | .pwr | .pcie | .boot | .mbox | .fuse => 1
  | _ => 0

def HDR.ENABLE (p : Page) : Fld := ⟨p.base + 0x008, 0, 1, .rw, enableReset p⟩
def HDR.FREEZE (p : Page) : Fld := ⟨p.base + 0x008, 2, 1, .rw, 0⟩
def HDR.RESET_BUSY (p : Page) : Fld := ⟨p.base + 0x00C, 30, 1, .ro, 0⟩
def HDR.FROZEN (p : Page) : Fld := ⟨p.base + 0x00C, 29, 1, .ro, 0⟩
def HDR.INT_RAW (p : Page) : Fld := ⟨p.base + 0x010, 0, 32, .w1c, 0⟩
def HDR.INT_EN (p : Page) : Fld := ⟨p.base + 0x014, 0, 32, .rw, 0⟩
def HDR.HASP_HELD (p : Page) : Fld := ⟨p.base + 0x020, 31, 1, .ro, 0⟩
def HDR.HASP_BROKEN (p : Page) : Fld := ⟨p.base + 0x020, 30, 1, .ro, 0⟩
def HDR.HASP_OWNER (p : Page) : Fld := ⟨p.base + 0x020, 24, 6, .ro, 0⟩
def HDR.HASP_LEASE (p : Page) : Fld := ⟨p.base + 0x020, 0, 16, .rw, 0⟩
def HDR.HINGE_MODE (p : Page) : Fld := ⟨p.base + 0x024, 27, 3, .rw, 0⟩
def HDR.MF_SRC (p : Page) : Fld := ⟨p.base + 0x024, 22, 2, .rw, 0⟩
def HDR.HINGE_MF (p : Page) : Fld := ⟨p.base + 0x024, 0, 16, .rw, 0⟩
def HDR.PENDING (p : Page) : Fld := ⟨p.base + 0x028, 31, 1, .ro, 0⟩
def HDR.COPYING (p : Page) : Fld := ⟨p.base + 0x028, 30, 1, .ro, 0⟩
def HDR.DONE (p : Page) : Fld := ⟨p.base + 0x028, 29, 1, .w1c, 0⟩
def HDR.LATE_WRITE (p : Page) : Fld := ⟨p.base + 0x028, 28, 1, .w1c, 0⟩
def HDR.REFUSED (p : Page) : Fld := ⟨p.base + 0x028, 27, 1, .w1c, 0⟩
def HDR.REFUSE_CAUSE (p : Page) : Fld := ⟨p.base + 0x028, 24, 3, .ro, 0⟩
def HDR.ACTIVE_SEL (p : Page) : Fld := ⟨p.base + 0x028, 23, 1, .ro, 0⟩
def HDR.LAST_MF (p : Page) : Fld := ⟨p.base + 0x028, 0, 16, .ro, 0⟩
def HDR.ERR_VALID (p : Page) : Fld := ⟨p.base + 0x02C, 31, 1, .w1c, 0⟩
def HDR.ERR_OVERRUN (p : Page) : Fld := ⟨p.base + 0x02C, 30, 1, .ro, 0⟩
def HDR.ERR_CAUSE (p : Page) : Fld := ⟨p.base + 0x02C, 26, 4, .ro, 0⟩
def HDR.ERR_MASTER_A (p : Page) : Fld := ⟨p.base + 0x02C, 20, 6, .ro, 0⟩
def HDR.ERR_MASTER_B (p : Page) : Fld := ⟨p.base + 0x02C, 14, 6, .ro, 0⟩
def HDR.ERR_WIN (p : Page) : Fld := ⟨p.base + 0x02C, 13, 1, .ro, 0⟩
def HDR.ERR_OFFSET (p : Page) : Fld := ⟨p.base + 0x02C, 2, 10, .ro, 0⟩
def HDR.SCRATCH (p : Page) : Fld := ⟨p.base + 0x030, 0, 32, .rw, 0⟩
/-- The user counter-read permission; it exists on TUMB pages only (R42). -/
def HDR.CNT_USER (p : Page) : Fld := ⟨p.base + 0x034, 0, 1, .rw, 0⟩

/-- Model state beside the header of a page: what a hinge in NEXT_MF saw of its counting multiframe when it was armed
(its number plus 1, 0 while it was absent), SHADOW_CTRL as software wrote it (the fields HINGE_MODE, MF_SRC and HINGE_MF
above are those of the hinge in use), and the ticks issued when the hinge was armed. -/
def HDR.hArm (p : Page) : Fld := ⟨p.base + 0x038, 0, 17, .ro, 0⟩
def HDR.hShadow (p : Page) : Fld := ⟨p.base + 0x03C, 0, 32, .ro, 0⟩
def HDR.hArmTick (p : Page) : Fld := ⟨p.base + 0x034, 8, 64, .ro, 0⟩

/-- The MSI-X table entry of vector v (R41): message address, data and the vector's mask bit. PRESUMED: the layout
and the reset values of the PCIe specification, mask bit 1 (log entry 12). -/
def MSIX.ADDR_LO (v : Fin 64) : Fld := ⟨bar2Base + 0xF_0000 + 16 * v.val, 0, 32, .rw, 0⟩
def MSIX.ADDR_HI (v : Fin 64) : Fld := ⟨bar2Base + 0xF_0004 + 16 * v.val, 0, 32, .rw, 0⟩
def MSIX.DATA (v : Fin 64) : Fld := ⟨bar2Base + 0xF_0008 + 16 * v.val, 0, 32, .rw, 0⟩
def MSIX.MASKED (v : Fin 64) : Fld := ⟨bar2Base + 0xF_000C + 16 * v.val, 0, 1, .rw, 1⟩
/-- The function mask of the MSI-X capability (R93). -/
def MSIX.FUNC_MASKED : Fld := ⟨bar2Base + 0xF_9000, 0, 1, .rw, 0⟩

/-! ## Masters, interrupts, the error record -/

/-- Master IDs (glossary). -/
def masterId : Master → Nat
  | .pcie => 0x01
  | .i2c => 0x02
  | .ward n => 0x10 + n.val
  | .tumb t => 0x20 + t.val
  | .debug => 0x3F

/-- The place of a master in the order of R65. -/
def masterOrder : Master → Nat
  | .pcie => 0
  | .i2c => 1
  | .ward n => 2 + n.val
  | .tumb t => 4 + t.val
  | .debug => 22

/-- Cause b of the page is latched in INT_RAW (R49). Sub-pages 4 to 15 of DEV.TIMING hold the header only, and their
INT_RAW reads 0 (R520). -/
def State.raise (s : State) (p : Page) (b : Nat) : State :=
  match p with
  | .timingX _ => s
  | p => s.setBit (HDR.INT_RAW p) b

/-- Cause b of the page is latched in INT_RAW if x. -/
def State.raiseIf (s : State) (p : Page) (b : Nat) (x : Bool) : State := if x then s.raise p b else s

/-- INT_MASKED: INT_RAW AND INT_EN (R42). -/
def State.masked (s : State) (p : Page) : Nat := s.get (HDR.INT_RAW p) &&& s.get (HDR.INT_EN p)

/-- INT_RAW bits with the same meaning on every page (R49). -/
def intErrCapt : Nat := 31
def intHingeDone : Nat := 30
def intHingeRefused : Nat := 29
def intHaspBroken : Nat := 28

/-- CAUSE codes of ERR_CAPTURE (R69). -/
def causeCollision : Nat := 1
def causeHaspDrop : Nat := 2
def causeResetBusy : Nat := 3
def causeRoWrite : Nat := 4
def causeNarrow : Nat := 5
def causeActiveWrite : Nat := 6
def causeArmPending : Nat := 7
def causeUncorrRead : Nat := 8
def causeUnmapped : Nat := 9

/-- An access of the master with ID a has been dropped at its page: the PAGE_DROP event of a Tumbler and ERR of the I2C
target follow from it (R582, R612). -/
def countDrop (cause a : Nat) (s : State) : State :=
  if cause = causeCollision then s else s.incWrap (ID.hDrop (Fin.ofNat 64 a)) 1

/-- An access error on a page is recorded (R69): the first since VALID was cleared, later ones as OVERRUN. -/
def logErr (p : Page) (cause a b : Nat) (win : Bool) (off : Nat) (s : State) : State :=
  let s := countDrop cause a s
  if s.flag (HDR.ERR_VALID p) then s.putB (HDR.ERR_OVERRUN p) true
  else
    ((((((s.putB (HDR.ERR_VALID p) true).put (HDR.ERR_CAUSE p) cause).put (HDR.ERR_MASTER_A p) a).put
      (HDR.ERR_MASTER_B p) b).putB (HDR.ERR_WIN p) win).put (HDR.ERR_OFFSET p) (if win then 0 else off / 4)).raise p
      intErrCapt

/-- The address of an unmapped access or of a window access error is recorded (R40, R92). -/
def logAddr (a : Nat) (s : State) : State :=
  if s.flag INT.ERR_ADDR_VALID then s else (s.putB INT.ERR_ADDR_VALID true).put INT.ERR_ADDR_ADDR a

/-- An error of an access to a table window of the page (R69, R89). -/
def logWin (p : Page) (cause a b addr : Nat) (s : State) : State :=
  logAddr addr (logErr p cause a b true 0 s)

/-! ## Hasps -/

def HaspId.held : HaspId → Fld
  | .page p => HDR.HASP_HELD p
  | .res n => HUBCTL.RES_HASP_HELD n
def HaspId.broken : HaspId → Fld
  | .page p => HDR.HASP_BROKEN p
  | .res n => HUBCTL.RES_HASP_BROKEN n
def HaspId.owner : HaspId → Fld
  | .page p => HDR.HASP_OWNER p
  | .res n => HUBCTL.RES_HASP_OWNER n
def HaspId.lease : HaspId → Fld
  | .page p => HDR.HASP_LEASE p
  | .res n => HUBCTL.RES_HASP_LEASE_TICKS n

/-- The page that holds a hasp's register. -/
def HaspId.home : HaspId → Page
  | .page p => p
  | .res _ => .hubctl

/-- The offset of a hasp's register in its page. -/
def HaspId.offset : HaspId → Nat
  | .page _ => 0x020
  | .res n => 0x100 + 4 * n.val

/-- Every hasp of the engine. -/
def HaspId.all : List HaspId := Page.all.map HaspId.page ++ (List.finRange 32).map HaspId.res

/-- A hasp is held by a master. -/
def State.holds (s : State) (m : Master) (h : HaspId) : Bool :=
  s.flag (HaspId.held h) && s.get (HaspId.owner h) == masterId m

/-- A hasp is held by another master. -/
def State.heldByOther (s : State) (m : Master) (h : HaspId) : Bool :=
  s.flag (HaspId.held h) && s.get (HaspId.owner h) != masterId m

/-- ECC_TEST returns to 0 when the hasp of its page is released (R532). -/
def eccTestEnd (h : HaspId) (s : State) : State :=
  match h with
  | .page (.mem q) => ((s.clear (MEM.ECC_TEST_RAW q)).clear (MEM.ECC_TEST_ARM q)).clear (MEM.ECC_TEST_CHK q)
  | .page .hubctl => ((s.clear HUBCTL.ECC_TEST_RAW).clear HUBCTL.ECC_TEST_ARM).clear HUBCTL.ECC_TEST_CHK
  | _ => s

/-- A write with ACQUIRE = 1 (R55). -/
def haspAcquire (m : Master) (h : HaspId) (lease : Nat) (s : State) : State :=
  if !s.flag (HaspId.held h) then
    (((s.putB (HaspId.held h) true).put (HaspId.owner h) (masterId m)).put (HaspId.lease h) lease).putB
      (HaspId.broken h) false
  else if s.get (HaspId.owner h) = masterId m then s.put (HaspId.lease h) lease
  else s

/-- The automatic release of R58: HELD clears, BROKEN sets, OWNER keeps the owner's ID. -/
def haspBreak (h : HaspId) (s : State) : State :=
  eccTestEnd h ((((s.putB (HaspId.held h) false).putB (HaspId.broken h) true).put (HaspId.lease h) 0).raise
    (HaspId.home h) intHaspBroken)

/-- A write with RELEASE = 1 (R57). -/
def haspRelease (m : Master) (h : HaspId) (s : State) : State :=
  if !s.flag (HaspId.held h) then s
  else if s.get (HaspId.owner h) = masterId m then
    eccTestEnd h (((s.putB (HaspId.held h) false).put (HaspId.owner h) 0).put (HaspId.lease h) 0)
  else if m = .debug then haspBreak h s
  else logErr (HaspId.home h) causeHaspDrop (masterId m) (s.get (HaspId.owner h)) false (HaspId.offset h) s

/-- A write to a HASP register: RELEASE takes precedence over ACQUIRE, and a write with neither does nothing
(R54, R55, R57). -/
def haspWrite (m : Master) (h : HaspId) (data : Nat) (s : State) : State :=
  if data.testBit 22 then haspRelease m h s
  else if data.testBit 23 then haspAcquire m h (bits data 0 16) s
  else s

/-- One tick of a held hasp's lease (R60): at 0 the hasp is released as in R58. -/
def haspTick (h : HaspId) (s : State) : State :=
  if s.flag (HaspId.held h) && s.get (HaspId.lease h) != 0 then
    let s := s.put (HaspId.lease h) (s.get (HaspId.lease h) - 1)
    if s.get (HaspId.lease h) = 0 then haspBreak h s else s
  else s

/-- HASP_AUTO_RELEASE (R58): every hasp that a master holds is released automatically. -/
def haspsLost (m : Master) (s : State) : State := forL HaspId.all (fun h s => if s.holds m h then haspBreak h s else s) s

/-- A master is reset: its hasps are released, and its writes that have not yet taken effect are discarded without being
logged (R58, R59). -/
def masterFails (m : Master) (s : State) : State :=
  let s := haspsLost m s
  { s with
    held := s.held.filter (fun w => w.req.m != m)
    stalled := s.stalled.filter (fun w => w.req.m != m)
    late := s.late.filter (fun w => w.req.m != m) }

/-- The resource hasp that protects a register of a page (R62). -/
def resourceOf (p : Page) (off : Nat) : Option (Fin 32) :=
  match p with
  | .timing0 => if 0x090 ≤ off ∧ off ≤ 0x0A0 then some 0 else none
  | .timing1 =>
    if off = 0x044 ∨ off = 0x048 ∨ off = 0x04C ∨ off = 0x050 then some 1
    else if 0x100 ≤ off ∧ off < 0x200 ∧ off % 0x20 < 8 then some (Fin.ofNat 32 (2 + (off - 0x100) / 0x20))
    else none
  | .timing2 => if 0x100 ≤ off ∧ off < 0x200 then some (Fin.ofNat 32 (10 + (off - 0x100) / 0x20)) else none
  | .timing3 =>
    if off = 0x060 ∨ off = 0x064 ∨ off = 0x080 ∨ off = 0x084 ∨ off = 0x0A0 ∨ off = 0x0A4 then some 18
    else if off = 0x040 then some 19 else none
  | .ptp => if off = 0x040 ∨ (0x100 ≤ off ∧ off < 0x500) then some 20 else none
  | .pwr => if off = 0x040 then some 21 else none
  | _ => none

/-! ## Stopped domains and the check of a register write -/

/-- The quadrant whose core clock carries a page's registers, if any (R95). -/
def Page.quadrant : Page → Option (Fin 4)
  | .frm q | .tsi q | .tm q | .ciph q | .mem q | .htr q | .qint q => some q
  | .mon d => if d.val < 4 then some (Fin.ofNat 4 d.val) else none
  | .lanegrp g => some (Fin.ofNat 4 (g.val / 8))
  | .conv c | .txdsp c | .rxdsp c | .fec c | .otu c | .hub c | .cal c | .cint c => some (Fin.ofNat 4 (c.val / 4))
  | .tumb t => if t.val < 16 then some (Fin.ofNat 4 (t.val / 4)) else none
  | _ => none

/-- Q_STATE of quadrant q (R683): 0 AWAKE, 1 ENTERING, 2 ASLEEP, 3 WAKING. -/
def qState (q : Fin 4) (s : State) : Nat := bits (s.get PWR.PWR_STAT_Q_STATE) (2 * q.val) 2

/-- The clock domain of the page's registers is stopped (R27, R671, R674). -/
def stopped (p : Page) (s : State) : Bool :=
  match Page.quadrant p with
  | some q => qState q s == 2
  | none =>
    match p with
    | .devId | .pwr | .devInt | .mbx => false
    | _ => s.get PWR.PWR_STAT_DEV_STATE == 2

/-- The hasp of the page guards this offset against other masters (R56); SHADOW_STAT, of which R56 says nothing, it does not
(log entry 133). -/
def haspGuards (off : Nat) : Bool := off == 0x008 || off == 0x024 || off == 0x034 || decide (0x040 ≤ off)

/-- The checks of the arbiter (R56, R63): none where the write is accepted, else the state that has logged it. -/
def arbiterDrops (m : Master) (p : Page) (off : Nat) (s : State) : Option State :=
  if haspGuards off && s.heldByOther m (.page p) then
    some (logErr p causeHaspDrop (masterId m) (s.get (HDR.HASP_OWNER p)) false off s)
  else
    match resourceOf p off with
    | some n =>
      if s.heldByOther m (.res n) then
        some (logErr p causeHaspDrop (masterId m) (s.get (HUBCTL.RES_HASP_OWNER n)) false off s)
      else none
    | none => none

/-- A write held in the crossing for a stopped clock; a later one to the same register replaces it (R27). -/
def holdWrite (m : Master) (p : Page) (off data : Nat) (s : State) : State :=
  { s with held := s.held.filter (fun w => !(w.page == p && w.req.addr == p.base + off))
      ++ [⟨p, ⟨m, .bar0, p.base + off, 4, false, data⟩, true, true⟩] }

/-- What an accepted register write does at its page: it is held if the clock is stopped, or behind writes that are still
held; dropped and logged while the page is in soft reset; and has its effect otherwise (R25 to R27, R47). -/
def atPage (m : Master) (p : Page) (off data : Nat) (eff : State → State) (s : State) : State :=
  if stopped p s || s.held.any (fun w => w.page == p) then holdWrite m p off data s
  else if s.flag (HDR.RESET_BUSY p) && decide (0x040 ≤ off) then logErr p causeResetBusy (masterId m) 0 false off s
  else eff s

/-- A master can present an access: the debug TAP within its unlocked scope (R657), a Ward core while it runs
(R680). -/
def mayIssue (m : Master) (s : State) : Bool :=
  match m with
  | .debug => bit (s.get BOOT.DBG_STAT_SCOPE) 0
  | .ward _ => s.flag PWR.hWard
  | _ => true

/-- A stall holds the transactions of master m (R83): a standby access of it waits for a copy-forward. -/
def stalledBy (m : Master) (s : State) : Bool := s.stalled.any (fun w => w.req.m == m) || s.late.any (fun w => w.req.m == m)

/-- A transaction joins those its master waits with. -/
def stall (p : Page) (r : BusReq) (passed : Bool) (s : State) : State := { s with stalled := s.stalled ++ [⟨p, r, passed, true⟩] }

/-- A register write of master m: the arbiter's checks, then the page. -/
def writeCmd (m : Master) (p : Page) (off data : Nat) (eff : State → State) (s : State) : State :=
  if !mayIssue m s then s
  else if stalledBy m s then stall p ⟨m, .bar0, p.base + off, 4, false, data⟩ false s
  else
    match arbiterDrops m p off s with
    | some s' => s'
    | none => atPage m p off data eff s

/-! ## The interrupt summary chain -/

/-- CTRL.ENABLE gates the interrupts of the page (R635, R637, R683). -/
def gatedInts : Page → Bool
  | .pwr | .mbox | .pcie => true
  | _ => false

/-- A page has a cause under its enables (R90). -/
def srcOn (s : State) (p : Page) : Bool := s.masked p != 0 && (!gatedInts p || s.flag (HDR.ENABLE p))

/-- `CARRIER[c].CINT.SUMMARY` (R91). -/
def cintSummary (s : State) (c : Fin 16) : Nat :=
  let l : List Page := [.conv c, .txdsp c, .rxdsp c, .fec c, .otu c, .hub c, .tumb (Fin.ofNat 18 c.val), .cal c, .cint c]
  l.foldr (fun p a => 2 * a + (srcOn s p).toNat) 0

/-- The summary output of CINT (R91). -/
def cintOut (s : State) (c : Fin 16) : Bool := cintSummary s c &&& s.get (CINT.SUM_EN c) != 0

/-- `QUAD[q].QINT.SUMMARY` (R91). -/
def qintSummary (s : State) (q : Fin 4) : Nat :=
  let own : List Page := [.frm q, .tsi q, .tm q, .ciph q, .mem q, .mon (Fin.ofNat 5 q.val), .htr q, .qint q]
  mask 4 (fun k => cintOut s (Fin.ofNat 16 (4 * q.val + k)))
    + 2 ^ 8 * own.foldr (fun p a => 2 * a + (srcOn s p).toNat) 0
    + 2 ^ 16 * mask 8 (fun g => srcOn s (.lanegrp (Fin.ofNat 32 (8 * q.val + g))))

/-- The summary output of QINT (R91). -/
def qintOut (s : State) (q : Fin 4) : Bool := qintSummary s q &&& s.get (QINT.SUM_EN q) != 0

/-- DEV.INT.SUMMARY0 (R92). -/
def summary0 (s : State) : Nat :=
  let timing := srcOn s .timing0 || srcOn s .timing1 || srcOn s .timing2 || srcOn s .timing3
    || (List.finRange 12).any (fun n => srcOn s (.timingX n))
  mask 4 (fun q => qintOut s (Fin.ofNat 4 q))
    + 2 ^ 4 * ([srcOn s .hubctl, srcOn s .pwr, timing, srcOn s .ptp, srcOn s .keyway, srcOn s .boot, srcOn s .pcie,
        srcOn s (.mon 4), srcOn s .xqsw, srcOn s (.tumb 16), srcOn s (.tumb 17), srcOn s .mbox, srcOn s .fuse,
        srcOn s .devInt] : List Bool).foldr (fun b a => 2 * a + b.toNat) 0

/-- DEV.INT.SUMMARY1 (R92). -/
def summary1 (s : State) : Nat := mask 16 (fun n => srcOn s (.dma (Fin.ofNat 16 n)))

/-- The inputs of the MSI-X vectors, bit v for vector v (R93). -/
def vecInputs (s : State) : Nat :=
  let src := summary0 s % 2 ^ 18 + 2 ^ 18 * summary1 s
  (List.finRange 34).foldl (fun a i =>
    if src.testBit i.val && s.flag (INT.VEC_MAP_EN i) then a ||| 2 ^ s.get (INT.VEC_MAP_VECTOR i) else a) 0

/-- The message of a vector: sent, or held pending while the function or the vector is masked (R93). -/
def vecMessage (v : Fin 64) (s : State) : State :=
  if s.flag (MSIX.MASKED v) || s.flag MSIX.FUNC_MASKED then { s with vecPend := s.vecPend ||| 2 ^ v.val } else s.send (.msix v)

/-- The summary outputs whose rise is a Tumbler event (R578): CINT of carrier c at bit c, SUMMARY0 non-zero at bit
16. -/
def sumOutputs (s : State) : Nat := mask 16 (fun c => cintOut s (Fin.ofNat 16 c)) + 2 ^ 16 * (summary0 s != 0).toNat

/-- Both contexts of the Tumblers that see a summary output: Tumbler c for bit c, the hub Tumblers for bit 16. -/
def sumTargets (rose : Nat) : Nat :=
  (List.range 18).foldl (fun a t => if rose.testBit (min t 16) then a + 3 * 4 ^ t else a) 0

/-- The vectors whose input has risen send their messages, ALARM_N takes its level, and a summary output that has risen
becomes a pending event of its Tumblers (R93, R94, R578). -/
def settle (s : State) : State :=
  let now := vecInputs s
  let outs := sumOutputs s
  let rose := now &&& (now ^^^ s.vecIn)
  let s := if rose = 0 then s else forFin 64 (fun v s => if rose.testBit v.val then vecMessage v s else s) s
  { s with
    vecIn := now
    sumPend := s.sumPend ||| sumTargets (outs &&& (outs ^^^ s.sumPrev))
    sumPrev := outs
    alarm := (summary0 s &&& s.get INT.ALARM_EN0) != 0 || (summary1 s &&& s.get INT.ALARM_EN1) != 0 }

/-- What follows of an effect in the interrupt chain; the commands that wait, wait on. -/
def commit (q : List Instr) (s : State) : State := { settle s with pending := q }

/-- A command's effect: none while the engine is in reset (R668); otherwise the effect, and then what follows of it
in the interrupt chain. -/
def act (s : State) (f : State → State) : Out := if s.inReset then .next s else .next (commit s.pending (f s))

end Sys2Proof.Machine
end

