-- ==== Sys2Proof/Machine/Operands.lean ====
section
/-! DEFINITION. Operand forms shared by several chapters: cyclic redundancy checks (R135, R264), byte strings in
both byte orders (R6, R7), saturating performance counters and their latching (R332), and window distances between
multiframe numbers (R76). -/
namespace Sys2Proof.Machine

/-! ## Cyclic redundancy checks -/

/-- One bit step of CRC-32C, reflected, polynomial 0x1EDC_6F41 (R135). -/
def crc32cBit (c : Nat) : Nat := if c % 2 = 1 then (c / 2) ^^^ 0x82F63B78 else c / 2

/-- One byte of CRC-32C. -/
def crc32cByte (c b : Nat) : Nat :=
  crc32cBit (crc32cBit (crc32cBit (crc32cBit (crc32cBit (crc32cBit (crc32cBit (crc32cBit (c ^^^ b % 256))))))))

/-- CRC-32C with initial value and final XOR 0xFFFF_FFFF (R135). -/
def crc32c (l : List Nat) : Nat := l.foldl crc32cByte 0xFFFFFFFF ^^^ 0xFFFFFFFF

/-- One bit step of a 16-bit CRC with polynomial 0x1021, most significant bit first. -/
def crc16Bit (c : Nat) : Nat := if c.testBit 15 then (2 * c ^^^ 0x1021) % 0x10000 else 2 * c % 0x10000

/-- One byte of the 16-bit CRC. -/
def crc16Byte (c b : Nat) : Nat :=
  crc16Bit (crc16Bit (crc16Bit (crc16Bit (crc16Bit (crc16Bit (crc16Bit (crc16Bit (c ^^^ (b % 256 * 256)))))))))

/-- The 16-bit CRC from the initial value 0xFFFF. -/
def crc16 (l : List Nat) : Nat := l.foldl crc16Byte 0xFFFF

/-! ## Byte strings -/

/-- The n bytes of a number, most significant first (R6). -/
def beBytes (n v : Nat) : List Nat := ((List.range n).map (fun i => v / 256 ^ i % 256)).reverse

/-- The n bytes of a number, least significant first (R7). -/
def leBytes (n v : Nat) : List Nat := (List.range n).map (fun i => v / 256 ^ i % 256)

/-- The number that bytes spell, most significant first. -/
def ofBe (l : List Nat) : Nat := l.foldl (fun a b => a * 256 + b) 0

/-- The number that bytes spell, least significant first. -/
def ofLe (l : List Nat) : Nat := l.foldr (fun b a => a * 256 + b) 0

/-- Bytes i to i + n - 1 of a string. -/
def slice (l : List Nat) (i n : Nat) : List Nat := (l.drop i).take n

/-! ## Performance counters (R332) -/

/-- A running 48-bit count, bit 48 for saturation, takes n more: it sticks at its maximum. -/
def State.cntAdd (s : State) (f : Fld) (n : Nat) : State :=
  let v := s.get f
  let sum := v % 2 ^ 48 + n
  if v.testBit 48 || decide (2 ^ 48 - 1 ≤ sum) then s.put f (2 ^ 49 - 1) else s.put f sum

/-- A running count is latched into its LO and HI words at a PM second and starts again from 0. -/
def State.cntLatch (s : State) (f lo hiSat hi : Fld) : State :=
  let v := s.get f
  (((s.put lo v).put hi (v / 2 ^ 32)).putB hiSat (v.testBit 48)).put f 0

/-! ## Multiframe numbers -/

/-- (target − now) mod 65,536 (R76). -/
def mfLead (target now : Nat) : Nat := (target + 65536 - now % 65536) % 65536

/-- The next multiframe number. -/
def mfNext (n : Nat) : Nat := (n + 1) % 65536

end Sys2Proof.Machine
end

