-- ==== Sys2Proof/Machine/Tables.lean ====
section
/-! DEFINITION. The memories of R526: where every table window lies (R85 to R87), what a read counts and logs
(R536 to R538), and the buckets. -/
namespace Sys2Proof.Machine

/-- The tables of the table windows, by name. -/
inductive Tab where
  | conn | tribStat | portMap | egress | svc | calendar | context | assoc | slotStat
  | xqsw | codeDesc | prog | data
  | txLoad | txFallback | rxLoad | rxFallback | hist | branch | grant | leafCtx | tap | stream | capture
  deriving DecidableEq, Repr

/-- Where a window address leads: word `idx` of a view of a table that belongs to `page`. `active` marks the words that
no master writes: the active views of hinged tables (R71), and words 4 and 5 of a context (R403). -/
structure Hit where
  tab : Tab
  page : Page
  idx : Nat
  active : Bool
  loc : Loc
  deriving DecidableEq, Repr

/-- One table of a region: its window offset, the words of a view, whether it is hinged (R87), its name, and the
word of its memory region at which it starts. DEDUCED: tables lie in their region in the order R526 lists them
(log entry 14). -/
structure TableD where
  off : Nat
  words : Nat
  hinged : Bool
  tab : Tab
  start : Nat
  deriving DecidableEq, Repr

/-- The tables of a quadrant region that lie in the quadrant table SRAM, region 5 (R350, R370, R400, R414, R415,
R428, R442). -/
def quadTables : List TableD :=
  [⟨0x0_0000, 4096, true, .conn, 0⟩, ⟨0x1_0000, 256, false, .tribStat, 8192⟩, ⟨0x2_0000, 128, false, .portMap, 8448⟩,
    ⟨0x2_8000, 4096, false, .egress, 8576⟩, ⟨0x3_0000, 1024, false, .svc, 12672⟩,
    ⟨0x3_8000, 1024, true, .calendar, 13696⟩, ⟨0x4_0000, 8192, false, .assoc, 15744⟩]

/-- The tables of a carrier region that lie in the carrier table SRAM, region 8 + k. -/
def carrierTables : List TableD :=
  [⟨0x000, 16, true, .txLoad, 0⟩, ⟨0x100, 16, false, .txFallback, 32⟩, ⟨0x200, 16, true, .rxLoad, 48⟩,
    ⟨0x300, 16, false, .rxFallback, 80⟩, ⟨0x500, 16, false, .hist, 7808⟩, ⟨0x600, 16, true, .branch, 96⟩,
    ⟨0x2000, 1024, true, .grant, 128⟩, ⟨0x6000, 1024, false, .leafCtx, 2176⟩, ⟨0x8000, 4096, false, .tap, 3200⟩,
    ⟨0x1_0000, 512, false, .stream, 7296⟩, ⟨0x4_0000, 32768, false, .capture, 7824⟩]

/-- The page a table belongs to (R85, R89). -/
def Tab.quadPage (q : Fin 4) : Tab → Page
  | .conn | .tribStat => .tsi q
  | .portMap | .egress | .svc | .calendar | .context => .tm q
  | _ => .ciph q

/-- The page a carrier table belongs to. -/
def Tab.carrierPage (c : Fin 16) : Tab → Page
  | .txLoad | .txFallback => .txdsp c
  | .rxLoad | .rxFallback | .capture => .rxdsp c
  | .hist => .fec c
  | .stream => .otu c
  | .prog | .data => .tumb (Fin.ofNat 18 c.val)
  | _ => .hub c

/-- The memory region of carrier c's tables: word w of region 8 + k. -/
def ctbl (c : Fin 16) (w : Nat) : Loc := .quad (Fin.ofNat 4 (c.val / 4)) (Fin.ofNat 16 (8 + c.val % 4)) w

/-- Word w of the quadrant table SRAM. -/
def qtbl (q : Fin 4) (w : Nat) : Loc := .quad q 5 w

/-- Word w of the memories of Tumbler t: the program words, then the data words (R526). -/
def tumbWord (t : Fin 18) (w : Nat) : Loc :=
  if t.val < 16 then .quad (Fin.ofNat 4 (t.val / 4)) (Fin.ofNat 16 (12 + t.val % 4)) w
  else .hub (Fin.ofNat 6 (t.val - 15)) w

/-- The program word w of Tumbler t. -/
def tumbProg (t : Fin 18) (w : Nat) : Loc := tumbWord t w
/-- The data word w of Tumbler t. -/
def tumbData (t : Fin 18) (w : Nat) : Loc := tumbWord t (4096 + w)

/-! ### The tables by name -/

def txLoadRow (c : Fin 16) (active : Bool) (s : Nat) : Loc := ctbl c (s + if active then 16 else 0)
def txFallbackRow (c : Fin 16) (s : Nat) : Loc := ctbl c (32 + s)
def rxLoadRow (c : Fin 16) (active : Bool) (s : Nat) : Loc := ctbl c (48 + s + if active then 16 else 0)
def rxFallbackRow (c : Fin 16) (s : Nat) : Loc := ctbl c (80 + s)
def branchRow (c : Fin 16) (active : Bool) (b : Nat) : Loc := ctbl c (96 + b + if active then 16 else 0)
def grantRow (c : Fin 16) (active : Bool) (n : Nat) : Loc := ctbl c (128 + n + if active then 1024 else 0)
def leafWord (c : Fin 16) (row w : Nat) : Loc := ctbl c (2176 + 4 * row + w)
def tapWord (c : Fin 16) (n : Nat) : Loc := ctbl c (3200 + n)
def streamWord (c : Fin 16) (i w : Nat) : Loc := ctbl c (7296 + 32 * i + w)
def histWord (c : Fin 16) (n : Nat) : Loc := ctbl c (7808 + n)
def captureWord (c : Fin 16) (n : Nat) : Loc := ctbl c (7824 + n)
def codeDescCopy (c : Fin 16) (n : Nat) : Loc := ctbl c (40592 + n)
def connEntry (q : Fin 4) (active : Bool) (n : Nat) : Loc := qtbl q (n + if active then 4096 else 0)
def tribStatWord (q : Fin 4) (t : Nat) : Loc := qtbl q (8192 + t)
def portMapWord (q : Fin 4) (n : Nat) : Loc := qtbl q (8448 + n)
def egressWord (q : Fin 4) (n : Nat) : Loc := qtbl q (8576 + n)
def svcWord (q : Fin 4) (k v : Nat) : Loc := qtbl q (12672 + 256 * k + v)
def calWord (q : Fin 4) (active : Bool) (n : Nat) : Loc := qtbl q (13696 + n + if active then 1024 else 0)
def assocWord (q : Fin 4) (a w : Nat) : Loc := qtbl q (15744 + 8 * a + w)
def slotStatWord (q : Fin 4) (n : Nat) : Loc := .quad q 6 (4096 + n)
def contextWord (q : Fin 4) (x w : Nat) : Loc := .quad q 2 (16 * x + w)
def xqswEntry (active : Bool) (n : Nat) : Loc := .hub 0 (n + if active then 5120 else 0)
def codeDescWord (n : Nat) : Loc := .hub 0 (10240 + n)

/-- The table of a list that covers a window offset: its descriptor, the word within the view and whether the
offset lies in the active view. -/
def findTable (o : Nat) : List TableD → Option (TableD × Nat × Bool)
  | [] => none
  | t :: ts =>
    let n := t.words * (if t.hinged then 2 else 1)
    if t.off ≤ o ∧ o < t.off + 8 * n then
      let i := (o - t.off) / 8
      if i < t.words then some (t, i, false) else some (t, i - t.words, true)
    else findTable o ts

/-- Offset o of the device region (R85). -/
def deviceHit (o : Nat) : Option Hit :=
  if 0x1_0000 ≤ o ∧ o < 0x1_0000 + 8 * 456 then
    let i := (o - 0x1_0000) / 8
    some ⟨.codeDesc, .hubctl, i, false, codeDescWord i⟩
  else if 0x2_0000 ≤ o ∧ o < 0x2_0000 + 8 * 10240 then
    let i := (o - 0x2_0000) / 8
    if i < 5120 then some ⟨.xqsw, .xqsw, i, false, xqswEntry false i⟩
    else some ⟨.xqsw, .xqsw, i - 5120, true, xqswEntry true (i - 5120)⟩
  else if 0x4_0000 ≤ o ∧ o < 0x6_0000 then
    let t : Fin 18 := Fin.ofNat 18 (16 + (o - 0x4_0000) / 0x1_0000)
    let i := (o % 0x1_0000) / 8
    if i < 4096 then some ⟨.prog, .tumb t, i, false, tumbProg t i⟩
    else some ⟨.data, .tumb t, i - 4096, false, tumbData t (i - 4096)⟩
  else none

/-- Offset o of the region of quadrant q's own tables (R85). -/
def quadHit (q : Fin 4) (o : Nat) : Option Hit :=
  if 0x8_0000 ≤ o then
    let i := (o - 0x8_0000) / 8
    some ⟨.context, .tm q, i, decide (i % 16 = 4 ∨ i % 16 = 5), .quad q 2 i⟩
  else if 0x5_0000 ≤ o ∧ o < 0x5_0000 + 8 * 1024 then
    let i := (o - 0x5_0000) / 8
    some ⟨.slotStat, .ciph q, i, false, slotStatWord q i⟩
  else
    match findTable o quadTables with
    | some (t, i, act) => some ⟨t.tab, t.tab.quadPage q, i, act, qtbl q (t.start + i + if act then t.words else 0)⟩
    | none => none

/-- Offset o of the region of carrier c's tables (R85). -/
def carrierHit (c : Fin 16) (o : Nat) : Option Hit :=
  if 0x2_0000 ≤ o ∧ o < 0x3_0000 then
    let t : Fin 18 := Fin.ofNat 18 c.val
    let i := (o - 0x2_0000) / 8
    if i < 4096 then some ⟨.prog, .tumb t, i, false, tumbProg t i⟩
    else some ⟨.data, .tumb t, i - 4096, false, tumbData t (i - 4096)⟩
  else
    match findTable o carrierTables with
    | some (t, i, act) => some ⟨t.tab, t.tab.carrierPage c, i, act, ctbl c (t.start + i + if act then t.words else 0)⟩
    | none => none

/-- The table word a BAR0 address of the table-window region leads to; none where nothing is mapped (R85). -/
def hitAt (a : Nat) : Option Hit :=
  if a < 0x0300_0000 then none
  else if a < 0x0340_0000 then deviceHit (a - 0x0300_0000)
  else
    let q : Fin 4 := Fin.ofNat 4 ((a - 0x0340_0000) / 0x30_0000)
    let o := (a - 0x0340_0000) % 0x30_0000
    if 0x0340_0000 + 4 * 0x30_0000 ≤ a then none
    else if o < 0x10_0000 then quadHit q o
    else carrierHit (Fin.ofNat 16 (4 * q.val + (o - 0x10_0000) / 0x8_0000)) ((o - 0x10_0000) % 0x8_0000)

/-! ## The fields of table words -/

/-- The bits that fields of a list take: least significant bit and width of each. -/
def fieldBits (l : List (Nat × Nat)) : Nat := l.foldl (fun a f => a + (2 ^ f.2 - 1) * 2 ^ f.1) 0

/-- Every bit of a word. -/
def allBits : Nat := 2 ^ 64 - 1

/-- The bits of a word of a context that a field takes (R402); word n. -/
def contextBits (n : Nat) : Nat :=
  if n = 0 then allBits - fieldBits [(57, 1)] else if n = 1 then fieldBits [(20, 44)] else if n = 2 then fieldBits [(24, 40)]
  else if n = 3 then fieldBits [(42, 22)] else if n = 4 then allBits else if n = 5 then fieldBits [(23, 41)]
  else if n < 8 then 0 else fieldBits [(63, 1), (0, 48)]

/-- The bits of a word of a stream row that a field takes (R338); word n. -/
def streamBits (n : Nat) : Nat :=
  if n < 20 then allBits else if n = 20 then allBits - fieldBits [(42, 6), (16, 16)] else if n = 21 then 0
  else if n < 29 then fieldBits [(63, 1), (0, 48)] else if n = 29 then fieldBits [(0, 10)] else 0

/-- The bits of an association's word that a field takes (R442); word n. -/
def assocBits (n : Nat) : Nat :=
  if n = 0 then fieldBits [(25, 39)] else if n = 1 then fieldBits [(32, 32)] else if n = 2 then allBits
  else if n = 3 then fieldBits [(50, 14)] else fieldBits [(63, 1), (0, 48)]

/-- The bits of a leaf context's word that a field takes and that read (R282); word n. -/
def leafBits (n : Nat) : Nat := if n = 0 then fieldBits [(63, 1), (36, 12)] else allBits

/-- The bits of a word that a master reads: its reserved fields read 0 (R4), by the layout of each table (R157, R241, R248,
R259, R282, R284, R338, R350, R351, R366, R370, R400, R402, R414, R415, R428, R442, R460). -/
def tabBits (h : Hit) : Nat :=
  match h.tab with
  | .txLoad | .txFallback | .rxLoad | .rxFallback => fieldBits [(63, 1), (48, 6), (40, 8)]
  | .branch => fieldBits [(24, 40)]
  | .grant => fieldBits [(63, 1), (60, 3), (56, 4), (55, 1), (32, 22), (16, 13)]
  | .leafCtx => leafBits (h.idx % 4)
  | .tap => if h.idx % 4 = 3 then fieldBits [(0, 48)] else allBits
  | .stream => streamBits (h.idx % 32)
  | .hist => fieldBits [(63, 1), (0, 48)]
  | .conn => if h.idx < 3840 then allBits - fieldBits [(32, 3), (29, 1), (8, 3)] else fieldBits [(38, 26)]
  | .tribStat => fieldBits [(55, 9), (0, 16)]
  | .portMap => if h.idx % 2 = 0 then allBits else fieldBits [(29, 35)]
  | .egress => fieldBits [(57, 7)]
  | .svc => fieldBits [(30, 34)]
  | .calendar =>
    let w := h.idx % 256
    if w < 16 then fieldBits [(53, 11)] else if w = 16 then fieldBits [(0, 11)]
    else if 32 ≤ w ∧ w < 160 then fieldBits ((List.range 8).flatMap fun j => [(8 * j + 7, 1), (8 * j, 4)]) else 0
  | .context => contextBits (h.idx % 16)
  | .assoc => assocBits (h.idx % 8)
  | .slotStat => fieldBits [(54, 10), (0, 48)]
  | .xqsw => fieldBits [(63, 1), (48, 2), (32, 11)]
  | .codeDesc | .prog | .data | .capture => allBits

/-! ## Counting and logging of memory errors -/

/-- The page that reports a word's region (R556, R557). -/
def Loc.page : Loc → Page
  | .quad q _ _ => .mem q
  | .hub _ _ => .hubctl

def Loc.level : Loc → Fld
  | .quad q r _ => MEM.BKT_LVL_LEVEL q r
  | .hub r _ => HUBCTL.BKT_LVL_LEVEL r
def Loc.over : Loc → Fld
  | .quad q r _ => MEM.BKT_LVL_OVER q r
  | .hub r _ => HUBCTL.BKT_LVL_OVER r
def Loc.thr : Loc → Fld
  | .quad q r _ => MEM.BKT_CFG_THR q r
  | .hub r _ => HUBCTL.BKT_CFG_THR r
def Loc.ceCnt : Loc → Fld
  | .quad q r _ => MEM.CE_CNT q r
  | .hub r _ => HUBCTL.CE_CNT r
def Loc.ueCnt : Loc → Fld
  | .quad q r _ => MEM.UE_CNT q r
  | .hub r _ => HUBCTL.UE_CNT r
/-- The word number within its region. -/
def Loc.index : Loc → Nat
  | .quad _ _ w => w
  | .hub _ w => w
/-- The region number of UE_LOG.REGION and CE_LOG.REGION. -/
def Loc.region : Loc → Nat
  | .quad _ r _ => r.val
  | .hub r _ => r.val

/-- OVER follows LEVEL and THR, and INT_RAW.CE_THR sets where it goes from 0 to 1 (R537). -/
def bucketOver (l : Loc) (s : State) : State :=
  let now := decide (s.get l.thr < s.get l.level)
  (s.raiseIf l.page 0 (now && !s.flag l.over)).putB l.over now

/-- The fields of CE_LOG and UE_LOG of the page of a region. -/
structure ErrLog where
  valid : Fld
  scrub : Fld
  region : Fld
  syndrome : Fld
  addr : Fld

def Loc.ceLog : Loc → ErrLog
  | .quad q _ _ => ⟨MEM.CE_LOG_VALID q, MEM.CE_LOG_SCRUB q, MEM.CE_LOG_REGION q, MEM.CE_LOG_SYNDROME q, MEM.CE_ADDR q⟩
  | .hub _ _ =>
    ⟨HUBCTL.CE_LOG_VALID, HUBCTL.CE_LOG_SCRUB, HUBCTL.CE_LOG_REGION, HUBCTL.CE_LOG_SYNDROME, HUBCTL.CE_ADDR⟩
def Loc.ueLog : Loc → ErrLog
  | .quad q _ _ => ⟨MEM.UE_LOG_VALID q, MEM.UE_LOG_SCRUB q, MEM.UE_LOG_REGION q, MEM.UE_LOG_SYNDROME q, MEM.UE_ADDR q⟩
  | .hub _ _ =>
    ⟨HUBCTL.UE_LOG_VALID, HUBCTL.UE_LOG_SCRUB, HUBCTL.UE_LOG_REGION, HUBCTL.UE_LOG_SYNDROME, HUBCTL.UE_ADDR⟩
def Loc.ueOverrun : Loc → Fld
  | .quad q _ _ => MEM.UE_LOG_OVERRUN q
  | .hub _ _ => HUBCTL.UE_LOG_OVERRUN

/-- An error record takes the place, syndrome and finder of an error (R538). -/
def ErrLog.set (g : ErrLog) (l : Loc) (syn : Nat) (scrub : Bool) (s : State) : State :=
  ((((s.putB g.valid true).putB g.scrub scrub).put g.region l.region).put g.syndrome syn).put g.addr l.index

/-- Code `ev` occurs in k cycles for the contexts that `sel` names: the enabled counters that select it count (R582). -/
def evcCount (t : Fin 18) (ev : Nat) (sel : Fin 2 → Bool) (k : Nat) (s : State) : State :=
  if s.flag (TUMB.CNT_CTRL_FREEZE t) then s
  else
    forFin 8 (fun n s =>
      let ctx := s.get (TUMB.EVC_CFG_CTX t n)
      let mine := if ctx = 1 then sel 0 else if ctx = 2 then sel 1 else sel 0 || sel 1
      if s.flag (TUMB.EVC_CFG_EN t n) && s.get (TUMB.EVC_CFG_EVENT t n) == ev && mine then
        let v := s.get (TUMB.hEvc t n) + k
        s.put (TUMB.hEvc t n) (if s.flag (TUMB.EVC_CFG_STICK t n) then min v (2 ^ 48 - 1) else v)
      else s) s

/-- Code `ev` occurs once for context x. -/
def evcOnce (t : Fin 18) (x : Fin 2) (ev : Nat) (s : State) : State := evcCount t ev (fun y => y == x) 1 s

/-- The Tumbler whose memories hold a word (R526). -/
def Loc.tumb : Loc → Option (Fin 18)
  | .quad q r _ => if 12 ≤ r.val then some (Fin.ofNat 18 (4 * q.val + (r.val - 12))) else none
  | .hub r _ => if r.val = 1 ∨ r.val = 2 then some (Fin.ofNat 18 (15 + r.val)) else none

/-- A correctable error found by a read is counted and logged (R536, R538); in a Tumbler's memories it is an event of its
counters, whatever read finds it (R582). -/
def countCE (l : Loc) (syn : Nat) (scrub : Bool) (s : State) : State :=
  let s := bucketOver l (l.ceLog.set l syn scrub ((s.incStick l.level 1).incStick l.ceCnt 1))
  match l.tumb with
  | some t => evcCount t 9 (fun _ => true) 1 s
  | none => s

/-- An uncorrectable error found by a read is counted and logged (R538). -/
def countUE (l : Loc) (syn : Nat) (scrub : Bool) (s : State) : State :=
  let s := (s.incStick l.ueCnt 1).raise l.page 1
  if s.flag l.ueLog.valid then s.putB l.ueOverrun true else l.ueLog.set l syn scrub s

/-- A read that counts: what it finds, the data delivered and the state after (R529, R536, R538). -/
def State.readWord (s : State) (l : Loc) (scrub : Bool) : EccKind × Nat × State :=
  match eccDecode (s.rawData l) (s.rawCheck l) with
  | (.ok, d, _) => (.ok, d, s)
  | (.ce, d, syn) => (.ce, d, countCE l syn scrub s)
  | (.ue, d, syn) => (.ue, d, countUE l syn scrub s)

/-- A block reads words of its tables: what it finds is counted (R538, R539; log entry 27). -/
def blockReads (ls : List Loc) (s : State) : State := ls.foldl (fun s l => (s.readWord l false).2.2) s

end Sys2Proof.Machine
end

