-- ==== Sys2Proof/Machine/Assoc.lean ====
section
/-! DEFINITION. Association descriptors (R442): their fields, and the return of an RX association to HUNT (R459). -/
namespace Sys2Proof.Machine

/-- STATE codes of an association. -/
def asOff : Nat := 0
def asHunt : Nat := 1
def asVerify : Nat := 2
def asRun : Nat := 3
def asStopped : Nat := 4

/-- CAUSE codes of STOPPED. -/
def acNoKey : Nat := 1
def acErased : Nat := 2
def acWorn : Nat := 3
def acExhausted : Nat := 4
def acSaved : Nat := 5

def adEn (w : Nat) : Bool := bit w 63
def adRx (w : Nat) : Bool := bit w 62
def adSide (w : Nat) : Fin 2 := Fin.ofNat 2 (bits w 61 1)
def adMode (w : Nat) : Nat := bits w 59 2
def adTrib (w : Nat) : Fin 256 := Fin.ofNat 256 (bits w 51 8)
def adSlot (w : Nat) : Fin 1024 := Fin.ofNat 1024 (bits w 41 10)
def adSaId (w : Nat) : Nat := bits w 25 16

/-- Word w of association a of quadrant q. -/
def asWord (q : Fin 4) (a : Fin 1024) (w : Nat) (s : State) : Nat := s.word (assocWord q a.val w)

def asSalt (q : Fin 4) (a : Fin 1024) (s : State) : Nat := bits (asWord q a 1 s) 32 32
def asSeq (q : Fin 4) (a : Fin 1024) (s : State) : Nat := asWord q a 2 s
def asState (q : Fin 4) (a : Fin 1024) (s : State) : Nat := bits (asWord q a 3 s) 61 3
def asCause (q : Fin 4) (a : Fin 1024) (s : State) : Nat := bits (asWord q a 3 s) 58 3

/-- The enabled associations of a quadrant, with word 0. -/
def asLive (q : Fin 4) (s : State) : List (Fin 1024 × Nat) :=
  (((s.live (assocWord q 0 0) 8192).filter (fun i => i % 8 == 0)).map fun i =>
    ((Fin.ofNat 1024 (i / 8) : Fin 1024), s.word (assocWord q (i / 8) 0))).filter fun x => adEn x.2

/-- The association moves to a state with a cause (R453, R459); its runs of passes and failures begin afresh, a segment that waited
for its tag is dropped unless the association still judges segments, and one that is OFF has no tag to send (R441). -/
def asMove (q : Fin 4) (a : Fin 1024) (st cause : Nat) (s : State) : State :=
  let s := s.modify (assocWord q a.val 3) (fun w => setBits (setBits w 61 3 st) 58 3 cause)
  let s := (s.put (CIPH.hPass q a) 0).put (CIPH.hFail q a) 0
  let s := if st = asOff then { s with segTags := s.segTags.filter fun g => !(g.q == q && g.a == a) } else s
  if st = asVerify ∨ st = asRun then s
  else { s with segments := s.segments.filter fun g => !(g.q == q && g.a == a) }

/-- The enabled RX associations of a side of a tributary. -/
def rxAssocs (q : Fin 4) (t : Fin 256) (x : Fin 2) (s : State) : List (Fin 1024) :=
  ((asLive q s).filter fun y => adRx y.2 && adTrib y.2 == t && adSide y.2 == x).map (·.1)

/-- ODUflex alignment of a side is lost, or RPL applies on it: its RX association returns to HUNT (R459). -/
def asLost (q : Fin 4) (t : Fin 256) (x : Fin 2) (s : State) : State :=
  forL (rxAssocs q t x s) (fun a s =>
    if asState q a s = asVerify ∨ asState q a s = asRun then asMove q a asHunt 0 s else s) s

/-- A TSI hinge disturbs tributaries: their TX associations' segments in progress are abandoned and their tags not sent (R454). -/
def segsAbandon (q : Fin 4) (ts : List (Fin 256)) (s : State) : State :=
  { s with segTags := s.segTags.filter fun g => !(g.q == q && ts.contains (adTrib (asWord q g.a 0 s))) }

end Sys2Proof.Machine
end

