-- ==== Sys2Proof/Machine/Burstsig.lean ====
section
/-! DEFINITION. The symbols of a burst that its payload does not give (R270 to R272): head, training sequence, sync word, header
and end pattern. A symbol is its I and Q, each +1 or −1. -/
namespace Sys2Proof.Machine

/-- n bits of the generator x^9 + x^5 + 1 from a state (R271). -/
def pnBits : Nat → Nat → List Bool
  | 0, _ => []
  | n + 1, st =>
    let b := st.testBit 8 ^^ st.testBit 4
    b :: pnBits n ((2 * st + b.toNat) % 512)

/-- A bit as a level: 0 is +1 and 1 is −1 (R271). -/
def levelOf (b : Bool) : Int := if b then -1 else 1

/-- Successive pairs of bits as symbols (R271). -/
def pairSyms : List Bool → List (Int × Int)
  | a :: b :: l => (levelOf a, levelOf b) :: pairSyms l
  | _ => []

/-- A symbol rotated by n quarter turns (R271). -/
def quarterTurns (n : Nat) (x : Int × Int) : Int × Int :=
  match n % 4 with
  | 0 => x
  | 1 => (-x.2, x.1)
  | 2 => (-x.1, -x.2)
  | _ => (x.2, -x.1)

/-- Head H, training sequence Q and sync word W of a polarisation, false for X (R270, R271). -/
def headH (p : Bool) : List (Int × Int) := pairSyms (pnBits 64 (0x0B3 + p.toNat))
def trainQ (p : Bool) : List (Int × Int) := pairSyms (pnBits 64 (0x1C7 + p.toNat))
def syncW (p : Bool) : List (Int × Int) := pairSyms (pnBits 128 (0x155 + p.toNat))

/-- The bits of bytes, most significant first (R272). -/
def bitsOfBytes (l : List Nat) : List Bool := l.flatMap fun b => (List.range 8).map fun k => b.testBit (7 - k)

/-- The header's symbols of a polarisation: symbol k carries bits 4k to 4k + 3 as XI, XQ, YI and YQ (R272). -/
def headerSyms (p : Bool) (bytes : List Nat) : List (Int × Int) :=
  (List.range 32).map fun k =>
    let b := bitsOfBytes bytes
    (levelOf (b.getD (4 * k + 2 * p.toNat) false), levelOf (b.getD (4 * k + 2 * p.toNat + 1) false))

/-- Repetitions of Q in a preamble (R270). -/
def trainReps (long : Bool) : Nat := if long then 127 else 7

/-- Preamble, sync word and header of a burst on subcarrier i (R270 to R272). H, Q and W are rotated by i quarter turns; the
header is the same on every subcarrier (log entry 153). -/
def burstLead (p long : Bool) (i : Nat) (header : List Nat) : List (Int × Int) :=
  (headH p ++ (List.replicate (trainReps long) (trainQ p)).flatten ++ syncW p).map (quarterTurns i) ++ headerSyms p header

/-- The end pattern on subcarrier i: the first 16 symbols of W, negated (R270). -/
def burstEndPattern (p : Bool) (i : Nat) : List (Int × Int) := ((syncW p).take 16).map (quarterTurns (i + 2))

end Sys2Proof.Machine
end

