-- ==== Sys2Proof/Machine/Events.lean ====
section
/-! DEFINITION. The events that reach the Tumblers (R578) and the events that firmware writes to the mailbox queue
(R632, R633); the buffers of BAR2 (R41). -/
namespace Sys2Proof.Machine

/-! ## Pending events of the Tumblers -/

/-- Pending-event bits (R578). -/
def evTick : Nat := 0
def evPmSec : Nat := 1
def evMon : Nat := 2
def evHinge : Nat := 3
def evSummary : Nat := 4
def evDoorbell : Nat := 5
def evEvcOvf : Nat := 6
def evCal : Nat := 7

/-- Event b occurs for context x of Tumbler t: its pending bit sets (R578). -/
def tumbPend (t : Fin 18) (x : Fin 2) (b : Nat) (s : State) : State := s.setBit (TUMB.hPend t x) b

/-- Event b occurs for both contexts of Tumbler t. -/
def tumbEvent (t : Fin 18) (b : Nat) (s : State) : State := tumbPend t 1 b (tumbPend t 0 b s)

/-- Event b occurs for both hub Tumblers. -/
def hubTumbEvent (b : Nat) (s : State) : State := tumbEvent 17 b (tumbEvent 16 b s)

/-- Event b occurs for the four Tumblers of quadrant q. -/
def quadTumbEvent (q : Fin 4) (b : Nat) (s : State) : State :=
  forFin 4 (fun k => tumbEvent (Fin.ofNat 18 (4 * q.val + k.val)) b) s

/-- The pending events of a context: TUMB_STAT.PEND_C or PEND_U (R578). -/
def tumbPending (t : Fin 18) (x : Fin 2) (s : State) : Nat :=
  s.get (TUMB.hPend t x) ||| (if s.sumPend.testBit (2 * t.val + x.val) then 2 ^ evSummary else 0)

/-- The pending events that a mask names are consumed. -/
def tumbConsume (t : Fin 18) (x : Fin 2) (m : Nat) (s : State) : State :=
  let i := 2 * t.val + x.val
  let s := s.put (TUMB.hPend t x) (s.get (TUMB.hPend t x) - (s.get (TUMB.hPend t x) &&& m))
  if m.testBit evSummary && s.sumPend.testBit i then { s with sumPend := s.sumPend - 2 ^ i } else s

/-! ## The buffers of BAR2 and of the flash -/

/-- The key of a byte of the BAR2 buffers (R41): command buffer, response buffer and event queue lie beside the memories
of R526. -/
def bar2Key (o : Nat) : Nat := 96 * 2 ^ 28 + o

/-- The key of a byte of the Quad-SPI flash (R641). -/
def flashKey (a : Nat) : Nat := 128 * 2 ^ 28 + a

/-- The state with consecutive bytes of memory set. -/
def State.putList (k : Nat) (l : List Nat) (s : State) : State :=
  (l.foldl (fun (a : Nat × State) b => (a.1 + 1, a.2.setByte a.1 (BitVec.ofNat 8 b))) (k, s)).2

/-- Consecutive bytes of memory. -/
def State.getList (s : State) (k n : Nat) : List Nat := (List.range n).map fun i => (s.byte (k + i)).toNat

/-! ## Mailbox events -/

/-- Event codes (R633). -/
def evcFwReady : Nat := 1
def evcWardException : Nat := 2
def evcTumbTrap : Nat := 3
def evcSubstrateAlarm : Nat := 4
def evcImageLoaded : Nat := 5
def evcBootFault : Nat := 6

/-- An event entry (R633). The layout of DATA is the model's: the spec lists its items (log entry 79). -/
def eventBytes (code seq : Nat) (t : DevTime) (data : List Nat) : List Nat :=
  leBytes 2 code ++ leBytes 2 seq ++ leBytes 6 t.sec ++ leBytes 4 t.ns ++ [0, 0]
    ++ (data ++ List.replicate 48 0).take 48

/-- Firmware writes an event into the queue, or counts it as lost, and keeps it for GET_LOG (R632). -/
def postEvent (code : Nat) (data : List Nat) (s : State) : State :=
  let e := eventBytes code (s.get MBOX.hSeq) s.time data
  let tail := s.get MBX.EVT_TAIL
  let head := s.get MBX.EVT_HEAD
  let s := { s with evtLog := (s.evtLog ++ [e]).drop (s.evtLog.length + 1 - 512) }.incWrap MBOX.hSeq 1
  if (tail + 1) % 1024 = head then (s.incStick MBX.EVT_LOST 1).raise .mbox 2
  else ((s.putList (bar2Key (0x4_0000 + 64 * tail)) e).put MBX.EVT_TAIL (tail + 1)).raiseIf .mbox 1 (tail == head)

/-- MB_EVENT_POST (R632): firmware posts an event. -/
def execMbEventPost (code : Nat) (data : List Nat) (s : State) : Out := act s (postEvent code data)

end Sys2Proof.Machine
end

