-- ==== Sys2Proof/Machine/Loading.lean ====
section
/-! DEFINITION. What the chapters of a carrier share: the loading tables and their capacity (R144, R157, R158, R251),
hinge refusals, and the codes of the carrier states. -/
namespace Sys2Proof.Machine

/-! ## Modes -/

/-- CAR_MODE in force: 0 P2P, 1 HUB, 2 LEAF (R300). -/
def carMode (c : Fin 16) (s : State) : Nat := s.get (HUB.CAR_MODE c).active
def isHub (c : Fin 16) (s : State) : Bool := carMode c s == 1
def isLeaf (c : Fin 16) (s : State) : Bool := carMode c s == 2

/-- The quadrant of a carrier (R8). -/
def quadOf (c : Fin 16) : Fin 4 := Fin.ofNat 4 (c.val / 4)

/-- A MODE value is in range (R172): in OpenZR+ mode N, FEC_RATE and SC_RATE are ignored (R171). -/
def modeOk (m : Nat) : Bool :=
  bits m 30 2 == 1
  || (bits m 30 2 == 0 && decide (bits m 28 2 ≤ 2) && decide (4 ≤ bits m 16 6) && decide (bits m 16 6 ≤ 32)
      && decide (30 ≤ bits m 0 8) && decide (bits m 0 8 ≤ 168))

/-- The MODE register of the TXDSP page as one word (R172). -/
def txModeReg (c : Fin 16) (s : State) : Nat :=
  s.get (TXDSP.MODE_LINE_MODE c) * 2 ^ 30 + s.get (TXDSP.MODE_FEC_RATE c) * 2 ^ 28 + s.get (TXDSP.MODE_N c) * 2 ^ 16
    + s.get (TXDSP.MODE_SC_RATE c)

/-- The MODE register of the RXDSP page as one word (R174). -/
def rxModeReg (c : Fin 16) (s : State) : Nat :=
  s.get (RXDSP.MODE_LINE_MODE c) * 2 ^ 30 + s.get (RXDSP.MODE_FEC_RATE c) * 2 ^ 28 + s.get (RXDSP.MODE_N c) * 2 ^ 16
    + s.get (RXDSP.MODE_SC_RATE c)

/-- Code rate r in hundredths (R172). -/
def rateOf (m : Nat) : Nat :=
  match bits m 28 2 with
  | 0 => 86
  | 1 => 80
  | _ => 75

def isZr (m : Nat) : Bool := bits m 30 2 == 1

/-! ## Loading rows -/

def rowEn (w : Nat) : Bool := w.testBit 63
def rowLoad (w : Nat) : Nat := bits w 48 6
def rowPwr (w : Nat) : Int := toInt 8 (bits w 40 8)

/-- The row checks of R158. -/
def rowOk (w : Nat) : Bool :=
  !rowEn w || (decide (16 ≤ rowLoad w) && decide (rowLoad w ≤ 48) && decide (-30 ≤ rowPwr w) && decide (rowPwr w ≤ 30))

/-- The loading of a row in eighths of a bit; a disabled row carries nothing. -/
def rowBits (w : Nat) : Nat := if rowEn w then rowLoad w else 0

/-- Sum of the loadings of rows lo to hi. -/
def sumLoad (rows : List Nat) (lo hi : Nat) : Nat :=
  (rows.zipIdx.filter (fun x => decide (lo ≤ x.2) && decide (x.2 ≤ hi))).foldl (fun a x => a + rowBits x.1) 0

/-- 3,200 times the capacity in Gb/s of a sum of loadings in eighths (R144): C = 2 × R_sc × r × ΣL. -/
def capacity3200 (mode sum : Nat) : Nat := bits mode 0 8 * sum * rateOf mode

/-- C ≥ F(n), with F(n) = n × 101.125 Gb/s (R144). -/
def meetsF (mode sum : Nat) : Bool := decide (bits mode 16 6 * 323600 ≤ capacity3200 mode sum)

/-- C is at least the framed rate of m tributary slots, m × 5.05625 Gb/s (R249, R250). -/
def meetsSlots (mode sum m : Nat) : Bool := decide (m * 16180 ≤ capacity3200 mode sum)

/-- The sixteen rows of a table. -/
def tableRows (row : Nat → Loc) (s : State) : List Nat := (List.range 16).map (fun i => s.word (row i))

/-! ### Branch rows (R248) -/

def brEn (w : Nat) : Bool := w.testBit 63
def brBurst (w : Nat) : Bool := w.testBit 62
def brLo (w : Nat) : Nat := bits w 58 4
def brHi (w : Nat) : Nat := bits w 54 4
def brContSlot (w : Nat) : Nat := bits w 50 4
def brGuard (w : Nat) : Nat := bits w 44 6
def brDsNts (w : Nat) : Nat := bits w 34 10
def brUsNts (w : Nat) : Nat := bits w 24 10

/-- The active row of branch b. -/
def branchAct (c : Fin 16) (b : Nat) (s : State) : Nat := s.word (branchRow c true b)

/-- The capacity terms of R250 for the enabled branches of a branch table, downstream. -/
def branchesMeetDown (mode : Nat) (rows brs : List Nat) : Bool :=
  brs.all fun w => !brEn w || meetsSlots mode (sumLoad rows (brLo w) (brHi w)) (brDsNts w)

/-- The capacity terms of R250 for the enabled CONT branches, upstream. -/
def branchesMeetUp (mode : Nat) (rows brs : List Nat) : Bool :=
  brs.all fun w => !brEn w || brBurst w || meetsSlots mode (sumLoad rows (brLo w) (brHi w)) (brUsNts w)

/-- The leaf's subcarrier range and upstream in force (R300). -/
def leafLo (c : Fin 16) (s : State) : Nat := s.get (HUB.LEAF_CFG_SC_LO c).active
def leafHi (c : Fin 16) (s : State) : Nat := s.get (HUB.LEAF_CFG_SC_HI c).active
def leafBurst (c : Fin 16) (s : State) : Bool := s.flag (HUB.LEAF_CFG_UP_BURST c).active

/-- No subcarrier of the leaf's range is disabled (R252). -/
def leafRangeOn (rows : List Nat) (lo hi : Nat) : Bool :=
  (List.range 16).all fun i => !(decide (lo ≤ i) && decide (i ≤ hi)) || rowEn (rows.getD i 0)

/-- The active branch table. -/
def activeBranches (c : Fin 16) (s : State) : List Nat := tableRows (branchRow c true) s

/-- The check of R158 on a transmit table, with R251 and R252 on HUB and LEAF carriers. -/
def txTableOk (c : Fin 16) (rows : List Nat) (s : State) : Bool :=
  let m := s.get (TXDSP.hMode c)
  rows.any rowEn && rows.all rowOk &&
    (if isHub c s then branchesMeetDown m rows (activeBranches c s)
     else if isLeaf c s then
      leafRangeOn rows (leafLo c s) (leafHi c s) &&
        (leafBurst c s || meetsSlots m (sumLoad rows (leafLo c s) (leafHi c s)) (s.get (HUB.LEAF_NTS c).active))
     else meetsF m (sumLoad rows 0 15))

/-- The check of R158 on a receive table, with R251 and R252 on HUB and LEAF carriers. -/
def rxTableOk (c : Fin 16) (rows : List Nat) (s : State) : Bool :=
  let m := s.get (RXDSP.hMode c)
  rows.any rowEn && rows.all rowOk &&
    (if isHub c s then branchesMeetUp m rows (activeBranches c s)
     else if isLeaf c s then leafRangeOn rows (leafLo c s) (leafHi c s)
     else meetsF m (sumLoad rows 0 15))

/-! ## Hinge refusals -/

/-- HINGE_MODE codes (R72). -/
def modeImmediate : Nat := 0
def modeNextMf : Nat := 1
def modeAtMf : Nat := 2
def modePaired : Nat := 3
def modeNextTick : Nat := 4

/-- An arm or a pending hinge is refused with a cause (R73). -/
def refuse (p : Page) (cause : Nat) (s : State) : State :=
  (((s.putB (HDR.PENDING p) false).putB (HDR.REFUSED p) true).put (HDR.REFUSE_CAUSE p) cause).raise p intHingeRefused

/-- The request of the carrier ends (R164): REQ_PENDING clears and PROPOSE stops. -/
def endRequest (c : Fin 16) (s : State) : State := (s.putB (TXDSP.LOAD_STAT_REQ_PENDING c) false).putB (TXDSP.hAcc c) false

/-- The pending hinge of the RXDSP page is refused with a cause; a PAIRED one also ends the request, and with cause
0b100 sets REQ_REJECTED (R77, R164). -/
def refuseRx (c : Fin 16) (cause : Nat) (s : State) : State :=
  if s.flag (HDR.PENDING (.rxdsp c)) then
    if s.get (HDR.HINGE_MODE (.rxdsp c)) = modePaired then
      (endRequest c (refuse (.rxdsp c) cause s)).raiseIf (.txdsp c) 3 (cause == 4)
    else refuse (.rxdsp c) cause s
  else s

/-- The pending hinge of the TXDSP page is refused with a cause. -/
def refuseTx (c : Fin 16) (cause : Nat) (s : State) : State :=
  if s.flag (HDR.PENDING (.txdsp c)) then (refuse (.txdsp c) cause s).putB (TXDSP.LOAD_STAT_SERVE_PENDING c) false
  else s

/-! ## Carrier states -/

/-- Codes of CARRIER_STAT.STATE (R214). -/
def stOff : Nat := 0
def stCal : Nat := 1
def stAcq : Nat := 2
def stIn : Nat := 3
def stDeg : Nat := 4
def stOos : Nat := 5

end Sys2Proof.Machine
end

