-- ==== Sys2Proof/Machine/Leafctx.lean ====
section
/-! DEFINITION. Leaf contexts of a hub (R276, R282): their fields, their changes of state, and the commands they send
(R268, R269). -/
namespace Sys2Proof.Machine

/-- STATE codes of a context. -/
def cxEmpty : Nat := 0
def cxUnranged : Nat := 1
def cxRanging : Nat := 2
def cxActive : Nat := 3

/-- Leaf commands (R268). -/
def lcRange : Nat := 1
def lcActivate : Nat := 2
def lcDeactivate : Nat := 3

/-- The row of slot k of branch b. -/
def ctxRow (b k : Fin 16) : Fin 256 := ⟨16 * b.val + k.val, by omega⟩

def ctxBranch (r : Fin 256) : Fin 16 := ⟨r.val / 16, by omega⟩
def ctxSlot (r : Fin 256) : Fin 16 := ⟨r.val % 16, by omega⟩

/-- Word w of context row r. -/
def ctxW (c : Fin 16) (r : Fin 256) (w : Nat) (s : State) : Nat := s.word (leafWord c r.val w)
def ctxEn (c : Fin 16) (r : Fin 256) (s : State) : Bool := bit (ctxW c r 0 s) 63
def ctxLeafId (c : Fin 16) (r : Fin 256) (s : State) : Nat := bits (ctxW c r 0 s) 36 12
def ctxState (c : Fin 16) (r : Fin 256) (s : State) : Nat := bits (ctxW c r 1 s) 61 3
def ctxStale (c : Fin 16) (r : Fin 256) (s : State) : Bool := bit (ctxW c r 1 s) 57
def ctxValid (c : Fin 16) (r : Fin 256) (s : State) : Bool := bit (ctxW c r 1 s) 56
def ctxEqd (c : Fin 16) (r : Fin 256) (s : State) : Nat := bits (ctxW c r 2 s) 32 32

/-- A field of a context word is written by the hub. -/
def ctxPut (c : Fin 16) (r : Fin 256) (w lsb width v : Nat) (s : State) : State :=
  s.modify (leafWord c r.val w) (fun x => setBits x lsb width v)

/-- The contexts of branch b with a state. -/
def ctxCount (c b : Fin 16) (st : Nat) (s : State) : Nat :=
  (List.finRange 16).countP fun k => ctxState c (ctxRow b k) s == st

/-- HUB_STAT.ACTIVE and BRANCH_STAT.ACTIVE follow the contexts (R300). -/
def activeFollow (c b : Fin 16) (s : State) : State :=
  let s := s.put (HUB.BRANCH_STAT_ACTIVE c b) (ctxCount c b cxActive s)
  s.put (HUB.HUB_STAT_ACTIVE c) ((List.finRange 16).foldl (fun a b => a + s.get (HUB.BRANCH_STAT_ACTIVE c b)) 0)

/-- A context changes its state; LEAF_ACTIVE or LEAF_LOST sets except on a host's own write (R276). -/
def ctxMove (c : Fin 16) (r : Fin 256) (st : Nat) (host : Bool) (s : State) : State :=
  let s := activeFollow c (ctxBranch r) (ctxPut c r 1 61 3 st s)
  let s := ((s.put (HUB.hConsec c r) 0).put (HUB.hRangeMiss c r) 0).put (HUB.hOfsN c r) 0
  if host then s
  else if st = cxActive then s.raise (.hub c) 0
  else if st = cxUnranged then s.raise (.hub c) 1
  else s

/-- A new command to the leaf of a context: CSEQ increases and the command is due in three messages (R268, R269). -/
def sendLeafCmd (c : Fin 16) (r : Fin 256) (cmd eqd : Nat) (s : State) : State :=
  let q := (bits (ctxW c r 2 s) 0 8 + 1) % 256
  let s := ctxPut c r 2 0 8 q s
  { s with leafCmds := s.leafCmds ++ [⟨c, ctxBranch r, ctxLeafId c r s, cmd, eqd, q, 3⟩] }

/-- The leaf is lost: DEACTIVATE where it was ACTIVE, LOST = 1 (R276). -/
def ctxLost (c : Fin 16) (r : Fin 256) (s : State) : State :=
  let s := if ctxState c r s = cxActive then sendLeafCmd c r lcDeactivate 0 s else s
  ctxPut c r 1 58 1 1 (ctxMove c r cxUnranged false s)

/-- The context of a CONT branch follows the branch (R276): ACTIVE when it enters IN_SERVICE, UNRANGED when it leaves
IN_SERVICE and DEGRADED, with an ACTIVATE command in both cases. -/
def contFollow (c b : Fin 16) (st : Nat) (s : State) : State :=
  let w := branchAct c b.val s
  let r := ctxRow b (Fin.ofNat 16 (brContSlot w))
  if isHub c s && brEn w && !brBurst w && ctxEn c r s then
    if st = stIn ∧ ctxState c r s = cxUnranged then sendLeafCmd c r lcActivate 0 (ctxMove c r cxActive false s)
    else if st ≠ stIn ∧ st ≠ stDeg ∧ ctxState c r s = cxActive then
      sendLeafCmd c r lcActivate 0 (ctxMove c r cxUnranged false s)
    else s
  else s

end Sys2Proof.Machine
end

