-- ==== Sys2Proof/Machine/Streams.lean ====
section
/-! DEFINITION. The units in which a carrier acquires (R209, R297) and its framed streams: which exist, their sizes, and
what each reports (R301, R302, R326, R327). -/
namespace Sys2Proof.Machine

/-- Codes of CARRIER_STAT.LAST_CAUSE (R214). -/
def lcSigAbsent : Nat := 1
def lcFreqRange : Nat := 2
def lcTimeout : Nat := 7
def lcLof : Nat := 8
def lcLom : Nat := 9
def lcTrUnlock : Nat := 0xA
def lcAllSc : Nat := 0xB
def lcHostReacq : Nat := 0xC
def lcLaserRange : Nat := 0xD

/-- The fields in which a receiver runs its acquisition: those of the carrier, or those of one CONT branch of a hub
(R209, R297). -/
structure RxUnit where
  state : Fld
  stage : Fld
  cause : Fld
  fail : Fld
  verify : Fld
  verifyBad : Fld
  ticks : Fld
  degClr : Fld
  degCause : Fld

def carrierUnit (c : Fin 16) : RxUnit :=
  ⟨RXDSP.CARRIER_STAT_STATE c, RXDSP.CARRIER_STAT_ACQ_STAGE c, RXDSP.CARRIER_STAT_LAST_CAUSE c,
    RXDSP.CARRIER_STAT_FAIL_CNT c, RXDSP.hVerify c, RXDSP.hVerifyBad c, RXDSP.hAcqTicks c, RXDSP.hDegClr c,
    RXDSP.CARRIER_STAT_DEG_CAUSE c⟩

def branchUnit (c b : Fin 16) : RxUnit :=
  ⟨HUB.BRANCH_STAT_STATE c b, HUB.hBrStage c b, HUB.hBrCause c b, HUB.hBrFail c b, HUB.hBrVerify c b,
    HUB.hBrVerifyBad c b, HUB.hBrTicks c b, HUB.hBrDegClr c b, HUB.hBrDegCause c b⟩

/-- The unit that an event of branch b concerns; b is not used off a hub. -/
def unitOf (c b : Fin 16) (s : State) : RxUnit := if isHub c s then branchUnit c b else carrierUnit c

/-- The branches whose units exist: the enabled CONT branches of a hub; the one unit of another carrier, as 0. -/
def unitsOf (c : Fin 16) (s : State) : List (Fin 16) :=
  if isHub c s then (List.finRange 16).filter (fun b => brEn (branchAct c b.val s) && !brBurst (branchAct c b.val s))
  else [0]

/-- IN_SERVICE or DEGRADED: traffic flows (R208). -/
def inTraffic (st : Nat) : Bool := st == stIn || st == stDeg

/-! ## Framed streams (R301, R302) and their defects (R326, R327) -/

def carState (c : Fin 16) (s : State) : Nat := s.get (RXDSP.CARRIER_STAT_STATE c)

/-- The receive streams of a carrier (R301). -/
def streamsRx (c : Fin 16) (s : State) : List (Fin 16) := unitsOf c s

/-- A leaf sends a CONT upstream (R254, R277): SYNC is 1 and ACTIVATE has started it; in NO_DS it goes on as it was (log entry
154). -/
def leafSends (c : Fin 16) (s : State) : Bool :=
  !leafBurst c s && s.flag (HUB.LEAF_STAT_SYNC c)
    && (s.get (HUB.LEAF_STAT_STATE c) == 4 || (s.get (HUB.LEAF_STAT_STATE c) == 1 && s.get (HUB.hPrev c) == 4))

/-- The transmit streams of a carrier (R254, R301). -/
def streamsTx (c : Fin 16) (s : State) : List (Fin 16) :=
  if isHub c s then (List.finRange 16).filter (fun b => brEn (branchAct c b.val s))
  else if isLeaf c s && !leafSends c s then []
  else [0]

/-- The size of receive stream i (R302); 0 on a leaf, which takes it from the common block. -/
def sizeRx (c i : Fin 16) (s : State) : Nat :=
  if isHub c s then brUsNts (branchAct c i.val s)
  else if isLeaf c s then 0
  else if isZr (s.get (RXDSP.hMode c)) then 80
  else 20 * bits (s.get (RXDSP.hMode c)) 16 6

/-- The size of transmit stream i (R302). -/
def sizeTx (c i : Fin 16) (s : State) : Nat :=
  if isHub c s then brDsNts (branchAct c i.val s)
  else if isLeaf c s then s.get (HUB.LEAF_NTS c).active
  else if isZr (s.get (TXDSP.hMode c)) then 80
  else 20 * bits (s.get (TXDSP.hMode c)) 16 6

/-- The framer of a stream is ALIGNED (R318). -/
def streamAligned (c i : Fin 16) (s : State) : Bool := s.get (OTU.hFrmState c i) == 3

/-- The state whose traffic rule applies to stream i: the carrier's, or on a hub the branch's (R327). -/
def streamState (c i : Fin 16) (s : State) : Nat :=
  if isHub c s then s.get (HUB.BRANCH_STAT_STATE c i) else carState c s

/-- dLOS, dAIS, dLCK, dOCI, or dTIM with TIM_ACT, or the stream not ALIGNED: the conditions that RPL and BDI share
(R327). -/
def streamBad (c i : Fin 16) (s : State) : Bool :=
  let d := s.get (OTU.hDet c i)
  !streamAligned c i s || s.flag (CONV.RX_STAT_SIG_ABSENT c) || bits d 0 3 != 0
    || (d.testBit 4 && s.flag (OTU.OTU_CTRL_TIM_ACT c))

/-- RPL (R327, R128): the replacement signal toward the clients is applied. -/
def streamRpl (c i : Fin 16) (s : State) : Bool :=
  streamBad c i s || carState c s == stCal || !inTraffic (streamState c i s)

/-- BDI sent in the return stream of stream i (R327). -/
def streamBdi (c i : Fin 16) (s : State) : Bool :=
  s.flag (OTU.OTU_CTRL_FORCE_BDI c) || (s.flag (OTU.OTU_CTRL_AUTO_BDI c) && streamBad c i s && carState c s != stCal)

/-- What stream i reports (R326, R327): no defect while the carrier is CALIBRATING. -/
def streamShown (c i : Fin 16) (s : State) : Nat :=
  let oofRpl := 2 * s.get (OTU.hOof c i) + 2 ^ 9 * (streamRpl c i s).toNat
  if carState c s = stCal then oofRpl
  else
    oofRpl + s.get (CONV.RX_STAT_SIG_ABSENT c) + 2 ^ 2 * s.get (OTU.hLof c i) + 2 ^ 3 * s.get (OTU.hLom c i)
      + 2 ^ 4 * s.get (OTU.hDet c i)

/-- Ten report bits in the order of OTU_STAT [29:20]. -/
def defBits (v : Nat) : Nat := mask 10 (fun k => v.testBit (9 - k))

/-- Word 20 of a stream's row (R338). -/
def streamWord20 (c i : Fin 16) (s : State) : Nat :=
  s.get (OTU.hFrmState c i) * 2 ^ 62 + defBits (s.get (OTU.hDef c i)) * 2 ^ 52 + s.get (OTU.hAcc c i) * 2 ^ 51
    + s.get (OTU.hRxStat c i) * 2 ^ 48 + s.get (OTU.hSize c i) * 2 ^ 32 + s.get (OTU.hRxMfn c i)

end Sys2Proof.Machine
end

