-- ==== Sys2Proof/Machine/Tribs.lean ====
section
/-! DEFINITION. Connection memory entries and descriptors (R349 to R351), which stream a slot belongs to (R340, R353,
R354), and signal fail and the replacement signal of a tributary (R360, R364, R370). -/
namespace Sys2Proof.Machine

/-! ## Entries (R350) -/

def teTxEn (w : Nat) : Bool := bit w 63
def teTxSrc (w : Nat) : Nat := bits w 61 2
def teTxT (w : Nat) : Fin 256 := Fin.ofNat 256 (bits w 53 8)
def teTxI (w : Nat) : Nat := bits w 43 10
def teTxPort (w : Nat) : Nat := bits w 43 11
def teTxK (w : Nat) : Nat := bits w 53 2
def teTpn (w : Nat) : Nat := bits w 35 8
def teRxEn (w : Nat) : Bool := bit w 31
def teRxSide (w : Nat) : Fin 2 := Fin.ofNat 2 (bits w 30 1)
def teRxT (w : Nat) : Fin 256 := Fin.ofNat 256 (bits w 21 8)
def teRxI (w : Nat) : Nat := bits w 11 10
def teExpTpn (w : Nat) : Nat := bits w 0 8

/-! ## Descriptors (R351) -/

def tdEn (w : Nat) : Bool := bit w 63
def tdImp (w : Nat) : Bool := bit w 62
def tdM (w : Nat) : Nat := bits w 52 10
def tdClient (w : Nat) : Nat := bits w 46 6
def tdProt (w : Nat) : Bool := bit w 45
/-- UPB_EN, which only an IMP tributary has. -/
def tdUpb (w : Nat) : Bool := bit w 44 && tdImp w
def tdUpbK (w : Nat) : Nat := bits w 42 2
def tdUpbB (w : Nat) : Nat := bits w 38 4

/-- The descriptor of tributary t in a page of the connection memory. -/
def tribDesc (q : Fin 4) (active : Bool) (t : Fin 256) (s : State) : Nat := s.word (connEntry q active (3840 + t.val))

/-- The line-slot and port entries of a page that are not all zero, with their numbers. -/
def connLive (q : Fin 4) (active : Bool) (s : State) : List (Nat × Nat) :=
  (s.live (connEntry q active 0) 3840).map fun e => (e, s.word (connEntry q active e))

/-- The tributaries of a page whose descriptor is enabled. -/
def tribsOn (q : Fin 4) (active : Bool) (s : State) : List (Fin 256) :=
  ((s.live (connEntry q active 3840) 256).map (Fin.ofNat 256)).filter fun t => tdEn (tribDesc q active t s)

/-- The carrier of a line-slot entry. -/
def slotCarrier (q : Fin 4) (e : Nat) : Fin 16 := Fin.ofNat 16 (4 * q.val + e / 640)

/-- The branch whose range of n(b) slots, numbered one after the other, holds slot j (R353). -/
def branchOfSlot (n : Nat → Nat) (j : Nat) : List Nat → Option Nat
  | [] => none
  | b :: bs => if j < n b then some b else branchOfSlot n (j - n b) bs

/-- The receive stream that carries slot j of carrier c; none where the slot is not used (R353, R354), nor in OpenZR+ mode, where the
TSI is not in the path (R336). -/
def slotStreamRx (c : Fin 16) (j : Nat) (s : State) : Option (Fin 16) :=
  if isHub c s then
    (branchOfSlot (fun b => brUsNts (branchAct c b s)) j
      ((List.range 16).filter fun b => brEn (branchAct c b s) && !brBurst (branchAct c b s))).map (Fin.ofNat 16)
  else if isZr (s.get (RXDSP.hMode c)) then none
  else if isLeaf c s then if j < s.get (OTU.hSize c 0) then some 0 else none
  else if j < sizeRx c 0 s then some 0 else none

/-- The transmit stream that carries slot j of carrier c, and the slot's place in that stream (R353, R354). -/
def slotStreamTx (c : Fin 16) (j : Nat) (s : State) : Option (Fin 16) :=
  if isHub c s then
    (branchOfSlot (fun b => brDsNts (branchAct c b s)) j
      ((List.range 16).filter fun b => brEn (branchAct c b s))).map (Fin.ofNat 16)
  else if j < sizeTx c 0 s then some 0 else none

/-- A received line slot is not used, or RPL applies on its stream (R354, R360). -/
def lineSlotBad (c : Fin 16) (j : Nat) (s : State) : Bool :=
  match slotStreamRx c j s with
  | some i => streamRpl c i s
  | none => true

/-- An inbound port slot brings a received line slot of another quadrant whose stream has RPL (R360, R366). -/
def portSlotBad (q : Fin 4) (p : Nat) (s : State) : Bool :=
  let x := s.word (xqswEntry true (1280 * q.val + p))
  let o := s.word (connEntry (Fin.ofNat 4 (bits x 48 2)) true (2560 + bits x 32 11))
  bit x 63 && teTxEn o && teTxSrc o == 2 && lineSlotBad (Fin.ofNat 16 (4 * bits x 48 2 + teTxK o)) (teTxI o) s

/-- An inbound port slot carries invalid data since an XQSW hinge (R368). -/
def portSlotStale (q : Fin 4) (p : Nat) (s : State) : Bool := (s.get (XQSW.hBad q (Fin.ofNat 20 (p / 64)))).testBit (p % 64)

/-- The entries that deliver a side of a tributary. -/
def sideEntries (q : Fin 4) (t : Fin 256) (x : Fin 2) (s : State) : List (Nat × Nat) :=
  (connLive q true s).filter fun e => teRxEn e.2 && teRxT e.2 == t && teRxSide e.2 == x

/-- The TSI of the quadrant forwards (R369). -/
def tsiRuns (q : Fin 4) (s : State) : Bool := s.flag (HDR.ENABLE (.tsi q))

/-- An entry of a side carries RPL or a slot that is not used (R354, R360, R368). -/
def sideSlotBad (q : Fin 4) (s : State) (e : Nat × Nat) : Bool :=
  if e.1 < 2560 then lineSlotBad (slotCarrier q e.1) (e.1 % 640) s else portSlotBad q (e.1 - 2560) s || portSlotStale q (e.1 - 2560) s

/-- RPL applies on a side (R360, R459). -/
def sideRpl (q : Fin 4) (t : Fin 256) (x : Fin 2) (s : State) : Bool := (sideEntries q t x s).any (sideSlotBad q s)

/-- A side carries no segments: it has no ODUflex alignment, or RPL applies on it (R459). -/
def sideDead (q : Fin 4) (t : Fin 256) (x : Fin 2) (s : State) : Bool := !s.flag (TSI.hOdu q t x) || sideRpl q t x s

/-- A side of a tributary is in signal fail (R360, R369). -/
def sideSf (q : Fin 4) (t : Fin 256) (x : Fin 2) (s : State) : Bool :=
  let d := tribDesc q true t s
  let es := sideEntries q t x s
  if !tsiRuns q s then tdEn d
  else if tdUpb d || es == [] then false
  else
    es.any (sideSlotBad q s) || !s.flag (TSI.hOdu q t x) || s.get (TSI.hStat q t x) != 0 || s.flag (TSI.hMsim q t x)

/-- RPL toward the client of a tributary, given the SF of its sides (R364): with protection only while both sides, or
the side forced, are in SF. -/
def tribRpl (q : Fin 4) (t : Fin 256) (a b : Bool) (s : State) : Bool :=
  let d := tribDesc q true t s
  match s.get (TSI.hForce q t) with
  | 1 => a
  | 2 => b
  | _ => if tdProt d then a && b else if s.flag (TSI.hSel q t) then b else a

/-- WTR in ticks (R369). -/
def wtrTicks (q : Fin 4) (s : State) : Nat := 125 * max 1 (s.get (TSI.TSI_CFG_WTR q))

/-- The word of a tributary in the status table (R370). -/
def tribStat (q : Fin 4) (t : Fin 256) (s : State) : Nat :=
  let d := tribDesc q true t s
  let sf := s.get (TSI.hSf q t)
  let run := tdProt d && s.flag (TSI.TSI_CFG_REVERT q) && s.flag (TSI.hSel q t) && s.get (TSI.hForce q t) == 0
    && !bit sf 0 && decide (s.get (TSI.hFree q t) < wtrTicks q s)
  2 ^ 63 * (tdEn d).toNat + 2 ^ 62 * s.get (TSI.hSel q t) + 2 ^ 61 * (s.get (TSI.hForce q t) != 0).toNat
    + 2 ^ 60 * bits sf 0 1 + 2 ^ 59 * bits sf 1 1 + 2 ^ 58 * s.get (TSI.hMsim q t 0) + 2 ^ 57 * s.get (TSI.hMsim q t 1)
    + 2 ^ 56 * s.get (TSI.hRpl q t) + 2 ^ 55 * run.toNat + s.get (TSI.hSwitches q t)

/-- SF, RPL and the status word of a tributary follow their conditions, a change being TRIB_CHG, and the RX associations
of its sides return to HUNT where they carry no segments (R459). -/
def tribSync (q : Fin 4) (t : Fin 256) (s : State) : State :=
  let a := sideSf q t 0 s
  let b := sideSf q t 1 s
  let r := tribRpl q t a b s
  let s := s.raiseIf (.tsi q) 1 (s.get (TSI.hSf q t) != a.toNat + 2 * b.toNat || s.flag (TSI.hRpl q t) != r)
  let s := (s.put (TSI.hSf q t) (a.toNat + 2 * b.toNat)).putB (TSI.hRpl q t) r
  let s := if a then s.put (TSI.hFree q t) 0 else s
  let s := forFin 2 (fun x s => if rxAssocs q t x s != [] && sideDead q t x s then asLost q t x s else s) s
  s.store (tribStatWord q t.val) (tribStat q t s)

/-- Every tributary of the quadrant follows its conditions. -/
def tsiSync (q : Fin 4) (s : State) : State :=
  if s.get (TSI.hEn q) = 0 then s else forL (tribsOn q true s) (fun t s => tribSync q t s) s

/-- Every tributary of the engine follows its conditions. -/
def tsiSyncAll (s : State) : State := forFin 4 tsiSync s

end Sys2Proof.Machine
end

