-- ==== Sys2Proof/Machine/Carrier.lean ====
section
/-! DEFINITION. The carrier states and acquisition (R199 to R209), which a hub applies per branch (R297, R298), and how
the reports of its streams follow. -/
namespace Sys2Proof.Machine

/-- The four summary bits of a carrier in DEF_SUM (R339). -/
def carrierDef (c : Fin 16) (s : State) : Nat :=
  let all := (List.finRange 16).foldl (fun a i => a ||| s.get (OTU.hDef c i)) 0
  bits all 0 1 + 2 * bits all 2 1 + 4 * bits all 3 1 + 8 * (bits all 4 5 != 0).toNat

/-- DEF_SUM of the quadrant follows its carriers (R339). -/
def frmSync (q : Fin 4) (s : State) : State :=
  let v := (List.range 4).foldl (fun a k => a + 16 ^ k * carrierDef (Fin.ofNat 16 (4 * q.val + k)) s) 0
  if v = s.get (FRM.DEF_SUM_CARRIER_DEF q) then s else (s.put (FRM.DEF_SUM_CARRIER_DEF q) v).raise (.frm q) 1

/-- The report of stream i follows its conditions (R326, R334, R338). -/
def streamSync (c i : Fin 16) (s : State) : State :=
  let v := streamShown c i s
  let s := s.raiseIf (.otu c) 0 (decide (v % 2 ^ 9 ≠ s.get (OTU.hDef c i) % 2 ^ 9))
  let s := (s.put (OTU.hDef c i) v).put (OTU.hDefSec c i) (s.get (OTU.hDefSec c i) ||| v)
  s.store (streamWord c i.val 20) (streamWord20 c i s)

/-- FEC degrade clears at once when CW_LOCK is 0 or the carrier has left IN_SERVICE and DEGRADED, and its counts
restart (R242). -/
def degDrop (c : Fin 16) (s : State) : State :=
  if s.flag (FEC.FEC_STAT_CW_LOCK c) && inTraffic (carState c s) then s
  else
    let s := s.raiseIf (.fec c) 3 (s.flag (FEC.FEC_STAT_DEG c))
    ((s.putB (FEC.FEC_STAT_DEG c) false).put (FEC.hSetCnt c) 0).put (FEC.hClrCnt c) 0

/-- The reports of every receive stream of the carrier, FEC degrade, and the tributaries, follow their conditions. -/
def streamsSync (c : Fin 16) (s : State) : State :=
  tsiSyncAll (frmSync (quadOf c) (forL (streamsRx c s) (fun i s => streamSync c i s) (degDrop c s)))

/-- The part of the accepted and the expected TTI that TIM_MODE compares differs (R326). -/
def timMismatch (c i : Fin 16) (s : State) : Bool :=
  let m := s.get (OTU.OTU_CTRL_TIM_MODE c)
  let differ (w : Nat) : Bool := s.word (streamWord c i.val (12 + w)) != s.word (streamWord c i.val (8 + w))
  (m.testBit 0 && (differ 0 || differ 1)) || (m.testBit 1 && (differ 2 || differ 3))

/-- dTIM is evaluated again (R326). -/
def timUpdate (c i : Fin 16) (s : State) : State :=
  s.putBit (OTU.hDet c i) 4 (streamAligned c i s && s.flag (OTU.hAcc c i) && timMismatch c i s)

/-- The framer of stream i leaves ALIGNED: its received multiframe is absent (R312), the defects evaluated only in
ALIGNED clear (R326), and a stage-8 acquisition returns to stage 7. -/
def leaveAligned (c i : Fin 16) (s : State) : State :=
  if streamAligned c i s then
    let u := unitOf c i s
    let s := (((s.raise (.otu c) 1).put (OTU.hDet c i) 0).put (OTU.hMis c i) 0).put (OTU.hTtiRun c i) 0
    let s := forFin 4 (fun k s => (s.put (OTU.hDetIn c i k) 0).put (OTU.hDetOut c i k) 0) (s.putB (OTU.hTtiWhole c i) false)
    let s := forFin 32 (fun k s => s.put (OTU.hBei c i k) 0) s
    if s.get u.stage = 8 then (s.put u.stage 7).put u.verify 0 else s
  else s

/-- The framer of stream i enters HUNT (R319). -/
def framerHunt (c i : Fin 16) (s : State) : State :=
  let was := s.get (OTU.hFrmState c i)
  let s := leaveAligned c i s
  let s := if 2 ≤ was then s.cntAdd (OTU.hCnt c i 5) 1 else s
  let s := ((s.put (OTU.hFrmState c i) 0).put (OTU.hCandN c i) 0).putB (OTU.hOof c i) true
  let s := ((s.putB (OTU.hLom c i) false).putB (OTU.hFromAl c i) false).putB (OTU.hAcc c i) false
  ((((s.put (OTU.hErr c i) 0).put (OTU.hRun c i) 0).putB (OTU.hThree c i) false).putB (OTU.hMet c i) false)

/-- Every framer of the carrier enters HUNT: CW_LOCK = 0, or the OTU page is disabled or reset (R319). -/
def framersHunt (c : Fin 16) (s : State) : State := streamsSync c (forL (streamsRx c s) (fun i s => framerHunt c i s) s)

/-- The stream whose received multiframe an RXDSP page counts: that of the carrier, or of the first CONT branch of a hub
(log entry 91); none on a hub with a BURST branch, which counts as R256 has it. -/
def rxMfStream (c : Fin 16) (s : State) : Option (Fin 16) :=
  if !isHub c s then some 0
  else if (List.range 16).any (fun b => brEn (branchAct c b s) && brBurst (branchAct c b s)) then none
  else (unitsOf c s).head?

/-- A pending AT_MF or PAIRED hinge is judged on the return of its counting multiframe, `now` being the MFN of the
multiframe in progress; a NEXT_MF hinge is taken at the first one that begins later (R77). -/
def mfReturn (p : Page) (now : Nat) (paired : State → State) (s : State) : State :=
  let s := if s.flag (HDR.PENDING p) && s.get (HDR.HINGE_MODE p) == modeNextMf then s.put (HDR.hArm p) (now % 65536 + 1) else s
  let lead := mfLead (s.get (HDR.HINGE_MF p)) now
  let mode := s.get (HDR.HINGE_MODE p)
  if s.flag (HDR.PENDING p) && (mode == modeAtMf || mode == modePaired) && !(decide (1 ≤ lead) && decide (lead ≤ 32767)) then
    if mode = modeAtMf then refuse p 1 s else paired s
  else s

/-! ## Carrier states, continued -/

/-- The state a hub reports from its enabled branches (R298). -/
def hubState (c : Fin 16) (s : State) : Nat :=
  let en := (List.finRange 16).filter (fun b => brEn (branchAct c b.val s))
  let st := en.map (fun b => s.get (HUB.BRANCH_STAT_STATE c b))
  if st.all (· == stIn) then stIn
  else if st.any inTraffic then stDeg
  else if st.any (· == stAcq) then stAcq
  else stOos

/-- CARRIER_STAT.STATE of a hub follows its branches unless the carrier is OFF or CALIBRATING (R298). -/
def hubFollow (c : Fin 16) (s : State) : State :=
  if isHub c s && carState c s != stOff && carState c s != stCal then s.put (RXDSP.CARRIER_STAT_STATE c) (hubState c s)
  else s

/-- The armed capture's trigger occurs (R211): 1 cycle slip, 2 SC_LOCK falls, 3 STATE change, 4 tick. -/
def trigger (c : Fin 16) (kind sel : Nat) (s : State) : State :=
  if s.flag (RXDSP.CAP_STAT_ARMED c) && s.get (RXDSP.CAP_CTRL_TRIG c) == kind
      && (kind == 3 || kind == 4 || s.get (RXDSP.CAP_CTRL_SEL c) == sel) then
    s.putB (RXDSP.hTrig c) true
  else s

/-- STATE of a unit changes; a PAIRED request ends when the carrier leaves IN_SERVICE and DEGRADED (R164). -/
def setState (c b : Fin 16) (st : Nat) (s : State) : State :=
  let u := unitOf c b s
  let was := s.get u.state
  let s := hubFollow c (s.put u.state st)
  let s := if was = st then s else contFollow c b st ((trigger c 3 0 s).raiseIf (.hub c) 4 (isHub c s))
  let s := streamsSync c (if inTraffic st then s else s.put u.degCause 0)
  if inTraffic was && !inTraffic st && s.get (HDR.HINGE_MODE (.rxdsp c)) == modePaired then refuseRx c 4 s else s

def pageOn (p : Page) (s : State) : Bool := s.flag (HDR.ENABLE p)

/-- What an event of the line receive domain of a carrier does: nothing while its clock is stopped, so that its status and
counters hold (R30, R32). -/
def rxAct (c : Fin 16) (s : State) (f : State → State) : Out := act s fun s => if s.flag (RXDSP.hLineClk c) then f s else s

/-- Carrier c is parked (R683). -/
def isParked (c : Fin 16) (s : State) : Bool := (s.get PWR.PWR_STAT_PARKED).testBit c.val

/-- Carrier c is neither parked nor on its way into or out of park (R676, R677). -/
def notParking (c : Fin 16) (s : State) : Bool := s.get (PWR.hPark c) == 0

/-- The carrier may leave OFF as far as its pages and power go (R130, R205). -/
def mayRun (c : Fin 16) (s : State) : Bool :=
  pageOn (.conv c) s && pageOn (.rxdsp c) s && notParking c s && qState (quadOf c) s == 0

/-- The rows over which a unit runs. -/
def unitRows (c b : Fin 16) (s : State) : List (Fin 16) :=
  let w := branchAct c b.val s
  (List.finRange 16).filter fun i => !isHub c s || (decide (brLo w ≤ i.val) && decide (i.val ≤ brHi w))

/-- Row i of the active receive table is enabled; in OpenZR+ mode row 0 alone stands for the whole band (R213). -/
def rxRowOn (c i : Fin 16) (s : State) : Bool :=
  if isZr (s.get (RXDSP.hMode c)) then i == 0 else rowEn (s.word (rxLoadRow c true i.val))
def scLock (c i : Fin 16) (s : State) : Bool := s.flag (RXDSP.SC_STAT0_SC_LOCK c i)

/-- The receive tables of a unit's rows are loaded from the fallback table (R199). -/
def loadRx (c b : Fin 16) (s : State) : State :=
  forL (unitRows c b s) (fun i s =>
    (s.copyWord (rxFallbackRow c i.val) (rxLoadRow c true i.val)).copyWord (rxFallbackRow c i.val)
      (rxLoadRow c false i.val)) s

/-- The receive fallback table passes R158; in OpenZR+ mode the tables have no effect (R213). -/
def rxFallbackOk (c : Fin 16) (s : State) : Bool :=
  isZr (s.get (RXDSP.hMode c)) || rxTableOk c (tableRows (rxFallbackRow c) s) s

/-- The outer decoders of the carrier forget their windows: a hunt starts afresh (R226, R232). -/
def outerForget (c : Fin 16) (s : State) : State := { s with outer := s.outer.filter fun w => w.c != c }

/-- The codeword and frame locks of the carrier fall (R231, R319). -/
def dropLocks (c : Fin 16) (s : State) : State :=
  framersHunt c ((outerForget c s |>.putB (FEC.FEC_STAT_CW_LOCK c) false).putB (FEC.FEC_STAT_OUTER_LOCK c) false)

/-- The locks fall as the acquisition of a unit starts again. On a hub the locks, which its branches share, stay while
another CONT branch is framed (log entry 31). -/
def dropUnitLocks (c b : Fin 16) (s : State) : State :=
  if isHub c s && (unitsOf c s).any (fun d => d != b && decide (2 ≤ s.get (OTU.hFrmState c d))) then
    streamsSync c (framerHunt c b s)
  else dropLocks c s

/-- The tables of a unit's rows are loaded and a pending hinge is refused (R199), which in OpenZR+ mode does not apply (R213). -/
def loadRxRefuse (c b : Fin 16) (s : State) : State :=
  if isZr (s.get (RXDSP.hMode c)) then s else refuseRx c 4 (loadRx c b s)

/-- Acquisition starts at stage 1 (R199, R203). -/
def startAcq (c b : Fin 16) (s : State) : State :=
  if rxFallbackOk c s then
    let u := unitOf c b s
    let s := loadRxRefuse c b s
    (((dropUnitLocks c b ((s.put u.stage 1).put u.ticks 0)).put u.verify 0).putB u.verifyBad false).putB
      (RXDSP.CARRIER_STAT_CFG_ERROR c) false
  else s

/-- BRANCH_STAT.STATE of branch b takes a value; BRANCH_STATE where it changes (R297, R300). -/
def branchPut (c b : Fin 16) (st : Nat) (s : State) : State :=
  (s.put (HUB.BRANCH_STAT_STATE c b) st).raiseIf (.hub c) 4 (s.get (HUB.BRANCH_STAT_STATE c b) != st)

/-- The carrier goes OFF: ACQ_STAGE = 0 (R205); on a hub its branches are OFF with it, and the contexts of CONT branches
UNRANGED (R276, R297). -/
def goOff (c : Fin 16) (s : State) : State :=
  let s := if isHub c s then
      forFin 16 (fun b s => contFollow c b stOff ((branchPut c b stOff s).put (HUB.hBrStage c b) 0)) s else s
  let was := carState c s
  let s := (s.put (RXDSP.CARRIER_STAT_STATE c) stOff).put (RXDSP.CARRIER_STAT_ACQ_STAGE c) 0
  let s := streamsSync c (s.put (RXDSP.CARRIER_STAT_DEG_CAUSE c) 0)
  let s := if was = stOff then s else trigger c 3 0 s
  if inTraffic was && s.get (HDR.HINGE_MODE (.rxdsp c)) == modePaired then refuseRx c 4 s else s

/-- A unit enters ACQUIRING at stage 1; where the fallback table fails R158 the carrier is OFF with CFG_ERROR
(R199). -/
def enterAcq (c b : Fin 16) (s : State) : State :=
  if rxFallbackOk c s then startAcq c b (setState c b stAcq s)
  else ((goOff c (refuseRx c 4 s)).putB (RXDSP.CARRIER_STAT_CFG_ERROR c) true).raise (.rxdsp c) 0

/-- Every unit of the carrier enters ACQUIRING; a hub's BURST branches without an ACTIVE leaf are ACQUIRING
(R297). -/
def enterAcqAll (c : Fin 16) (s : State) : State :=
  let s := if isHub c s then
      forFin 16 (fun b s => if brEn (branchAct c b.val s) && brBurst (branchAct c b.val s)
        then branchPut c b stAcq s else s) (s.put (RXDSP.CARRIER_STAT_STATE c) stAcq) else s
  hubFollow c (forL (unitsOf c s) (fun b s => enterAcq c b s) s)

/-- The OFF row of R205 into ACQUIRING. -/
def leaveOff (c : Fin 16) (s : State) : State :=
  if carState c s == stOff && mayRun c s && s.flag (CAL.hVals c) && s.flag (RXDSP.hModeOk c)
      && !s.flag (HDR.RESET_BUSY (.rxdsp c)) then enterAcqAll c s
  else s

/-- A loss event of a unit (R205, R206). -/
def lossEvent (c b : Fin 16) (cause : Nat) (s : State) : State :=
  let u := unitOf c b s
  if inTraffic (s.get u.state) then
    enterAcq c b (((s.put u.cause cause).incStick (RXDSP.ACQ_COUNTS_LOSS_CNT c) 1).raise (.rxdsp c) 3)
  else s

/-- A loss event of every unit of the carrier. -/
def lossAll (c : Fin 16) (cause : Nat) (s : State) : State := forL (unitsOf c s) (fun b s => lossEvent c b cause s) s

/-- The degrade conditions of R207 that hold for a unit. -/
def degradeCause (c b : Fin 16) (s : State) : Nat :=
  let rows := (unitRows c b s).filter (fun i => rxRowOn c i s)
  let thr := s.get (RXDSP.SNR_CTRL_SNR_DEG c)
  (rows.any (fun i => !scLock c i s) && rows.any (fun i => scLock c i s)).toNat
    + 2 * (decide (thr ≠ 0) && rows.any (fun i => s.flag (RXDSP.SC_STAT0_VALID c i)
        && decide (s.get (RXDSP.SC_STAT0_SNR c i) < 10 * thr))).toNat
    + 4 * (s.flag (FEC.FEC_STAT_DEG c)).toNat

/-- DEG_CAUSE follows the conditions, and an IN_SERVICE unit with one enters DEGRADED (R205, R207). -/
def degradeEnter (c b : Fin 16) (s : State) : State :=
  let u := unitOf c b s
  if inTraffic (s.get u.state) then
    let d := degradeCause c b s
    let s := s.put u.degCause d
    if d ≠ 0 ∧ s.get u.state = stIn then
      ((setState c b stDeg s).put u.degClr 0).raise (.rxdsp c) 1
    else s
  else s

/-- The degrade conditions of every unit are looked at. -/
def degradeAll (c : Fin 16) (s : State) : State := forL (unitsOf c s) (fun b s => degradeEnter c b s) s

/-- The locks of a unit's enabled rows are looked at: none locked is a loss event (R206), otherwise the degrade conditions
are (R207). -/
def scCheck (c b : Fin 16) (s : State) : State :=
  let rows := (unitRows c b s).filter fun i => rxRowOn c i s
  if rows ≠ [] ∧ rows.all (fun i => !scLock c i s) then lossEvent c b lcAllSc s else degradeEnter c b s

/-- The locks of every unit are looked at. -/
def scCheckAll (c : Fin 16) (s : State) : State := forL (unitsOf c s) (fun b s => scCheck c b s) s

/-- The units that run over subcarrier i: the carrier's, or the CONT branch of a hub that holds it. -/
def unitsOfSc (c i : Fin 16) (s : State) : List (Fin 16) := (unitsOf c s).filter fun b => (unitRows c b s).contains i

/-- An attempt fails with a cause (R203, R204). -/
def acqFail (c b : Fin 16) (cause : Nat) (s : State) : State :=
  let u := unitOf c b s
  let s := ((s.put u.cause cause).incStick u.fail 1).raise (.rxdsp c) 2
  let n := s.get (RXDSP.ACQ_CTRL_ACQ_RETRY c)
  let s := if s.get u.state = stAcq ∧ n ≠ 0 ∧ n ≤ s.get u.fail then (setState c b stOos s).raise (.rxdsp c) 1 else s
  if rxFallbackOk c s then startAcq c b s
  else ((goOff c (refuseRx c 4 s)).putB (RXDSP.CARRIER_STAT_CFG_ERROR c) true).raise (.rxdsp c) 0

/-- The inner decoder starts to hunt its codeword alignment (R231, R233); in OpenZR+ mode there is no such hunt (R236). -/
def innerHunt (c : Fin 16) (s : State) : State :=
  if isZr (s.get (RXDSP.hMode c)) then s
  else forFin 16 (fun b s => s.put (FEC.hConv c b) 0) ((s.incStick (FEC.ALIGN_CNT_INNER c) 1).put (FEC.hNconv c) 0)

/-- LEAF_STAT.SYNC follows the timing loop (R254). -/
def syncUpdate (c : Fin 16) (s : State) : State :=
  let now := isLeaf c s && s.flag (RXDSP.TR_STAT_LOCK c) && decide (|s.geti (RXDSP.TR_STAT_PPM c)| ≤ 50)
  (s.raiseIf (.hub c) 8 (s.flag (HUB.LEAF_STAT_SYNC c) && !now)).putB (HUB.LEAF_STAT_SYNC c) now

/-- The next stage of a unit's acquisition begins (R202), stage 7 with the hunt of R231. -/
def nextStage (c b : Fin 16) (n : Nat) (s : State) : State :=
  let u := unitOf c b s
  let s := (s.put u.stage n).put u.verify 0
  if n = 2 then s.put u.ticks 0
  else if n = 7 ∧ !s.flag (FEC.FEC_STAT_CW_LOCK c) then innerHunt c s
  else s

/-- The first of the loss conditions of R206, in its order, that holds for a unit; a hub's receive clock is not steered
(R253). -/
def lossHeld (c b : Fin 16) (s : State) : Option Nat :=
  let rows := (unitRows c b s).filter fun i => rxRowOn c i s
  if s.flag (CONV.RX_STAT_SIG_ABSENT c) then some lcSigAbsent
  else if !s.flag (CONV.LASER_STAT_IN_RANGE c) then some lcLaserRange
  else if s.flag (RXDSP.FREQ_STAT_OOR c) then some lcFreqRange
  else if !isHub c s && !s.flag (RXDSP.TR_STAT_LOCK c) then some lcTrUnlock
  else if rows ≠ [] ∧ rows.all (fun i => !scLock c i s) then some lcAllSc
  else none

/-- A unit that has just entered IN_SERVICE meets what already holds: a loss event (R206), otherwise the degrade conditions
(R207). -/
def serviceCheck (c b : Fin 16) (s : State) : State :=
  match lossHeld c b s with
  | some k => lossEvent c b k s
  | none => degradeEnter c b s

/-- Stage 8 ends (R205): IN_SERVICE, or stage 9 shown in OUT_OF_SERVICE. -/
def acqDone (c b : Fin 16) (s : State) : State :=
  let u := unitOf c b s
  let s := s.put u.stage 9
  if s.get u.state = stAcq then
    serviceCheck c b ((((setState c b stIn s).put u.fail 0).incStick (RXDSP.ACQ_COUNTS_ACQ_CNT c) 1).raise (.rxdsp c) 1)
  else s

end Sys2Proof.Machine
end

