-- ==== Sys2Proof/Machine/Innercode.lean ====
section
/-! DEFINITION. The inner code of chapter 06: its parameters (R216), base matrices and parity checks (R217, R218), the
placement of codewords on the coded-bit positions (R219 to R221, R234), and the layered normalised min-sum decoder (R225). A
code rate is given as its FEC_RATE code (R172). -/
namespace Sys2Proof.Machine

/-! ## Parameters and parity checks -/

/-- Entry of base row i and column j: 0 to 99, or 0xFF (R217, R218); the entries are not in the spec (log entry 129). -/
def codeEntry (i j : Nat) : Nat :=
  if 38 ≤ i ∨ (93 ≤ j) then 0xFF
  else if Config.codeBase i j % 101 = 100 then 0xFF
  else Config.codeBase i j % 101

/-- Inner length N (R216). -/
def innerN : Nat := 9300

/-- The information bits K of an inner codeword at the rate of a MODE value (R216). -/
def innerK (mode : Nat) : Nat :=
  match bits mode 28 2 with
  | 0 => 8600
  | 1 => 8000
  | _ => 7500

/-- The first base row of a rate and the number of its rows (R216, R218). -/
def baseFirst (mode : Nat) : Nat :=
  match bits mode 28 2 with
  | 0 => 0
  | 1 => 7
  | _ => 20

def baseCount (mode : Nat) : Nat := (innerN - innerK mode) / 100

/-- Framed bits and outer parity slots of an inner codeword (R216): 93/100 and 7/100 of K. -/
def framedPer (mode : Nat) : Nat := innerK mode * 93 / 100
def slotsPer (mode : Nat) : Nat := innerK mode - framedPer mode

/-- The codeword bits of check t of base row i: an entry v puts column (t + v) mod 100 of each circulant (R217). -/
def checkBits (mode i t : Nat) : List Nat :=
  (List.range 93).filterMap fun j =>
    if codeEntry (baseFirst mode + i) j < 100 then some (100 * j + (t + codeEntry (baseFirst mode + i) j) % 100) else none

/-- Every check of the code is satisfied by a codeword's bits (R217). -/
def checksOk (mode : Nat) (b : Nat → Bool) : Bool :=
  (List.range (baseCount mode)).all fun i => (List.range 100).all fun t => ((checkBits mode i t).countP b) % 2 == 0

/-- Bits that form a codeword: 9,300 of them with every check satisfied. The encoder appends the parity that makes them so
(R217). -/
def isCodeword (mode : Nat) (l : List Bool) : Bool := l.length == innerN && checksOk mode fun k => l.getD k false

/-! ## Placement -/

/-- The sign positions among the coded bits of a matcher block (R219): two of each of its 400 symbols; which they are is open
(log entry 148). -/
def blockSigns (load : Nat) : List Bool := (List.range (50 * load)).map fun i => Config.signPos load i % 2 == 1

/-- The positions of a number of rounds, in the order of R219, each marked where it is a sign position. `loads` are the
loadings of the streams of a round in the order of R148. -/
def roundSigns (loads : List Nat) (rounds : Nat) : List Bool :=
  (List.range rounds).flatMap fun _ => loads.flatMap blockSigns

/-- Information and parity bits laid on the positions of a codeword (R220): parity on the last sign positions, `k` sign
positions passing first, information on the others. -/
def placeFrom : List Bool → Nat → List Bool → List Bool → List Bool
  | [], _, _, _ => []
  | f :: fs, k, i, p =>
    if f = true ∧ k = 0 then p.headD false :: placeFrom fs 0 i p.tail
    else i.headD false :: placeFrom fs (if f then k - 1 else k) i.tail p

/-- The bits of a codeword in the order of its positions (R220). -/
def placeCodeword (signs info parity : List Bool) : List Bool :=
  placeFrom signs (signs.countP id - parity.length) info parity

/-- The receiver's inverse: information and parity bits taken off the positions (R220). -/
def gatherFrom : List Bool → Nat → List Bool → List Bool × List Bool
  | [], _, _ => ([], [])
  | f :: fs, k, l =>
    if f = true ∧ k = 0 then
      let r := gatherFrom fs 0 l.tail
      (r.1, l.headD false :: r.2)
    else
      let r := gatherFrom fs (if f then k - 1 else k) l.tail
      (l.headD false :: r.1, r.2)

/-- Inner codewords of a symbol multiframe: m × E at R_sc = m × 0.125 GBd and a loading sum of E eighths (R219). -/
def mfCodewords (sc sum : Nat) : Nat := sc * sum

/-- The least length of a shortened codeword (R234). -/
def shortMin (mode : Nat) : Nat := 3 * (innerN - innerK mode) + 100

/-- How P coded-bit positions are laid out from a fresh start: the lengths of codewords, and of what carries zeros as
`inr` (R234). -/
def layBurst (mode p : Nat) : List (Nat ⊕ Nat) :=
  let r := p % innerN
  List.replicate (p / innerN) (.inl innerN)
    ++ (if shortMin mode ≤ r then [.inl (100 * (r / 100)), .inr (r % 100)] else [.inr r])

/-- A symbol multiframe with an IMMEDIATE hinge after p positions, q positions following with the new loading: the codeword in
progress ends shortened, codewords are laid afresh, and what is left after the last whole one carries zeros (R221). -/
def layHinge (mode p q : Nat) : List (Nat ⊕ Nat) :=
  layBurst mode p ++ List.replicate (q / innerN) (.inl innerN) ++ [.inr (q % innerN)]

/-- The length of the shortened codeword of a burst payload of p positions; 0 where it has none (R234). -/
def shortLen (mode p : Nat) : Nat := if shortMin mode ≤ p % innerN then 100 * (p % innerN / 100) else 0

/-- The codewords of a burst payload of p positions (R234). -/
def burstWords (mode p : Nat) : Nat := p / innerN + (if shortLen mode p = 0 then 0 else 1)

/-- Framed bits of a burst of `rounds` rounds over a loading sum of `e` eighths (R234, R274). -/
def burstBits (mode e rounds : Nat) : Nat :=
  let p := 100 * e * rounds
  p / innerN * innerK mode + (if shortLen mode p = 0 then 0 else shortLen mode p - (innerN - innerK mode))

/-! ## Decoding -/

/-- The decoder's working values (R225): the reliability of every codeword bit and the last message of every check to each of
its bits. `none` stands for a bit known to be 0, as the bits that shortening fixes are (R234). Reliabilities are exact
numbers in the unit of the inputs: the spec gives no word length (log entry 149). -/
structure MinSum where
  post : Array (Option ℚ)
  msg : Array (List (Option ℚ))

/-- The message of a check to its bit k: 0.75 times the least magnitude of the other bits, with the product of their signs
(R225). -/
def checkMsg (qs : List (Option ℚ)) (k : Nat) : Option ℚ :=
  match (qs.eraseIdx k).filterMap id with
  | [] => none
  | x :: xs =>
    let least := xs.foldl (fun a y => min a |y|) |x|
    some (3 / 4 * (if (x :: xs).countP (fun y => decide (y < 0)) % 2 = 0 then least else -least))

/-- One check of a layer: each bit's reliability without this check's last message, and the new message added. -/
def checkStep (mode i t : Nat) (m : MinSum) : MinSum :=
  let cs := checkBits mode i t
  let old := m.msg.getD (100 * i + t) []
  let qs := cs.zipIdx.map fun x =>
    match m.post.getD x.1 none, (old.getD x.2 (some 0)) with
    | some a, some b => some (a - b)
    | p, none => p
    | none, _ => none
  let new := (List.range cs.length).map (checkMsg qs)
  let post := (cs.zip (qs.zip new)).foldl (fun (a : Array (Option ℚ)) x =>
    a.setIfInBounds x.1 (match x.2 with
      | (some q, some r) => some (q + r)
      | _ => none)) m.post
  ⟨post, m.msg.setIfInBounds (100 * i + t) new⟩

/-- One iteration: every layer in turn, a base row being one layer (R225). -/
def minSumIter (mode : Nat) (m : MinSum) : MinSum :=
  forN (baseCount mode) (fun i m => forN 100 (fun t m => checkStep mode i t m) m) m

/-- The decision on a codeword bit; a reliability of 0 decides 0 (R238). -/
def MinSum.hard (m : MinSum) (k : Nat) : Bool :=
  match m.post.getD k none with
  | some q => decide (q < 0)
  | none => false

/-- Up to n more iterations, k having run; `first` is the first after which every check was satisfied (R225, R241). -/
def minSumRun (mode : Nat) (early : Bool) : Nat → Nat → Option Nat → MinSum → MinSum × Option Nat
  | 0, _, first, m => (m, first)
  | n + 1, k, first, m =>
    if early && first.isSome then (m, first)
    else
      let m' := minSumIter mode m
      minSumRun mode early n (k + 1) (first.or (if checksOk mode m'.hard then some (k + 1) else none)) m'

/-- A decoded codeword: its bits, and where its checks are satisfied at the end the first iteration after which they were. -/
structure Decoded where
  word : List Bool
  iter : Option Nat

/-- The inner decoder on the LLRs of a codeword, in the order of its bits (R217, R225, R234): a positive LLR speaks for 0. A
shortened codeword lacks its first bits, which are 0. A codeword whose checks do not hold after the last iteration is
non-converged, whatever an earlier one showed (log entry 150). -/
def innerDecode (mode iterMax : Nat) (early : Bool) (llr : List Int) : Decoded :=
  let short := innerN - llr.length
  let m0 : MinSum := ⟨(List.replicate short none ++ llr.map fun (x : Int) => some (x : ℚ)).toArray,
    (List.replicate (100 * baseCount mode) []).toArray⟩
  let r := minSumRun mode early iterMax 0 (if checksOk mode m0.hard then some 0 else none) m0
  ⟨(List.range llr.length).map fun k => r.1.hard (short + k), if checksOk mode r.1.hard then r.2 else none⟩

/-- The bits whose decoded value differs from the sign of the input LLR, an LLR of 0 deciding 0 (R238). -/
def corrBits (llr : List Int) (word : List Bool) : Nat := (llr.zip word).countP fun x => decide (x.1 < 0) != x.2

end Sys2Proof.Machine
end

