-- ==== Sys2Proof/Machine/Outercode.lean ====
section
/-! DEFINITION. The outer staircase code of chapter 06: blocks (R222), the component BCH code (R223), the outer-coded stream
(R224), and hard-decision decoding over the window (R226). A block is 300 rows, each a number whose bit j is column j. -/
namespace Sys2Proof.Machine

/-! ## GF(2^10) and the component code -/

/-- x times α in GF(2^10) with x^10 + x^3 + 1 (R223). -/
def gfStep (x : Nat) : Nat := if 512 ≤ x then (2 * x) ^^^ 0x409 else 2 * x

/-- α^n (R223). -/
def gfPow (n : Nat) : Nat := (List.range (n % 1023)).foldl (fun x _ => gfStep x) 1

/-- The product of two polynomials over GF(2), bit k being the coefficient of x^k. -/
def polyMul (a b : Nat) : Nat := forN 11 (fun k x => if a.testBit k then x ^^^ (b * 2 ^ k) else x) 0

/-- The minimal polynomial of α³: x^10 + x^3 + x^2 + x + 1. -/
def bchM3 : Nat := 0x40F

/-- The generator of the component code (R223). -/
def bchGen : Nat := polyMul 0x409 bchM3

/-- One more bit of a division by the generator, highest-degree coefficient first. -/
def bchShift (r : Nat) (b : Bool) : Nat :=
  let v := 2 * r + b.toNat
  if v.testBit 20 then v ^^^ bchGen else v

/-- The 20 BCH parity bits and the overall even-parity bit of 579 information bits (R222, R223). -/
def compParity (info : List Bool) : List Bool :=
  let r := (info ++ List.replicate 20 false).foldl bchShift 0
  let p := (List.range 20).map fun k => r.testBit (19 - k)
  p ++ [(info ++ p).countP id % 2 == 1]

/-- What a bit at place k of a component codeword of 600 adds to its syndrome: α and α³ at its degree 598 − k, and the overall
parity (R223). -/
def compColumn (k : Nat) : Nat × Nat × Bool :=
  if k < 599 then (gfPow (598 - k), gfPow (3 * (598 - k)), true) else (0, 0, true)

/-- The syndrome of the bits at the places of a list. -/
def compSyndrome (ps : List Nat) : Nat × Nat × Bool :=
  ps.foldl (fun a k => let c := compColumn k; (a.1 ^^^ c.1, a.2.1 ^^^ c.2.1, a.2.2 ^^ c.2.2)) (0, 0, false)

/-- Error patterns of at most two bits. -/
def compPatterns : List (List Nat) :=
  [] :: (List.range 600).map (fun a => [a]) ++ (List.range 600).flatMap fun a => (List.range a).map fun b => [b, a]

/-- Bounded-distance decoding of a component codeword with a syndrome (R223, R226): the places to be inverted, none where no
pattern of at most two bits has that syndrome. -/
def compErrors (syn : Nat × Nat × Bool) : Option (List Nat) := compPatterns.find? fun e => compSyndrome e == syn

/-! ## Blocks -/

/-- Component codeword t of a block after its predecessor: column t of the one before, then its own row t (R222). -/
def compWord (prev cur : List Nat) (t : Nat) : List Bool :=
  (List.range 300).map (fun r => (prev.getD r 0).testBit t) ++ (List.range 300).map fun j => (cur.getD t 0).testBit j

/-- Bits as a row. -/
def rowOfBits (l : List Bool) : Nat := mask l.length fun j => l.getD j false

/-- A block of 83,700 framed bits after its predecessor (R222). -/
def encodeBlock (prev : List Nat) (framed : List Bool) : List Nat :=
  (List.range 300).map fun t =>
    let d := (framed.drop (279 * t)).take 279
    rowOfBits (d ++ compParity ((List.range 300).map (fun r => (prev.getD r 0).testBit t) ++ d))

/-- The 6,300 parity bits of a block, row by row (R222, R224). -/
def blockParity (b : List Nat) : List Bool := b.flatMap fun r => (List.range 21).map fun k => r.testBit (279 + k)

/-- The encoder of the outer-coded stream (R224): the last block, the framed bits of the next one, and the parity bits produced
and not yet sent. -/
structure OuterEnc where
  prev : List Nat
  cur : List Bool
  queue : List Bool

/-- The encoder as it starts: B_−1 is all zeros (R224). -/
def OuterEnc.start : OuterEnc := ⟨List.replicate 300 0, [], []⟩

/-- Framed bits are taken; a block that is full produces its parity (R224). A codeword's framed bits fill at most one block. -/
def OuterEnc.take (e : OuterEnc) (framed : List Bool) : OuterEnc :=
  let l := e.cur ++ framed
  if l.length < 83700 then { e with cur := l }
  else
    let b := encodeBlock e.prev (l.take 83700)
    ⟨b, l.drop 83700, e.queue ++ blockParity b⟩

/-- The information bits of the next inner codeword: F_cw framed bits and P_cw parity slots, the oldest parity bits or 0
(R224). -/
def OuterEnc.word (slots : Nat) (e : OuterEnc) (framed : List Bool) : List Bool × OuterEnc :=
  let e := e.take framed
  (framed ++ (List.range slots).map (fun k => e.queue.getD k false), { e with queue := e.queue.drop slots })

/-- The number of block phases that a codeword start can have (R224): 450, 45 or 12. -/
def outerPhases (mode : Nat) : Nat := 83700 / Nat.gcd (framedPer mode) 83700

/-! ## Decoding -/

/-- A block with bits of row t inverted. -/
def flipRow (b : List Nat) (t : Nat) (js : List Nat) : List Nat := b.set t (js.foldl (fun r j => r ^^^ 2 ^ j) (b.getD t 0))

/-- A block with bits of column t inverted. -/
def flipCol (b : List Nat) (t : Nat) (rs : List Nat) : List Nat := rs.foldl (fun b r => b.set r (b.getD r 0 ^^^ 2 ^ t)) b

/-- Component codeword t is decoded (R226). A block that has left the window, `gone`, is no longer changed. -/
def decodeComp (gone : Bool) (t : Nat) (x : List Nat × List Nat) : List Nat × List Nat :=
  let w := compWord x.1 x.2 t
  match compErrors (compSyndrome ((List.range 600).filter fun k => w.getD k false)) with
  | none => x
  | some e =>
    (if gone then x.1 else flipCol x.1 t (e.filter fun k => decide (k < 300)),
      flipRow x.2 t ((e.filter fun k => decide (300 ≤ k)).map (· - 300)))

/-- One pass over the blocks of the window, the oldest first, `prev` being the one before them (R226; log entry 151). -/
def windowPass (gone : Bool) (prev : List Nat) : List (List Nat) → List (List Nat)
  | [] => [prev]
  | b :: bs =>
    let x := forN 300 (decodeComp gone) (prev, b)
    x.1 :: windowPass false x.2 bs

/-- n passes. -/
def windowPasses (prev : List Nat) (bs : List (List Nat)) (n : Nat) : List (List Nat) :=
  forN n (fun _ l => (windowPass true prev l).drop 1) bs

/-- Uncorrectable codewords of a block: its component codewords with a syndrome other than zero (R226). -/
def badComps (prev cur : List Nat) : Nat :=
  (List.range 300).countP fun t =>
    compSyndrome ((List.range 600).filter fun k => (compWord prev cur t).getD k false) != (0, 0, false)

/-- The bits in which two blocks differ. -/
def blockDiff (a b : List Nat) : Nat :=
  (List.range 300).foldl (fun n r => n + (List.range 300).countP fun j => (a.getD r 0).testBit j != (b.getD r 0).testBit j) 0

/-- A block enters the window of stream b of carrier c (R226): the window decodes in 4 passes, and the oldest of 5 blocks leaves
it, with the number of its uncorrectable codewords and of the bits corrected in it. The first block of a hunt is only the
predecessor of the next. -/
def windowEnter (w : OuterWin) (blk : List Nat) : OuterWin × Option (Nat × Nat) :=
  match w.last with
  | none => ({ w with last := some blk }, none)
  | some prev =>
    let raw := w.raw ++ [blk]
    let now := windowPasses prev (w.now ++ [blk]) 4
    match raw, now with
    | r :: rs, n :: ns =>
      if rs.length = 4 then ({ w with last := some n, raw := rs, now := ns }, some (badComps prev n, blockDiff r n))
      else ({ w with raw := raw, now := now }, none)
    | _, _ => ({ w with raw := raw, now := now }, none)

end Sys2Proof.Machine
end

