-- ==== Sys2Proof/Machine/Fec.lean ====
section
/-! DEFINITION. Soft-decision coding: what a decoded codeword counts (R225, R226, R235, R238, R239, R241), codeword and
block alignment (R231 to R233, R237), the estimate of each tick and signal degrade (R240, R242, R243), and what
enabling the page samples (R227, R228, R244). -/
namespace Sys2Proof.Machine

/-- The FEC page decodes (R244): not while its receive clock is stopped (R30, R32). -/
def fecRuns (c : Fin 16) (s : State) : Bool :=
  pageOn (.fec c) s && !s.flag (HDR.RESET_BUSY (.fec c)) && !isParked c s && s.flag (RXDSP.hLineClk c)

/-- The carrier receives in OpenZR+ mode (R236). -/
def rxZr (c : Fin 16) (s : State) : Bool := isZr (s.get (RXDSP.hMode c))

/-- The unit whose received multiframe holds an uncorrectable codeword (R202, R226). -/
def markBad (c b : Fin 16) (s : State) : State := s.putB (unitOf c b s).verifyBad true

/-- Uncorrectable codewords are counted (R226, R235, R237). -/
def countUncorr (c : Fin 16) (n : Nat) (s : State) : State :=
  if n = 0 then s else (s.cntAdd (FEC.hRun c 5) n).raise (.fec c) 5

/-- A block leaves the window (R226, R232, R233): `bad` of its 300 component codewords have a non-zero syndrome, and `corr` of
its bits were corrected. -/
def blockLeaves (c b : Fin 16) (bad corr : Nat) (s : State) : State :=
  if s.flag (FEC.FEC_STAT_OUTER_LOCK c) then
    let s := s.put (FEC.hBadBlk c) (if 30 < bad then min 16 (s.get (FEC.hBadBlk c) + 1) else 0)
    let s := countUncorr c bad (s.cntAdd (FEC.hRun c 4) corr)
    if bad = 0 then s else markBad c b s
  else s.put (FEC.hGoodBlk c) (if bad ≤ 3 then min 2 (s.get (FEC.hGoodBlk c) + 1) else 0)

/-- The window of stream b. -/
def outerWin (c b : Fin 16) (s : State) : OuterWin := (s.outer.find? fun w => w.c == c && w.b == b).getD ⟨c, b, none, [], []⟩

/-- A block reaches the outer decoder (R226, R232): only once a framer is ALIGNED or while OUTER_LOCK is held. Under OUTER_LOCK
blocks have the phase in force; before it a block of another candidate phase starts a new window. -/
def blockArrives (c b : Fin 16) (x : Nat × List Nat) (s : State) : State :=
  let lock := s.flag (FEC.FEC_STAT_OUTER_LOCK c)
  let same := s.get (FEC.hPhase c) == x.1 % 83700
  if (lock && !same) || (!lock && !(streamsRx c s).any fun i => streamAligned c i s) then s
  else
    let s := if same then s else (outerForget c (s.put (FEC.hPhase c) (x.1 % 83700))).put (FEC.hGoodBlk c) 0
    let r := windowEnter (outerWin c b s) x.2
    let s := { s with outer := (s.outer.filter fun w => !(w.c == c && w.b == b)) ++ [r.1] }
    match r.2 with
    | some (bad, corr) => blockLeaves c b bad corr s
    | none => s

/-- The counters and the histogram take a codeword of `len` bits (R238, R239, R241): `corr` of them differ from the signs of
the inputs, and `iter` is the first iteration that satisfied its checks, none where it did not converge. -/
def countCodeword (c : Fin 16) (len corr : Nat) (iter : Option Nat) (s : State) : State :=
  let s := ((s.cntAdd (FEC.hRun c 0) corr).cntAdd (FEC.hRun c 1) len).cntAdd (FEC.hRun c 2) 1
  let s := (s.put (FEC.hTickCorr c) (s.get (FEC.hTickCorr c) + corr)).put (FEC.hTickDec c) (s.get (FEC.hTickDec c) + len)
  match iter with
  | some n => s.cntAdd (FEC.hHist c (Fin.ofNat 16 (min n 12))) 1
  | none => s.cntAdd (FEC.hHist c 13) 1

/-- The inner decoder's work on the LLRs of a codeword, with the rate of the RXDSP page's MODE as sampled, ITER_MAX in force and
EARLY_STOP as it stands (R215, R225, R227). -/
def decodeLlr (c : Fin 16) (llr : List Int) (s : State) : Decoded :=
  innerDecode (s.get (RXDSP.hMode c)) (s.get (FEC.FEC_STAT_ITER_ACT c)) (s.flag (FEC.FEC_CTRL_EARLY_STOP c)) llr

/-- A decoded native codeword is counted (R238). -/
def countNative (c : Fin 16) (llr : List Int) (d : Decoded) (s : State) : State :=
  let s := countCodeword c llr.length (corrBits llr d.word) d.iter s
  if d.iter.isNone then s.cntAdd (FEC.hRun c 3) 1 else s

/-- A codeword taken at a candidate alignment while the decoder hunts (R231): those that converge at one candidate are counted
up to four; a codeword at another candidate starts the count again. -/
def huntCodeword (c b : Fin 16) (cand : Nat) (d : Decoded) (s : State) : State :=
  let n := if s.get (FEC.hCand c b) = cand then s.get (FEC.hConv c b) else 0
  (s.put (FEC.hCand c b) cand).put (FEC.hConv c b) (if d.iter.isNone then 0 else min 4 (n + 1))

/-- The payload positions of the burst of the capture of branch b whose header has passed (R274), with the loading that held at
its first payload symbol; 0 where none runs. -/
def capPayload (c b : Fin 16) (s : State) : Nat :=
  if s.get (HUB.hCap c b) = 2 then 100 * s.get (HUB.hCapE c b) * s.get (HUB.hCapR c b) else 0

/-- A codeword of a burst is decoded (R234, R235): of a length that its payload has, and counted only under CW_LOCK (R238; log
entry 73). One that converges counts toward the 90 % of R283. -/
def burstCodeword (c b : Fin 16) (llr : List Int) (s : State) : State :=
  let p := capPayload c b s
  if (llr.length = innerN ∧ innerN ≤ p) ∨ (llr.length = shortLen (s.get (RXDSP.hMode c)) p ∧ llr ≠ []) then
    let d := decodeLlr c llr s
    let s := if d.iter.isSome then s.put (HUB.hCapCws c b) (s.get (HUB.hCapCws c b) + 1) else s
    if s.flag (FEC.FEC_STAT_CW_LOCK c) then countUncorr c (if d.iter.isNone then 1 else 0) (countNative c llr d s) else s
  else s

/-- CODEWORD_DECODE (R225): a codeword of the carrier, or of branch b of a hub, is decoded. While CW_LOCK is 0 it is counted
nowhere (R238) and only tries a candidate alignment (R231); under CW_LOCK the alignment in force holds, which on a hub each
branch has for itself (log entry 31). -/
def execCodewordDecode (c b : Fin 16) (w : Codeword) (s : State) : Out :=
  act s fun s =>
    if !fecRuns c s then s
    else
      match w with
      | .burst llr => if rxZr c s then s else burstCodeword c b llr s
      | .native cand llr blocks =>
        if rxZr c s then s
        else
          let d := decodeLlr c llr s
          if s.flag (FEC.FEC_STAT_CW_LOCK c) then
            if isHub c s || s.get (FEC.hCand c b) == cand then
              let s := countNative c llr d s
              let s := s.put (FEC.hNconv c) (if d.iter.isNone then min 64 (s.get (FEC.hNconv c) + 1) else 0)
              forL blocks (fun x s => blockArrives c b x s) s
            else s
          else huntCodeword c b cand d s
      | .ofec len corr iter =>
        if rxZr c s && s.flag (FEC.FEC_STAT_CW_LOCK c) then
          let s := countCodeword c len corr iter s
          if iter.isNone then markBad c b (countUncorr c 1 s) else s
        else s

/-- CW_LOCK_ACQUIRED (R231): four consecutive codewords converge at a candidate; in OpenZR+ mode the block alignment
is found (R237). -/
def execCwLockAcquired (c : Fin 16) (s : State) : Out :=
  act s fun s =>
    if fecRuns c s && !s.flag (FEC.FEC_STAT_CW_LOCK c)
        && (unitsOf c s).any (fun b => decide (7 ≤ s.get (unitOf c b s).stage) && (rxZr c s || s.get (FEC.hConv c b) == 4))
        then
      let s := (s.putB (FEC.FEC_STAT_CW_LOCK c) true).put (FEC.hNconv c) 0
      if rxZr c s then s.putB (FEC.FEC_STAT_OUTER_LOCK c) true else s
    else s

/-- CW_LOCK_LOST (R233): 64 consecutive codewords have not converged; in OpenZR+ mode the alignment is lost. -/
def execCwLockLost (c : Fin 16) (s : State) : Out :=
  rxAct c s fun s =>
    if s.flag (FEC.FEC_STAT_CW_LOCK c) && (rxZr c s || s.get (FEC.hNconv c) == 64) then
      dropLocks c (innerHunt c (s.raise (.fec c) 0))
    else s

/-- The outer decoder starts to hunt its block phase (R232, R233). -/
def outerHunt (c : Fin 16) (s : State) : State := ((outerForget c (s.incStick (FEC.ALIGN_CNT_OUTER c) 1)).put (FEC.hGoodBlk c) 0).put (FEC.hBadBlk c) 0

/-- OUTER_LOCK_ACQUIRED (R232): two consecutive blocks are at least 99 % clean at a candidate phase, which then is in force. -/
def execOuterLockAcquired (c : Fin 16) (s : State) : Out :=
  rxAct c s fun s =>
    if s.flag (FEC.FEC_STAT_CW_LOCK c) && !s.flag (FEC.FEC_STAT_OUTER_LOCK c) && s.get (FEC.hGoodBlk c) == 2
        && (streamsRx c s).any (fun i => streamAligned c i s) then
      (s.putB (FEC.FEC_STAT_OUTER_LOCK c) true).put (FEC.hBadBlk c) 0
    else s

/-- OUTER_LOCK_LOST (R233): 16 consecutive blocks have more than 10 % uncorrectable components. -/
def execOuterLockLost (c : Fin 16) (s : State) : Out :=
  rxAct c s fun s =>
    if s.flag (FEC.FEC_STAT_OUTER_LOCK c) && s.get (FEC.hBadBlk c) == 16 then
      outerHunt c ((s.putB (FEC.FEC_STAT_OUTER_LOCK c) false).raise (.fec c) 1)
    else s

/-! ## Estimates and degrade -/

/-- ⌊2^32 × corr / dec⌋, 0 without decoded bits, stuck at 0xFFFF_FFFF (R240). -/
def berOf (corr dec : Nat) : Nat := if dec = 0 then 0 else min 0xFFFFFFFF (2 ^ 32 * corr / dec)

/-- EXC follows BER_TICK and EXC_THR (R243). -/
def excUpdate (c : Fin 16) (s : State) : State :=
  let now := decide (s.get (FEC.EXC_THR c) < s.get (FEC.BER_TICK c))
  (s.raiseIf (.fec c) 4 (now && !s.flag (FEC.FEC_STAT_EXC c))).putB (FEC.FEC_STAT_EXC c) now

/-- DEG is evaluated (R242). -/
def degEvaluated (c : Fin 16) (s : State) : Bool := s.flag (FEC.FEC_STAT_CW_LOCK c) && inTraffic (carState c s)

/-- What a tick does in the FEC page (R240, R242, R243): BER_TICK is written, EXC follows, and the counts of DEG
advance, each only in the state whose condition it is. Without a receive clock all of it holds (R30, R32). -/
def fecTick (c : Fin 16) (s : State) : State :=
  if !s.flag (RXDSP.hLineClk c) then s else
  let dec := s.get (FEC.hTickDec c)
  let s := if dec = 0 then s else s.put (FEC.BER_TICK c) (berOf (s.get (FEC.hTickCorr c)) dec)
  let s := excUpdate c ((s.put (FEC.hTickCorr c) 0).put (FEC.hTickDec c) 0)
  let ber := s.get (FEC.BER_TICK c)
  if degEvaluated c s then
    if s.flag (FEC.FEC_STAT_DEG c) then
      s.put (FEC.hClrCnt c) (if ber < s.get (FEC.DEG_CLR c) then min 255 (s.get (FEC.hClrCnt c) + 1) else 0)
    else s.put (FEC.hSetCnt c) (if s.get (FEC.DEG_SET c) < ber then min 255 (s.get (FEC.hSetCnt c) + 1) else 0)
  else s

/-- FEC_DEG_SET (R242): BER_TICK has been above DEG_SET on SET_TICKS consecutive ticks; the carrier may then enter
DEGRADED (R207). -/
def execFecDegSet (c : Fin 16) (s : State) : Out :=
  act s fun s =>
    if degEvaluated c s && !s.flag (FEC.FEC_STAT_DEG c)
        && decide (max 1 (s.get (FEC.DEG_TIME_SET_TICKS c)) ≤ s.get (FEC.hSetCnt c)) then
      degradeAll c ((((s.putB (FEC.FEC_STAT_DEG c) true).put (FEC.hSetCnt c) 0).put (FEC.hClrCnt c) 0).raise (.fec c) 2)
    else s

/-- FEC_DEG_CLR (R242): BER_TICK has been below DEG_CLR on CLR_TICKS consecutive ticks. -/
def execFecDegClr (c : Fin 16) (s : State) : Out :=
  act s fun s =>
    if degEvaluated c s && s.flag (FEC.FEC_STAT_DEG c)
        && decide (max 1 (s.get (FEC.DEG_TIME_CLR_TICKS c)) ≤ s.get (FEC.hClrCnt c)) then
      degradeAll c ((((s.putB (FEC.FEC_STAT_DEG c) false).put (FEC.hSetCnt c) 0).put (FEC.hClrCnt c) 0).raise (.fec c) 3)
    else s

/-- The PM second in the FEC page (R239 to R241): counters, PRE_BER and histogram latch. -/
def fecLatch (c : Fin 16) (s : State) : State :=
  let sat := (List.finRange 6).any (fun k => (s.get (FEC.hRun c k)).testBit 48)
    || (List.finRange 16).any (fun n => (s.get (FEC.hHist c n)).testBit 48)
  let pre := berOf (s.get (FEC.hRun c 0) % 2 ^ 48) (s.get (FEC.hRun c 1) % 2 ^ 48)
  let s := s.put (FEC.PRE_BER c) pre
  let s := forFin 6 (fun k s => s.cntLatch (FEC.hRun c k) (FEC.CNT_LO c k) (FEC.CNT_HI_SATURATED c k) (FEC.CNT_HI_COUNT c k)) s
  let s := forFin 16 (fun n s =>
    let v := s.get (FEC.hHist c n)
    (s.store (histWord c n.val) (v % 2 ^ 48 + bits v 48 1 * 2 ^ 63)).put (FEC.hHist c n) 0) s
  s.raiseIf (.fec c) 6 sat

/-! ## Enabling -/

/-- LAT_NS follows the RXDSP MODE in force and ITER_ACT (R228, R236); 0 before the page has been enabled. -/
def latFollow (c : Fin 16) (s : State) : State :=
  let n := s.get (FEC.FEC_STAT_ITER_ACT c)
  if n = 0 then s else s.put (FEC.FEC_STAT_LAT_NS c) (if rxZr c s then 2150 else 840 + 130 * n)

/-- What the decoder samples when ENABLE goes from 0 to 1 (R227, R228, R236), and as a soft reset completes while it is 1,
since the reset has cleared ITER_ACT (log entry 152). -/
def fecStart (c : Fin 16) (s : State) : State :=
  latFollow c (s.put (FEC.FEC_STAT_ITER_ACT c) (s.get (FEC.FEC_CTRL_ITER_MAX c)))

/-- ENABLE goes to 0, or a soft reset begins: CW_LOCK and OUTER_LOCK are 0 (R244). -/
def fecStop (c : Fin 16) (s : State) : State := dropLocks c s

/-- The hunts start again when a soft reset completes (R244). -/
def fecRestart (c : Fin 16) (s : State) : State :=
  if (unitsOf c s).any (fun b => decide (7 ≤ s.get (unitOf c b s).stage)) then innerHunt c s else s

end Sys2Proof.Machine
end

