-- ==== Sys2Proof/Machine/Linecode.lean ====
section
/-! DEFINITION. The native line signal of chapter 04: symbol rates and places (R141), fill (R145), base constellations and
matcher blocks (R146, R147), the dealing of the coded stream (R148), whitening (R149), power offsets (R150), pilot tones
(R153), stages 9 and 10 (R155, R156), and the shape that a carrier's registers and tables give them. -/
namespace Sys2Proof.Machine

/-! ## Rates and places -/

/-- Centre of subcarrier i against the laser, in 1/84 MHz: (i − 7.5) × Δ + FREQ_SHIFT with Δ = R_sc × 43/42 and R_sc = 125 MBd
times SC_RATE (R141). -/
def scCentre (sc : Nat) (shift : Int) (i : Nat) : Int := (2 * (i : Int) - 15) * (125 * 43 * sc) + 84 * shift

/-- Place of the pilot tone of subcarrier i, Δ/2 above its centre, in 1/84 MHz (R153). -/
def pilotPlace (sc : Nat) (shift : Int) (i : Nat) : Int := scCentre sc shift i + 125 * 43 * sc

/-- Symbols of a symbol multiframe on each subcarrier: 297.6 µs × R_sc (R145). -/
def mfSymbols (sc : Nat) : Nat := 37200 * sc

/-- Rounds of a symbol multiframe: 93 × R_sc / 0.125 GBd (R148). -/
def mfRounds (sc : Nat) : Nat := 93 * sc

/-- Framed bits that a symbol multiframe can hold on rows of this loading sum: its rounds × 2 × 50 bits per eighth × r
(R144, R145). -/
def mfCapacity (mode sum : Nat) : Nat := mfRounds (bits mode 0 8) * sum * rateOf mode

/-- Framed bits of a multiframe of n tributary slots: 5.05625 Gb/s each for 297.6 µs (R145, R250). -/
def mfFramed (n : Nat) : Nat := 1504740 * n

/-! ## Fill -/

/-- Stage 1 (R145): fill makes up what the framed bits of a multiframe leave of the capacity, so that the next multiframe
begins with the next symbol multiframe. What fill carries is open (log entry 142). -/
def addFill (cap : Nat) (framed : List Bool) : List Bool :=
  framed ++ (List.range (cap - framed.length)).map Config.fillBit

/-- The receiver discards the fill (R145). -/
def dropFill (framed : Nat) (l : List Bool) : List Bool := l.take framed

/-! ## Constellations and matcher blocks -/

/-- Bits per symbol of the base constellation of a loading in eighths: QPSK, 16QAM or 64QAM (R146). -/
def baseBits (load : Nat) : Nat := if load = 16 then 2 else if load ≤ 32 then 4 else 6

/-- A loading is shaped (R146). -/
def loadShaped (load : Nat) : Bool := load != 16 && load != 32 && load != 48

/-- Coded bits of a matcher block of 400 symbols: 50 for every eighth (R147). -/
def blockBits (load : Nat) : Nat := 50 * load

/-- The amplitudes a distribution matcher emits for its input bits: where the loading is shaped, those of the ROM's
composition (R147; log entry 143); otherwise the bits themselves. -/
def matcher (load : Nat) (b : List Bool) : List Nat :=
  if loadShaped load then Config.matchRom load b else b.map Bool.toNat

/-- The streams of a round in order: every enabled row by ascending s, X before Y, with the bits of its block
(R148, R151). -/
def roundStreams (rows : List Nat) : List (Nat × Bool × Nat) :=
  (rows.zipIdx.filter fun x => rowEn x.1).flatMap fun x =>
    [(x.2, false, blockBits (rowLoad x.1)), (x.2, true, blockBits (rowLoad x.1))]

/-- One round of stage 3: each stream takes the bits of one block off the coded stream (R148). -/
def dealRound : List (Nat × Bool × Nat) → List Bool → List (Nat × Bool × List Bool) × List Bool
  | [], l => ([], l)
  | (i, p, n) :: rest, l =>
    let r := dealRound rest (l.drop n)
    ((i, p, l.take n) :: r.1, r.2)

/-- n rounds of stage 3 (R148). -/
def deal (st : List (Nat × Bool × Nat)) : Nat → List Bool → List (List (Nat × Bool × List Bool))
  | 0, _ => []
  | n + 1, l => (dealRound st l).1 :: deal st n (dealRound st l).2

/-! ## Whitening -/

/-- The state that the generator of subcarrier i takes at the first bit of a symbol multiframe, p false for X (R149). -/
def whitenSeed (i : Nat) (p : Bool) : Nat := (0x2B5C0000 + 2 * i + p.toNat) % 2 ^ 31

/-- The next bit of the generator x^31 + x^28 + 1 (R149). -/
def whitenBit (st : Nat) : Bool := st.testBit 30 ^^ st.testBit 27

/-- The generator's next state: the bit is shifted into bit 0 (R149). -/
def whitenNext (st : Nat) : Nat := (2 * st + (whitenBit st).toNat) % 2 ^ 31

/-- Bits XORed with the generator's output (R149): whitening, and de-whitening at the receiver. -/
def whiten (st : Nat) : List Bool → List Bool
  | [] => []
  | b :: l => (b ^^ whitenBit st) :: whiten (whitenNext st) l

/-- WHITEN_EN of the TXDSP page governs both directions (R149). -/
def whitenStream (c : Fin 16) (i : Nat) (p : Bool) (l : List Bool) (s : State) : List Bool :=
  if s.flag (TXDSP.SHAPE_CTRL_WHITEN_EN c) then whiten (whitenSeed i p) l else l

/-! ## Power, pilots, stage 9 -/

/-- The factor k of a table: with it the mean power of the enabled subcarriers, each scaled by k × 10^(P/20), is that of
all-zero offsets (R150). -/
def PowerFactor (rows : List Nat) (k : ℝ) : Prop :=
  0 < k ∧ ((rows.filter rowEn).map fun w => (k * (10 : ℝ) ^ ((rowPwr w : ℝ) / 200)) ^ 2).sum = ((rows.filter rowEn).length : ℝ)

/-- The PRBS-7 step that modulates the pilot tone of Y, one bit every 1,024 symbols (R153); its polynomial is the usual
x^7 + x^6 + 1, PRESUMED, and its start is open (log entry 144). -/
def pilotNext (st : Nat) : Nat := (2 * st + (st.testBit 6 ^^ st.testBit 5).toNat) % 2 ^ 7

/-- The BPSK sign of the pilot tone at symbol n of a carrier: constant in X, the PRBS-7 bit in Y (R153). -/
def pilotBit (y : Bool) (n : Nat) : Bool := y && ((List.range (n / 1024)).foldl (fun st _ => pilotNext st) Config.pilotStart).testBit 6

/-- The tilt at a frequency between the lowest and the highest, in 0.1 dB: linear, TILT in all (R155). -/
def tiltAt (tilt lo hi f : Int) : ℚ := if lo = hi then 0 else tilt * (f - lo) / (hi - lo)

/-- A DAC sample x lies beyond the clip level, CLIP/10 of the RMS level, the square of which is `ms` (R155). -/
def clipped (clip : Nat) (ms : Nat) (x : Int) : Bool := decide (clip ^ 2 * ms < 100 * x.natAbs ^ 2)

/-- A DAC sample after clipping (R155): a clipped one takes the clip level, to the nearest whole number below. -/
def clipSample (clip ms : Nat) (x : Int) : Int :=
  if clipped clip ms x then (if 0 ≤ x then 1 else -1) * (Nat.sqrt (clip ^ 2 * ms / 100) : Int) else x

/-- The delay of converter n in 0.01 ps: its calibrated skew and SKEW_ADJ (R156). -/
def convDelay (c : Fin 16) (n : Fin 4) (s : State) : Int := s.geti (TXDSP.SKEW_CAL c n) + s.geti (TXDSP.SKEW_ADJ c n)

/-! ## The shape of a carrier's signal -/

/-- The OTU page runs. -/
def otuRuns (c : Fin 16) (s : State) : Bool :=
  pageOn (.otu c) s && !s.flag (HDR.RESET_BUSY (.otu c)) && !isParked c s

/-- What subcarrier i sends, its row being w (R141, R146, R149 to R153). -/
def subLine (c : Fin 16) (i w : Nat) (s : State) : SubLine :=
  let sc := bits (s.get (TXDSP.hMode c)) 0 8
  let shift := s.geti (TXDSP.hFreq c)
  { s := i, base := baseBits (rowLoad w), shaped := loadShaped (rowLoad w), block := blockBits (rowLoad w)
    centre := scCentre sc shift i, pwr := rowPwr w
    pilot := if s.flag (TXDSP.PILOT_CTRL_EN c) then some (pilotPlace sc shift i, 14 + s.get (TXDSP.PILOT_CTRL_LVL c)) else none
    seeds := if s.flag (TXDSP.SHAPE_CTRL_WHITEN_EN c) then some (whitenSeed i false, whitenSeed i true) else none }

/-- The subcarriers over which transmit stream i is laid, first and last (R301). -/
def streamRange (c i : Fin 16) (s : State) : Nat × Nat :=
  if isHub c s then (brLo (branchAct c i.val s), brHi (branchAct c i.val s))
  else if isLeaf c s then (leafLo c s, leafHi c s)
  else (0, 15)

/-- The framed bits, the fill bits and the inner codewords of a multiframe of transmit stream i (R145, R219). -/
def streamLoad (c i : Fin 16) (s : State) : Nat × Nat × Nat :=
  let r := streamRange c i s
  let mode := s.get (TXDSP.hMode c)
  let sum := sumLoad (tableRows (txLoadRow c true) s) r.1 r.2
  (mfFramed (sizeTx c i s), mfCapacity mode sum - mfFramed (sizeTx c i s), mfCodewords (bits mode 0 8) sum)

/-- Row i transmits: it is enabled, and it belongs to a transmit stream of the carrier (R151, R251). -/
def rowSends (c : Fin 16) (i w : Nat) (s : State) : Bool :=
  rowEn w && (streamsTx c s).any fun b => decide ((streamRange c b s).1 ≤ i) && decide (i ≤ (streamRange c b s).2)

/-- The native signal of the carrier as its registers and its active table give it. -/
def lineShape (c : Fin 16) (s : State) : LineShape :=
  { rounds := mfRounds (bits (s.get (TXDSP.hMode c)) 0 8)
    subs := ((tableRows (txLoadRow c true) s).zipIdx.filter fun x => rowSends c x.2 x.1 s).map fun x => subLine c x.2 x.1 s
    code := bits (s.get (TXDSP.hMode c)) 28 2
    fec := pageOn (.fec c) s && !s.flag (HDR.RESET_BUSY (.fec c))
    framed := otuRuns c s
    streams := (streamsTx c s).map fun i => (i, streamLoad c i s)
    tilt := s.geti (TXDSP.SHAPE_CTRL_TILT c), clip := s.get (TXDSP.SHAPE_CTRL_CLIP c)
    delays := (List.finRange 4).map fun n => convDelay c n s }

/-- The transmit block runs (R172). -/
def txRuns (c : Fin 16) (s : State) : Bool := s.get (TXDSP.hState c) == 1 || s.get (TXDSP.hState c) == 3

/-- The carrier sends framed data: the block runs (R172), and no calibration holds the output (R127). -/
def lineSends (c : Fin 16) (s : State) : Bool := txRuns c s && carState c s != stCal

/-- The carrier's signal takes the shape that its registers and table now give it. A leaf with BURST upstream sends only
bursts (R257). -/
def lineSend (c : Fin 16) (s : State) : State :=
  if !lineSends c s || (isLeaf c s && leafBurst c s) then s
  else if isZr (s.get (TXDSP.hMode c)) then
    s.send (.zrOut c (s.geti (TXDSP.hFreq c)) (s.geti (TXDSP.SHAPE_CTRL_TILT c)) (s.get (TXDSP.SHAPE_CTRL_CLIP c))
      ((List.finRange 4).map fun n => convDelay c n s))
  else s.send (.lineOut c (lineShape c s))

end Sys2Proof.Machine
end

