-- ==== Sys2Proof/Machine/Rxchain.lean ====
section
/-! DEFINITION. The receive chain of a subcarrier, symbol by symbol: the equaliser and its adaptation (R183, R185, R186, R188),
carrier recovery (R190, R192), soft demapping (R195), and the common timing loop (R193). -/
namespace Sys2Proof.Machine

/-! ## Complex numbers -/

def Cx.add (a b : Cx) : Cx := ⟨a.re + b.re, a.im + b.im⟩
def Cx.sub (a b : Cx) : Cx := ⟨a.re - b.re, a.im - b.im⟩
def Cx.mul (a b : Cx) : Cx := ⟨a.re * b.re - a.im * b.im, a.re * b.im + a.im * b.re⟩
def Cx.conj (a : Cx) : Cx := ⟨a.re, -a.im⟩
def Cx.scale (k : ℚ) (a : Cx) : Cx := ⟨k * a.re, k * a.im⟩
def Cx.sq (a : Cx) : ℚ := a.re * a.re + a.im * a.im

/-! ## The base constellation -/

/-- The amplitudes of one dimension of a base constellation of `base` bits per symbol, in half the distance between
neighbours. -/
def levels (base : Nat) : List Int := (List.range (2 ^ (base / 2))).map fun k => 2 * (k : Int) + 1 - 2 ^ (base / 2)

/-- The amplitude nearest to a value. -/
def nearest (base : Nat) (x : ℚ) : Int := clampI (1 - 2 ^ (base / 2)) (2 ^ (base / 2) - 1) (2 * (x / 2).floor + 1)

/-- The point nearest to a value. -/
def decision (base : Nat) (z : Cx) : Cx := ⟨nearest base z.re, nearest base z.im⟩

/-- The modulus that the constant-modulus rule aims at: the mean of |a|⁴ over that of |a|² (log entry 156). -/
def cmaModulus (base : Nat) : ℚ :=
  let p := (levels base).flatMap fun a => (levels base).map fun b => ((a * a + b * b : Int) : ℚ)
  (p.map fun m => m * m).sum / p.sum

/-! ## The equaliser (R183) -/

/-- A filter that passes its centre sample. -/
def centreTap (n : Nat) : List Cx := (List.range n).map fun k => ⟨if k = n / 2 then 1 else 0, 0⟩

/-- The centre-tap identity on n taps (R186). -/
def EqTaps.id (n : Nat) : EqTaps := ⟨centreTap n, (centreTap n).map (Cx.scale 0), (centreTap n).map (Cx.scale 0), centreTap n⟩

/-- The samples of a polarisation as complex numbers. -/
def samples (l : List (Int × Int)) : List Cx := l.map fun p => ⟨p.1 / 4096, p.2 / 4096⟩

/-- A FIR filter. -/
def fir (h x : List Cx) : Cx := (List.zipWith Cx.mul h x).foldl Cx.add ⟨0, 0⟩

/-- The two outputs of the equaliser. -/
def equalise (t : EqTaps) (x : EqIn) : Cx × Cx :=
  ((fir t.xx (samples x.x)).add (fir t.xy (samples x.y)), (fir t.yx (samples x.x)).add (fir t.yy (samples x.y)))

/-- One update of a filter with step size 2^-mu, the error of its output and its samples; the leakage of 2^-20 where it is
enabled (R183). -/
def adapt (mu : Nat) (leak : Bool) (e : Cx) (h x : List Cx) : List Cx :=
  List.zipWith (fun h x => ((h.scale (if leak then 1 - 1 / 2 ^ 20 else 1)).add ((e.mul x.conj).scale (1 / 2 ^ mu)))) h x

/-- The orthogonal of a pair of filters (R188): the Y output takes the time-reversed conjugate of XX, and minus that of XY. -/
def reloadY (t : EqTaps) : EqTaps :=
  { t with yx := t.xy.reverse.map fun h => (h.conj).scale (-1), yy := t.xx.reverse.map Cx.conj }

/-! ## Carrier recovery (R190) -/

/-- A value turned back by a phase in turns. -/
def derotate (p : ℚ) (z : Cx) : Cx := z.mul ⟨(Config.turn p).1, -(Config.turn p).2⟩

/-- The decision-directed phase error of a symbol in radians, small-angle. -/
def phaseError (z d : Cx) : ℚ := (z.mul d.conj).im / d.sq

/-- A phase in turns, less its whole turns. -/
def wrapTurn (p : ℚ) : ℚ := p - p.floor

/-! ## The demapper (R195) -/

/-- The smallest cost over a list; a cost of 0 where it is empty. -/
def least : List ℚ → ℚ
  | [] => 0
  | a :: l => l.foldl min a

/-- The max-log LLR of bit k of one dimension, positive for 0: 6 bits, −31 to +31. `cost` is the prior of an amplitude. -/
def llrBit (base : Nat) (cost : Int → ℚ) (var : ℚ) (x : ℚ) (k : Nat) : Int :=
  let m (b : Bool) : ℚ := least (((levels base).filter fun a => Config.label base a k == b).map fun a => (x - a) * (x - a) / var + cost a)
  clampI (-31) 31 (((m true - m false) / Config.llrStep).floor)

/-- The LLRs of a symbol: X before Y, I before Q, base/2 bits of each. -/
def demap (base : Nat) (cost : Int → ℚ) (var : ℚ) (zx zy : Cx) : List Int :=
  [zx.re, zx.im, zy.re, zy.im].flatMap fun x => (List.range (base / 2)).map fun k => llrBit base cost var x k

/-! ## One symbol -/

/-- What governs the chain of a subcarrier: its constellation, the prior of an amplitude, the noise variance, SC_LOCK, whether its
taps adapt and with what step and leakage (R183, R185), the loop gains and whether the frequency integrator is held (R190),
and the symbols for which the LLRs of a newly enabled row are computed from its starting taps (R189). -/
structure ChainCtl where
  base : Nat
  cost : Int → ℚ
  var : ℚ
  lock : Bool
  adapts : Bool
  mu : Nat
  leak : Bool
  gain : ℚ × ℚ
  held : Bool
  grace : Nat

/-- The LLRs of the subcarrier are not 0 (R186, R189). -/
def llrsRun (k : ChainCtl) (p : ScPath) : Bool :=
  k.lock || (!p.mute && match p.age with
    | some n => decide (n ≤ k.grace)
    | none => true)

/-- One symbol: equalised with the taps as they stand, turned back, demapped, and the taps and the tracker adapted (R183, R190,
R195). -/
def symbolStep (k : ChainCtl) (p : ScPath) (x : EqIn) : ScPath × List Int :=
  let y := equalise p.taps x
  let turns := wrapTurn (x.pilot / 65536 + p.phase)
  let z := (derotate turns y.1, derotate turns y.2)
  let d := (decision k.base z.1, decision k.base z.2)
  let e : Cx × Cx :=
    if k.lock then (derotate (-turns) (d.1.sub z.1), derotate (-turns) (d.2.sub z.2))
    else (y.1.scale (cmaModulus k.base - y.1.sq), y.2.scale (cmaModulus k.base - y.2.sq))
  let ad := adapt k.mu k.leak
  let t := p.taps
  let taps : EqTaps :=
    if k.adapts then ⟨ad e.1 t.xx (samples x.x), ad e.1 t.xy (samples x.y), ad e.2 t.yx (samples x.x), ad e.2 t.yy (samples x.y)⟩ else t
  let pe := (phaseError z.1 d.1 + phaseError z.2 d.2) / 2
  let l := demap k.base k.cost k.var z.1 z.2
  ({ p with
      taps := taps
      phase := wrapTurn (p.phase + p.freq + k.gain.1 * pe)
      freq := if k.held then p.freq else p.freq + k.gain.2 * pe
      age := p.age.map (· + 1) }, if llrsRun k p then l else l.map fun _ => 0)

/-- Symbols in order, and their LLRs. -/
def symbolsStep (k : ChainCtl) : List EqIn → ScPath → ScPath × List Int
  | [], p => (p, [])
  | x :: l, p =>
    let a := symbolStep k p x
    let b := symbolsStep k l a.1
    (b.1, a.2 ++ b.2)

/-! ## The chains in the state -/

/-- Taps of a filter of a carrier: 15 of each subcarrier, 31 of the one equaliser in OpenZR+ mode (R183, R213). -/
def tapCount (c : Fin 16) (s : State) : Nat := if isZr (s.get (RXDSP.hMode c)) then 31 else 15

/-- The chain of subcarrier i; one that has not run is at the centre-tap identity. -/
def pathOf (c i : Fin 16) (s : State) : ScPath :=
  (s.paths.find? fun p => p.c == c && p.i == i).getD ⟨c, i, EqTaps.id (tapCount c s), 0, 0, none, false, none⟩

/-- The chain of subcarrier i changes. -/
def onPath (c i : Fin 16) (f : ScPath → ScPath) (s : State) : State :=
  { s with paths := (s.paths.filter fun p => !(p.c == c && p.i == i)) ++ [f (pathOf c i s)] }

/-- Every chain of the carrier returns to its state at reset. -/
def pathsClear (c : Fin 16) (s : State) : State := { s with paths := s.paths.filter fun p => p.c != c }

/-- The taps of subcarrier i hold their values (R185): FREEZE of the page, or its bit of EQ_FREEZE. -/
def eqFrozen (c i : Fin 16) (s : State) : Bool :=
  s.flag (HDR.FREEZE (.rxdsp c)) || (s.get (RXDSP.EQ_FREEZE c)).testBit i.val

/-- What governs the chain of subcarrier i now. In OpenZR+ mode it is unshaped 16QAM (R213). -/
def chainCtl (c i : Fin 16) (s : State) : ChainCtl :=
  let mode := s.get (RXDSP.hMode c)
  let load := if isZr mode then 32 else rowLoad (s.word (rxLoadRow c true i.val))
  { base := baseBits load
    cost := if loadShaped load then Config.ampCost load else fun _ => 0
    var := Config.noiseVar (s.get (RXDSP.SC_STAT0_SNR c i))
    lock := scLock c i s
    adapts := !eqFrozen c i s
    mu := s.get (RXDSP.EQ_CTRL_MU c)
    leak := s.flag (RXDSP.EQ_CTRL_LEAK_EN c)
    gain := Config.crGain (s.get (RXDSP.CR_CTRL_BW c)) (bits mode 0 8)
    held := s.flag (HDR.FREEZE (.rxdsp c))
    grace := 37500 * bits mode 0 8 }

/-- The receive processing of the carrier runs: its page is enabled and not in reset, MODE was in range, its clock is present, and
the carrier is neither OFF nor CALIBRATING. -/
def chainRuns (c : Fin 16) (s : State) : Bool :=
  pageOn (.rxdsp c) s && !s.flag (HDR.RESET_BUSY (.rxdsp c)) && s.flag (RXDSP.hModeOk c) && s.flag (RXDSP.hLineClk c)
    && carState c s != stOff && carState c s != stCal

/-- Symbols reach subcarrier i: its chain takes them, and their LLRs leave it; a row with EN = 0 holds its taps and produces none
(R189, R195). -/
def takeSymbols (c i : Fin 16) (xs : List EqIn) (s : State) : State :=
  if chainRuns c s && rxRowOn c i s then
    let r := symbolsStep (chainCtl c i s) xs (pathOf c i s)
    (onPath c i (fun _ => r.1) s).send (.llrs c i r.2)
  else s

/-- One step of the timing loop (R193): the SNR-weighted sum of the errors of the enabled locked subcarriers moves the steering,
held to ±200 ppm; under FREEZE the loop integrator holds. -/
def timingStep (c : Fin 16) (es : List Int) (s : State) : State :=
  let l := (List.finRange 16).filter fun i => rxRowOn c i s && scLock c i s
  let e := (l.map fun i => (s.get (RXDSP.SC_STAT0_SNR c i) : Int) * es.getD i.val 0).sum
  if s.flag (HDR.FREEZE (.rxdsp c)) then s
  else s.puti (RXDSP.TR_STAT_PPM c) (clampI (-20000) 20000 (s.geti (RXDSP.TR_STAT_PPM c) + Config.trStep (s.get (RXDSP.TR_CTRL_BW c)) e))

/-- The delay of ADC n in 0.01 ps beside the calibrated skew: the adaptive residual (R175). -/
def skewTrack (c : Fin 16) (n : Fin 4) (v : Int) (s : State) : State :=
  if s.flag (RXDSP.FE_CTRL_DESKEW_EN c) && !s.flag (HDR.FREEZE (.rxdsp c)) then s.puti (RXDSP.hDeskew c n) (clampI (-200) 200 v) else s

/-- The correction of the delay of ADC n in 0.01 ps (R175): the calibrated skew, which the payload of the calibration holds, and the
residual; none while DESKEW_EN is 0. -/
def adcDelay (c : Fin 16) (n : Fin 4) (s : State) : Int :=
  if s.flag (RXDSP.FE_CTRL_DESKEW_EN c) then
    Config.rxSkew (((s.calPayload.find? fun x => x.1 == c).map (·.2)).getD []) n.val + s.geti (RXDSP.hDeskew c n)
  else 0

end Sys2Proof.Machine
end

