-- ==== Sys2Proof/Machine/Txdsp.lean ====
section
/-! DEFINITION. Transmit processing and subcarrier loading: sampling of MODE and the tables (R143, R160), the loading
message and its turn (R161 to R163), the paired exchange (R164 to R166), fallback (R168 to R170) and the orders of a
hub (R294, R295). -/
namespace Sys2Proof.Machine

/-! ## The loading message -/

/-- TYPE codes (R161). -/
def ltPropose : Nat := 1
def ltAccept : Nat := 2
def ltReject : Nat := 3
def ltState : Nat := 4
def ltFallbackReq : Nat := 5
def ltOrderRx : Nat := 6
def ltOrderTx : Nat := 7

/-- Bytes 0 to 59 of a message (R161). -/
def loadMsgBody (m : LoadMsg) : List Nat :=
  [m.typ % 256, 128 * m.onFallback.toNat] ++ beBytes 2 m.seq ++ beBytes 2 m.target ++ [m.rate % 4, m.reason % 256]
    ++ (List.range 16).flatMap (fun i => beBytes 2 (m.rows.getD i 0)) ++ List.replicate 20 0

/-- The 64 bytes of a message (R161). -/
def loadMsgBytes (m : LoadMsg) : List Nat := loadMsgBody m ++ beBytes 4 (crc32c (loadMsgBody m))

/-- A received message of 64 bytes is valid: its CRC matches and its TYPE is defined (R162). -/
def loadMsgValid (raw : List Nat) : Bool :=
  raw.length == 64 && crc32c (raw.take 60) == ofBe (raw.drop 60) && decide (1 ≤ raw.headD 0) && decide (raw.headD 0 ≤ 7)

/-- The table word of a message row (R157, R161). -/
def rowOfEntry (e : Nat) : Nat := (bits e 15 1) * 2 ^ 63 + (bits e 8 6) * 2 ^ 48 + (bits e 0 8) * 2 ^ 40

/-- The message row of a table word. -/
def entryOfRow (w : Nat) : Nat := (bits w 63 1) * 2 ^ 15 + (bits w 48 6) * 2 ^ 8 + bits w 40 8

/-- The transmit MFN (R311). -/
def txMfn (c : Fin 16) (s : State) : Nat := s.get (OTU.MFN_TX c)

/-- A transmit multiframe exists: the OTU page is enabled, its first multiframe has begun and the carrier is not parked
(R165, R311). -/
def txMfPresent (c : Fin 16) (s : State) : Bool := pageOn (.otu c) s && !s.flag (OTU.hTxFirst c) && !isParked c s

/-- The number of the multiframe that a hub with a BURST branch receives while it sends multiframe `now`: EQ_RTD later,
one multiframe being 29,760 times 10 ns (R256, R293; log entry 91). -/
def rxMfOf (c : Fin 16) (now : Nat) (s : State) : Nat :=
  (now + 65536 - s.get (HUB.EQ_RTD c).active / 29760 % 65536) % 65536

/-- Loading messages have an effect: not in OpenZR+ mode (R171). -/
def msgsAct (c : Fin 16) (s : State) : Bool := !isZr (s.get (TXDSP.hMode c))

/-- What a received loading message does where loading messages have an effect (R171). -/
def onMsg (c : Fin 16) (f : State → State) (s : State) : Out := act s fun s => if msgsAct c s then f s else s

/-- Rows written to a standby table by the engine, and the arm that follows (R83): held while the page copies
forward. -/
def engineWrite (w : EngineWrite) (s : State) : State :=
  let put (loc : Nat → Loc) (s : State) : State := forN 16 (fun i s => s.store (loc i) (w.rows.getD i 0)) s
  let s := match w.page with
    | .txdsp c => put (txLoadRow c false) s
    | .rxdsp c => put (rxLoadRow c false) s
    | _ => s
  ((s.putB (HDR.PENDING w.page) true).put (HDR.HINGE_MODE w.page) w.mode).put (HDR.HINGE_MF w.page) w.mf

/-- The engine writes rows and arms a hinge, at once or after the copy-forward in progress (R83). -/
def engineArm (w : EngineWrite) (s : State) : State :=
  if s.flag (HDR.COPYING w.page) then { s with engineWrites := s.engineWrites ++ [w] } else engineWrite w s

/-- A valid loading message has been received (R168): FB_AUTO starts again. -/
def msgSeen (c : Fin 16) (typ : Nat) (s : State) : State :=
  (s.put (TXDSP.hFbCnt c) 0).put (TXDSP.LOAD_STAT_LAST_RX_TYPE c) typ

/-- An invalid or ignored message is counted (R162, R295). -/
def msgError (c : Fin 16) (s : State) : State := s.incStick (TXDSP.LDMSG_ERR c) 1

/-- MIN_LEAD as it acts: 0 and 1 act as 2 (R172). -/
def minLead (c : Fin 16) (s : State) : Nat := max 2 (s.get (TXDSP.LOAD_CTRL_MIN_LEAD c))

/-- The REASON by which a PROPOSE is rejected; 0 where it is accepted (R165, R293). -/
def proposeReason (c : Fin 16) (m : LoadMsg) (s : State) : Nat :=
  let rows := (List.range 16).map (fun i => rowOfEntry (m.rows.getD i 0))
  let lead := mfLead m.target (txMfn c s)
  if !s.flag (TXDSP.LOAD_CTRL_AUTO_ACCEPT c) || carMode c s != 0 then 5
  else if s.flag (HDR.PENDING (.txdsp c)) then 4
  else if !(decide (minLead c s ≤ lead) && decide (lead ≤ 32767)) then 3
  else if !rows.all rowOk then 2
  else if !meetsF (s.get (TXDSP.hMode c)) (sumLoad rows 0 15) then 1
  else 0

/-- The answer of R165 starts to be sent; where multiframe M has ended already it is never sent (log entry 145). -/
def startAnswer (c : Fin 16) (typ reason : Nat) (m : LoadMsg) (s : State) : State :=
  let s := ((s.putB (TXDSP.hAnsValid c) true).put (TXDSP.hAnsSeq c) m.seq).put (TXDSP.LOAD_STAT_LAST_SEQ c) m.seq
  let s := (((s.putB (TXDSP.hAnsOn c) (decide (mfLead m.target (txMfn c s) ≤ 32767))).put (TXDSP.hAnsType c) typ).put (TXDSP.hAnsM c) m.target).put
    (TXDSP.hAnsReason c) reason
  forFin 16 (fun i s => s.put (TXDSP.hAnsRow c i) (m.rows.getD i.val 0)) s

/-- The serving side on a valid PROPOSE (R165). LOAD_MFN keeps the target of the hinge armed last (R172; log entry 167). -/
def onPropose (c : Fin 16) (m : LoadMsg) (s : State) : State :=
  if !txMfPresent c s || (s.flag (TXDSP.hAnsValid c) && s.get (TXDSP.hAnsSeq c) == m.seq % 65536) then s
  else
    let r := proposeReason c m s
    if r = 0 then
      let s := startAnswer c ltAccept 0 m s
      let s := engineArm ⟨.txdsp c, (List.range 16).map (fun i => rowOfEntry (m.rows.getD i 0)), modePaired, m.target⟩ s
      ((s.putB (TXDSP.LOAD_STAT_SERVE_PENDING c) true).put (TXDSP.LOAD_MFN_RX c) m.target).raise (.txdsp c) 1
    else ((startAnswer c ltReject r m s).put (TXDSP.LOAD_STAT_SENT_REASON c) r).raise (.txdsp c) 2

/-- A message answers the pending request: same SEQ and same target (R164). -/
def matchesRequest (c : Fin 16) (m : LoadMsg) (s : State) : Bool :=
  s.flag (TXDSP.LOAD_STAT_REQ_PENDING c) && m.seq % 65536 == s.get (TXDSP.hSeq c)
    && m.target % 65536 == s.get (HDR.HINGE_MF (.rxdsp c))

/-- PROPOSE (R165): a valid PROPOSE arrives. -/
def execPropose (c : Fin 16) (m : LoadMsg) (s : State) : Out :=
  onMsg c (fun s => onPropose c m (msgSeen c ltPropose s)) s

/-- ACCEPT (R164): a valid ACCEPT arrives; it counts within received multiframe M − 1 or earlier. -/
def execAccept (c : Fin 16) (m : LoadMsg) (s : State) : Out :=
  onMsg c (fun s =>
    let s := msgSeen c ltAccept s
    let lead := mfLead m.target (s.get (OTU.MFN_RX c))
    if matchesRequest c m s && decide (1 ≤ lead) && decide (lead ≤ 32767) then s.putB (TXDSP.hAcc c) true else s) s

/-- REJECT (R164): a valid REJECT arrives; a matching one refuses the PAIRED hinge with cause 0b100. -/
def execReject (c : Fin 16) (m : LoadMsg) (s : State) : Out :=
  onMsg c (fun s =>
    let s := (msgSeen c ltReject s).put (TXDSP.LOAD_STAT_RCVD_REASON c) m.reason
    if matchesRequest c m s then refuseRx c 4 s else s) s

/-- STATE (R163): a valid STATE arrives. -/
def execState (c : Fin 16) (_m : LoadMsg) (s : State) : Out := onMsg c (msgSeen c ltState) s

/-- The transmitter is to fall back at its next multiframe (R168); in OpenZR+ mode the tables have no effect (R171). A block
that does not run keeps the fallback due until it does (log entry 146). -/
def fallBack (c : Fin 16) (s : State) : State :=
  if msgsAct c s then (s.putB (TXDSP.hFbPend c) true).put (TXDSP.hFbCnt c) 0 else s

/-- FALLBACK_REQ (R168): a second valid one within 8 consecutive received multiframes makes the transmitter fall
back; the one that completed a pair is the first of the next (log entry 147). A HUB carrier counts it and ignores it (R296; log entry
155). -/
def execFallbackReq (c : Fin 16) (s : State) : Out :=
  onMsg c (fun s =>
    let s := msgSeen c ltFallbackReq s
    if isHub c s then s.incWrap (TXDSP.hFbReqs c) 1
    else
      let s' := s.put (TXDSP.hFbAge c) 0
      if s.get (TXDSP.hFbAge c) < 8 then fallBack c s' else s') s

/-- FB_AUTO_TIMEOUT (R168): FB_AUTO transmit multiframes have passed with no valid message. -/
def execFbAutoTimeout (c : Fin 16) (s : State) : Out :=
  act s fun s =>
    let n := s.get (TXDSP.LOAD_CTRL_FB_AUTO c)
    if !isHub c s && n != 0 && decide (n ≤ s.get (TXDSP.hFbCnt c)) then fallBack c s else s

/-- The write of LOAD_CTRL: its fields, and FALLBACK_NOW (R168). -/
def loadCtrlEff (c : Fin 16) (v : Nat) (s : State) : State :=
  let s := ((s.put (TXDSP.LOAD_CTRL_AUTO_ACCEPT c) (bits v 31 1)).put (TXDSP.LOAD_CTRL_MIN_LEAD c) (bits v 16 8)).put
    (TXDSP.LOAD_CTRL_FB_AUTO c) (bits v 0 16)
  if bit v 30 then fallBack c s else s

/-- FALLBACK_NOW (R168): LOAD_CTRL written by a master, v with FALLBACK_NOW = 1. -/
def execFallbackNow (m : Master) (c : Fin 16) (v : Nat) (s : State) : Out :=
  act s fun s => writeCmd m (.txdsp c) 0x080 (v ||| 2 ^ 30) (loadCtrlEff c (v ||| 2 ^ 30)) s

/-- Both views of the transmit loading table are loaded from the fallback table (R160, R169). -/
def loadTx (c : Fin 16) (s : State) : State :=
  ((s.copyRange (txFallbackRow c 0) (txLoadRow c true 0) 16).copyRange (txFallbackRow c 0) (txLoadRow c false 0) 16).put
    (TXDSP.LOAD_MFN_TX c) (txMfn c s)

/-- TX_FALLBACK (R169): the first beat of the transmit multiframe after a fallback fell due. -/
def execTxFallback (c : Fin 16) (s : State) : Out :=
  act s fun s =>
    if s.flag (TXDSP.hFbPend c) && txRuns c s then
      let s := refuseTx c 4 (loadTx c s)
      lineSend c ((((s.put (TXDSP.hState c) 3).putB (TXDSP.LOAD_STAT_FALLBACK_ACTIVE c) true).putB (TXDSP.hFbPend c)
        false).raise (.txdsp c) 4)
    else s

/-- INVALID_LOADING_MSG (R162): 64 bytes that are no valid message. -/
def execInvalidLoadingMsg (c : Fin 16) (raw : List Nat) (s : State) : Out :=
  onMsg c (fun s => if loadMsgValid raw then s else (msgError c s).raise (.txdsp c) 5) s

/-- PAIRED_NO_ACCEPT (R164): received multiframe M − 1 ends with no ACCEPT. -/
def execPairedNoAccept (c : Fin 16) (s : State) : Out :=
  act s fun s =>
    if s.flag (HDR.PENDING (.rxdsp c)) && s.get (HDR.HINGE_MODE (.rxdsp c)) == modePaired && !s.flag (TXDSP.hAcc c)
        && decide (mfLead (s.get (HDR.HINGE_MF (.rxdsp c))) (s.get (OTU.MFN_RX c)) ≤ 1) then
      refuseRx c 4 s
    else s

/-- An order whose target and rows a leaf follows (R252, R295). -/
def orderOk (c : Fin 16) (target now : Nat) (rows : List Nat) (s : State) : Bool :=
  let lead := mfLead target now
  isLeaf c s && decide (minLead c s ≤ lead) && decide (lead ≤ 32767) && leafRangeOn rows (leafLo c s) (leafHi c s)

/-- An identical hinge is already pending (R295). -/
def samePending (p : Page) (target : Nat) (rows : List Nat) (row : Nat → Loc) (s : State) : Bool :=
  s.flag (HDR.PENDING p) && s.get (HDR.HINGE_MODE p) == modeAtMf && s.get (HDR.HINGE_MF p) == target % 65536
    && tableRows row s == rows

/-- ORDER_RX (R295): a leaf writes its receive standby table and arms it AT_MF. -/
def execOrderRx (c : Fin 16) (m : LoadMsg) (s : State) : Out :=
  onMsg c (fun s =>
    let s := msgSeen c ltOrderRx s
    let rows := (List.range 16).map (fun i => rowOfEntry (m.rows.getD i 0))
    if orderOk c m.target (s.get (OTU.MFN_RX c)) rows s then
      if samePending (.rxdsp c) m.target rows (rxLoadRow c false) s then s
      else (engineArm ⟨.rxdsp c, rows, modeAtMf, m.target⟩ s).putB (RXDSP.hOrder c) true
    else msgError c s) s

/-- ORDER_TX (R295): a leaf writes its transmit standby table, rows outside its range disabled, and arms it
AT_MF. -/
def execOrderTx (c : Fin 16) (m : LoadMsg) (s : State) : Out :=
  onMsg c (fun s =>
    let s := msgSeen c ltOrderTx s
    let rows := (List.range 16).map (fun i =>
      if leafLo c s ≤ i ∧ i ≤ leafHi c s then rowOfEntry (m.rows.getD i 0) else 0)
    if orderOk c m.target (txMfn c s) rows s then
      if samePending (.txdsp c) m.target rows (txLoadRow c false) s then s
      else (engineArm ⟨.txdsp c, rows, modeAtMf, m.target⟩ s).putB (TXDSP.hOrder c) true
    else msgError c s) s

/-- FREQ_SHIFT_WRITE (R154): the register takes the clamped value; it is in force from the next symbol multiframe. -/
def freqShiftEff (c : Fin 16) (v : Nat) (s : State) : State :=
  s.put (TXDSP.FREQ_SHIFT c) ((Clamp.i (-5000) 5000).apply 16 (v % 2 ^ 16))

def execFreqShiftWrite (m : Master) (c : Fin 16) (v : Nat) (s : State) : Out :=
  act s fun s => writeCmd m (.txdsp c) 0x050 v (freqShiftEff c v) s

/-! ## Enabling, and what is sent in a multiframe -/

/-- The block samples MODE and loads its tables (R143, R160). -/
def txStart (c : Fin 16) (s : State) : State :=
  let m := txModeReg c s
  let s := loadTx c (s.put (TXDSP.hMode c) m)
  if modeOk m && (isZr m || txTableOk c (tableRows (txFallbackRow c) s) s) then s.put (TXDSP.hState c) 1
  else (s.put (TXDSP.hState c) 2).raise (.txdsp c) 0

/-- The block stops: IDLE (R172). -/
def txStop (c : Fin 16) (s : State) : State :=
  ((s.put (TXDSP.hState c) 0).putB (TXDSP.hFbPend c) false).putB (TXDSP.LOAD_STAT_FALLBACK_ACTIVE c) false

/-- The rows of a table in message form. -/
def entriesOf (row : Nat → Loc) (s : State) : List Nat := (List.range 16).map (fun i => entryOfRow (s.word (row i)))

/-- The state whose FALLBACK_REQ and ACQUIRING rules apply to branch b (R170, R297). -/
def dirState (c b : Fin 16) (s : State) : Nat :=
  if isHub c s then s.get (HUB.BRANCH_STAT_STATE c b) else carState c s

/-- Which message is sent next: the first due one after the last sent, in the order FALLBACK_REQ, answer, PROPOSE
(R163); 0 where none is due. -/
def nextTurn (c b : Fin 16) (s : State) : Nat :=
  let due (t : Nat) : Bool :=
    match t with
    | 1 => dirState c b s == stAcq
    | 2 => s.flag (TXDSP.hAnsOn c)
    | _ => s.flag (TXDSP.LOAD_STAT_REQ_PENDING c)
  let last := s.get (TXDSP.hTurn c)
  ([last % 3 + 1, (last + 1) % 3 + 1, (last + 2) % 3 + 1].find? due).getD 0

/-- The standby rows an order of a hub carries for branch b (R294). -/
def orderRows (c b : Fin 16) (row : Nat → Loc) (all : Bool) (s : State) : List Nat :=
  let w := branchAct c b.val s
  (List.range 16).map fun i =>
    if all || (decide (brLo w ≤ i) && decide (i ≤ brHi w)) then entryOfRow (s.word (row i)) else 0

/-- The message of the turn for branch b (R161, R163, R294). -/
def turnMsg (c b : Fin 16) (t : Nat) (s : State) : LoadMsg :=
  let fb := s.flag (TXDSP.LOAD_STAT_FALLBACK_ACTIVE c)
  let rate := bits (s.get (TXDSP.hMode c)) 28 2
  match t with
  | 1 => ⟨ltFallbackReq, fb, 0, 0, rate, 0, List.replicate 16 0⟩
  | 2 => ⟨s.get (TXDSP.hAnsType c), fb, s.get (TXDSP.hAnsSeq c), s.get (TXDSP.hAnsM c), rate, s.get (TXDSP.hAnsReason c),
      (List.finRange 16).map (fun i => s.get (TXDSP.hAnsRow c i))⟩
  | 3 => ⟨ltPropose, fb, s.get (TXDSP.hSeq c), s.get (HDR.HINGE_MF (.rxdsp c)), rate, 0, entriesOf (rxLoadRow c false) s⟩
  | _ =>
    if isHub c s && s.flag (HDR.PENDING (.txdsp c)) && s.get (HDR.HINGE_MODE (.txdsp c)) == modeAtMf then
      ⟨ltOrderRx, fb, 0, s.get (HDR.HINGE_MF (.txdsp c)), rate, 0, orderRows c b (txLoadRow c false) true s⟩
    else if isHub c s && s.flag (HDR.PENDING (.rxdsp c)) && s.get (HDR.HINGE_MODE (.rxdsp c)) == modeAtMf then
      ⟨ltOrderTx, fb, 0, s.get (HDR.HINGE_MF (.rxdsp c)), rate, 0, orderRows c b (rxLoadRow c false) false s⟩
    else ⟨ltState, fb, 0, s.get (TXDSP.LOAD_MFN_TX c), rate, 0, entriesOf (txLoadRow c true) s⟩

/-- The loading message of the multiframe is sent in every transmit stream (R163, R294). A hub's branches share one turn, the
carrier's (log entry 141). -/
def sendLoadMsg (c : Fin 16) (s : State) : State :=
  forL (streamsTx c s) (fun b s =>
    let t := nextTurn c b s
    let l := loadMsgBytes (turnMsg c b t s)
    let s' := { s with ldm := s.ldm ++ [(c, b, l)] }.send (.loadMsg c b l)
    if t = 0 then s' else s'.put (TXDSP.hTurn c) t) s

/-- What TXDSP does at the start of transmit multiframe n (R145, R154, R163, R165, R168): the answer ends after multiframe
M, FREQ_SHIFT comes into force, the symbol multiframe takes its shape, the message is sent and FB_AUTO counts. -/
def txdspMultiframe (c : Fin 16) (n : Nat) (s : State) : State :=
  let s := if s.flag (TXDSP.hAnsOn c) && decide (32767 < mfLead (s.get (TXDSP.hAnsM c)) n) then s.putB (TXDSP.hAnsOn c) false
    else s
  let s := lineSend c ((s.put (TXDSP.hFreq c) (s.get (TXDSP.FREQ_SHIFT c))).incStick (TXDSP.hFbCnt c) 1)
  let s := { s with ldm := s.ldm.filter fun x => x.1 != c }
  if lineSends c s && msgsAct c s then sendLoadMsg c s else s

/-- CAP_MARGIN (R172): the capacity of the active table minus F(n), signed, in Mb/s. The capacity may lie between
two values; which of them is read is open (log entry 21). -/
def capMargin (c : Fin 16) (s : State) : Int :=
  let m := s.get (TXDSP.hMode c)
  let x : Int := capacity3200 m (sumLoad (tableRows (txLoadRow c true) s) 0 15) * 5
  x / 16 + (if x % 16 = 0 then 0 else (Config.capRound x.toNat % 2 : Nat)) - 101125 * bits m 16 6

end Sys2Proof.Machine
end

