-- ==== Sys2Proof/Machine/Rxdsp.lean ====
section
/-! DEFINITION. Receive processing: acquisition and its failures (R202 to R204), the commands and events of the
carrier state (R205, R206), locks of the subcarriers (R186 to R189, R192, R194, R201), the frequency offset (R177,
R179) and diagnostic captures (R210, R211). -/
namespace Sys2Proof.Machine

/-! ## Frequency, dispersion -/

/-- WARN and OOR follow OFS and the WARN threshold (R179). -/
def freqFollow (c : Fin 16) (s : State) : State :=
  let ofs := s.geti (RXDSP.FREQ_STAT_OFS c)
  let warn := decide ((s.get (RXDSP.FREQ_CTRL_WARN c) : Int) < |ofs|)
  let s := s.raiseIf (.rxdsp c) 4 (warn && !s.flag (RXDSP.FREQ_STAT_WARN c))
  (s.putB (RXDSP.FREQ_STAT_WARN c) warn).putB (RXDSP.FREQ_STAT_OOR c) (decide (5000 < |ofs|))

/-- The estimator measures an offset (R177): beyond ±8,000 MHz it has no estimate, and OFS keeps the last one; under FREEZE the
estimate holds (R214). -/
def freqUpdate (c : Fin 16) (ofs : Int) (s : State) : State :=
  if s.flag (HDR.FREEZE (.rxdsp c)) then s
  else if |ofs| ≤ 8000 then freqFollow c ((s.puti (RXDSP.FREQ_STAT_OFS c) ofs).putB (RXDSP.FREQ_STAT_VALID c) true)
  else s.putB (RXDSP.FREQ_STAT_VALID c) false

/-- An estimate, and the loss event of an OOR of 1 (R177, R179). -/
def freqEstimate (c : Fin 16) (ofs : Int) (s : State) : State :=
  let s := freqUpdate c ofs s
  if s.flag (RXDSP.FREQ_STAT_OOR c) then lossAll c lcFreqRange s else s

/-- CD_max in 10 ps/nm units for a receive MODE (R180): min(300,000, 60,000 × (336 GBd / R_s)²) ps/nm, and 300,000
in OpenZR+ mode (R213). -/
def cdMax (mode : Nat) : Nat := if isZr mode then 30000 else min 30000 (6000 * 168 * 168 / (bits mode 0 8 * bits mode 0 8))

/-- The value the CD stage ends with (R181): FIXED uses VALUE clamped. HINT refines the best of 13 candidates around VALUE in steps
of CD_max / 60, so what it finds lies within half a step of one of them (log entry 160); SEARCH covers ±CD_max. -/
def cdResult (c : Fin 16) (found : Int) (s : State) : Int :=
  let m : Int := cdMax (s.get (RXDSP.hMode c))
  let v := s.geti (RXDSP.CD_CTRL_VALUE c)
  match s.get (RXDSP.CD_CTRL_MODE c) with
  | 1 => clampI (-m) m (clampI (v - 13 * m / 120) (v + 13 * m / 120) found)
  | 2 => clampI (-m) m v
  | _ => clampI (-m) m found

/-- The compensated dispersion follows the residual by at most 10 ps/nm in a tick, in traffic and not under FREEZE (R182). -/
def cdTrack (c : Fin 16) (v : Int) (s : State) : State :=
  if inTraffic (carState c s) && !s.flag (HDR.FREEZE (.rxdsp c)) then
    let m : Int := cdMax (s.get (RXDSP.hMode c))
    let now := s.geti (RXDSP.CD_STAT_CD c)
    s.puti (RXDSP.CD_STAT_CD c) (clampI (-m) m (now + clampI (-1) 1 (v - now)))
  else s

/-! ## Acquisition -/

/-- A stage is complete (R202): what must hold for it, and what it leaves. `v` is what the stage measured: the
offset in MHz in stage 2, the dispersion in 10 ps/nm in stage 3, the steering in 0.01 ppm in stage 4. -/
def stageDone (c b : Fin 16) (v : Int) (s : State) : State :=
  let u := unitOf c b s
  match s.get u.stage with
  | 1 =>
    if !s.flag (CONV.RX_STAT_SIG_ABSENT c) && s.flag (CONV.LASER_STAT_IN_RANGE c) then nextStage c b 2 s else s
  | 2 =>
    let s := freqUpdate c v s
    if s.flag (RXDSP.FREQ_STAT_VALID c) && !s.flag (RXDSP.FREQ_STAT_OOR c) then nextStage c b 3 s else s
  | 3 =>
    nextStage c b 4 (if s.flag (HDR.FREEZE (.rxdsp c)) then s
      else (s.putB (RXDSP.CD_STAT_VALID c) true).puti (RXDSP.CD_STAT_CD c) (cdResult c v s))
  | 4 =>
    if isHub c s then nextStage c b 5 s
    else if |v| < 20000 then nextStage c b 5 (syncUpdate c ((s.putB (RXDSP.TR_STAT_LOCK c) true).puti (RXDSP.TR_STAT_PPM c) v))
    else s
  | 5 =>
    if ((unitRows c b s).filter (fun i => rxRowOn c i s)).all (fun i => scLock c i s) then nextStage c b 6 s else s
  | 6 => nextStage c b 7 s
  | 7 => if s.get (OTU.hFrmState c b) = 3 then nextStage c b 8 s else s
  | 8 => if max 1 (s.get (RXDSP.ACQ_CTRL_VERIFY_MF c)) ≤ s.get u.verify then acqDone c b s else s
  | _ => s

/-- ACQ_STAGE_COMPLETE (R202, R205). On a hub, b names the CONT branch (R297). -/
def execAcqStageComplete (c b : Fin 16) (v : Int) (s : State) : Out := rxAct c s (stageDone c b v)

/-- The cause with which an exceeded stage fails (R202); none where the stage has no limit. NO_PILOT does not apply in OpenZR+ mode
(R213). -/
def stageCause (zr : Bool) (stage : Nat) : Option Nat :=
  match stage with
  | 2 => some 2
  | 3 => some 3
  | 4 => some 4
  | 5 => some 5
  | 6 => if zr then none else some 6
  | _ => none

/-- ACQ_STAGE_LIMIT (R202, R203): the stage that runs has exceeded its limit. -/
def execAcqStageLimit (c b : Fin 16) (s : State) : Out :=
  act s fun s =>
    match stageCause (isZr (s.get (RXDSP.hMode c))) (s.get (unitOf c b s).stage) with
    | some k => acqFail c b k s
    | none => s

/-- ACQ_TIMEOUT (R203): ACQ_TIMEOUT ticks have passed since stage 2 of the attempt began. -/
def execAcqTimeout (c b : Fin 16) (s : State) : Out :=
  act s fun s =>
    let u := unitOf c b s
    let st := s.get u.stage
    if 2 ≤ st ∧ st ≤ 8 ∧ max 1 (s.get (RXDSP.ACQ_CTRL_ACQ_TIMEOUT c)) ≤ s.get u.ticks then acqFail c b lcTimeout s
    else s

/-- DEGRADE_CLEAR (R205): no degrade condition on 125 consecutive ticks, and none now. -/
def execDegradeClear (c b : Fin 16) (s : State) : Out :=
  act s fun s =>
    let u := unitOf c b s
    if s.get u.state = stDeg ∧ 125 ≤ s.get u.degClr ∧ degradeCause c b s = 0 then
      ((setState c b stIn s).put u.degCause 0).raise (.rxdsp c) 1
    else s

/-! ## RX_CMD (R205) -/

def doOos (c b : Fin 16) (s : State) : State :=
  let st := s.get (unitOf c b s).state
  if inTraffic st || st == stAcq then refuseRx c 4 (setState c b stOos s) else s

def doRestore (c b : Fin 16) (s : State) : State :=
  let u := unitOf c b s
  if s.get u.state = stOos then
    let g := s.get u.stage
    let s := (setState c b stAcq s).put u.fail 0
    if g = 9 then (s.put u.stage 8).put u.verify 0
    else if g < 7 then
      if rxFallbackOk c s then loadRxRefuse c b s
      else ((goOff c (refuseRx c 4 s)).putB (RXDSP.CARRIER_STAT_CFG_ERROR c) true).raise (.rxdsp c) 0
    else s
  else s

def doReacq (c b : Fin 16) (s : State) : State :=
  let u := unitOf c b s
  let st := s.get u.state
  if inTraffic st || st == stAcq then enterAcq c b (s.put u.cause lcHostReacq) else s

/-- A write of RX_CMD: OOS acts if written with RESTORE (R205). -/
def rxCmdEff (c : Fin 16) (v : Nat) (s : State) : State :=
  let all (f : Fin 16 → State → State) (s : State) : State := forL (unitsOf c s) f s
  let s := if bit v 0 then all (doOos c) s else s
  let s := if bit v 1 && !bit v 0 then all (doRestore c) s else s
  if bit v 2 then all (doReacq c) s else s

/-- REACQ (R205). -/
def execReacq (m : Master) (c : Fin 16) (s : State) : Out := act s fun s => writeCmd m (.rxdsp c) 0x048 4 (rxCmdEff c 4) s

/-- OOS (R205). -/
def execOos (m : Master) (c : Fin 16) (s : State) : Out := act s fun s => writeCmd m (.rxdsp c) 0x048 1 (rxCmdEff c 1) s

/-- RESTORE_CARRIER (R205). -/
def execRestoreCarrier (m : Master) (c : Fin 16) (s : State) : Out :=
  act s fun s => writeCmd m (.rxdsp c) 0x048 2 (rxCmdEff c 2) s

/-! ## Subcarriers -/

/-- SC_LOCK of subcarrier i falls (R187, R201): VALID clears with it, and an enabled row meets R206 and R207. -/
def scFall (c i : Fin 16) (s : State) : State :=
  if scLock c i s then
    let s := ((s.putB (RXDSP.SC_STAT0_SC_LOCK c i) false).putB (RXDSP.SC_STAT0_VALID c i) false).put (RXDSP.hSnrTicks c i) 0
    let s := onPath c i (fun p => { p with snr := none }) s
    let s := trigger c 2 i.val (s.put (RXDSP.hSinceLock c i) 0)
    if rxRowOn c i s then forL (unitsOfSc c i s) (fun b s => scCheck c b s) (s.raise (.rxdsp c) 6) else s
  else s

/-- SC_UNLOCK (R187). -/
def execScUnlock (c i : Fin 16) (s : State) : Out := rxAct c s (scFall c i)

/-- The degrade conditions of the units that run over subcarrier i are looked at. -/
def scDegrade (c i : Fin 16) (s : State) : State := forL (unitsOfSc c i s) (fun b s => degradeEnter c b s) s

/-- SC_STAT has a row for subcarrier i: in OpenZR+ mode row 0 alone (R213). -/
def scRow (c i : Fin 16) (s : State) : Bool := !isZr (s.get (RXDSP.hMode c)) || i == 0

/-- SC_LOCK (R187): the equaliser and the carrier recovery of subcarrier i are locked, and its LLRs run (R186, R189). -/
def execScLock (c i : Fin 16) (s : State) : Out :=
  rxAct c s fun s =>
    if scLock c i s || !scRow c i s then s
    else
      let s := (s.putB (RXDSP.SC_STAT0_SC_LOCK c i) true).put (RXDSP.hSnrTicks c i) 0
      scDegrade c i (onPath c i (fun p => { p with age := none, mute := false }) s)

/-- The taps of subcarrier i return to the centre-tap identity and blind convergence starts again; its LLRs are 0 until SC_LOCK sets
(R186). -/
def eqReset (c i : Fin 16) (s : State) : State :=
  scFall c i (onPath c i (fun p => { p with taps := EqTaps.id (tapCount c s), mute := true }) s)

/-- A write of EQ_CMD: each subcarrier named is reset (R186), also one whose taps are frozen (log entry 161). -/
def eqCmdEff (c : Fin 16) (v : Nat) (s : State) : State :=
  forFin 16 (fun i s => if v.testBit i.val then eqReset c i s else s) s

/-- EQ_RESET (R186). -/
def execEqReset (m : Master) (c : Fin 16) (v : Nat) (s : State) : Out :=
  act s fun s => writeCmd m (.rxdsp c) 0x074 v (eqCmdEff c v) s

/-- SING (R188): the equaliser of subcarrier i has collapsed onto one polarisation; YX and YY are reloaded, unless its taps hold
(R185, R189; log entry 161). -/
def execSing (c i : Fin 16) (s : State) : Out :=
  rxAct c s fun s =>
    if !scRow c i s then s
    else
      let s := if eqFrozen c i s || !rxRowOn c i s then s else onPath c i (fun p => { p with taps := reloadY p.taps }) s
      (s.incWrap (RXDSP.SC_STAT2_SING c i) 1).raise (.rxdsp c) 7

/-- CYCLE_SLIP (R192): the decision-directed phase differs from the pilot reference by quarter turns; the tracker is corrected by
them. -/
def execCycleSlip (c : Fin 16) (i : PhaseSlip) (s : State) : Out :=
  rxAct c s fun s =>
    if i.turns = 0 ∨ !scRow c i.row s then s
    else
      let s := onPath c i.row (fun p => { p with phase := wrapTurn (p.phase - (i.turns.val : ℚ) / 4) }) s
      trigger c 1 i.row.val (((s.incWrap (RXDSP.SC_STAT1_SLIPS c i.row) 1).cntAdd (RXDSP.hSlipCnt c) 1).raise (.rxdsp c) 5)

/-- The timing loop loses lock: a loss event in traffic (R194, R206). -/
def trFall (c : Fin 16) (s : State) : State :=
  if s.flag (RXDSP.TR_STAT_LOCK c) then lossAll c lcTrUnlock (syncUpdate c (s.putB (RXDSP.TR_STAT_LOCK c) false)) else s

/-- TR_UNLOCK (R194): the timing loop loses lock; a hub's receive clock is not steered (R253). -/
def execTrUnlock (c : Fin 16) (s : State) : Out :=
  rxAct c s fun s => if isHub c s then s else trFall c s

/-- Steps of the timing loop, until the steering reaches ±200 ppm and LOCK clears (R193, R194, R254). -/
def timingTrack (c : Fin 16) (es : List (List Int)) (s : State) : State :=
  if s.flag (RXDSP.TR_STAT_LOCK c) && !isHub c s then
    let s := syncUpdate c (forL es (fun e s => if |s.geti (RXDSP.TR_STAT_PPM c)| < 20000 then timingStep c e s else s) s)
    if |s.geti (RXDSP.TR_STAT_PPM c)| < 20000 then s else trFall c s
  else s

/-- FREQ_RANGE (R179): the estimator finds an offset; beyond ±5,000 MHz it is a loss event. -/
def execFreqRange (c : Fin 16) (ofs : Int) (s : State) : Out := rxAct c s (freqEstimate c ofs)

/-- SNR_VALID (R201): 2^AVG ticks have passed with SC_LOCK = 1. -/
def execSnrValid (c i : Fin 16) (s : State) : Out :=
  rxAct c s fun s =>
    if scLock c i s && decide (2 ^ s.get (RXDSP.SNR_CTRL_AVG c) ≤ s.get (RXDSP.hSnrTicks c i)) then
      scDegrade c i (s.putB (RXDSP.SC_STAT0_VALID c i) true)
    else s

/-! ## Captures -/

/-- The words a capture writes (R210). -/
def captureLen (c : Fin 16) (s : State) : Nat :=
  if s.get (RXDSP.CAP_CTRL_SRC c) = 2 then 512
  else
    let n := s.get (RXDSP.CAP_CTRL_LEN c)
    if n = 0 ∨ 32768 < n then 32768 else n

/-- A rational as a signed 16-bit field in which `one` stands for 1, held to its range; which neighbour a value between two takes
is open (log entry 54). -/
def fixed16 (one : Int) (x : ℚ) : Nat := ofInt 16 (clampI (-32768) 32767 (quot (one * x.num) x.den))

/-- Filter f of an equaliser (R210). -/
def EqTaps.filter (t : EqTaps) (f : Nat) : List Cx :=
  match f with
  | 0 => t.xx
  | 1 => t.xy
  | 2 => t.yx
  | _ => t.yy

/-- Word n of a capture of the taps (R210): taps 2w and 2w + 1 of filter f of subcarrier s, n = 32 s + 8 f + w; tap 15 reads 0. -/
def tapCapture (c : Fin 16) (n : Nat) (s : State) : Nat :=
  let h := ((pathOf c (Fin.ofNat 16 (n / 32)) s).taps.filter (n / 8 % 4)).take 15
  let a := h.getD (2 * (n % 8)) ⟨0, 0⟩
  let b := h.getD (2 * (n % 8) + 1) ⟨0, 0⟩
  fixed16 0x4000 a.re * 2 ^ 48 + fixed16 0x4000 a.im * 2 ^ 32 + fixed16 0x4000 b.re * 2 ^ 16 + fixed16 0x4000 b.im

/-- Word n of a capture of samples or symbols (R210): eight samples, the earliest lowest, or XI, XQ, YI, YQ of a symbol from the
top. SRC = 0b11 names no source: its words are open (log entry 162). -/
def dataWord (src n : Nat) (xs : List Int) : Nat :=
  if src = 0 then (List.range 8).foldl (fun a k => a + ofInt 8 (xs.getD (8 * n + k) 0) * 2 ^ (8 * k)) 0
  else if src = 1 then (List.range 4).foldl (fun a k => a + ofInt 16 (xs.getD (4 * n + k) 0) * 2 ^ (48 - 16 * k)) 0
  else ofInt 64 (xs.getD n 0)

/-- Word n of a capture. -/
def captureWordOf (c : Fin 16) (n : Nat) (xs : List Int) (s : State) : Nat :=
  if s.get (RXDSP.CAP_CTRL_SRC c) = 2 then tapCapture c n s else dataWord (s.get (RXDSP.CAP_CTRL_SRC c)) n xs

/-- The first k words of a capture written to its buffer, each as the chain now stands (R211). -/
def putCapture (c : Fin 16) (k : Nat) (xs : List Int) (s : State) : State :=
  forN k (fun i t => t.store (captureWord c i) (captureWordOf c i xs s)) s

/-- Whole words that values cover when a capture is aborted: eight samples or four components each; of a capture of taps, or of
SRC = 0b11, one each. -/
def wholeWords (src : Nat) (xs : List Int) : Nat := if src = 0 then xs.length / 8 else if src = 1 then xs.length / 4 else xs.length

/-- A write of CAP_CTRL (R211): its fields, then ABORT or ARM. `xs` is what the capture had taken when it is aborted. -/
def capCtrlEff (c : Fin 16) (v : Nat) (xs : List Int) (s : State) : State :=
  let put (s : State) : State :=
    (((s.put (RXDSP.CAP_CTRL_SRC c) (bits v 28 2)).put (RXDSP.CAP_CTRL_TRIG c) (bits v 25 3)).put
      (RXDSP.CAP_CTRL_SEL c) (bits v 16 4)).put (RXDSP.CAP_CTRL_LEN c) (bits v 0 16)
  if bit v 30 then
    if s.flag (RXDSP.CAP_STAT_ARMED c) || s.flag (RXDSP.CAP_STAT_RUNNING c) then
      let n := if s.flag (RXDSP.CAP_STAT_RUNNING c) then min (captureLen c s) (wholeWords (s.get (RXDSP.CAP_CTRL_SRC c)) xs) else 0
      put ((((putCapture c n xs s).putB (RXDSP.CAP_STAT_ARMED c) false).putB (RXDSP.CAP_STAT_RUNNING c) false).putB
        (RXDSP.CAP_STAT_ABORTED c) true |>.put (RXDSP.CAP_STAT_WORDS c) n)
    else put s
  else
    let s := put s
    if bit v 31 && !s.flag (RXDSP.CAP_STAT_ARMED c) && decide (bits v 25 3 < 5) then
      ((((s.putB (RXDSP.CAP_STAT_ARMED c) true).putB (RXDSP.CAP_STAT_DONE c) false).putB (RXDSP.CAP_STAT_ABORTED c) false).putB
        (RXDSP.CAP_STAT_RUNNING c) false).putB (RXDSP.hTrig c) (bits v 25 3 == 0)
    else s

/-- CAPTURE_ARM (R211): CAP_CTRL written with ARM = 1. -/
def execCaptureArm (m : Master) (c : Fin 16) (v : Nat) (s : State) : Out :=
  act s fun s => writeCmd m (.rxdsp c) 0x0A0 (v % 2 ^ 30 + 2 ^ 31) (capCtrlEff c (v % 2 ^ 30 + 2 ^ 31) []) s

/-- CAPTURE_ABORT (R211): CAP_CTRL written with ABORT = 1; `xs` is what it has taken so far. -/
def execCaptureAbort (m : Master) (c : Fin 16) (v : Nat) (xs : List Int) (s : State) : Out :=
  act s fun s => writeCmd m (.rxdsp c) 0x0A0 (v % 2 ^ 30 + 2 ^ 30) (capCtrlEff c (v % 2 ^ 30 + 2 ^ 30) xs) s

/-- CAPTURE_TRIGGER (R211): the trigger chosen by TRIG has occurred, and the words begin to be written. -/
def execCaptureTrigger (c : Fin 16) (s : State) : Out :=
  rxAct c s fun s =>
    if s.flag (RXDSP.CAP_STAT_ARMED c) && s.flag (RXDSP.hTrig c) then
      ((s.putB (RXDSP.CAP_STAT_ARMED c) false).putB (RXDSP.hTrig c) false).putB (RXDSP.CAP_STAT_RUNNING c) true
    else s

/-- CAPTURE_DONE (R211): the words captured lie in the buffer; `xs` are the samples, or the components of the symbols, in order. -/
def execCaptureDone (c : Fin 16) (xs : List Int) (s : State) : Out :=
  rxAct c s fun s =>
    if s.flag (RXDSP.CAP_STAT_RUNNING c) then
      let n := captureLen c s
      (((putCapture c n xs s).putB (RXDSP.CAP_STAT_RUNNING c) false).putB
        (RXDSP.CAP_STAT_DONE c) true |>.put (RXDSP.CAP_STAT_WORDS c) n).raise (.rxdsp c) 8
    else s

/-! ## Ticks and measurements -/

/-- A tick of a unit (R203, R205, R207): the attempt's time, and the run of ticks without a degrade condition. -/
def unitTick (c b : Fin 16) (s : State) : State :=
  let u := unitOf c b s
  let g := s.get u.stage
  let st := s.get u.state
  let s := if decide (2 ≤ g) && decide (g ≤ 8) && (st == stAcq || st == stOos) then s.incStick u.ticks 1 else s
  let s := degradeEnter c b s
  if s.get u.state = stDeg then
    s.put u.degClr (if s.get u.degCause = 0 then min 125 (s.get u.degClr + 1) else 0)
  else s

/-- A tick of the receive processing (R189, R201, R203, R205, R211). -/
def rxTick (c : Fin 16) (s : State) : State :=
  let s := forFin 16 (fun i s =>
    if scLock c i s then s.incStick (RXDSP.hSnrTicks c i) 1 else s.incStick (RXDSP.hSinceLock c i) 1) s
  trigger c 4 0 (forL (unitsOf c s) (fun b s => unitTick c b s) s)

/-- The SNR of a locked enabled subcarrier is averaged exponentially over 2^AVG ticks (R200); the first estimate after SC_LOCK sets
starts the average (log entry 163). -/
def snrTrack (c i : Fin 16) (v : Nat) (s : State) : State :=
  let p := pathOf c i s
  let a : ℚ := match p.snr with
    | some x => x + (v - x) / 2 ^ s.get (RXDSP.SNR_CTRL_AVG c)
    | none => v
  (onPath c i (fun p => { p with snr := some a }) s).put (RXDSP.SC_STAT0_SNR c i) (min 65535 (quot a.num a.den).toNat)

/-- A measurement of the receive processing: the IQ imbalance while its correction runs (R176), the deskew residual (R175), the
offset (R177), the dispersion (R182), the SNR of a locked subcarrier (R200), the timing loop (R193, R194), and symbols of a
subcarrier (R183). The receive domain takes none while its clock is stopped (R30). -/
def rxMeas (m : Meas) (s : State) : State :=
  let on (c : Fin 16) (f : State → State) : State := if chainRuns c s then f s else s
  match m with
  | .iq c y g p => on c fun s =>
    if s.flag (RXDSP.FE_CTRL_IQ_EN c) && !s.flag (HDR.FREEZE (.rxdsp c)) then
      let lim := decide (150 < |g|) || decide (1000 < |p|)
      let g := clampI (-150) 150 g
      let p := clampI (-1000) 1000 p
      if y then ((s.puti (RXDSP.FE_STAT1_GAIN c) g).puti (RXDSP.FE_STAT1_PHASE c) p).putB (RXDSP.FE_STAT1_IQ_LIMIT c) lim
      else ((s.puti (RXDSP.FE_STAT0_GAIN c) g).puti (RXDSP.FE_STAT0_PHASE c) p).putB (RXDSP.FE_STAT0_IQ_LIMIT c) lim
    else s
  | .snr c i v d g => on c fun s =>
    if scLock c i s && rxRowOn c i s then
      ((snrTrack c i v s).puti (RXDSP.SC_STAT1_SNR_DIFF c i) d).put (RXDSP.SC_STAT2_DGD c i) g
    else s
  | .timing c es => on c (timingTrack c es)
  | .freq c v => on c (freqEstimate c v)
  | .cd c v => on c (cdTrack c v)
  | .skew c n v => on c (skewTrack c n v)
  | .symbols c i xs => takeSymbols c i xs s
  | _ => s

/-- The PM second in the RXDSP page (R192, R330). -/
def rxLatch (c : Fin 16) (s : State) : State :=
  s.cntLatch (RXDSP.hSlipCnt c) (RXDSP.CS_CNT_LO c) (RXDSP.CS_CNT_HI_SATURATED c) (RXDSP.CS_CNT_HI_COUNT c)

/-! ## Enabling -/

/-- The block samples MODE (R143, R174); the decoder's latency follows it (R228, R236), and where the line mode changes the equalisers
start afresh, since their taps differ in number (R183, R213). -/
def rxSample (c : Fin 16) (s : State) : State :=
  let m := rxModeReg c s
  let s := if isZr m == isZr (s.get (RXDSP.hMode c)) then s else pathsClear c s
  let s := latFollow c ((s.put (RXDSP.hMode c) m).putB (RXDSP.hModeOk c) (modeOk m))
  if modeOk m then s else (s.putB (RXDSP.CARRIER_STAT_CFG_ERROR c) true).raise (.rxdsp c) 0

/-- What a receive hinge does to the equalisers (R189): a newly enabled row starts from its own held taps if it was
locked within the last 125 ticks, otherwise from those of the nearest enabled locked subcarrier, the lower on a
tie; frozen taps hold (R185). Its LLRs run for 0.3 ms without SC_LOCK. `was` is the set of rows enabled before the hinge. -/
def seedTaps (c : Fin 16) (was : Nat) (s : State) : State :=
  forFin 16 (fun i s =>
    if rxRowOn c i s && !was.testBit i.val then
      let s := if scLock c i s then s else onPath c i (fun p => { p with age := some 0 }) s
      let cand := (List.finRange 16).filter (fun j => j != i && rxRowOn c j s && scLock c j s)
      let dist (j : Fin 16) : Nat := max i.val j.val - min i.val j.val
      match cand.foldl (fun (a : Option (Fin 16)) j =>
          match a with
          | none => some j
          | some k => if dist j < dist k then some j else some k) none with
      | some j =>
        if scLock c i s || eqFrozen c i s || decide (s.get (RXDSP.hSinceLock c i) ≤ 125) then s
        else onPath c i (fun p => { p with taps := (pathOf c j s).taps }) s
      | none => s
    else s) s

end Sys2Proof.Machine
end

