-- ==== Sys2Proof/Machine/Cal.lean ====
section
/-! DEFINITION. Foreground calibration (R123 to R133) and its records in flash (R134 to R139). -/
namespace Sys2Proof.Machine

/-- Codes of CAL_STAT.CAUSE (R140). -/
def ccBusyTraffic : Nat := 1
def ccBusyCal : Nat := 2
def ccNoLight : Nat := 3
def ccDisabled : Nat := 4
def ccLaserOff : Nat := 5
def ccPark : Nat := 6
def ccReset : Nat := 7
def ccHostAbort : Nat := 8
def ccLimit : Nat := 9
def ccLightLost : Nat := 0xA

/-- The cause with which a START is refused, in the order of R123; none where it is accepted. A carrier that enters or leaves
park, or a quadrant that enters sleep or wakes, counts as parked or asleep (log entry 164). -/
def calRefusal (c : Fin 16) (force : Bool) (s : State) : Option Nat :=
  if !pageOn (.cal c) s || !pageOn (.conv c) s || !notParking c s || qState (quadOf c) s != 0 then some ccDisabled
  else if s.flag (CAL.CAL_STAT_BUSY c) then some ccBusyCal
  else if !s.flag (CONV.LASER_STAT_LIGHT c) then some ccNoLight
  else if inTraffic (carState c s) && !force then some ccBusyTraffic
  else none

/-- The CONT branches of a hub are CALIBRATING with their carrier (R128, R297; log entry 140). -/
def calUnits (c : Fin 16) (s : State) : State :=
  if isHub c s then forL (unitsOf c s) (fun b s => (branchPut c b stCal s).put (HUB.hBrStage c b) 0) s else s

/-- A calibration begins (R125, R130). -/
def calBegin (c : Fin 16) (full : Bool) (s : State) : State :=
  let s := calUnits c (s.put (CAL.hTicks c) 0)
  let s := (((((s.putB (CAL.CAL_STAT_BUSY c) true).put (CAL.CAL_STAT_PHASE c) 1).put (CAL.CAL_STAT_RESULT c) 0).put
    (CAL.CAL_STAT_CAUSE c) 0).putB (CAL.CAL_STAT_FULL_RUN c) (full || !s.flag (CAL.hVals c)))
  let was := carState c s
  let s := ((s.put (RXDSP.CARRIER_STAT_STATE c) stCal).put (RXDSP.CARRIER_STAT_ACQ_STAGE c) 0).put
    (RXDSP.CARRIER_STAT_DEG_CAUSE c) 0
  let s := trigger c 3 0 (streamsSync c s)
  if inTraffic was && s.get (HDR.HINGE_MODE (.rxdsp c)) == modePaired then refuseRx c 4 s else s

/-- A calibration leaves CALIBRATING towards ACQUIRING where the pages and power allow it, otherwise to OFF, whose
rows then apply (R130). -/
def calLeave (c : Fin 16) (s : State) : State :=
  if mayRun c s then enterAcqAll c s else leaveOff c (goOff c s)

/-- CAL_STAT.BUSY falls, which is the CAL event of the carrier's Tumbler (R578). -/
def calIdle (c : Fin 16) (s : State) : State := tumbEvent (Fin.ofNat 18 c.val) evCal (s.putB (CAL.CAL_STAT_BUSY c) false)

/-- A running calibration is aborted with a cause; the values in force before START stand (R130, R131). -/
def calAbort (c : Fin 16) (cause : Nat) (s : State) : State :=
  if s.flag (CAL.CAL_STAT_BUSY c) then
    calLeave c (((((calIdle c s).put (CAL.CAL_STAT_PHASE c) 0).put (CAL.CAL_STAT_RESULT c) 3).put
      (CAL.CAL_STAT_CAUSE c) cause).raise (.cal c) 1)
  else s

/-- A running calibration is aborted by an event that takes the carrier to OFF (R130). -/
def calAbortOff (c : Fin 16) (cause : Nat) (s : State) : State :=
  if s.flag (CAL.CAL_STAT_BUSY c) then
    goOff c (((((calIdle c s).put (CAL.CAL_STAT_PHASE c) 0).put (CAL.CAL_STAT_RESULT c) 3).put
      (CAL.CAL_STAT_CAUSE c) cause).raise (.cal c) 1)
  else s

/-- A START with the FORCE and FULL written with it (R123). -/
def calStart (c : Fin 16) (force full : Bool) (s : State) : State :=
  match calRefusal c force s with
  | some k => ((s.put (CAL.CAL_STAT_RESULT c) 4).put (CAL.CAL_STAT_CAUSE c) k).raise (.cal c) 2
  | none => calBegin c full s

/-- A write of CAL_CTRL: ABORT acts alone (R124). -/
def calCtrlEff (c : Fin 16) (v : Nat) (s : State) : State :=
  let s := (s.put (CAL.CAL_CTRL_FULL c) (bits v 2 1)).put (CAL.CAL_CTRL_FORCE c) (bits v 1 1)
  if bit v 3 then calAbort c ccHostAbort s
  else if bit v 0 then calStart c (bit v 1) (bit v 2) s
  else s

/-- CAL_START (R123): START written with FORCE and FULL. -/
def execCalStart (m : Master) (c : Fin 16) (force full : Bool) (s : State) : Out :=
  let v := 1 + 2 * force.toNat + 4 * full.toNat
  act s fun s => writeCmd m (.cal c) 0x040 v (calCtrlEff c v) s

/-- CAL_ABORT (R124). -/
def execCalAbort (m : Master) (c : Fin 16) (s : State) : Out := act s fun s => writeCmd m (.cal c) 0x040 8 (calCtrlEff c 8) s

/-- CAL_AUTO_START (R125): the engine starts the full sequence on a carrier that holds no valid values, as if Ward0 had
written START and FULL. Like the other rows that leave OFF, it waits for the end of a soft reset (R130, R205). -/
def execCalAutoStart (c : Fin 16) (s : State) : Out :=
  act s fun s =>
    if carState c s == stOff && !s.flag (CAL.hVals c) && pageOn (.cal c) s && mayRun c s
        && s.flag (CONV.LASER_STAT_LIGHT c) && !s.flag (CAL.CAL_STAT_BUSY c)
        && !s.flag (HDR.RESET_BUSY (.rxdsp c)) && !s.flag (HDR.RESET_BUSY (.cal c)) then
      calBegin c true ((s.put (CAL.CAL_CTRL_FULL c) 1).put (CAL.CAL_CTRL_FORCE c) 0)
    else s

/-- The ticks that have passed at the scheduled end of phase p, the tick in progress left out: those of the table of R126,
for the standard and the full sequence. -/
def phaseTicks (full : Bool) (p : Nat) : Nat :=
  (if full then [0, 2, 502, 815, 1190, 1377, 1490, 1500] else [0, 2, 52, 100, 162, 200, 220, 225]).getD p 0

/-- The scheduled end of the phase that runs has come (R126; log entry 137). -/
def phaseDue (c : Fin 16) (s : State) : Bool :=
  decide (phaseTicks (s.flag (CAL.CAL_STAT_FULL_RUN c)) (s.get (CAL.CAL_STAT_PHASE c)) ≤ s.get (CAL.hTicks c))

/-- A tick of a calibration that runs (R126). -/
def calTick (c : Fin 16) (s : State) : State :=
  if s.flag (CAL.CAL_STAT_BUSY c) then s.incStick (CAL.hTicks c) 1 else s

/-- CAL_PHASE_ADVANCE (R126): the next phase begins. -/
def execCalPhaseAdvance (c : Fin 16) (s : State) : Out :=
  act s fun s =>
    if s.flag (CAL.CAL_STAT_BUSY c) && decide (s.get (CAL.CAL_STAT_PHASE c) < 7) && phaseDue c s then s.incWrap (CAL.CAL_STAT_PHASE c) 1
    else s

/-! ## Records in flash -/

/-- The fields of a record with the values now in force (R134); its copy and SEQ are those of the store. -/
def calRecordNow (c : Fin 16) (payload : List Byte) (s : State) : CalRecord :=
  { carrier := c, copyB := false, version := 1, full := s.flag (CAL.CAL_STAT_FULL_RUN c),
    timeValid := s.flag (CAL.LAST_SEC_HI_TIME_VALID c), seq := 0, count := s.get (CAL.CAL_COUNT c),
    sec := s.get (CAL.LAST_SEC_HI_SEC c) * 2 ^ 32 + s.get (CAL.LAST_SEC_LO c), ns := s.get (CAL.LAST_NS c),
    values := ⟨(List.finRange 4).flatMap (fun n => (List.finRange 64).flatMap (fun i => (List.finRange 4).map (fun k =>
        s.geti (CONV.hForegnd c n i k)))), (List.finRange 4).map (fun n => s.geti (TXDSP.SKEW_CAL c n)), payload⟩ }

/-- PAYLOAD of a record. Its layout is the model's, Tawell defining it per VERSION (log entry 138): the corrections and then
the skews as signed words of two bytes, then the rest. -/
def calPayloadBytes (v : CalValues) : List Nat :=
  (List.range 1024).flatMap (fun i => leBytes 2 (ofInt 16 (v.corrections.getD i 0)))
    ++ (List.range 4).flatMap (fun i => leBytes 2 (ofInt 16 (v.skews.getD i 0))) ++ v.payload.map (·.toNat)

/-- The values that a PAYLOAD spells. -/
def calPayloadOf (l : List Nat) : CalValues :=
  ⟨(List.range 1024).map (fun i => toInt 16 (ofLe (slice l (2 * i) 2))),
    (List.range 4).map (fun i => toInt 16 (ofLe (slice l (2048 + 2 * i) 2))), (l.drop 2056).map (BitVec.ofNat 8)⟩

/-- MAGIC of a record (R134). -/
def calMagic : List Nat := [0x54, 0x43, 0x41, 0x4C]

/-- A record without its CRC (R7, R134). -/
def calBody (r : CalRecord) : List Nat :=
  let p := calPayloadBytes r.values
  calMagic ++ leBytes 2 r.version ++ [r.carrier.val, r.full.toNat + 2 * r.timeValid.toNat] ++ leBytes 4 r.seq ++ leBytes 4 r.count
    ++ leBytes 6 r.sec ++ [0, 0] ++ leBytes 4 r.ns ++ leBytes 4 p.length ++ p

/-- The bytes of a record in flash (R134, R135). -/
def calBytes (r : CalRecord) : List Nat := calBody r ++ leBytes 4 (crc32c (calBody r))

/-- The flash address of a copy (R134, R641). -/
def calAddr (c : Fin 16) (copyB : Bool) : Nat := 0x0B8_0000 + 0x2_0000 * c.val + 0x1_0000 * copyB.toNat

/-- A VERSION that the firmware accepts (R136). -/
def calAccepts (v : Nat) : Bool := v == 1

/-- The record that a copy in flash holds; none where the copy is not valid (R136). -/
def calRead (c : Fin 16) (copyB : Bool) (s : State) : Option CalRecord :=
  let a := flashKey (calAddr c copyB)
  let h := s.getList a 32
  let n := ofLe (slice h 28 4)
  if slice h 0 4 = calMagic ∧ h.getD 6 0 = c.val ∧ calAccepts (ofLe (slice h 4 2)) ∧ n ≤ 65500 then
    let l := s.getList a (36 + n)
    if ofLe (slice l (32 + n) 4) = crc32c (l.take (32 + n)) then
      some { carrier := c, copyB := copyB, version := ofLe (slice h 4 2), full := (h.getD 7 0).testBit 0,
             timeValid := (h.getD 7 0).testBit 1, seq := ofLe (slice h 8 4), count := ofLe (slice h 12 4),
             sec := ofLe (slice h 16 6), ns := ofLe (slice h 24 4), values := calPayloadOf (slice l 32 n) }
    else none
  else none

/-- The record in use of carrier c: the one CAL reports (R136, R137). -/
def recordInUse (c : Fin 16) (s : State) : Option CalRecord :=
  if s.flag (CAL.hRecValid c) then calRead c (s.flag (CAL.NVM_STAT_COPY c)) s else none

/-- SEQ of the next store: one more than that of the copy in use, 1 where none is (R134, R137). -/
def nextSeq (c : Fin 16) (s : State) : Nat :=
  match recordInUse c s with
  | some r => min (r.seq + 1) 0xFFFFFFFF
  | none => 1

/-- The copy the next store writes: the one not in use, A where none is (R137). -/
def nextCopy (c : Fin 16) (s : State) : Bool :=
  match recordInUse c s with
  | some r => !r.copyB
  | none => false

/-- A store of record r starts, or it follows the one that runs, in place of an earlier one that waits (R137, R138). -/
def storeStart (c : Fin 16) (r : CalRecord) (s : State) : State :=
  match s.storing.find? (fun (x : CalRecord) => x.carrier == c) with
  | none => { s with storing := s.storing ++ [r] }.putB (CAL.NVM_STAT_STORE_BUSY c) true
  | some x => { s with storing := s.storing.filter (fun (y : CalRecord) => y.carrier != c) ++ [x, r] }.putB (CAL.hStoreNext c) true

/-- The payload of carrier c in force. -/
def putPayload (c : Fin 16) (p : List Byte) (s : State) : State :=
  { s with calPayload := s.calPayload.filter (fun (x : Fin 16 × List Byte) => x.1 != c) ++ (if p = [] then [] else [(c, p)]) }

/-- The background corrections and skews take the values of a calibration (R107, R130). -/
def putCalValues (c : Fin 16) (v : CalValues) (s : State) : State :=
  let s := forFin 4 (fun n s => forFin 64 (fun i s => forFin 4 (fun k s =>
    let x := v.corrections.getD (256 * n.val + 4 * i.val + k.val) 0
    (s.puti (CONV.hForegnd c n i k) x).puti (CONV.hCorr c n i k) x) s) s) s
  forFin 4 (fun n s => s.puti (TXDSP.SKEW_CAL c n) (v.skews.getD n.val 0)) s

/-- COMMIT ends with a pass (R130, R132, R133). -/
def calPass (c : Fin 16) (v : CalValues) (s : State) : State :=
  let s := (((calIdle c s).put (CAL.CAL_STAT_PHASE c) 0).put (CAL.CAL_STAT_RESULT c) 1).put
    (CAL.CAL_STAT_CAUSE c) 0
  let s := ((putCalValues c v s).putB (CAL.hVals c) true).putB (CAL.CAL_STAT_DEFAULTS c) false
  let s := putPayload c v.payload s
  let s := (((s.incStick (CAL.CAL_COUNT c) 1).put (CAL.LAST_SEC_HI_SEC c) (s.time.sec / 2 ^ 32)).put
    (CAL.LAST_SEC_LO c) s.time.sec).put (CAL.LAST_NS c) s.time.ns
  let s := s.putB (CAL.LAST_SEC_HI_TIME_VALID c) (s.flag TIMING0.DPLL_STAT_TIME_VALID)
  let s := forFin 4 (fun n s => s.putB (CONV.MIS_STAT0_CONVERGED c n) true) (s.raise (.cal c) 0)
  let s := if s.flag (CAL.NVM_CTRL_STORE_EN c) then storeStart c (calRecordNow c v.payload s) s else s
  calLeave c s

/-- CAL_COMMIT (R126, R130): COMMIT ends, with the values measured if VERIFY passed. -/
def execCalCommit (c : Fin 16) (result : Option CalValues) (s : State) : Out :=
  act s fun s =>
    if s.flag (CAL.CAL_STAT_BUSY c) && s.get (CAL.CAL_STAT_PHASE c) == 7 && phaseDue c s then
      match result with
      | some v => calPass c v s
      | none =>
        calLeave c (((((calIdle c s).put (CAL.CAL_STAT_PHASE c) 0).put
          (CAL.CAL_STAT_RESULT c) 2).put (CAL.CAL_STAT_CAUSE c) ccLimit).raise (.cal c) 1)
    else s

/-- The record that a store leaves in flash: copy, SEQ and bytes (R134, R137). -/
def storeRecord (c : Fin 16) (r : CalRecord) (s : State) : State :=
  let r := { r with seq := nextSeq c s, copyB := nextCopy c s }
  let s := s.putList (flashKey (calAddr c r.copyB)) (calBytes r)
  ((((s.put (CAL.NVM_STAT_LAST c) 1).putB (CAL.NVM_STAT_COPY c) r.copyB).put (CAL.NVM_STAT_SEQ c) r.seq).putB
    (CAL.hRecValid c) true).raise (.cal c) 3

/-- The store of carrier c has ended: the next one follows, or none runs (R138). -/
def storeNext (c : Fin 16) (r : CalRecord) (s : State) : State :=
  let s := { s with storing := s.storing.erase r }
  let more := s.storing.any fun (x : CalRecord) => x.carrier == c
  (s.putB (CAL.hStoreNext c) false).putB (CAL.NVM_STAT_STORE_BUSY c) more

/-- NVM_STORE_DONE (R137 to R139): a store ends, its read-back right or wrong. -/
def execNvmStoreDone (c : Fin 16) (ok : Bool) (s : State) : Out :=
  act s fun s =>
    match s.storing.find? (fun (x : CalRecord) => x.carrier == c) with
    | some r => storeNext c r (if ok then storeRecord c r s else (s.put (CAL.NVM_STAT_LAST c) 2).raise (.cal c) 4)
    | none => s

/-- The registers of R140 hold the values of the record in use, or 0, also where neither a record nor the factory defaults are in
use (log entry 166). -/
def calShowRecord (c : Fin 16) (s : State) : State :=
  match recordInUse c s with
  | some r =>
    ((((s.put (CAL.CAL_COUNT c) r.count).putB (CAL.LAST_SEC_HI_TIME_VALID c) r.timeValid).put (CAL.LAST_SEC_HI_SEC c)
      (r.sec / 2 ^ 32)).put (CAL.LAST_SEC_LO c) r.sec).put (CAL.LAST_NS c) r.ns
  | none =>
    ((((s.put (CAL.CAL_COUNT c) 0).putB (CAL.LAST_SEC_HI_TIME_VALID c) false).put (CAL.LAST_SEC_HI_SEC c) 0).put
      (CAL.LAST_SEC_LO c) 0).put (CAL.LAST_NS c) 0

/-- The factory defaults of corrections and skews: every one 0, their reset value (log entry 139). -/
def calDefaults : CalValues := ⟨[], [], []⟩

/-- The copy that a load uses: of the valid ones that with the larger SEQ, copy A on a tie (R136). -/
def calPick (c : Fin 16) (s : State) : Option CalRecord :=
  match calRead c false s, calRead c true s with
  | some x, some y => if x.seq < y.seq then some y else some x
  | some x, none => some x
  | none, y => y

/-- The record of carrier c is loaded from flash (R136); factory defaults, every one 0 (log entry 139), where neither copy is
valid, or where the flash does not answer. -/
def calLoad (c : Fin 16) (flash : Bool) (s : State) : State :=
  let s := match (if flash then calPick c s else none) with
    | some r =>
      (((((putCalValues c r.values (putPayload c r.values.payload s)).putB (CAL.hVals c) true).putB (CAL.hRecValid c) true).putB
        (CAL.CAL_STAT_DEFAULTS c) false).put (CAL.NVM_STAT_LAST c) 3).putB (CAL.NVM_STAT_COPY c) r.copyB
        |>.put (CAL.NVM_STAT_SEQ c) r.seq
    | none =>
      ((((putCalValues c calDefaults (putPayload c [] s)).putB (CAL.hVals c) false).putB (CAL.hRecValid c) false).putB
        (CAL.CAL_STAT_DEFAULTS c) true).put (CAL.NVM_STAT_LAST c) 4 |>.raise (.cal c) 5
  leaveOff c (calShowRecord c s)

end Sys2Proof.Machine
end

