-- ==== Sys2Proof/Machine/Framing.lean ====
section
/-! DEFINITION. The frames of a stream bit by bit: their layout (R303 to R305), the common, slice and message blocks
(R307 to R309), the scrambler (R310), BIP-8 (R322), and the slots of the payload areas with the channels of tributaries
in them (R324, R340 to R342, R350). -/
namespace Sys2Proof.Machine

/-! ## Layout (R303 to R305) -/

/-- Framed bits of a multiframe of S slots (R302). -/
def mfBits (S : Nat) : Nat := 1504740 * S

/-- The framed bit at which frame f begins (R303). -/
def frameStart (S f : Nat) : Nat := f * mfBits S / 256

/-- Bits of frame f (R303). -/
def frameBits (S f : Nat) : Nat := frameStart S (f + 1) - frameStart S f

/-- Stuff bits at the end of frame 255, with overhead areas of H bytes (R304, R305). -/
def stuffBits (S H : Nat) : Nat := 5115 * S - 2048 * H

/-- Slot bits in the payload area of frame f (R304, R305). -/
def slotBits (S H f : Nat) : Nat := frameBits S f - 8 * H - (if f = 255 then stuffBits S H else 0)

/-- The bit of the slot area with which frame f begins (R340). -/
def areaStart (S H f : Nat) : Nat := frameStart S f - 8 * H * f

/-- Overhead bytes of a frame with n slice blocks on the line, and on a branch (R304, R308, R309). -/
def overheadBytes (branch : Bool) (n : Nat) : Nat := if branch then 96 else 16 + 16 * n

/-! ## Octets -/

/-- Bits as octets, the first most significant (R6), the last padded with zeros. -/
def packBits : List Bool → List Nat
  | a :: b :: c :: d :: e :: f :: g :: h :: l =>
    (((((((a.toNat * 2 + b.toNat) * 2 + c.toNat) * 2 + d.toNat) * 2 + e.toNat) * 2 + f.toNat) * 2 + g.toNat) * 2 + h.toNat) :: packBits l
  | [] => []
  | l => [((List.range 8).foldl (fun v k => 2 * v + (l.getD k false).toNat) 0)]

/-- Octets as bits, the most significant first (R6). -/
def unpackBits (l : List Nat) : List Bool := l.flatMap fun v => (List.range 8).map fun k => v.testBit (7 - k)

/-! ## The scrambler (R310) -/

/-- The next state of the scrambler x^16 + x^12 + x^3 + x + 1. -/
def scrNext (st : Nat) : Nat := (2 * st + (st.testBit 15 ^^ st.testBit 11 ^^ st.testBit 2 ^^ st.testBit 0).toNat) % 2 ^ 16

/-- Eight bits of the scrambler's output, the first most significant, and its state after them. -/
def scrByte (st : Nat) : Nat × Nat :=
  forN 8 (fun _ x => (2 * x.1 + (x.2.testBit 15).toNat, scrNext x.2)) (0, st)

/-- Octets combined with the scrambler's output from a state on. -/
def scrRun : Nat → List Nat → List Nat
  | _, [] => []
  | st, b :: l => (b ^^^ (scrByte st).1) :: scrRun (scrByte st).2 l

/-- A frame scrambled, or a scrambled frame unscrambled: from byte 6 on, the state being 0xFFFF there (R310). -/
def scramble (l : List Nat) : List Nat := l.take 6 ++ scrRun 0xFFFF (l.drop 6)

/-! ## BIP-8 (R322) -/

/-- The even parity of each bit position over the octets j of a payload area with j mod n = k, for every slice k. -/
def bip8 (n : Nat) (area : List Nat) : List Nat :=
  (List.range n).map fun k => (area.zipIdx.filter fun x => x.2 % n == k).foldl (fun a x => a ^^^ x.1 % 256) 0

/-- Bits in which two octets differ: the violations of a received BIP-8 (R323). -/
def octetDiff (a b : Nat) : Nat := (List.range 8).countP fun k => a.testBit k != b.testBit k

/-- The parities of the last two frames of a stream; before it has sent or received any, 0. -/
def bipsOf (c i : Fin 16) (tx : Bool) (s : State) : BipPair :=
  (s.bips.find? fun x => x.c == c && x.i == i && x.tx == tx).getD ⟨c, i, tx, [], []⟩

/-- A frame's parities join those of its stream: those of the frame before the last are used by the next frame (R322). -/
def bipPush (c i : Fin 16) (tx : Bool) (p : List Nat) (s : State) : State :=
  let x := bipsOf c i tx s
  { s with bips := (s.bips.filter fun y => !(y.c == c && y.i == i && y.tx == tx)) ++ [{ x with before := x.last, last := p }] }

/-! ## Blocks (R307 to R309) -/

/-- The common block of frame f (R307); `ldm` is the loading message of the multiframe. -/
def commonBlock (f ftype mfn S : Nat) (ldm : List Nat) : List Nat :=
  let b := [f % 256, ftype % 256] ++ beBytes 2 mfn ++ beBytes 2 (S % 1024)
    ++ (if f < 32 then [ldm.getD (2 * f) 0, ldm.getD (2 * f + 1) 0] else [0, 0])
  [0xF6, 0xF6, 0xF6, 0x28, 0x28, 0x28] ++ b ++ beBytes 2 (crc16 b)

/-- The slice block of slice k (R308). -/
def sliceBlock (k tti bip smBei pmBei stat : Nat) (bdi : Bool) (osmc psi omfi : Nat) : List Nat :=
  if k = 0 then
    [tti, bip, smBei * 16 + bdi.toNat * 8, tti, bip, pmBei * 16 + bdi.toNat * 8 + stat % 8, osmc, psi, omfi] ++ List.replicate 7 0
  else [0, bip, smBei * 16, 0, bip, pmBei * 16] ++ List.replicate 10 0

/-! ## Channels of a slot (R341, R342) -/

/-- Bit v of a slot belongs to the segment overhead channel (R341). -/
def isSegBit (v : Nat) : Bool := v % 129 == 128

/-- The place of bit v within its channel of the slot (R341). -/
def channelPlace (v : Nat) : Nat := if isSegBit v then v / 129 else v / 129 * 128 + v % 129

/-- The bit of a tributary's channel that bit v of its slot i carries (R342). -/
def tribPlace (M i v : Nat) : Nat := M * channelPlace v + i

/-- Bit n of an octet that repeats, its most significant bit first. -/
def octetBit (v n : Nat) : Bool := v.testBit (7 - n % 8)

/-- Bit v of a slot that no source feeds: 0x66 in its data channel, zeros in its segment overhead channel (R350). -/
def idleSlotBit (v : Nat) : Bool := !isSegBit v && octetBit 0x66 (channelPlace v)

/-! ## What a transmit slot carries (R350, R354, R366 to R369) -/

/-- The source of a transmit slot. -/
inductive SlotSrc where
  | idle
  | trib (q : Fin 4) (t : Fin 256) (i : Nat)
  | rx (c : Fin 16) (j : Nat)
  /-- An inbound port slot whose data is invalid since an XQSW hinge (R368). -/
  | stale (q : Fin 4) (p : Nat)

/-- The source that an outbound port slot of a quadrant has (R350, R369). -/
def portSrc (q : Fin 4) (p : Nat) (s : State) : SlotSrc :=
  let w := s.word (connEntry q true (2560 + p))
  if !tsiRuns q s || !teTxEn w then .idle
  else if teTxSrc w = 0 then .trib q (teTxT w) (teTxI w)
  else if teTxSrc w = 2 then .rx (Fin.ofNat 16 (4 * q.val + teTxK w)) (teTxI w)
  else .idle

/-- The source of slot j of carrier c (R350, R366 to R369): a disabled inbound slot delivers the pattern of a disabled transmit
half. -/
def lineSrc (c : Fin 16) (j : Nat) (s : State) : SlotSrc :=
  let q := quadOf c
  let w := s.word (connEntry q true (640 * (c.val % 4) + j))
  if !tsiRuns q s || !teTxEn w then .idle
  else
    match teTxSrc w with
    | 0 => .trib q (teTxT w) (teTxI w)
    | 1 =>
      let x := s.word (xqswEntry true (1280 * q.val + teTxPort w))
      if portSlotStale q (teTxPort w) s then .stale q (teTxPort w)
      else if bit x 63 then portSrc (Fin.ofNat 4 (bits x 48 2)) (bits x 32 11) s
      else .idle
    | 2 => .rx (Fin.ofNat 16 (4 * q.val + teTxK w)) (teTxI w)
    | _ => .idle

/-- What is sent in the transmit multiframe in progress of carrier c. -/
def payOf (c : Fin 16) (s : State) : TxPayload := ((s.txPay.find? fun x => x.1 == c).map (·.2)).getD ⟨[], []⟩

/-- Bit v of a slot with a source: a tributary's channels (R341, R342), or the bits of the received slot. -/
def srcBit (p : TxPayload) (v : Nat) (s : State) : SlotSrc → Bool
  | .idle => idleSlotBit v
  | .trib q t i =>
    match p.tribs.find? fun x => x.q == q && x.t == t with
    | some x => (if isSegBit v then x.seg else x.data).getD (tribPlace (tdM (tribDesc q true t s)) i v) false
    | none => false
  | .rx c j => ((p.slots.find? fun x => x.c == c && x.j == j).map fun x => x.bits.getD v false).getD false
  | .stale q p => Config.staleBit (1280 * q.val + p) v

/-- The octet that a forced signal repeats in every slot (R324); none where the signal is normal. -/
def forcedOctet (stat : Nat) : Option Nat :=
  match stat with
  | 5 => some 0x55
  | 6 => some 0x66
  | 7 => some 0xFF
  | _ => none

/-- Bit u of the slot area of a transmit stream of S slots, whose first slot is slot `base` of the carrier (R340, R353): under a
forced signal, the repeating octet in the bits of each slot (R324; log entry 169). -/
def areaBit (c : Fin 16) (S base stat u : Nat) (s : State) : Bool :=
  match forcedOctet stat with
  | some o => octetBit o (u / S)
  | none => srcBit (payOf c s) (u / S) s (lineSrc c (base + u % S) s)

/-- The payload area of frame f as bits: its slot bits, and in frame 255 the stuff as zeros (R305). -/
def payloadBits (c : Fin 16) (S H base stat f : Nat) (s : State) : List Bool :=
  ((List.range (slotBits S H f)).map fun k => areaBit c S base stat (areaStart S H f + k) s)
    ++ List.replicate (frameBits S f - 8 * H - slotBits S H f) false

/-- A frame as it is sent: overhead and payload area, scrambled (R310), its last octet cut to the bits it has. -/
def frameOctets (oh : List Nat) (pay : List Bool) : List Nat :=
  packBits ((unpackBits (scramble (oh ++ packBits pay))).take (8 * oh.length + pay.length))

/-! ## What a received frame carries -/

/-- The payload area of a received frame of a stream of S slots with overhead areas of H bytes, as bits. -/
def rxPayload (S H f : Nat) (octets : List Nat) : List Bool := (unpackBits (octets.drop H)).take (frameBits S f - 8 * H)

end Sys2Proof.Machine
end

