-- ==== Sys2Proof/Machine/Lanes.lean ====
section
/-! DEFINITION. Client lanes: lanes and their restart (R375, R377, R381, R392), slip and PRBS (R383, R385), transmit
equalisation (R378), ports (R386, R387, R390) and their counters (R396). -/
namespace Sys2Proof.Machine

/-- LANE_ON (R375): EN and the page's ENABLE. -/
def laneOn (g : Fin 32) (r : Fin 8) (s : State) : Bool := s.flag (LANEGRP.LANE_CTRL_EN g r) && s.flag (HDR.ENABLE (.lanegrp g))

/-- The quadrant of a lane group. -/
def groupQuad (g : Fin 32) : Fin 4 := Fin.ofNat 4 (g.val / 8)

/-- The transmit PLL of group g runs (R373): one of the 32 lanes of its four groups has EN = 1 and the quadrant is
awake. -/
def pllRuns (g : Fin 32) (s : State) : Bool :=
  qState (groupQuad g) s == 0
    && (List.range 4).any (fun k => (List.finRange 8).any (fun r =>
      s.flag (LANEGRP.LANE_CTRL_EN (Fin.ofNat 32 (4 * (g.val / 4) + k)) r)))

/-! ## Ports -/

/-- States of PORT_STAT (R397). -/
def ptDisabled : Nat := 0
def ptCfgError : Nat := 1
def ptAligning : Nat := 2
def ptUp : Nat := 3

/-- USE codes. -/
def useGmp : Nat := 0
def usePkt : Nat := 1
def useZr : Nat := 2

def portState (g : Fin 32) (n : Fin 8) (s : State) : Nat := s.get (LANEGRP.PORT_STAT_STATE g n)
def portUse (g : Fin 32) (n : Fin 8) (s : State) : Nat := bits (s.get (LANEGRP.hCfg g n)) 3 2
def portRate (g : Fin 32) (n : Fin 8) (s : State) : Nat := bits (s.get (LANEGRP.hCfg g n)) 1 2
def portTs (g : Fin 32) (n : Fin 8) (s : State) : Bool := bit (s.get (LANEGRP.hCfg g n)) 0

/-- The width of a port in lanes (R386). -/
def portWidth (rate : Nat) : Nat := 2 ^ rate

/-- A port that has entered service holds its lanes. -/
def portOn (g : Fin 32) (n : Fin 8) (s : State) : Bool := portState g n s == ptAligning || portState g n s == ptUp

/-- Lane r lies in the span of port n at a rate. -/
def spans (n : Fin 8) (rate : Nat) (r : Fin 8) : Bool := decide (n.val ≤ r.val) && decide (r.val < n.val + portWidth rate)

/-- The port that holds lane r. -/
def portOfLane (g : Fin 32) (r : Fin 8) (s : State) : Option (Fin 8) :=
  (List.finRange 8).find? fun n => portOn g n s && spans n (portRate g n s) r

/-- The lanes of port n. -/
def portLanes (g : Fin 32) (n : Fin 8) (s : State) : List (Fin 8) :=
  (List.finRange 8).filter fun r => spans n (portRate g n s) r

/-- The port changes its state (R390): one that is not UP reports neither high SER nor remote fault, and one that holds no lanes has
none aligned (log entry 175). -/
def portMove (g : Fin 32) (n : Fin 8) (st : Nat) (s : State) : State :=
  if portState g n s = st then s
  else
    let s := (s.put (LANEGRP.PORT_STAT_STATE g n) st).raise (.lanegrp g) 0
    if st = ptUp then s
    else
      let s := (s.putB (LANEGRP.PORT_STAT_HI_SER g n) false).putB (LANEGRP.PORT_STAT_RF_RX g n) false
      if st = ptAligning then s else s.put (LANEGRP.PORT_STAT_LANES_ALIGNED g n) 0

/-- An UP port goes back to ALIGNING (R390). -/
def portLoss (g : Fin 32) (n : Fin 8) (s : State) : State :=
  if portState g n s = ptUp then portMove g n ptAligning s else s

/-- The port that holds lane r goes back to ALIGNING; its other lanes keep their lock (R390, R392). -/
def laneLoss (g : Fin 32) (r : Fin 8) (s : State) : State :=
  match portOfLane g r s with
  | some n => (portLoss g n s).clrBit (LANEGRP.PORT_STAT_LANES_ALIGNED g n) r.val
  | none => s

/-- The configuration written is valid (R386, R387). -/
def portCfgOk (g : Fin 32) (n : Fin 8) (use rate : Nat) (s : State) : Bool :=
  decide (n.val % portWidth rate = 0) && use != 3 && !(use == useZr && rate != 1)
    && (List.finRange 8).all (fun r => !spans n rate r || (portOfLane g r s).isNone)

/-- EN of a port has risen (R387, R390). -/
def portStart (g : Fin 32) (n : Fin 8) (s : State) : State :=
  let use := s.get (LANEGRP.PORT_CFG_USE g n)
  let rate := s.get (LANEGRP.PORT_CFG_RATE g n)
  let ok := portCfgOk g n use rate s
  let s := s.put (LANEGRP.hCfg g n) (8 * use + 2 * rate + s.get (LANEGRP.PORT_CFG_TS_EN g n))
  if ok then portMove g n ptAligning s else (portMove g n ptCfgError s).raise (.lanegrp g) 2

/-- A write of PORT_CFG (R387, R390). -/
def portCfgEff (g : Fin 32) (n : Fin 8) (v : Nat) (s : State) : State :=
  let was := s.flag (LANEGRP.PORT_CFG_EN g n)
  let s := ((s.put (LANEGRP.PORT_CFG_EN g n) (bits v 31 1)).put (LANEGRP.PORT_CFG_USE g n) (bits v 29 2)).put
    (LANEGRP.PORT_CFG_RATE g n) (bits v 27 2)
  let s := s.put (LANEGRP.PORT_CFG_TS_EN g n) (bits v 26 1)
  if !bit v 31 then portMove g n ptDisabled s
  else if !was && s.flag (HDR.ENABLE (.lanegrp g)) then portStart g n s
  else s

def portCfgOff (n : Fin 8) : Nat := 0x400 + 0x40 * n.val

/-- PORT_ENABLE (R387): PORT_CFG written with EN = 1. -/
def execPortEnable (m : Master) (g : Fin 32) (n : Fin 8) (v : Nat) (s : State) : Out :=
  let d := v % 2 ^ 31 + 2 ^ 31
  act s fun s => writeCmd m (.lanegrp g) (portCfgOff n) d (portCfgEff g n d) s

/-- PORT_DISABLE (R390): PORT_CFG written with EN = 0. -/
def execPortDisable (m : Master) (g : Fin 32) (n : Fin 8) (v : Nat) (s : State) : Out :=
  act s fun s => writeCmd m (.lanegrp g) (portCfgOff n) (v % 2 ^ 31) (portCfgEff g n (v % 2 ^ 31)) s

/-- PORT_UP (R390): markers are locked and lanes deskewed, and every lane of the port has CDR_LOCK and EQ_CONV. -/
def execPortUp (g : Fin 32) (n : Fin 8) (s : State) : Out :=
  act s fun s =>
    let l := portLanes g n s
    if portState g n s = ptAligning ∧ l.all (fun r => laneOn g r s && s.flag (LANEGRP.LANE_STAT_CDR_LOCK g r)
        && s.flag (LANEGRP.LANE_STAT_EQ_CONV g r)) then
      (portMove g n ptUp s).put (LANEGRP.PORT_STAT_LANES_ALIGNED g n) (l.foldl (fun a r => a + 2 ^ r.val) 0)
    else s

/-- What an event of the receive domain of lane r does: nothing while its clock is stopped (R30, R32). -/
def laneAct (g : Fin 32) (r : Fin 8) (s : State) (f : State → State) : Out :=
  act s fun s => if s.flag (LANEGRP.LANE_STAT_CLK_PRESENT g r) then f s else s

/-- PORT_ALIGN_LOSS (R390): an UP port loses marker lock or deskew. Which of its lanes stay marker-locked is open (log entry
175). -/
def execPortAlignLoss (g : Fin 32) (n : Fin 8) (s : State) : Out :=
  laneAct g n s fun s =>
    if portState g n s = ptUp then
      let d := s.draw 8
      (portLoss g n d.2).put (LANEGRP.PORT_STAT_LANES_ALIGNED g n) (s.get (LANEGRP.PORT_STAT_LANES_ALIGNED g n) &&& d.1)
    else s

/-- HI_SER (R389): the high-SER rule of IEEE 802.3 begins or ceases to hold on an aligned port. -/
def execHiSer (g : Fin 32) (n : Fin 8) (on : Bool) (s : State) : Out :=
  laneAct g n s fun s =>
    if portOn g n s then
      (s.raiseIf (.lanegrp g) 3 (on && !s.flag (LANEGRP.PORT_STAT_HI_SER g n))).putB (LANEGRP.PORT_STAT_HI_SER g n) on
    else s

/-- REMOTE_FAULT (R391): the port starts or stops receiving remote fault. -/
def execRemoteFault (g : Fin 32) (n : Fin 8) (on : Bool) (s : State) : Out :=
  laneAct g n s fun s => if portState g n s = ptUp then s.putB (LANEGRP.PORT_STAT_RF_RX g n) on else s

/-! ## Lanes -/

/-- The adapted values of lane r hold (R381, R397). -/
def laneFrozen (g : Fin 32) (r : Fin 8) (s : State) : Bool :=
  s.flag (LANEGRP.RX_EQ_EQ_FREEZE g r) || s.flag (HDR.FREEZE (.lanegrp g))

/-- CDR_LOCK of lane r falls (R374, R390). -/
def cdrFall (g : Fin 32) (r : Fin 8) (s : State) : State :=
  if s.flag (LANEGRP.LANE_STAT_CDR_LOCK g r) then
    laneLoss g r ((s.putB (LANEGRP.LANE_STAT_CDR_LOCK g r) false).raiseIf (.lanegrp g) 1 (laneOn g r s))
  else s

/-! ### Receive equalisation (R379 to R381) -/

/-- The adapted values of lane r; those of a lane that has not adapted are 0 (log entry 173). -/
def laneEqOf (g : Fin 32) (r : Fin 8) (s : State) : LaneEq :=
  (s.laneEqs.find? fun x => x.g == g && x.r == r).getD ⟨g, r, 0, 0, List.replicate 8 0, List.replicate 12 0⟩

/-- The adapted values return to their reset values. -/
def laneEqReset (g : Fin 32) (r : Fin 8) (s : State) : State :=
  { s with laneEqs := s.laneEqs.filter fun x => !(x.g == g && x.r == r) }

/-- Sign-sign steps of the adapted values (R379, R380): every one in native mode; in compatibility mode the variable-gain amplifier
alone, with the continuous-time equaliser fixed at PEAK and the other two off. Under a freeze, and without CDR_LOCK, they hold
(R381). `m` is the mode and the peaking as sampled. -/
def laneAdapt (g : Fin 32) (r : Fin 8) (vga ctle : Int) (ffe dfe : List Int) (s : State) : State :=
  if laneOn g r s && s.flag (LANEGRP.LANE_STAT_CDR_LOCK g r) && !laneFrozen g r s then
    let x := laneEqOf g r s
    let m := s.get (LANEGRP.hMode g r)
    let v := clampI 0 180 (x.vga + vga.sign)
    let step (a d : List Int) : List Int := (a.zipIdx).map fun y => y.1 + (d.getD y.2 0).sign
    let y : LaneEq :=
      if bit m 6 then { x with vga := v, ctle := 5 * (bits m 0 6 : Nat), ffe := List.replicate 8 0, dfe := List.replicate 12 0 }
      else { x with vga := v, ctle := clampI 0 120 (x.ctle + ctle.sign), ffe := step x.ffe ffe, dfe := step x.dfe dfe }
    let s := laneEqReset g r s
    { s with laneEqs := s.laneEqs ++ [y] }
  else s

/-- A RESTART of lane r (R381, R392): CDR and adaptation start from their reset values; no other lane changes. -/
def laneRestart (g : Fin 32) (r : Fin 8) (s : State) : State :=
  let s := laneEqReset g r (laneLoss g r (cdrFall g r s))
  (s.putB (LANEGRP.LANE_STAT_EQ_CONV g r) false).put (LANEGRP.hMode g r)
    (64 * s.get (LANEGRP.RX_EQ_MODE g r) + s.get (LANEGRP.RX_EQ_PEAK g r))

/-- Lane r turns OFF (R375, R390). -/
def laneOff (g : Fin 32) (r : Fin 8) (s : State) : State :=
  laneLoss g r ((s.putB (LANEGRP.LANE_STAT_CDR_LOCK g r) false).putB (LANEGRP.LANE_STAT_EQ_CONV g r) false)

/-- A write of LANE_CTRL (R375, R377). -/
def laneCtrlEff (g : Fin 32) (r : Fin 8) (v : Nat) (s : State) : State :=
  let was := laneOn g r s
  let path := 4 * s.get (LANEGRP.LANE_CTRL_RX_INV g r) + 2 * s.get (LANEGRP.LANE_CTRL_TX_INV g r)
    + s.get (LANEGRP.LANE_CTRL_LPBK g r)
  let s := ((s.put (LANEGRP.LANE_CTRL_RX_INV g r) (bits v 3 1)).put (LANEGRP.LANE_CTRL_TX_INV g r) (bits v 2 1)).put
    (LANEGRP.LANE_CTRL_LPBK g r) (bits v 1 1)
  let s := s.put (LANEGRP.LANE_CTRL_EN g r) (bits v 0 1)
  if laneOn g r s then if !was || path != bits v 1 3 then laneRestart g r s else s
  else if was then laneOff g r s
  else s

/-- LANE_CTRL_WRITE (R375, R377). -/
def execLaneCtrlWrite (m : Master) (g : Fin 32) (r : Fin 8) (v : Nat) (s : State) : Out :=
  act s fun s => writeCmd m (.lanegrp g) (0x100 + 0x40 * r.val) v (laneCtrlEff g r v) s

/-- A write of LANE_CMD (R383, R392): a SLIP with RESTART, or on a lane that is OFF or held by a port, is ignored. -/
def laneCmdEff (g : Fin 32) (r : Fin 8) (v : Nat) (s : State) : State :=
  if bit v 0 then laneRestart g r s
  else if bit v 1 && laneOn g r s && (portOfLane g r s).isNone then
    s.put (LANEGRP.LANE_STAT_SLIP_POS g r) ((s.get (LANEGRP.LANE_STAT_SLIP_POS g r) + 1) % 80)
  else s

/-- LANE_RESTART (R392). -/
def execLaneRestart (m : Master) (g : Fin 32) (r : Fin 8) (s : State) : Out :=
  act s fun s => writeCmd m (.lanegrp g) (0x10C + 0x40 * r.val) 1 (laneCmdEff g r 1) s

/-- LANE_SLIP (R383). -/
def execLaneSlip (m : Master) (g : Fin 32) (r : Fin 8) (s : State) : Out :=
  act s fun s => writeCmd m (.lanegrp g) (0x10C + 0x40 * r.val) 2 (laneCmdEff g r 2) s

/-- The value of a TX_EQ write lies in the ranges of R378. -/
def txEqOk (v : Nat) : Bool :=
  let p3 := toInt 6 (bits v 18 6)
  let p2 := toInt 6 (bits v 12 6)
  let p1 := toInt 6 (bits v 6 6)
  let q1 := toInt 6 (bits v 0 6)
  decide (40 ≤ bits v 24 8) && decide (bits v 24 8 ≤ 120) && decide (|p3| ≤ 4) && decide (|p2| ≤ 8) && decide (-20 ≤ p1)
    && decide (p1 ≤ 0) && decide (-12 ≤ q1) && decide (q1 ≤ 0) && decide (|p3| + |p2| + |p1| + |q1| ≤ 32)

/-- A write of TX_EQ (R378): applied, or rejected with TXEQ_REJ. -/
def txEqEff (g : Fin 32) (r : Fin 8) (v : Nat) (s : State) : State :=
  if txEqOk v then
    let s := ((s.put (LANEGRP.TX_EQ_SWING g r) (bits v 24 8)).put (LANEGRP.TX_EQ_PRE3 g r) (bits v 18 6)).put
      (LANEGRP.TX_EQ_PRE2 g r) (bits v 12 6)
    ((s.put (LANEGRP.TX_EQ_PRE1 g r) (bits v 6 6)).put (LANEGRP.TX_EQ_POST1 g r) (bits v 0 6)).putB
      (LANEGRP.LANE_STAT_TXEQ_REJ g r) false
  else (s.putB (LANEGRP.LANE_STAT_TXEQ_REJ g r) true).raise (.lanegrp g) 6

/-- TX_EQ_WRITE (R378). -/
def execTxEqWrite (m : Master) (g : Fin 32) (r : Fin 8) (v : Nat) (s : State) : Out :=
  act s fun s => writeCmd m (.lanegrp g) (0x104 + 0x40 * r.val) v (txEqEff g r v) s

/-- CDR_LOCK_ACQUIRED (R374, R393). -/
def execCdrLockAcquired (g : Fin 32) (r : Fin 8) (s : State) : Out :=
  laneAct g r s fun s => if laneOn g r s then s.putB (LANEGRP.LANE_STAT_CDR_LOCK g r) true else s

/-- CDR_LOCK_LOST (R374): the recovered frequency leaves its range. -/
def execCdrLockLost (g : Fin 32) (r : Fin 8) (s : State) : Out := laneAct g r s (cdrFall g r)

/-- EQ_CONV (R382): the adapted values have settled. A frozen lane in native mode does not converge. -/
def execEqConv (g : Fin 32) (r : Fin 8) (s : State) : Out :=
  laneAct g r s fun s =>
    if laneOn g r s && s.flag (LANEGRP.LANE_STAT_CDR_LOCK g r) && !(laneFrozen g r s && !bit (s.get (LANEGRP.hMode g r)) 6) then
      s.putB (LANEGRP.LANE_STAT_EQ_CONV g r) true
    else s

/-- The main tap of the transmit equaliser, in 1/64: 64 less the magnitudes of the four outer taps (R378). -/
def mainTap (g : Fin 32) (r : Fin 8) (s : State) : Int :=
  64 - (|s.geti (LANEGRP.TX_EQ_PRE3 g r)| + |s.geti (LANEGRP.TX_EQ_PRE2 g r)| + |s.geti (LANEGRP.TX_EQ_PRE1 g r)|
    + |s.geti (LANEGRP.TX_EQ_POST1 g r)|)

/-! ## PRBS -/

/-- The checker's count is cleared (R385). -/
def prbsClear (g : Fin 32) (r : Fin 8) (s : State) : State :=
  ((s.put (LANEGRP.PRBS_ERR_LO g r) 0).put (LANEGRP.PRBS_ERR_HI_COUNT g r) 0).putB (LANEGRP.PRBS_ERR_HI_SATURATED g r) false

/-- LOCKED of the checker changes (R385). -/
def prbsLocked (g : Fin 32) (r : Fin 8) (x : Bool) (s : State) : State :=
  (s.raiseIf (.lanegrp g) 4 (x != s.flag (LANEGRP.PRBS_ERR_HI_LOCKED g r))).putB (LANEGRP.PRBS_ERR_HI_LOCKED g r) x

/-- The checker runs: RX_EN on a lane that is ON and has a clock; a square wave is not checked (R32, R385). -/
def prbsRuns (g : Fin 32) (r : Fin 8) (s : State) : Bool :=
  laneOn g r s && s.flag (LANEGRP.LANE_STAT_CLK_PRESENT g r) && s.flag (LANEGRP.PRBS_CTRL_RX_EN g r) && s.get (LANEGRP.PRBS_CTRL_PATTERN g r) != 3

/-- A write of PRBS_CTRL (R384, R385): the count clears with CLR or when RX_EN rises. -/
def prbsCtrlEff (g : Fin 32) (r : Fin 8) (v : Nat) (s : State) : State :=
  let rise := bit v 30 && !s.flag (LANEGRP.PRBS_CTRL_RX_EN g r)
  let s := ((s.put (LANEGRP.PRBS_CTRL_TX_EN g r) (bits v 31 1)).put (LANEGRP.PRBS_CTRL_RX_EN g r) (bits v 30 1)).put
    (LANEGRP.PRBS_CTRL_PATTERN g r) (bits v 28 2)
  let s := s.put (LANEGRP.PRBS_CTRL_MANUAL g r) (bits v 27 1)
  let s := if bit v 30 && bits v 28 2 != 3 then s else prbsLocked g r false s
  if rise || bit v 26 then prbsClear g r s else s

/-- PRBS_CLR (R385): PRBS_CTRL written with CLR = 1. -/
def execPrbsClr (m : Master) (g : Fin 32) (r : Fin 8) (v : Nat) (s : State) : Out :=
  act s fun s => writeCmd m (.lanegrp g) (0x114 + 0x40 * r.val) (v ||| 2 ^ 26) (prbsCtrlEff g r (v ||| 2 ^ 26)) s

/-- PRBS_LOCK (R385): 1,024 consecutive symbols without error. -/
def execPrbsLock (g : Fin 32) (r : Fin 8) (s : State) : Out :=
  act s fun s => if prbsRuns g r s then prbsLocked g r true s else s

/-- PRBS_UNLOCK (R385): 32 of 1,024 symbols are errored. -/
def execPrbsUnlock (g : Fin 32) (r : Fin 8) (s : State) : Out := laneAct g r s (prbsLocked g r false)

/-- Bits in error, counted while LOCKED (R385); the count sticks. -/
def prbsCount (g : Fin 32) (r : Fin 8) (n : Nat) (s : State) : State :=
  if prbsRuns g r s && s.flag (LANEGRP.PRBS_ERR_HI_LOCKED g r) then
    let v := s.get (LANEGRP.PRBS_ERR_LO g r) + 2 ^ 32 * s.get (LANEGRP.PRBS_ERR_HI_COUNT g r) + n
    let w := min (2 ^ 48 - 1) v
    ((s.put (LANEGRP.PRBS_ERR_LO g r) w).put (LANEGRP.PRBS_ERR_HI_COUNT g r) (w / 2 ^ 32)).putB
      (LANEGRP.PRBS_ERR_HI_SATURATED g r) (s.flag (LANEGRP.PRBS_ERR_HI_SATURATED g r) || decide (2 ^ 48 - 1 ≤ v))
  else s

/-! ## Counters, the page -/

/-- A port's counter counts while it is UP, in the receive domain of its first lane (R32, R396). -/
def portCount (g : Fin 32) (n : Fin 8) (i : Fin 4) (k : Nat) (s : State) : State :=
  if portState g n s = ptUp ∧ s.flag (LANEGRP.LANE_STAT_CLK_PRESENT g n) then s.cntAdd (LANEGRP.hCnt g n i) k else s

/-- The PM second in a LANEGRP page (R396). -/
def laneLatch (g : Fin 32) (s : State) : State :=
  let sat := (List.finRange 8).any (fun n => (List.finRange 4).any (fun i => (s.get (LANEGRP.hCnt g n i)).testBit 48))
  (forFin 8 (fun n s => forFin 4 (fun i s => s.cntLatch (LANEGRP.hCnt g n i) (LANEGRP.CNT_LO g n i)
    (LANEGRP.CNT_HI_SATURATED g n i) (LANEGRP.CNT_HI_COUNT g n i)) s) s).raiseIf (.lanegrp g) 5 sat

/-- GRP_STAT (R397). -/
def grpStat (g : Fin 32) (s : State) : Nat :=
  2 ^ 24 * mask 8 (fun n => portState g (Fin.ofNat 8 n) s == ptUp)
    + 2 ^ 16 * mask 8 (fun r => s.flag (LANEGRP.LANE_STAT_CDR_LOCK g (Fin.ofNat 8 r)))
    + 2 ^ 8 * mask 8 (fun r => laneOn g (Fin.ofNat 8 r) s) + (pllRuns g s).toNat

/-- ENABLE of the page goes to 0, or it is reset: every lane is OFF and every port DISABLED (R397). -/
def laneStop (g : Fin 32) (s : State) : State :=
  forFin 8 (fun r s => laneEqReset g r (prbsLocked g r false (laneOff g r s))) (forFin 8 (fun n s => portMove g n ptDisabled s) s)

/-- ENABLE goes to 1: lanes with EN turn ON, and EN of the ports rises in ascending order (R375, R387). -/
def laneStart (g : Fin 32) (s : State) : State :=
  let s := forFin 8 (fun r s => if laneOn g r s then laneRestart g r s else s) s
  forFin 8 (fun n s => if s.flag (LANEGRP.PORT_CFG_EN g n) then portStart g n s else s) s

end Sys2Proof.Machine
end

