-- ==== Sys2Proof/Machine/Tsi.lean ====
section
/-! DEFINITION. The tributary cross-connect: the check and the effect of a TSI hinge (R352, R356 to R358), the selector
(R362, R363), dMSIM and ODUflex alignment (R360, R361), and the cross-quadrant switch (R366 to R368). -/
namespace Sys2Proof.Machine

/-! ## The check of the standby page (R352) -/

/-- The smallest M of a GMP tributary (R346). -/
def gmpMin (rate : Nat) : Nat :=
  match rate with
  | 0 => 41
  | 1 => 81
  | 2 => 162
  | _ => 323

/-- The GMP port of a descriptor exists and M meets R346 (R388). -/
def gmpPortOk (q : Fin 4) (d : Nat) (s : State) : Bool :=
  let g : Fin 32 := Fin.ofNat 32 (8 * q.val + tdClient d / 8)
  let n : Fin 8 := Fin.ofNat 8 (tdClient d % 8)
  portOn g n s && portUse g n s == useGmp && decide (gmpMin (portRate g n s) ≤ tdM d)

/-- One entry of the standby page: its halves name enabled descriptors, with i < M. TX_SRC 0b11, and 0b01 in a port
entry, are no valid content (log entry 32). -/
def entryOk (desc : Fin 256 → Nat) (e : Nat × Nat) : Bool :=
  let w := e.2
  let names (t : Fin 256) (i : Nat) : Bool := tdEn (desc t) && decide (i < tdM (desc t))
  (!teTxEn w || (match teTxSrc w with
    | 0 => names (teTxT w) (teTxI w)
    | 1 => decide (e.1 < 2560) && decide (teTxPort w < 1280)
    | 2 => true
    | _ => false))
  && (!teRxEn w || names (teRxT w) (teRxI w))

/-- One tributary of the standby page. -/
def tribOk (q : Fin 4) (es : List (Nat × Nat)) (t : Fin 256) (d : Nat) (s : State) : Bool :=
  let tx := (es.filter fun e => teTxEn e.2 && teTxSrc e.2 == 0 && teTxT e.2 == t).map fun e => teTxI e.2
  let rx (x : Fin 2) := (es.filter fun e => teRxEn e.2 && teRxT e.2 == t && teRxSide e.2 == x).map fun e => teRxI e.2
  let once (l : List Nat) : Bool := (List.range (tdM d)).all fun i => l.count i == 1
  let sides : Bool :=
    if tdUpb d then rx 0 == [] && rx 1 == []
    else if tdProt d then once (rx 0) && once (rx 1)
    else (once (rx 0) && rx 1 == []) || (rx 0 == [] && once (rx 1))
  decide (1 ≤ tdM d) && decide (tdM d ≤ 640)
    && (List.range (tdM d)).all (fun i => tx.count i == 1 || tx.count i == 2)
    && sides && (tdImp d || gmpPortOk q d s)

/-- No two enabled descriptors of one KIND name the same CLIENT. -/
def clientsApart : List Nat → Bool
  | [] => true
  | d :: ds => ds.all (fun e => !(tdImp d == tdImp e && tdClient d == tdClient e)) && clientsApart ds

/-- At most 1,280 slots of the quadrant come through the XQSW and at most 1,280 go (R34): line slots that read an inbound port slot and
port entries that deliver one, and port entries that feed an outbound one. -/
def xqswUsers (es : List (Nat × Nat)) : Bool :=
  decide (es.countP (fun e => if e.1 < 2560 then teTxEn e.2 && teTxSrc e.2 == 1 else teRxEn e.2) ≤ 1280)
    && decide (es.countP (fun e => decide (2560 ≤ e.1) && teTxEn e.2) ≤ 1280)

/-- The check of R81 on the TSI standby page (R34, R352). -/
def tsiOk (q : Fin 4) (s : State) : Bool :=
  let es := connLive q false s
  let desc (t : Fin 256) : Nat := tribDesc q false t s
  let ts := tribsOn q false s
  xqswUsers es && es.all (entryOk desc) && ts.all (fun t => tribOk q es t (desc t) s) && clientsApart (ts.map desc)

/-! ## The hinge -/

/-- An entry names a tributary (R356). -/
def entryNames (t : Fin 256) (w : Nat) : Bool := (teTxEn w && teTxSrc w == 0 && teTxT w == t) || (teRxEn w && teRxT w == t)

/-- The value of an entry in a list of entries. -/
def entryIn (es : List (Nat × Nat)) (e : Nat) : Nat := ((es.find? fun x => x.1 == e).map (·.2)).getD 0

/-- A tributary is disturbed by a hinge from one page to another (R356). -/
def disturbed (t : Fin 256) (old new : List (Nat × Nat)) (dOld dNew : Nat) : Bool :=
  setBits dOld 45 1 0 != setBits dNew 45 1 0
    || old.any (fun e => entryNames t e.2 && entryNames t (entryIn new e.1) && e.2 != entryIn new e.1)

/-- A side of a tributary has entries. -/
def sideIn (es : List (Nat × Nat)) (t : Fin 256) (x : Nat) : Bool :=
  es.any fun e => teRxEn e.2 && teRxT e.2 == t && (teRxSide e.2).val == x

/-- What a hinge does to tributary t (R356 to R358). -/
def tribHinge (q : Fin 4) (t : Fin 256) (old new : List (Nat × Nat)) (dOld dNew : Nat) (s : State) : State :=
  let far := disturbed t old new dOld dNew
  let s := forFin 2 (fun x s =>
    if far || !(sideIn old t x.val && sideIn new t x.val) then
      ((s.put (TSI.hOdu q t x) 0).put (TSI.hStat q t x) 0).put (TSI.hMsim q t x) 0
    else s) s
  let sel := s.get (TSI.hSel q t)
  let s := if !sideIn new t sel ∧ sideIn new t (1 - sel) then
      (((s.put (TSI.hSel q t) (1 - sel)).put (TSI.hForce q t) 0).put (TSI.hNext q t) 0).incWrap (TSI.hSwitches q t) 1 else s
  let s := if tdProt dNew then s else (s.put (TSI.hForce q t) 0).put (TSI.hNext q t) 0
  if tdEn dNew then s
  else
    let s := ((s.put (TSI.hSel q t) 0).put (TSI.hSf q t) 0).put (TSI.hRpl q t) 0
    let s := ((s.put (TSI.hSfTicks q t) 0).put (TSI.hFree q t) 0).put (TSI.hSwitches q t) 0
    s.store (tribStatWord q t.val) 0

/-- Inbound port slots that a changed entry selects are selected anew (R368). -/
def selectAnew (q : Fin 4) (old new : List (Nat × Nat)) (s : State) : State :=
  forL new (fun e s =>
    if entryIn old e.1 = e.2 then s
    else
      let s := if e.1 < 2560 ∧ teTxEn e.2 ∧ teTxSrc e.2 = 1 then
          s.clrBit (XQSW.hBad q (Fin.ofNat 20 (teTxPort e.2 / 64))) (teTxPort e.2 % 64) else s
      if 2560 ≤ e.1 ∧ teRxEn e.2 then
        s.clrBit (XQSW.hBad q (Fin.ofNat 20 ((e.1 - 2560) / 64))) ((e.1 - 2560) % 64)
      else s) s

/-- The TSI page's active content is replaced by its standby content (R80, R356 to R358). -/
def tsiSwap (q : Fin 4) (s : State) : State :=
  let old := connLive q true s
  let new := connLive q false s
  let ts := (List.finRange 256).filter fun t => tdEn (tribDesc q true t s) || tdEn (tribDesc q false t s)
  let ds := ts.map fun t => (t, tribDesc q true t s, tribDesc q false t s)
  let s := s.copyRange (connEntry q false 0) (connEntry q true 0) 4096
  let s := forL ds (fun x s => tribHinge q x.1 old new x.2.1 x.2.2 s) (selectAnew q old new s)
  tsiSyncAll (s.put (TSI.hEn q) (tribsOn q true s).length)

/-! ## The selector (R362, R363) -/

/-- The selector of tributary t may move: it has PROT_EN, and FREEZE does not hold it (R369). -/
def selFree (q : Fin 4) (t : Fin 256) (s : State) : Bool :=
  tdEn (tribDesc q true t s) && tdProt (tribDesc q true t s) && !s.flag (HDR.FREEZE (.tsi q)) && tsiRuns q s

/-- The side that is in force or already decided. -/
def selSide (q : Fin 4) (t : Fin 256) (s : State) : Nat :=
  if s.get (TSI.hNext q t) = 0 then s.get (TSI.hSel q t) else s.get (TSI.hNext q t) - 1

/-- Another side is decided: it takes effect at its next ODUflex frame start (R363). -/
def selDecide (q : Fin 4) (t : Fin 256) (side : Nat) (s : State) : State :=
  if selSide q t s = side then s
  else (s.put (TSI.hNext q t) (side + 1)).incWrap (TSI.hSwitches q t) 1

/-- The force command in force acts where the selector may move (rule 1 of R362). -/
def selForce (q : Fin 4) (t : Fin 256) (s : State) : State :=
  let f := s.get (TSI.hForce q t)
  if f ≠ 0 ∧ selFree q t s then selDecide q t (f - 1) s else s

/-- PROT_SWITCH (R362): the side in force has been in SF for HOLDOFF ticks, and the other side is not in SF. -/
def execProtSwitch (q : Fin 4) (t : Fin 256) (s : State) : Out :=
  act s fun s =>
    let x := selSide q t s
    let sf := s.get (TSI.hSf q t)
    if selFree q t s && s.get (TSI.hForce q t) == 0 && sf.testBit x && !sf.testBit (1 - x)
        && decide (s.get (TSI.TSI_CFG_HOLDOFF q) ≤ s.get (TSI.hSfTicks q t)) then
      tribSync q t ((selDecide q t (1 - x) s).raise (.tsi q) 0)
    else s

/-- PROT_REVERT (R362): side A has been free of SF for WTR. -/
def execProtRevert (q : Fin 4) (t : Fin 256) (s : State) : Out :=
  act s fun s =>
    if selFree q t s && s.get (TSI.hForce q t) == 0 && s.flag (TSI.TSI_CFG_REVERT q) && selSide q t s == 1
        && !bit (s.get (TSI.hSf q t)) 0 && decide (wtrTicks q s ≤ s.get (TSI.hFree q t)) then
      tribSync q t (selDecide q t 0 s)
    else s

/-- PROT_SWITCH_APPLY (R363): the next ODUflex frame of the side decided begins. -/
def execProtSwitchApply (q : Fin 4) (t : Fin 256) (s : State) : Out :=
  act s fun s =>
    let n := s.get (TSI.hNext q t)
    if n ≠ 0 ∧ selFree q t s then
      tribSync q t (((s.put (TSI.hSel q t) (n - 1)).put (TSI.hNext q t) 0).put (TSI.hSfTicks q t) 0)
    else s

/-- A write of PROT_CMD (R362, R369): ignored where the tributary has no PROT_EN. -/
def protCmdEff (q : Fin 4) (v : Nat) (s : State) : State :=
  let t : Fin 256 := Fin.ofNat 256 (v % 256)
  let d := tribDesc q true t s
  if tdEn d && tdProt d && bits v 30 2 != 3 then
    tribSync q t (selForce q t (s.put (TSI.hForce q t) (bits v 30 2)))
  else s

/-- FORCE_A (R362). -/
def execForceA (m : Master) (q : Fin 4) (t : Fin 256) (s : State) : Out :=
  let v := 2 ^ 30 + t.val
  act s fun s => writeCmd m (.tsi q) 0x044 v (protCmdEff q v) s

/-- FORCE_B (R362). -/
def execForceB (m : Master) (q : Fin 4) (t : Fin 256) (s : State) : Out :=
  let v := 2 ^ 31 + t.val
  act s fun s => writeCmd m (.tsi q) 0x044 v (protCmdEff q v) s

/-- CLEAR (R362). -/
def execClear (m : Master) (q : Fin 4) (t : Fin 256) (s : State) : Out :=
  act s fun s => writeCmd m (.tsi q) 0x044 t.val (protCmdEff q t.val) s

/-! ## dMSIM, ODUflex -/

/-- In one MSI cycle a line slot of the side is not allocated or carries another TPN (R361). `msi` holds the MSI of the
side's line slots in the order of their entries. -/
def msiDiffers (es : List (Nat × Nat)) (msi : List Nat) : Bool :=
  es.zipIdx.any fun e => !bit (msi.getD e.2 0) 15 || bits (msi.getD e.2 0) 0 8 != teExpTpn e.1.2

/-- MSIM_CHANGE (R361): three consecutive MSI cycles of a side, each as its line slots received it. -/
def execMsimChange (q : Fin 4) (t : Fin 256) (x : Fin 2) (cycles : List (List Nat)) (s : State) : Out :=
  act s fun s =>
    let es := (sideEntries q t x s).filter fun e => decide (e.1 < 2560)
    if cycles.length = 3 ∧ tdEn (tribDesc q true t s) then
      if cycles.all (msiDiffers es) ∧ !s.flag (TSI.hMsim q t x) then
        tribSync q t ((s.putB (TSI.hMsim q t x) true).raise (.tsi q) 2)
      else if cycles.all (fun m => !msiDiffers es m) then tribSync q t (s.putB (TSI.hMsim q t x) false)
      else s
    else s

/-- ODUFLEX_ALIGNED (R357): the demapper of a side regains ODUflex frame alignment. -/
def execOduflexAligned (q : Fin 4) (t : Fin 256) (x : Fin 2) (s : State) : Out :=
  act s fun s =>
    if tdEn (tribDesc q true t s) && sideEntries q t x s != [] then tribSync q t (s.putB (TSI.hOdu q t x) true) else s

/-- A side loses ODUflex alignment (R360). -/
def oduflexLoss (q : Fin 4) (t : Fin 256) (x : Fin 2) (s : State) : State :=
  if tdEn (tribDesc q true t s) then tribSync q t (s.putB (TSI.hOdu q t x) false) else s

/-- ODUFLEX_STAT_CHANGE (R360): the ODUflex PM STAT of a side has read `stat` in three consecutive frames. -/
def execOduflexStatChange (q : Fin 4) (t : Fin 256) (x : Fin 2) (stat : Nat) (s : State) : Out :=
  act s fun s =>
    if tdEn (tribDesc q true t s) then
      tribSync q t (s.put (TSI.hStat q t x) (if stat % 8 = 5 ∨ stat % 8 = 6 ∨ stat % 8 = 7 then stat % 8 else 0))
    else s

/-! ## Ticks, registers, enabling -/

/-- A tick of the selectors' counts (R362). -/
def tsiTick (q : Fin 4) (s : State) : State :=
  if s.get (TSI.hEn q) = 0 then s
  else
    forL (tribsOn q true s) (fun t s =>
      let sf := s.get (TSI.hSf q t)
      let s := s.put (TSI.hSfTicks q t) (if sf.testBit (selSide q t s) then min 15 (s.get (TSI.hSfTicks q t) + 1) else 0)
      s.put (TSI.hFree q t) (if bit sf 0 then 0 else min (2 ^ 23 - 1) (s.get (TSI.hFree q t) + 1))) s

/-- TSI_STAT (R369). -/
def tsiStat (q : Fin 4) (s : State) : Nat :=
  let ts := tribsOn q true s
  2 ^ 16 * ts.countP (fun t => s.flag (TSI.hRpl q t)) + ts.countP (fun t => s.get (TSI.hSf q t) != 0)

/-- FREEZE of the TSI page is released: force commands act (R362, R369). -/
def tsiThaw (q : Fin 4) (s : State) : State :=
  if s.get (TSI.hEn q) = 0 then s else forL (tribsOn q true s) (fun t s => selForce q t s) s

/-! ## The cross-quadrant switch (R366 to R368) -/

def xqEn (w : Nat) : Bool := bit w 63
/-- The outbound slot an entry names, over the four quadrants. -/
def xqSrc (w : Nat) : Nat := 1280 * bits w 48 2 + bits w 32 11

/-- The entries of a view of the XQSW table that are enabled, with their numbers. -/
def xqLive (active : Bool) (s : State) : List (Nat × Nat) :=
  ((s.live (xqswEntry active 0) 5120).map fun e => (e, s.word (xqswEntry active e))).filter fun e => xqEn e.2

/-- The check of R81 on the XQSW table (R367); an outbound slot above 1,279 is no valid content (log entry 32). -/
def xqswOk (s : State) : Bool :=
  let es := xqLive false s
  es.all fun e =>
    bits e.2 48 2 != e.1 / 1280 && decide (bits e.2 32 11 < 1280) && decide ((es.countP fun f => xqSrc f.2 == xqSrc e.2) ≤ 2)

/-- USE of the quadrants follows the active table (R371). -/
def xqswUse (s : State) : State :=
  let es := xqLive true s
  forFin 4 (fun q s =>
    let outs := ((List.range 1280).filter fun p => es.any fun e => xqSrc e.2 == 1280 * q.val + p).length
    (s.put (XQSW.USE_OUT q) outs).put (XQSW.USE_IN q) (es.countP fun e => e.1 / 1280 == q.val)) s

/-- The XQSW page's active content is replaced by its standby content (R80, R368). -/
def xqswSwap (s : State) : State :=
  let idx := s.live (xqswEntry true 0) 5120 ++ s.live (xqswEntry false 0) 5120
  let changed := idx.filter fun e => s.word (xqswEntry true e) != s.word (xqswEntry false e)
  let s := forL changed (fun e s =>
    s.setBit (XQSW.hBad (Fin.ofNat 4 (e / 1280)) (Fin.ofNat 20 (e % 1280 / 64))) (e % 64)) s
  tsiSyncAll (xqswUse (s.copyRange (xqswEntry false 0) (xqswEntry true 0) 5120))

/-- QUEUE_SLIP (R33, R355): a dual-clock queue overflows or underflows; the words lost or repeated are replaced, and its page counts
the slip. -/
def execQueueSlip (x : QueueSlip) (s : State) : Out :=
  act s fun s =>
    let s := s.send (.slipFill x.site x.words)
    match x.site with
    | .tsi q => (s.incStick (TSI.SLIP_CNT q) 1).raise (.tsi q) 3
    | .xqsw => (s.incStick XQSW.SLIP_CNT 1).raise .xqsw 0

end Sys2Proof.Machine
end

