-- ==== Sys2Proof/Machine/Ports.lean ====
section
/-! DEFINITION. What the client lanes transmit (R376, R377, R384) and what ports exchange with the line: the signals of R336, R365,
R388 and R391 toward the client, and what is mapped toward the line. -/
namespace Sys2Proof.Machine

/-- What a port transmits toward its client. -/
inductive PortSig where
  | localFault
  | remoteFault
  | idle
  /-- The frames of its egress FIFOs (R429). -/
  | frames
  /-- The stream demapped from tributary t of quadrant q (R345). -/
  | demapped (q : Fin 4) (t : Fin 256)
  /-- The 400GbE stream of carrier c in OpenZR+ mode (R336). -/
  | fromZr (c : Fin 16)
  deriving DecidableEq, Repr

/-- What a lane transmits. -/
inductive LaneSig where
  | electricalIdle
  /-- A test pattern by its code in PRBS_CTRL (R384). -/
  | pattern (code : Nat)
  | port (n : Fin 8) (x : PortSig)
  deriving DecidableEq, Repr

/-- The first lane of port n of group g, modulo 64. -/
def portLane64 (g : Fin 32) (n : Fin 8) : Nat := 8 * (g.val % 8) + n.val

/-- The enabled GMP tributary of the quadrant that names the port (R351, R388). -/
def gmpTrib (g : Fin 32) (n : Fin 8) (s : State) : Option (Fin 256) :=
  (tribsOn (groupQuad g) true s).find? fun t =>
    let d := tribDesc (groupQuad g) true t s
    !tdImp d && tdClient d == portLane64 g n

/-- The carrier in OpenZR+ mode whose ZR_PORT.LANE names the port (R336, R388). -/
def zrCarrier (g : Fin 32) (n : Fin 8) (s : State) : Option (Fin 16) :=
  (List.finRange 16).find? fun c => quadOf c == groupQuad g && isZr (s.get (RXDSP.hMode c)) && s.get (OTU.ZR_PORT_LANE c) == portLane64 g n

/-- What a port that holds its lanes transmits (R336, R365, R388, R391). A ZR port that no carrier names sends local fault (log entry
174). -/
def portSig (g : Fin 32) (n : Fin 8) (s : State) : PortSig :=
  if portUse g n s = useGmp then
    match gmpTrib g n s with
    | some t => if s.flag (TSI.hRpl (groupQuad g) t) then .localFault else .demapped (groupQuad g) t
    | none => .localFault
  else if portUse g n s = useZr then
    match zrCarrier g n s with
    | some c => if streamRpl c 0 s then .localFault else .fromZr c
    | none => .localFault
  else if portState g n s ≠ ptUp then .remoteFault
  else if s.flag (LANEGRP.PORT_STAT_RF_RX g n) then .idle
  else .frames

/-- What lane r transmits (R375, R376, R384): a generator that is on comes before port data, and a lane of no port sends PRBS31Q. -/
def laneSig (g : Fin 32) (r : Fin 8) (s : State) : LaneSig :=
  if !laneOn g r s then .electricalIdle
  else if s.flag (LANEGRP.PRBS_CTRL_TX_EN g r) then .pattern (s.get (LANEGRP.PRBS_CTRL_PATTERN g r))
  else
    match portOfLane g r s with
    | some n => .port n (portSig g n s)
    | none => .pattern 1

/-- The receiver of lane r takes the lane's own transmit signal, not what arrives at the lands (R377). -/
def laneLooped (g : Fin 32) (r : Fin 8) (s : State) : Bool := s.flag (LANEGRP.LANE_CTRL_LPBK g r)

/-- The receive symbols of lane r are inverted, TX_INV of the lane counting too where it is looped (R377). -/
def laneInverted (g : Fin 32) (r : Fin 8) (s : State) : Bool :=
  s.flag (LANEGRP.LANE_CTRL_RX_INV g r) ^^ (laneLooped g r s && s.flag (LANEGRP.LANE_CTRL_TX_INV g r))

/-- The port whose stream tributary t of quadrant q maps toward the line; none where it maps local fault at the nominal rate (R365,
R391). -/
def gmpClient (q : Fin 4) (t : Fin 256) (s : State) : Option (Fin 32 × Fin 8) :=
  let l := tdClient (tribDesc q true t s)
  let g : Fin 32 := Fin.ofNat 32 (8 * q.val + l / 8)
  let n : Fin 8 := Fin.ofNat 8 (l % 8)
  if portState g n s = ptUp ∧ portUse g n s = useGmp then some (g, n) else none

/-- The port whose stream a carrier in OpenZR+ mode maps: of USE = ZR, first lane ZR_PORT.LANE, and UP; none where it maps local fault
(R336, R388, R391). -/
def zrClient (c : Fin 16) (s : State) : Option (Fin 32 × Fin 8) :=
  let l := s.get (OTU.ZR_PORT_LANE c)
  let g : Fin 32 := Fin.ofNat 32 (8 * (quadOf c).val + l / 8)
  let n : Fin 8 := Fin.ofNat 8 (l % 8)
  if portState g n s = ptUp ∧ portUse g n s = useZr then some (g, n) else none

end Sys2Proof.Machine
end

