-- ==== Sys2Proof/Machine/Otu.lean ====
section
/-! DEFINITION. Line framing: the framer (R314 to R319), received overhead and defects (R320 to R327), the frames sent
(R303, R307, R308, R311, R320, R324, R329), and the PM second of the OTU and FRM pages (R330 to R334). -/
namespace Sys2Proof.Machine

/-- LOS of every receive stream follows SIG_ABSENT (R326). -/
def losChange (c : Fin 16) (s : State) : State := streamsSync c s

/-! ## The common block (R307) -/

def ohByte (oh : List Nat) (k : Nat) : Nat := oh.getD k 0 % 256
def ohFas (oh : List Nat) : Bool := ohByte oh 2 == 0xF6 && ohByte oh 3 == 0x28 && ohByte oh 4 == 0x28
def ohMfas (oh : List Nat) : Nat := ohByte oh 6
def ohFtype (oh : List Nat) : Nat := ohByte oh 7
def ohMfn (oh : List Nat) : Nat := 256 * ohByte oh 8 + ohByte oh 9
def ohSize (oh : List Nat) : Nat := (256 * ohByte oh 10 + ohByte oh 11) % 1024
/-- The common block passes its CRC over bytes 6 to 13 (R273, R307). -/
def ohCrcOk (oh : List Nat) : Bool := crc16 (slice oh 6 8) == 256 * ohByte oh 14 + ohByte oh 15

/-- Byte k of the slice block of slice n (R308). -/
def sliceByte (oh : List Nat) (n k : Nat) : Nat := ohByte oh (16 + 16 * n + k)

/-- FTYPE and SIZE are those expected of receive stream i (R301, R302); a leaf takes its branch index and its size,
39 to 640, from the block. -/
def blockExpected (c i : Fin 16) (oh : List Nat) (s : State) : Bool :=
  if isHub c s then ohFtype oh == 0x80 + i.val && ohSize oh == sizeRx c i s
  else if isLeaf c s then ohFtype oh / 16 == 4 && decide (39 ≤ ohSize oh) && decide (ohSize oh ≤ 640)
  else ohFtype oh == 0 && ohSize oh == sizeRx c i s

/-! ## Framer -/

/-- The open candidates of a stream, in the order of opening. -/
def candidates (c i : Fin 16) (s : State) : List Nat :=
  ((List.finRange 4).take (s.get (OTU.hCandN c i))).map (fun k => s.get (OTU.hCand c i k))

/-- The open candidates replaced. -/
def setCandidates (c i : Fin 16) (l : List Nat) (s : State) : State :=
  forFin 4 (fun k s => s.put (OTU.hCand c i k) (l.getD k.val 0)) (s.put (OTU.hCandN c i) l.length)

/-- Position of a candidate. -/
def candPos (v : Nat) : Nat := bits v 0 40

/-- Frame 0 of the multiframe of a frame f at framed bit `pos`, placed back by R303, begins on the first framed bit of an inner
codeword (R314); framed bits are counted from the first of a codeword. -/
def atCodeword (mode S f pos : Nat) : Bool :=
  let n := framedPer mode
  decide (0 < n) && (pos + n * mfBits S - frameStart S f) % n == 0

/-- The descrambled common block at a bit position opens a candidate (R314). -/
def opensCandidate (c i : Fin 16) (pos : Nat) (oh : List Nat) (s : State) : Bool :=
  ohFas oh && ohCrcOk oh && blockExpected c i oh s && atCodeword (s.get (RXDSP.hMode c)) (ohSize oh) (ohMfas oh) pos

/-- FRAME_CANDIDATE (R314, R315): the framed bit `pos`, from which the 6 octets of the FAS and the 10
after them are received. -/
def execFrameCandidate (c i : Fin 16) (pos : Nat) (fas oh : List Nat) (s : State) : Out :=
  rxAct c s fun s =>
    let oh := scramble (fas ++ oh)
    if otuRuns c s && s.flag (FEC.FEC_STAT_CW_LOCK c) && !rxZr c s && (streamsRx c s).contains i
        && decide (s.get (OTU.hFrmState c i) ≤ 1) && opensCandidate c i pos oh s then
      let l := candidates c i s
      if l.length < 4 then
        let v := ohSize oh * 2 ^ 48 + ohMfas oh * 2 ^ 40 + pos % 2 ^ 40
        streamsSync c ((setCandidates c i (l ++ [v]) s).put (OTU.hFrmState c i) 1)
      else s.cntAdd (OTU.hCnt c i 6) 1
    else s

/-- The three frames after a candidate, as their octets 0 to 6 are received at the positions R303 predicts, confirm it
(R316). -/
def confirms (v : Nat) (fs : List (List Nat)) : Bool :=
  fs.length == 3 && fs.zipIdx.all (fun x => ohFas (scramble x.1) && ohMfas (scramble x.1) == (bits v 40 8 + x.2 + 1) % 256)

/-- FRAME_CONFIRM (R316): on one frame the candidates at the positions of `obs` are decided, each by the frames that
followed it. The first opened that confirms is taken; those that fail are discarded. -/
def execFrameConfirm (c i : Fin 16) (obs : List (Nat × List (List Nat))) (s : State) : Out :=
  rxAct c s fun s =>
    if s.get (OTU.hFrmState c i) = 1 then
      let l := candidates c i s
      let seen (v : Nat) : Option (List (List Nat)) := (obs.find? (fun o => o.1 % 2 ^ 40 == candPos v)).map (·.2)
      match l.find? (fun v => (seen v).any (fun fs => confirms v fs)) with
      | some v =>
        let s := ((setCandidates c i [] s).put (OTU.hFrmState c i) 2).putB (OTU.hOof c i) false
        let s := ((s.put (OTU.hMfas c i) (bits v 40 8 + 4)).put (OTU.hSize c i) (bits v 48 10)).put (OTU.hErr c i) 0
        streamsSync c (((s.put (OTU.hRun c i) 0).putB (OTU.hThree c i) false).putB (OTU.hMet c i) false)
      | none =>
        let rest := l.filter (fun v => (seen v).isNone)
        let s := setCandidates c i rest s
        streamsSync c (if rest = [] then s.put (OTU.hFrmState c i) 0 else s)
    else s

/-- The received MFN of stream i; the MFN register shows that of stream 0 (R337). -/
def setRxMfn (c i : Fin 16) (v : Nat) (s : State) : State :=
  let s := s.put (OTU.hRxMfn c i) v
  if i = 0 then s.put (OTU.MFN_RX c) v else s

/-- The RXDSP page's pending hinge when its received multiframe returns (R77). -/
def rxMfReturn (c : Fin 16) (now : Nat) (s : State) : State := mfReturn (.rxdsp c) now (fun s => refuseRx c 4 s) s

/-- A received multiframe begins (R168, R202): stage 8 counts the one that ends, unless it held an uncorrectable
codeword or OUTER_LOCK is 0 (R232). -/
def rxMultiframe (c i : Fin 16) (s : State) : State :=
  let u := unitOf c i s
  let good := !s.flag u.verifyBad && s.flag (FEC.FEC_STAT_OUTER_LOCK c)
  let s := if s.get u.stage = 8 then s.put u.verify (if good then min 255 (s.get u.verify + 1) else 0) else s
  (s.putB u.verifyBad false).put (TXDSP.hFbAge c) (min 15 (s.get (TXDSP.hFbAge c) + 1))

/-- The framer enters ALIGNED with received MFN v (R318). -/
def framerAlign (c i : Fin 16) (v : Nat) (s : State) : State :=
  let s := ((s.put (OTU.hFrmState c i) 3).putB (OTU.hOof c i) false).putB (OTU.hLof c i) false
  let s := (((s.putB (OTU.hLom c i) false).putB (OTU.hFromAl c i) false).put (OTU.hErr c i) 0).put (OTU.hMis c i) 0
  let s := (timUpdate c i (setRxMfn c i v s)).raise (.otu c) 1
  let s := s.putB (unitOf c i s).verifyBad false
  let s := if s.flag (FEC.FEC_STAT_OUTER_LOCK c) || rxZr c s then s else outerHunt c s
  streamsSync c (if rxMfStream c s = some i then rxMfReturn c v s else s)

/-- FRAMER_ALIGNED (R318): the frames of R318 have arrived; in OpenZR+ mode the frame and multiframe alignment of the
MSA is found, and the MFN starts from 0 (R335). -/
def execFramerAligned (c i : Fin 16) (s : State) : Out :=
  rxAct c s fun s =>
    if !otuRuns c s || !s.flag (FEC.FEC_STAT_CW_LOCK c) then s
    else if rxZr c s then
      if s.get (OTU.hFrmState c i) = 0 ∧ i = 0 then framerAlign c i 0 ((s.put (OTU.hSize c i) 80).put (OTU.hMfas c i) 1) else s
    else if s.get (OTU.hFrmState c i) = 2 ∧ s.flag (OTU.hMet c i) then framerAlign c i (s.get (OTU.hV c i) + 1) s
    else s

/-- FRAMER_LOSS (R319): five consecutive errored frames; in OpenZR+ mode the alignment of the MSA is lost (R335). -/
def execFramerLoss (c i : Fin 16) (s : State) : Out :=
  rxAct c s fun s =>
    if 2 ≤ s.get (OTU.hFrmState c i) ∧ (rxZr c s || s.get (OTU.hErr c i) == 5) then streamsSync c (framerHunt c i s) else s

/-- FRAMER_MFN_MISMATCH (R319): four consecutive CRC-valid frames carry another MFN. -/
def execFramerMfnMismatch (c i : Fin 16) (s : State) : Out :=
  rxAct c s fun s =>
    if streamAligned c i s && s.get (OTU.hMis c i) == 4 then
      let s := (leaveAligned c i s).put (OTU.hFrmState c i) 2
      streamsSync c ((((s.putB (OTU.hFromAl c i) true).put (OTU.hLomMf c i) 0).put (OTU.hRun c i) 0).putB (OTU.hThree c i)
        false |>.putB (OTU.hMet c i) false)
    else s

/-! ## Received frames -/

/-- The slices of a received stream: N on a line, 4 in OpenZR+ mode, 1 on a branch (R308, R335). -/
def slicesRx (c : Fin 16) (s : State) : Nat :=
  if carMode c s ≠ 0 then 1 else if rxZr c s then 4 else bits (s.get (RXDSP.hMode c)) 16 6

/-- A received BEI value: 9 to 15 count 0 (R323). -/
def beiOf (v : Nat) : Nat := if v ≤ 8 then v else 0

/-- A condition of the entry and exit counts of a defect in one frame (R326). -/
def detCount (c i : Fin 16) (k : Fin 4) (x : Bool) (s : State) : State :=
  if x then (s.put (OTU.hDetIn c i k) (min 5 (s.get (OTU.hDetIn c i k) + 1))).put (OTU.hDetOut c i k) 0
  else (s.put (OTU.hDetOut c i k) (min 5 (s.get (OTU.hDetOut c i k) + 1))).put (OTU.hDetIn c i k) 0

/-- What a received frame shows: its unscrambled overhead area, and the BIP-8 violations of its SM and PM bytes by slice. -/
structure FrameView where
  oh : List Nat
  smViol : List Nat
  pmViol : List Nat

/-- A received frame as its stream reads it (R310, R322, R323): the parities are those of the payload area of the frame before the
last. -/
def frameView (c i : Fin 16) (fr : RxFrame) (s : State) : FrameView :=
  match fr with
  | .native octets _ =>
    let l := scramble octets
    let n := slicesRx c s
    let p := (bipsOf c i false s).before
    let viol (b : Nat) : List Nat := (List.range n).map fun k => octetDiff (p.getD k 0) (sliceByte l k b)
    ⟨l.take (overheadBytes (carMode c s != 0) n), viol 1, viol 4⟩
  | .msa oh sm pm => ⟨List.replicate 16 0 ++ oh, sm, pm⟩

/-- The payload area of a native frame f: its parities are kept for the frame after the next (R322), and its slot bits go to the TSI
unless RPL replaces them (R327, R340). -/
def takePayload (c i : Fin 16) (f : Nat) (fr : RxFrame) (s : State) : State :=
  match fr with
  | .native octets _ =>
    let S := s.get (OTU.hSize c i)
    let H := overheadBytes (carMode c s != 0) (slicesRx c s)
    let pay := rxPayload S H f (scramble octets)
    let s := bipPush c i false (bip8 (slicesRx c s) (packBits pay)) s
    if streamRpl c i s then s else s.send (.slotsIn c i (areaStart S H f) S (pay.take (slotBits S H f)))
  | .msa _ _ _ => s

/-- The arrival timestamp that comes with a frame. -/
def frameArr : RxFrame → DevTime
  | .native _ arr => arr
  | .msa _ _ _ => ⟨0, 0, 0⟩

/-- BIP-8, BEI and their return (R323, R329). -/
def bipBei (c i : Fin 16) (fr : FrameView) (s : State) : State :=
  let n := slicesRx c s
  let sum (f : Nat → Nat) : Nat := (List.range n).foldl (fun a k => a + f k) 0
  let s := s.cntAdd (OTU.hCnt c i 0) (sum fun k => min 8 (fr.smViol.getD k 0))
  let s := s.cntAdd (OTU.hCnt c i 1) (sum fun k => beiOf (bits (sliceByte fr.oh k 2) 4 4))
  let s := s.cntAdd (OTU.hCnt c i 2) (sum fun k => min 8 (fr.pmViol.getD k 0))
  let s := s.cntAdd (OTU.hCnt c i 3) (sum fun k => beiOf (bits (sliceByte fr.oh k 5) 4 4))
  forFin 32 (fun k s =>
    if k.val < n then s.put (OTU.hBei c i k) (min 8 (fr.smViol.getD k.val 0) + 16 * min 8 (fr.pmViol.getD k.val 0))
    else s) s

/-- The SM TTI byte of frame f, and the end of a 64-frame cycle (R321). -/
def ttiByte (c i : Fin 16) (f b : Nat) (s : State) : State :=
  let k := f % 64
  let s := if k = 0 then s.putB (OTU.hTtiWhole c i) true else s
  let w : Fin 8 := Fin.ofNat 8 (k / 8)
  let s := s.put (OTU.hTtiCur c i w) (setBits (s.get (OTU.hTtiCur c i w)) (8 * (k % 8)) 8 b)
  if k = 63 ∧ s.flag (OTU.hTtiWhole c i) then
    let same := (List.finRange 8).all (fun w => s.get (OTU.hTtiCur c i w) == s.get (OTU.hTtiLast c i w))
    let n := s.get (OTU.hTtiRun c i)
    forFin 8 (fun w s => s.put (OTU.hTtiLast c i w) (s.get (OTU.hTtiCur c i w)))
      (s.put (OTU.hTtiRun c i) (if same && n != 0 then min 3 (n + 1) else 1))
  else s

/-- The overhead of a frame received in ALIGNED (R323, R326): while dAIS, dLCK or dOCI is 1, only STAT is evaluated,
so that their exits can be met (log entry 30). -/
def alignedOverhead (c i : Fin 16) (f : Nat) (fr : FrameView) (s : State) : State :=
  let stat := bits (sliceByte fr.oh 0 5) 0 3
  let quiet := bits (s.get (OTU.hDet c i)) 0 3 != 0
  let s := detCount c i 0 (stat == 7) (detCount c i 1 (stat == 5) (detCount c i 2 (stat == 6) s))
  if quiet then forFin 32 (fun k s => s.put (OTU.hBei c i k) 0) ((s.putB (OTU.hTtiWhole c i) false).put (OTU.hTtiRun c i) 0)
  else ttiByte c i f (sliceByte fr.oh 0 0) (bipBei c i fr (detCount c i 3 (bit (sliceByte fr.oh 0 2) 3) s))

/-- The MFN of a frame against the counts of R318 and R319. -/
def frameMfn (c i : Fin 16) (f : Nat) (oh : List Nat) (s : State) : State :=
  let v := ohMfn oh
  let ok := ohCrcOk oh
  let s := if ok then s else s.cntAdd (OTU.hCnt c i 4) 1
  if streamAligned c i s then
    s.put (OTU.hMis c i) (if ok && v != s.get (OTU.hRxMfn c i) then min 4 (s.get (OTU.hMis c i) + 1) else 0)
  else
    let s := if f = 0 then s.putB (OTU.hMet c i) (s.flag (OTU.hThree c i) && ok && v == mfNext (s.get (OTU.hV c i))) else s
    let s := if f = 0 then (s.putB (OTU.hThree c i) (s.flag (OTU.hMet c i))).put (OTU.hRun c i) 0 else s
    if s.flag (OTU.hMet c i) then s
    else if ok then
      let n := if s.get (OTU.hRun c i) != 0 && v == s.get (OTU.hV c i) then min 3 (s.get (OTU.hRun c i) + 1) else 1
      let s := if s.flag (OTU.hThree c i) then s else s.put (OTU.hV c i) v
      (s.put (OTU.hRun c i) n).putB (OTU.hThree c i) (s.flag (OTU.hThree c i) || n == 3)
    else s.put (OTU.hRun c i) 0

/-- A timestamp as it is kept: the device time, the multiframe's number and the mark that it is held (R506). -/
def stampOf (t : DevTime) (mfn : Nat) : Nat :=
  ((t.sec * 1000000000 + t.ns) * 65536 + t.frac) % 2 ^ 96 + mfn % 65536 * 2 ^ 96 + 2 ^ 112

/-- What line time transfer takes from frame f of an ALIGNED stream: with frame 0 the arrival timestamp of its
multiframe, and the OSMC byte of frames 0 to 63 (R505, R506). -/
def ltReceive (c i : Fin 16) (f : Nat) (arr : DevTime) (fr : FrameView) (s : State) : State :=
  let n := s.get (OTU.hRxMfn c i)
  let s := if f = 0 then
      ((s.put (OTU.hArr c i (Fin.ofNat 256 n)) (stampOf arr n)).put (OTU.hArrLast c i) (n + 1)).put (OTU.hMfSince c i)
        (min 255 (s.get (OTU.hMfSince c i) + 1))
    else s
  let s := if f = 0 then s.put (OTU.hOsmN c i) 0 else s
  if f < 64 ∧ s.get (OTU.hOsmN c i) = f then
    let w : Fin 8 := Fin.ofNat 8 (f / 8)
    (s.put (OTU.hOsmRx c i w) (setBits (s.get (OTU.hOsmRx c i w)) (8 * (f % 8)) 8 (sliceByte fr.oh 0 6))).put
      (OTU.hOsmN c i) (f + 1)
  else s

/-- FRAME_RECEIVED (R317, R323): the next frame of a stream in FRAMED or ALIGNED. A frame of the other line mode than the sampled
one is none of the stream. -/
def execFrameReceived (c i : Fin 16) (x : RxFrame) (s : State) : Out :=
  rxAct c s fun s =>
    let zr := match x with
      | .native _ _ => false
      | .msa _ _ _ => true
    if 2 ≤ s.get (OTU.hFrmState c i) ∧ zr = rxZr c s then
      let f := s.get (OTU.hMfas c i)
      let fr := frameView c i x s
      let errored := !zr && (!ohFas fr.oh || ohMfas fr.oh != f)
      let s := (s.put (OTU.hMfas c i) (f + 1)).put (OTU.hErr c i) (if errored then min 5 (s.get (OTU.hErr c i) + 1) else 0)
      let s := s.put (OTU.hRxStat c i) (sliceByte fr.oh 0 5)
      let al := streamAligned c i s
      let s := if f = 0 ∧ al then rxMultiframe c i (setRxMfn c i (s.get (OTU.hRxMfn c i) + 1) s) else s
      let s := if f = 0 ∧ !al then s.put (OTU.hLomMf c i) (min 255 (s.get (OTU.hLomMf c i) + 1)) else s
      let s := if zr then s else frameMfn c i f fr.oh s
      let s := streamsSync c (if al then alignedOverhead c i f fr (if zr then s else ltReceive c i f (frameArr x) fr s) else s)
      takePayload c i f x s
    else s

/-- TTI_ACCEPTED (R321): three consecutive cycles have carried the same 64 bytes; dTIM is then judged (R326). -/
def execTtiAccepted (c i : Fin 16) (s : State) : Out :=
  rxAct c s fun s =>
    if streamAligned c i s && s.get (OTU.hTtiRun c i) == 3 then
      let differs := (List.finRange 8).any (fun w => s.word (streamWord c i.val (12 + w.val)) != s.get (OTU.hTtiLast c i w))
      let s := forFin 8 (fun w s => s.store (streamWord c i.val (12 + w.val)) (s.get (OTU.hTtiLast c i w))) s
      streamsSync c (timUpdate c i ((s.putB (OTU.hAcc c i) true).raiseIf (.otu c) 2 differs))
    else s

/-! ## Defects -/

/-- A loss event of the framer of stream i (R206, R326). -/
def framerLossEvent (c i : Fin 16) (cause : Nat) (s : State) : State :=
  if (unitsOf c s).contains i then lossEvent c i cause s else s

/-- LOF (R326): OOF has been 1 for LOF_MS ms. -/
def execLof (c i : Fin 16) (s : State) : Out :=
  rxAct c s fun s =>
    if otuRuns c s && s.flag (OTU.hOof c i) && !s.flag (OTU.hLof c i) && (streamsRx c s).contains i then
      let s := streamsSync c (s.putB (OTU.hLof c i) true)
      if carState c s = stCal then s else framerLossEvent c i lcLof s
    else s

/-- LOM (R326): FRAMED, entered from ALIGNED, has been held for LOM_MF received multiframes. -/
def execLom (c i : Fin 16) (s : State) : Out :=
  rxAct c s fun s =>
    if s.get (OTU.hFrmState c i) == 2 && s.flag (OTU.hFromAl c i) && !s.flag (OTU.hLom c i)
        && decide (max 1 (s.get (FRM.FRM_CFG_LOM_MF (quadOf c))) ≤ s.get (OTU.hLomMf c i)) then
      let s := streamsSync c (s.putB (OTU.hLom c i) true)
      if carState c s = stCal then s else framerLossEvent c i lcLom s
    else s

/-- A detected defect follows its counts: n frames for entry and for exit (R326). -/
def detFollow (c i : Fin 16) (k : Fin 4) (n : Nat) (s : State) : State :=
  if n ≤ s.get (OTU.hDetIn c i k) then s.setBit (OTU.hDet c i) k.val
  else if n ≤ s.get (OTU.hDetOut c i k) then s.clrBit (OTU.hDet c i) k.val
  else s

/-- STAT_DEFECT_CHANGE (R326): dAIS, dLCK and dOCI take what three consecutive frames show. -/
def execStatDefectChange (c i : Fin 16) (s : State) : Out :=
  rxAct c s fun s =>
    if streamAligned c i s then streamsSync c (detFollow c i 0 3 (detFollow c i 1 3 (detFollow c i 2 3 s))) else s

/-- BDI_DEFECT_CHANGE (R326): dBDI takes what five consecutive frames show. -/
def execBdiDefectChange (c i : Fin 16) (s : State) : Out :=
  rxAct c s fun s => if streamAligned c i s then streamsSync c (detFollow c i 3 5 s) else s

/-- A write of OTU_CTRL: its fields, and dTIM and the consequent actions with them (R326, R327). -/
def otuCtrlEff (c : Fin 16) (v : Nat) (s : State) : State :=
  let s := (s.put (OTU.OTU_CTRL_AUTO_BDI c) (bits v 31 1)).put (OTU.OTU_CTRL_TIM_ACT c) (bits v 30 1)
  let s := (s.put (OTU.OTU_CTRL_TIM_MODE c) (bits v 28 2)).put (OTU.OTU_CTRL_FORCE_BDI c) (bits v 27 1)
  let s := s.put (OTU.OTU_CTRL_FORCE_STAT c) (bits v 24 3)
  streamsSync c (forL (streamsRx c s) (fun i s => timUpdate c i s) s)

/-- A host write of a stream's EXP_TTI judges dTIM again (R326, R338). -/
def expTtiWritten (c i : Fin 16) (s : State) : State := streamsSync c (timUpdate c i s)

/-- OTU_STAT (R337): state and report of stream 0, and bit i where stream i has a defect or OOF. -/
def otuStat (c : Fin 16) (s : State) : Nat :=
  s.get (OTU.hFrmState c 0) * 2 ^ 30 + defBits (s.get (OTU.hDef c 0)) * 2 ^ 20
    + mask 16 (fun i => s.get (OTU.hDef c (Fin.ofNat 16 i)) % 2 ^ 9 != 0)

/-! ## Frames sent -/

/-- STAT sent in slice 0 (R324): normal, or the forced one. -/
def statSent (c : Fin 16) (s : State) : Nat :=
  let v := s.get (OTU.OTU_CTRL_FORCE_STAT c)
  if 5 ≤ v then v else 1

/-- FTYPE of transmit stream i (R307). -/
def ftypeTx (c i : Fin 16) (s : State) : Nat := if isHub c s then 0x40 + i.val else if isLeaf c s then 0x80 else 0

/-- The receive stream whose return stream is transmit stream i (R329): none for a hub's BURST branch. -/
def returnOf (c i : Fin 16) (s : State) : Option (Fin 16) :=
  if isHub c s then if brBurst (branchAct c i.val s) then none else some i else some 0

/-- The first of the connection memory's slots that stream i of carrier c takes (R353). -/
def slotBase (c i : Fin 16) (s : State) : Nat :=
  if isHub c s then
    ((List.range i.val).filter fun b => brEn (branchAct c b s)).foldl (fun a b => a + brDsNts (branchAct c b s)) 0
  else 0

/-- The MSI of slot j of a stream (R343): allocated where the TSI sends the slot from a source. -/
def msiOf (c i : Fin 16) (j : Nat) (s : State) : Nat :=
  let w := s.word (connEntry (quadOf c) true (640 * (c.val % 4) + slotBase c i s + j))
  if sizeTx c i s ≤ j then 0
  else if teTxEn w && tsiRuns (quadOf c) s then 2 ^ 15 + teTpn w else teTpn w

/-- Byte f of the payload structure identifier (R343). -/
def psiByte (c i : Fin 16) (f : Nat) (s : State) : Nat :=
  if f = 0 then 0x22
  else if f < 2 ∨ 162 ≤ f then 0
  else
    let v := msiOf c i (80 * (s.get (OTU.MFN_TX c) % 8) + (f - 2) / 2) s
    if f % 2 = 0 then v / 256 else v % 256

/-- The BEI of slice k that the return stream sends: SM and PM (R323, R329). -/
def beiTx (c i : Fin 16) (k : Nat) (s : State) : Nat × Nat :=
  match returnOf c i s with
  | some r => let v := if k < 32 then s.get (OTU.hBei c r (Fin.ofNat 32 k)) else 0
    (v % 16, v / 16)
  | none => (0, 0)

/-- BDI in slice 0 (R327, R329). -/
def bdiTx (c i : Fin 16) (s : State) : Bool :=
  match returnOf c i s with
  | some r => streamBdi c r s
  | none => false

/-- The SM and PM TTI byte of frame f (R320). -/
def ttiTx (c i : Fin 16) (f : Nat) (s : State) : Nat := bits (s.get (OTU.hTtiTx c i (Fin.ofNat 8 (f % 64 / 8)))) (8 * (f % 8)) 8

/-- Slice blocks of a transmit stream (R308). -/
def slicesTx (c : Fin 16) (s : State) : Nat := if carMode c s ≠ 0 then 1 else bits (s.get (TXDSP.hMode c)) 16 6

/-- The loading message of the multiframe on transmit stream i (R307). -/
def ldmOf (c i : Fin 16) (s : State) : List Nat := ((s.ldm.find? fun x => x.1 == c && x.2.1 == i).map (·.2.2)).getD []

/-- The overhead area of frame f of transmit stream i (R304, R307 to R309, R320 to R324, R327, R343); `msg` is the hub message of a
downstream branch frame. -/
def overheadTx (c i : Fin 16) (f : Nat) (msg : List Nat) (s : State) : List Nat :=
  let p := (bipsOf c i true s).before
  let osmc := if f < 64 then bits (s.get (OTU.hOsmTx c i (Fin.ofNat 8 (f / 8)))) (8 * (f % 8)) 8 else 0
  let slice (k : Nat) : List Nat :=
    sliceBlock k (ttiTx c i f s) (p.getD k 0) (beiTx c i k s).1 (beiTx c i k s).2 (statSent c s) (bdiTx c i s) osmc (psiByte c i f s)
      (s.get (OTU.MFN_TX c) % 8)
  commonBlock f (ftypeTx c i s) (s.get (OTU.MFN_TX c)) (sizeTx c i s) (ldmOf c i s)
    ++ (List.range (slicesTx c s)).flatMap slice
    ++ (if carMode c s ≠ 0 then (List.range 64).map fun k => msg.getD k 0 else [])

/-- The BEI that a frame has carried is not sent again (R323). -/
def beiSent (c i : Fin 16) (s : State) : State :=
  match returnOf c i s with
  | some r => forFin 32 (fun k s => s.put (OTU.hBei c r k) 0) s
  | none => s

/-- Frame f of transmit stream i is sent (R303 to R310); in OpenZR+ mode what the engine processes of the MSA's frame (R335). -/
def sendFrame (c i : Fin 16) (f : Nat) (msg : List Nat) (s : State) : State :=
  let s := if f % 64 = 0 then
      forFin 8 (fun w s => s.put (OTU.hTtiTx c i w) (s.word (streamWord c i.val w.val))) s else s
  if !lineSends c s then s
  else if isZr (s.get (TXDSP.hMode c)) then
    beiSent c i (s.send (.zrFrame c f ((List.range 4).map fun k =>
      let b := if k = 0 then (bdiTx c i s).toNat * 8 else 0
      (if k = 0 then ttiTx c i f s else 0, (beiTx c i k s).1 * 16 + b,
        (beiTx c i k s).2 * 16 + b + if k = 0 then statSent c s % 8 else 0)) (zrClient c s)))
  else
    let S := sizeTx c i s
    let oh := overheadTx c i f msg s
    let pay := payloadBits c S oh.length (slotBase c i s) (statSent c s) f s
    beiSent c i (bipPush c i true (bip8 (slicesTx c s) (packBits pay))
      (s.send (.frameOut c i f (8 * oh.length + pay.length) (frameOctets oh pay))))

/-- The transmit MFN of the multiframe that begins (R311): the first after enabling is 0; a leaf carries that of its
received multiframe. -/
def nextTxMfn (c : Fin 16) (s : State) : Nat :=
  if isLeaf c s then s.get (OTU.MFN_RX c)
  else if s.flag (OTU.hTxFirst c) then 0
  else mfNext (s.get (OTU.MFN_TX c))

/-- The transmit multiframe of the carrier is present again, `now` being its number: the hinges that count it are judged
(R77). Quadrant pages count the transmit multiframe of the carrier that MF_SRC names (log entry 90). -/
def txMfReturn (c : Fin 16) (now : Nat) (s : State) : State :=
  let quad (p : Page) (s : State) : State :=
    if s.get (HDR.MF_SRC p) = c.val % 4 then mfReturn p now (fun s => s) s else s
  let s := mfReturn (.hub c) now (fun s => s) (mfReturn (.txdsp c) now (fun s => refuseTx c 4 s) s)
  let s := quad (.tm (quadOf c)) (quad (.tsi (quadOf c)) s)
  if rxMfStream c s = none then rxMfReturn c (rxMfOf c now s) s else s

/-- A transmit multiframe of the carrier begins (R311, R313): its number, what TXDSP does with it, and the departure
timestamp of every stream (R506). -/
def txMultiframe (c : Fin 16) (t : DevTime) (s : State) : State :=
  let n := nextTxMfn c s
  let first := s.flag (OTU.hTxFirst c)
  let s := (s.put (OTU.MFN_TX c) n).putB (OTU.hTxFirst c) false
  let s := txdspMultiframe c n (if first then txMfReturn c n s else s)
  forL (streamsTx c s) (fun i s => s.put (OTU.hDep c i (Fin.ofNat 256 n)) (stampOf t n)) s

/-- The next frame of a carrier that is no hub, if its multiframe has begun and has frames left (R303). -/
def txFrame (c : Fin 16) (s : State) : State :=
  let f := s.get (OTU.hFrame c)
  if otuRuns c s && !isHub c s && decide (f < 256) then
    (forL (streamsTx c s) (fun i s => sendFrame c i f [] s) s).put (OTU.hFrame c) (f + 1)
  else s

/-! ## PM second -/

/-- The PM second in a stream's row (R331, R332, R334, R338). -/
def streamLatch (c i : Fin 16) (s : State) : State :=
  let sat := (List.finRange 7).any (fun k => (s.get (OTU.hCnt c i k)).testBit 48)
  let s := forFin 7 (fun k s =>
    let v := s.get (OTU.hCnt c i k)
    (s.store (streamWord c i.val (22 + k.val)) (v % 2 ^ 48 + bits v 48 1 * 2 ^ 63)).put (OTU.hCnt c i k) 0) s
  let s := s.store (streamWord c i.val 29) (s.get (OTU.hDefSec c i))
  (s.put (OTU.hDefSec c i) (s.get (OTU.hDef c i))).raiseIf (.otu c) 3 sat

/-- CLK_PRESENT of the OTU page read 0 in the interval (R333). -/
def otuClkGap (c : Fin 16) (s : State) : Bool := s.flag (OTU.hClkGap c) || !s.flag (RXDSP.hLineClk c)

/-- The PM second in the OTU page of carrier c (R330, R333); `ticks` is the length of the interval. -/
def otuLatch (c : Fin 16) (sec ticks : Nat) (s : State) : State :=
  let off := !otuRuns c s
  let s := forL (streamsRx c s) (fun i s => streamLatch c i s) s
  let s := ((s.put (OTU.PM_SEC c) sec).put (OTU.PM_TICKS_TICKS c) ticks).putB (OTU.PM_TICKS_PARTIAL c)
    (s.flag (OTU.hPartial c) || off)
  let s := (s.putB (OTU.PM_TICKS_CLK_GAP c) (otuClkGap c s)).putB (OTU.hClkGap c) (!s.flag (RXDSP.hLineClk c))
  (s.putB (OTU.hPartial c) off).raise (.otu c) 4

/-- The PM second in the FRM page of quadrant q (R330, R333). -/
def frmLatch (q : Fin 4) (sec ticks : Nat) (s : State) : State :=
  let off := !pageOn (.frm q) s || s.flag (HDR.RESET_BUSY (.frm q))
  let s := ((s.put (FRM.PM_SEC q) sec).put (FRM.PM_TICKS_TICKS q) ticks).putB (FRM.PM_TICKS_PARTIAL q)
    (s.flag (FRM.hPartial q) || off)
  (s.putB (FRM.hPartial q) off).raise (.frm q) 0

/-! ## Enabling and resetting -/

/-- ENABLE of the OTU page goes to 1, or its soft reset completes while it is 1 (R311, R319): the multiframe number
starts at 0 and the framers hunt. -/
def otuStart (c : Fin 16) (s : State) : State :=
  framersHunt c (((s.putB (OTU.hTxFirst c) true).put (OTU.hFrame c) 256).putB (OTU.hPartial c) true)

/-- ENABLE of the OTU page goes to 0 (R319, R337). -/
def otuStop (c : Fin 16) (s : State) : State := framersHunt c (s.putB (OTU.hPartial c) true)

/-- A soft reset of the OTU page keeps words 0 to 11 of every row and clears words 12 to 31 (R338). -/
def otuClearRows (c : Fin 16) (s : State) : State := forN 16 (fun i s => s.zeroRange (streamWord c i 12) 20) s

/-- Stream i is no longer a receive stream of the carrier (R319, R338): its framer is in HUNT and words 12 to 31 of
its row read 0. -/
def streamGone (c i : Fin 16) (s : State) : State :=
  let s := framerHunt c i s
  let s := (((s.putB (OTU.hOof c i) false).putB (OTU.hLof c i) false).put (OTU.hDef c i) 0).put (OTU.hDefSec c i) 0
  (forFin 7 (fun k s => s.put (OTU.hCnt c i k) 0) s).zeroRange (streamWord c i.val 12) 20

end Sys2Proof.Machine
end

