-- ==== Sys2Proof/Machine/Conv.lean ====
section
/-! DEFINITION. Line converters and optical front end: background correction (R100 to R107), the laser input (R110,
R111), the receiver's detectors (R113, R114), and the transmitter's states and ramps (R116 to R122). -/
namespace Sys2Proof.Machine

/-! ## Background correction -/

/-- Half range of correction k in eighths of its resolution (R100): offset ±16 LSB in 1/64 LSB, gain ±6.0 % in
0.005 %, skew ±127 steps, bandwidth ±8 % in 0.05 %. -/
def corrLimit (k : Nat) : Int :=
  match k with
  | 0 => 8 * 1024
  | 1 => 8 * 1200
  | 2 => 8 * 127
  | _ => 8 * 160

/-- Background correction of the carrier runs (R101). -/
def misRuns (c : Fin 16) (s : State) : Bool :=
  s.flag (CONV.MIS_CTRL_BG_EN c) && !s.flag (HDR.FREEZE (.conv c)) && carState c s != stOff && carState c s != stCal

/-- The accumulation of ADC n is complete (R102): 2^24 samples of a slice, which takes one in 64 of the converter's
13/12 × 16 × R_sc, in ticks of 0.8 ms. -/
def misComplete (c : Fin 16) (n : Fin 4) (s : State) : Bool :=
  decide (2 ^ 24 * 384 ≤ s.get (CONV.hMisAcc c n) * 800000 * 13 * bits (s.get (RXDSP.hMode c)) 0 8)

/-- Correction k of slice i after an update: an eighth of its estimated error further, clamped (R103). The errors
come in the resolution of R100, in the order slice, mismatch; the corrections are kept in eighths of it, so that nothing is
rounded (log entry 134). -/
def corrStep (c : Fin 16) (n : Fin 4) (i : Fin 64) (k : Fin 4) (errs : List Int) (s : State) : Int :=
  clampI (-corrLimit k.val) (corrLimit k.val) (s.geti (CONV.hCorr c n i k) + errs.getD (4 * i.val + k.val) 0)

/-- Every correction of ADC n moves (R103). -/
def misMove (c : Fin 16) (n : Fin 4) (errs : List Int) (s : State) : State :=
  forFin 64 (fun i s => forFin 4 (fun k s => s.puti (CONV.hCorr c n i k) (corrStep c n i k errs s)) s) s

/-- Slices of ADC n with a correction at a range limit (R103). -/
def slicesAtLimit (c : Fin 16) (n : Fin 4) (s : State) : Nat :=
  (List.finRange 64).countP fun i => (List.finRange 4).any fun k => decide (|s.geti (CONV.hCorr c n i k)| = corrLimit k.val)

/-- MIS_UPDATE (R102 to R106): the first tick at which the accumulation of ADC n is complete and INTERVAL has passed.
`errs` are the estimated errors, `low` says that the mean square lies below −30 dBFS, `residual` is the spur the
remaining errors imply, in 0.1 dBc. -/
def execMisUpdate (c : Fin 16) (n : Fin 4) (errs : List Int) (low : Bool) (residual : Int) (s : State) : Out :=
  act s fun s =>
    if misRuns c s && decide (max 1 (s.get (CONV.MIS_CTRL_INTERVAL c)) ≤ s.get (CONV.hMisTicks c n)) && misComplete c n s then
      let skip := low || s.flag (CONV.hMisAbsent c n) || s.flag (CONV.RX_STAT_SIG_ABSENT c)
      let s := (s.putB (CONV.hMisAbsent c n) false).put (CONV.hMisAcc c n) 0
      if skip then s.putB (CONV.MIS_STAT0_SKIPPED c n) true
      else
        let s := misMove c n errs (s.put (CONV.hMisTicks c n) 0)
        let s := (s.putB (CONV.MIS_STAT0_SKIPPED c n) false).incWrap (CONV.MIS_STAT0_UPDATES c n) 1
        let k := slicesAtLimit c n s
        let s := s.raiseIf (.conv c) 5 (k != 0 && s.get (CONV.MIS_STAT0_SLICES_AT_LIMIT c n) == 0)
        let s := (s.put (CONV.MIS_STAT0_SLICES_AT_LIMIT c n) k).putiSat (CONV.MIS_STAT1_RESIDUAL c n) residual
        let s := s.raiseIf (.conv c) 4 (decide (-(10 * s.get (CONV.MIS_CTRL_THR c) : Int) < residual))
        let good := if residual ≤ -400 then min 4 (s.get (CONV.hMisGood c n) + 1) else 0
        let s := s.put (CONV.hMisGood c n) good
        if -370 < residual then s.putB (CONV.MIS_STAT0_CONVERGED c n) false
        else if 4 ≤ good then s.putB (CONV.MIS_STAT0_CONVERGED c n) true
        else s
    else s

/-- Every background correction takes the value of the last successful foreground calibration, or its factory default where
no such value is held (R107, R701). -/
def misRestore (c : Fin 16) (s : State) : State :=
  let held := s.flag (CAL.hVals c)
  forFin 4 (fun n s => forFin 64 (fun i s => forFin 4 (fun k s =>
    s.put (CONV.hCorr c n i k) (if held then s.get (CONV.hForegnd c n i k)
      else ofInt 16 (calDefaults.corrections.getD (256 * n.val + 4 * i.val + k.val) 0))) s) s) s

/-- The accumulation of ADC n at a tick: it goes on while the correction runs, and begins afresh when it runs again
(R102; log entry 136). -/
def misAccumulate (c : Fin 16) (n : Fin 4) (s : State) : State :=
  if misRuns c s then s.incStick (CONV.hMisAcc c n) 1 else (s.put (CONV.hMisAcc c n) 0).putB (CONV.hMisAbsent c n) false

/-- A write of MIS_CTRL: its fields, and RESTORE for the next tick (R107). -/
def misCtrlEff (c : Fin 16) (v : Nat) (s : State) : State :=
  let s := ((s.put (CONV.MIS_CTRL_BG_EN c) (bits v 16 1)).put (CONV.MIS_CTRL_THR c) (bits v 8 8)).put
    (CONV.MIS_CTRL_INTERVAL c) (bits v 0 8)
  if bit v 17 then s.putB (CONV.hRestore c) true else s

/-- MIS_RESTORE (R107): MIS_CTRL written with RESTORE = 1. -/
def execMisRestore (m : Master) (c : Fin 16) (v : Nat) (s : State) : Out :=
  act s fun s => writeCmd m (.conv c) 0x060 (v % 2 ^ 17 + 2 ^ 17) (misCtrlEff c (v % 2 ^ 17 + 2 ^ 17)) s

/-! ## Transmitter -/

/-- Codes of TX_STAT.STATE (R701). -/
def txDark : Nat := 0
def txRampUp : Nat := 1
def txLit : Nat := 2
def txRampDown : Nat := 3
def txBurst : Nat := 4
def txShuttered : Nat := 5

def txState (c : Fin 16) (s : State) : Nat := s.get (CONV.TX_STAT_STATE c)

/-- LIT or BURST_GATED: the power loop acts (R116, R120). -/
def txLoop (st : Nat) : Bool := st == txLit || st == txBurst

/-- The transmitter's state changes; leaving LIT and BURST_GATED clears PWR_DEV and restarts its counts (R120). -/
def setTx (c : Fin 16) (st : Nat) (s : State) : State :=
  let was := txState c s
  let s := (s.put (CONV.TX_STAT_STATE c) st).put (CONV.hRelight c) 0
  if txLoop was && !txLoop st then
    (((s.putB (CONV.TX_STAT_PWR_DEV c) false).put (CONV.hLitTicks c) 0).put (CONV.hDevCnt c) 0).put (CONV.hOkCnt c) 0
  else s

/-- TARGET in 0.000001 dBm. -/
def txTarget (c : Fin 16) (s : State) : Int := s.geti (CONV.TX_TARGET_TARGET c) * 100000

/-- LASER_EN[c] follows EN, held high while a ramp down is to come (R110). -/
def laserFollow (c : Fin 16) (s : State) : State :=
  let st := txState c s
  s.putB (CONV.LASER_STAT_LASER_EN c) (s.flag (CONV.LASER_CTRL_EN c)
    || (s.flag (CONV.LASER_STAT_LASER_EN c) && st != txDark && st != txShuttered))

/-- The durations of the ramp that begins (R119). -/
def rampTimes (c : Fin 16) (s : State) : State :=
  (s.put (CONV.hUpMs c) (s.get (CONV.TX_RAMP_UP_MS c))).put (CONV.hDnMs c) (s.get (CONV.TX_RAMP_DN_MS c))

/-- A ramp up from TARGET − 30 dB (R117, R122). -/
def rampFromDark (c : Fin 16) (s : State) : State :=
  rampTimes c ((setTx c txRampUp s).puti (CONV.hLevel c) (txTarget c s - 30000000))

/-- TX_CMD.ON (R122): ignored while LASER_CTRL.EN or CTRL.ENABLE is 0, and while the carrier is parked (R671; log entry 93). -/
def txOn (c : Fin 16) (s : State) : State :=
  if s.flag (CONV.LASER_CTRL_EN c) && pageOn (.conv c) s && notParking c s then
    let st := txState c s
    let light := s.flag (CONV.LASER_STAT_LIGHT c)
    if st = txDark then if light then rampFromDark c s else setTx c txShuttered s
    else if st = txShuttered then if light then rampFromDark c s else s
    else if st = txRampDown then rampTimes c (setTx c txRampUp s)
    else s
  else s

/-- TX_CMD.OFF, EN written 0 or ENABLE written 0: a lit or rising output ramps down (R122). -/
def txRampOff (c : Fin 16) (s : State) : State :=
  let st := txState c s
  if st = txRampUp ∨ st = txLit ∨ st = txBurst then rampTimes c (setTx c txRampDown s) else s

/-- TX_CMD.OFF (R122): SHUTTERED goes DARK, and LASER_EN[c] falls if EN = 0. -/
def txOff (c : Fin 16) (s : State) : State :=
  if txState c s = txShuttered then laserFollow c (setTx c txDark s) else txRampOff c s

/-- A write of TX_CMD: OFF acts if written with ON (R122). -/
def txCmdEff (c : Fin 16) (v : Nat) (s : State) : State :=
  if bit v 1 then txOff c s else if bit v 0 then txOn c s else s

/-- TX_ON (R122). -/
def execTxOn (m : Master) (c : Fin 16) (s : State) : Out := act s fun s => writeCmd m (.conv c) 0x050 1 (txCmdEff c 1) s

/-- TX_OFF (R122). -/
def execTxOff (m : Master) (c : Fin 16) (s : State) : Out := act s fun s => writeCmd m (.conv c) 0x050 2 (txCmdEff c 2) s

/-- How far the output moves in a tick, up or down, in 0.000001 dB (R117, R119). -/
def rampUpTick (c : Fin 16) (s : State) : Int := 24000000 / (s.get (CONV.hUpMs c) : Int)
def rampDnTick (c : Fin 16) (s : State) : Int := 24000000 / (s.get (CONV.hDnMs c) : Int)

/-- The level that a ramp up, or a slew of a lit output, has after a further tick (R117, R119). -/
def levelUp (c : Fin 16) (s : State) : Int :=
  let lvl := s.geti (CONV.hLevel c)
  let tgt := txTarget c s
  if lvl ≤ tgt then min tgt (lvl + rampUpTick c s) else max tgt (lvl - rampDnTick c s)

/-- The level that a ramp down has after a further tick (R117): it falls to TARGET − 30 dB and never rises. -/
def levelDown (c : Fin 16) (s : State) : Int :=
  let lvl := s.geti (CONV.hLevel c)
  min lvl (max (txTarget c s - 30000000) (lvl - rampDnTick c s))

/-- RAMP_UP_DONE (R122): the target is reached, from no further away than a tick moves the level (log entry 126); a leaf with
BURST upstream is then gated. FREEZE holds a ramp (R117). -/
def execRampUpDone (c : Fin 16) (s : State) : Out :=
  act s fun s =>
    if txState c s = txRampUp ∧ !s.flag (HDR.FREEZE (.conv c)) ∧ levelUp c s = txTarget c s then
      ((setTx c (if isLeaf c s && leafBurst c s then txBurst else txLit) s).puti (CONV.hLevel c) (txTarget c s)).raise
        (.conv c) 6
    else s

/-- RAMP_DOWN_DONE (R122): TARGET − 30 dB is reached; LASER_EN[c] falls if EN = 0 (R110). -/
def execRampDownDone (c : Fin 16) (s : State) : Out :=
  act s fun s =>
    if txState c s = txRampDown ∧ !s.flag (HDR.FREEZE (.conv c)) ∧ levelDown c s ≤ txTarget c s - 30000000 then
      laserFollow c (((setTx c txDark s).puti (CONV.hLevel c) (levelDown c s)).raise (.conv c) 6)
    else s

/-- A write of LASER_CTRL (R110, R122, R130): EN = 0 ramps the output down and aborts a calibration. -/
def laserCtrlEff (c : Fin 16) (v : Nat) (s : State) : State :=
  let s := (s.put (CONV.LASER_CTRL_AUTO_RELIGHT c) (bits v 1 1)).put (CONV.LASER_CTRL_EN c) (bits v 0 1)
  if bit v 0 then laserFollow c s
  else
    let s := if txState c s = txShuttered then setTx c txDark s else txRampOff c s
    calAbort c ccLaserOff (laserFollow c s)

/-- LASER_EN_WRITE (R110): LASER_CTRL written with EN and AUTO_RELIGHT. -/
def execLaserEnWrite (m : Master) (c : Fin 16) (en relight : Bool) (s : State) : Out :=
  let v := en.toNat + 2 * relight.toNat
  act s fun s => writeCmd m (.conv c) 0x040 v (laserCtrlEff c v) s

/-- AUTO_RELIGHT (R122): SHUTTERED with LIGHT 1 on 125 consecutive ticks. -/
def execAutoRelight (c : Fin 16) (s : State) : Out :=
  act s fun s =>
    if txState c s == txShuttered && s.flag (CONV.LASER_CTRL_AUTO_RELIGHT c) && s.flag (CONV.LASER_CTRL_EN c)
        && pageOn (.conv c) s && notParking c s && s.flag (CONV.LASER_STAT_LIGHT c) && decide (125 ≤ s.get (CONV.hRelight c)) then
      rampFromDark c s
    else s

/-- A write of TX_TARGET: the clamped value; a ramp or slew moves towards it (R119). -/
def txTargetEff (c : Fin 16) (v : Nat) (s : State) : State :=
  rampTimesIfLit c (s.put (CONV.TX_TARGET_TARGET c) ((Clamp.i (-100) 10).apply 8 (v % 256)))
where
  /-- A slew of a lit output is a ramp that begins with the durations then set (R119). -/
  rampTimesIfLit (c : Fin 16) (s : State) : State := if txLoop (txState c s) then rampTimes c s else s

/-- TX_TARGET_WRITE (R119). -/
def execTxTargetWrite (m : Master) (c : Fin 16) (v : Nat) (s : State) : Out :=
  act s fun s => writeCmd m (.conv c) 0x048 v (txTargetEff c v) s

/-- PWR_DEV_SET (R120): 125 ticks in LIT or BURST_GATED, the power off by more than 1.0 dB on each of the last
125. -/
def execPwrDevSet (c : Fin 16) (s : State) : Out :=
  act s fun s =>
    if txLoop (txState c s) && decide (125 ≤ s.get (CONV.hLitTicks c)) && decide (125 ≤ s.get (CONV.hDevCnt c))
        && !s.flag (CONV.TX_STAT_PWR_DEV c) then
      (s.putB (CONV.TX_STAT_PWR_DEV c) true).raise (.conv c) 7
    else s

/-- PWR_DEV_CLEAR (R120): 125 consecutive ticks within 0.5 dB. -/
def execPwrDevClear (c : Fin 16) (s : State) : Out :=
  act s fun s => if decide (125 ≤ s.get (CONV.hOkCnt c)) then s.putB (CONV.TX_STAT_PWR_DEV c) false else s

/-- What a tick does to the transmitter of carrier c (R117, R119, R120, R122): the level moves, the counts of
PWR_DEV and of relighting advance. -/
def convTick (c : Fin 16) (s : State) : State :=
  let st := txState c s
  let frozen := s.flag (HDR.FREEZE (.conv c))
  let s :=
    if frozen then s
    else if st = txRampUp || txLoop st then s.puti (CONV.hLevel c) (levelUp c s)
    else if st = txRampDown then s.puti (CONV.hLevel c) (levelDown c s)
    else s
  let s :=
    if txLoop st then
      let off := |s.geti (CONV.TX_STAT_PWR c) - 10 * s.geti (CONV.TX_TARGET_TARGET c)|
      let s := s.incStick (CONV.hLitTicks c) 1
      let s := if 100 < off then s.incStick (CONV.hDevCnt c) 1 else s.put (CONV.hDevCnt c) 0
      if off ≤ 50 then s.incStick (CONV.hOkCnt c) 1 else s.put (CONV.hOkCnt c) 0
    else s
  let s :=
    if st = txShuttered ∧ s.flag (CONV.LASER_STAT_LIGHT c) then s.incStick (CONV.hRelight c) 1
    else s.put (CONV.hRelight c) 0
  let s := if s.flag (CONV.hRestore c) then (misRestore c s).putB (CONV.hRestore c) false else s
  forFin 4 (fun n s => misAccumulate c n (s.incStick (CONV.hMisTicks c n) 1)) s

/-! ## Laser input and receiver -/

/-- IN_RANGE follows LIGHT, MEAS_VALID and PWR (R111); its change is an interrupt cause, its fall a loss event
(R206). -/
def inRangeUpdate (c : Fin 16) (s : State) : State :=
  let p := s.geti (CONV.LASER_STAT_PWR c)
  let now := s.flag (CONV.LASER_STAT_LIGHT c) && s.flag (CONV.LASER_STAT_MEAS_VALID c) && decide (1300 ≤ p)
    && decide (p ≤ 1900)
  if now = s.flag (CONV.LASER_STAT_IN_RANGE c) then s
  else
    let s := (s.putB (CONV.LASER_STAT_IN_RANGE c) now).raise (.conv c) 1
    if now then s else lossAll c lcLaserRange s

/-- A power reading is written (R109): 0 the laser input, 1 the line output, 2 the receiver. -/
def powerWrite (c : Fin 16) (which : Nat) (v : Nat) (s : State) : State :=
  match which with
  | 0 =>
    inRangeUpdate c ((s.put (CONV.LASER_STAT_PWR c) v).putB (CONV.LASER_STAT_MEAS_VALID c)
      (s.flag (CONV.LASER_STAT_LIGHT c) || s.flag (CONV.LASER_STAT_MEAS_VALID c)))
  | 1 => s.put (CONV.TX_STAT_PWR c) v
  | _ => s.put (CONV.RX_STAT_PWR c) v

/-- LASER_LIGHT_CHANGE (R111): the laser input crosses the detector's threshold. A fall shuts a lit or ramping
output and aborts a calibration (R122, R130). LASER_EN[c] of a ramp down begun by EN = 0 falls in SHUTTERED already
(log entry 135). -/
def execLaserLightChange (c : Fin 16) (light : Bool) (s : State) : Out :=
  act s fun s =>
    if light = s.flag (CONV.LASER_STAT_LIGHT c) then s
    else
      let s := s.putB (CONV.LASER_STAT_LIGHT c) light
      if light then inRangeUpdate c (s.putB (CONV.LASER_STAT_MEAS_VALID c) false)
      else
        let s := s.raise (.conv c) 0
        let st := txState c s
        let s := if st = txDark ∨ st = txShuttered then s else laserFollow c (setTx c txShuttered s)
        calAbort c ccLightLost (inRangeUpdate c s)

/-- RX_OVERLOAD_CHANGE (R113): RX_STAT.PWR is above +4.00 dBm, or below +3.00 dBm. -/
def execRxOverloadChange (c : Fin 16) (s : State) : Out :=
  act s fun s =>
    let p := s.geti (CONV.RX_STAT_PWR c)
    if 400 < p ∧ !s.flag (CONV.RX_STAT_OVERLOAD c) then (s.putB (CONV.RX_STAT_OVERLOAD c) true).raise (.conv c) 3
    else if p < 300 then s.putB (CONV.RX_STAT_OVERLOAD c) false
    else s

/-- SIG_ABSENT_SET (R114): the received power has stayed below THR. It is a loss event (R206), and LOS follows it
(R326). -/
def execSigAbsentSet (c : Fin 16) (s : State) : Out :=
  act s fun s =>
    if s.flag (CONV.RX_STAT_SIG_ABSENT c) then s
    else
      let s := (s.putB (CONV.RX_STAT_SIG_ABSENT c) true).raise (.conv c) 2
      losChange c (lossAll c lcSigAbsent s)

/-- SIG_ABSENT_CLEAR (R114): the received power has stayed at or above THR + HYST. The accumulations in progress of the
background correction have met SIG_ABSENT = 1 (R104). -/
def execSigAbsentClear (c : Fin 16) (s : State) : Out :=
  act s fun s =>
    if s.flag (CONV.RX_STAT_SIG_ABSENT c) then
      let s := forFin 4 (fun n s => s.putB (CONV.hMisAbsent c n) true) s
      losChange c ((s.putB (CONV.RX_STAT_SIG_ABSENT c) false).raise (.conv c) 2)
    else s

/-- A HUB-page hinge moves a lit transmitter between LIT and BURST_GATED (R122). -/
def txHinge (c : Fin 16) (s : State) : State :=
  let burst := isLeaf c s && leafBurst c s
  let st := txState c s
  if st = txLit ∧ burst then s.put (CONV.TX_STAT_STATE c) txBurst
  else if st = txBurst ∧ !burst then s.put (CONV.TX_STAT_STATE c) txLit
  else s

/-- A soft reset of the CONV page darkens the output without a ramp (R122, R701). -/
def convReset (c : Fin 16) (s : State) : State := misRestore c (setTx c txDark s)

end Sys2Proof.Machine
end

