-- ==== Sys2Proof/Machine/Windows.lean ====
section
/-! DEFINITION. Writes to the table windows: width and alignment (R88), the checks of the arbiter (R56, R47), active
views and copy-forward (R71, R83), the merge of a 32-bit write (R541) and the armed check bits (R533). -/
namespace Sys2Proof.Machine

/-- A page whose windows no longer answer: its quadrant or the device is on its way to sleep, asleep or waking
(R674). -/
def windowsClosed (p : Page) (s : State) : Bool :=
  match Page.quadrant p with
  | some q => qState q s != 0
  | none => s.get PWR.PWR_STAT_DEV_STATE == 2

/-- The page whose ECC_TEST covers a memory word (R532, R533). -/
def eccArm : Loc → Fld
  | .quad q _ _ => MEM.ECC_TEST_ARM q
  | .hub _ _ => HUBCTL.ECC_TEST_ARM
def eccRaw : Loc → Fld
  | .quad q _ _ => MEM.ECC_TEST_RAW q
  | .hub _ _ => HUBCTL.ECC_TEST_RAW
def eccChk : Loc → Fld
  | .quad q _ _ => MEM.ECC_TEST_CHK q
  | .hub _ _ => HUBCTL.ECC_TEST_CHK

/-- A word is stored for a master: a full write by the owner of the memory page's hasp under ARM takes CHK as its
check bits, and ARM clears (R533). -/
def storeFor (m : Master) (full : Bool) (l : Loc) (d : Nat) (s : State) : State :=
  if full && s.flag (eccArm l) && s.holds m (.page l.page) then
    (s.storeRaw l (d % 2 ^ 64) (s.get (eccChk l))).putB (eccArm l) false
  else s.store l d

/-- The word a write of `size` bytes at a window address leaves to be stored, and the state after the read that a
32-bit write needs (R88, R541); none where that read is uncorrectable. -/
def mergeWord (l : Loc) (addr size data : Nat) (s : State) : Option Nat × State :=
  if size = 8 then (some (data % 2 ^ 64), s)
  else
    match s.readWord l false with
    | (.ue, _, s') => (none, s')
    | (_, d, s') => (some (setBits d (8 * (addr % 8)) 32 data), s')

/-- A window write that the checks have let through: the word is merged and handed to its table. -/
def winApply (m : Master) (h : Hit) (addr size data : Nat) (eff : Nat → State → State) (s : State) : State :=
  match mergeWord h.loc addr size data s with
  | (some d, s') => eff d s'
  | (none, s') => logWin h.page causeUncorrRead (masterId m) 0 addr s'

/-- A write of a master to a table window (R47, R56, R71, R83, R88): `eff` is what its table does with the word. -/
def winCmd (m : Master) (h : Hit) (hinged : Bool) (addr size data : Nat) (eff : Nat → State → State) (s : State) : State :=
  if !mayIssue m s then s
  else if stalledBy m s then stall h.page ⟨m, .bar0, addr, size, false, data⟩ false s
  else if !((size == 8 && addr % 8 == 0) || (size == 4 && addr % 4 == 0)) then
    logWin h.page causeNarrow (masterId m) 0 addr s
  else if s.heldByOther m (.page h.page) then
    logWin h.page causeHaspDrop (masterId m) (s.get (HDR.HASP_OWNER h.page)) addr s
  else if windowsClosed h.page s || s.flag (HDR.RESET_BUSY h.page) then
    logWin h.page causeResetBusy (masterId m) 0 addr s
  else if h.active then logWin h.page causeActiveWrite (masterId m) 0 addr s
  else if hinged && s.flag (HDR.COPYING h.page) then
    stall h.page ⟨m, .bar0, addr, size, false, data⟩ true s
  else winApply m h addr size data eff s

/-- The bus address of word w of the region of carrier c's tables, at offset `off` (R85). -/
def carrierAddr (c : Fin 16) (off : Nat) : Nat :=
  0x0340_0000 + (c.val / 4) * 0x30_0000 + 0x10_0000 + (c.val % 4) * 0x8_0000 + off

end Sys2Proof.Machine
end

