-- ==== Sys2Proof/Machine/Hub.lean ====
section
/-! DEFINITION. The hub: the checks of its hinge (R246, R250, R252, R261, R306), grant cycles and the scheduler (R255,
R260 to R263), hub messages (R264 to R268), leaf contexts (R276, R282 to R284), and burst reception (R279 to R281, R285
to R292). -/
namespace Sys2Proof.Machine

/-! ## Units -/

/-- Symbols of the branch in n units of 10 ns, rounded to the nearest whole symbol (R256): 1.25 × SC_RATE symbols each.
A half is rounded as the implementation does (log entry 22). -/
def symbolsOf (m n : Nat) : Nat :=
  let x := 5 * m * n
  x / 4 + (if x % 4 = 3 then 1 else if x % 4 = 2 then Config.halfRound x % 2 else 0)

/-- SC_RATE of the carrier, in 0.125 GBd. -/
def scRate (c : Fin 16) (s : State) : Nat := bits (s.get (TXDSP.hMode c)) 0 8

/-- Symbols in a grant cycle (R255). -/
def symCycle (c : Fin 16) (s : State) : Nat := 15625 * scRate c s

/-- Ten microseconds in symbols (R258). -/
def symTenUs (c : Fin 16) (s : State) : Nat := symbolsOf (scRate c s) 1000

/-- EQ_RTD in force, in symbols. -/
def eqRtd (c : Fin 16) (s : State) : Nat := symbolsOf (scRate c s) (s.get (HUB.EQ_RTD c).active)

/-- EQD for discovery bursts (R265). -/
def discEqd (c : Fin 16) (s : State) : Int := eqRtd c s - (symbolsOf (scRate c s) (s.get (HUB.DISC_RTT_MAX c)) : Nat)

/-! ## Grant map entries (R259, R260) -/

def geEn (e : Nat) : Bool := bit e 63
def geKind (e : Nat) : Nat := bits e 60 3
def geSlot (e : Nat) : Fin 16 := Fin.ofNat 16 (bits e 56 4)
def geStart (e : Nat) : Nat := bits e 32 22
def geRounds (e : Nat) : Nat := bits e 16 13
/-- The burst has the long preamble. -/
def geLong (e : Nat) : Bool := bit e 55 || geKind e == 2 || geKind e == 3

/-- Symbols of the preamble (R260). -/
def gePre (e : Nat) : Nat := if geLong e then 4096 else 256

/-- Symbols an entry occupies on a branch with a guard of `g` blocks (R260). -/
def geLen (g e : Nat) : Nat :=
  if geKind e = 2 then 400 * geRounds e else 64 * g + gePre e + 64 + 32 + 400 * geRounds e + 16

/-- The length of a discovery burst (R267). -/
def lenDisc (g : Nat) : Nat := 64 * g + 4096 + 64 + 32 + 16

/-- DISC_RLIM of a DISCOVER entry (R267), before it is held to a whole number of blocks. -/
def discRoom (c : Fin 16) (g e : Nat) (s : State) : Int :=
  let m := scRate c s
  (400 * geRounds e : Nat) - (lenDisc g : Nat)
    - ((symbolsOf m (s.get (HUB.DISC_RTT_MAX c)) : Nat) - (symbolsOf m (s.get (HUB.DISC_RTT_MIN c)) : Nat) : Int)

def discRlim (c : Fin 16) (g e : Nat) (s : State) : Nat := (discRoom c g e s / 64).toNat

/-- The loading sum of a branch, upstream (R274). -/
def branchE (c b : Fin 16) (s : State) : Nat :=
  let w := branchAct c b.val s
  sumLoad (tableRows (rxLoadRow c true) s) (brLo w) (brHi w)

/-! ## The checks of the HUB page's hinge -/

/-- No two of the enabled entries overlap, and each ends at or before the end of the cycle (R261). -/
def entriesApart (g cyc : Nat) : List Nat → Bool
  | [] => true
  | e :: es =>
    decide (geStart e + geLen g e ≤ cyc)
      && es.all (fun f => decide (geStart e + geLen g e ≤ geStart f) || decide (geStart f + geLen g f ≤ geStart e))
      && entriesApart g cyc es

/-- The check of R261 on the entries of one BURST branch. -/
def grantMapOk (c b : Fin 16) (row : Nat) (es : List Nat) (s : State) : Bool :=
  let g := brGuard row
  let en := es.filter geEn
  entriesApart g (symCycle c s) en
    && en.all fun e =>
      match geKind e with
      | 0 => ctxEn c (ctxRow b (geSlot e)) s && decide (125 * scRate c s ≤ 400 * geRounds e)
      | 1 | 3 => decide (125 * scRate c s ≤ 400 * geRounds e)
      | 2 => decide (0 ≤ discRoom c g e s)
      | _ => false

/-- Standby entries of a branch's grant map. -/
def standbyGrants (c b : Fin 16) (s : State) : List Nat :=
  (List.range 64).map (fun i => s.word (grantRow c false (64 * b.val + i)))

/-- Two enabled branches share no subcarrier (R250). -/
def branchesApart : List Nat → Bool
  | [] => true
  | w :: ws =>
    (!brEn w || ws.all (fun v => !brEn v || decide (brHi w < brLo v) || decide (brHi v < brLo w))) && branchesApart ws

/-- The check of R250, R261, R306 and R353 on standby content that gives HUB mode. -/
def hubContentOk (c : Fin 16) (s : State) : Bool :=
  let brs := tableRows (branchRow c false) s
  let tx := tableRows (txLoadRow c true) s
  let rx := tableRows (rxLoadRow c true) s
  let m := s.get (TXDSP.hMode c)
  brs.any brEn
    && brs.all (fun w => !brEn w || (decide (brLo w ≤ brHi w) && leafRangeOn tx (brLo w) (brHi w)
      && leafRangeOn rx (brLo w) (brHi w) && decide (39 ≤ brDsNts w) && (brBurst w || decide (39 ≤ brUsNts w))))
    && branchesApart brs && branchesMeetDown m tx brs && branchesMeetUp m rx brs
    && decide ((brs.filter brEn).foldl (fun a w => a + brDsNts w) 0 ≤ 640)
    && decide ((brs.filter (fun w => brEn w && !brBurst w)).foldl (fun a w => a + brUsNts w) 0 ≤ 640)
    && (List.finRange 16).all fun b =>
      let w := brs.getD b.val 0
      !(brEn w && brBurst w) || (decide (1 ≤ brGuard w) && grantMapOk c b w (standbyGrants c b s) s)

/-- The check of R252 and R306 on standby content that gives LEAF mode. -/
def leafContentOk (c : Fin 16) (s : State) : Bool :=
  let lo := s.get (HUB.LEAF_CFG_SC_LO c)
  let hi := s.get (HUB.LEAF_CFG_SC_HI c)
  decide (lo ≤ hi) && leafRangeOn (tableRows (txLoadRow c true) s) lo hi && leafRangeOn (tableRows (rxLoadRow c true) s) lo hi
    && (s.flag (HUB.LEAF_CFG_UP_BURST c) || decide (39 ≤ s.get (HUB.LEAF_NTS c)))

/-- The check of R81 on a HUB-page hinge (R246, R250, R252, R261, R306); CAR_MODE 0b11 is reserved. -/
def hubHingeOk (c : Fin 16) (s : State) : Bool :=
  match s.get (HUB.CAR_MODE c) with
  | 0 => true
  | 1 => !isZr (s.get (TXDSP.hMode c)) && !rxZr c s && s.get (TXDSP.hMode c) == s.get (RXDSP.hMode c) && hubContentOk c s
  | 2 => !isZr (s.get (TXDSP.hMode c)) && !rxZr c s && s.get (TXDSP.hMode c) == s.get (RXDSP.hMode c) && leafContentOk c s
  | _ => false

/-! ## The grant scheduler (R262, R263) -/

/-- A list put in ascending order of a key, equal keys in their old order. -/
def insertBy {α : Type} (key : α → Nat) (x : α) : List α → List α
  | [] => [x]
  | y :: ys => if key y < key x then y :: insertBy key x ys else x :: y :: ys

def sortBy {α : Type} (key : α → Nat) (l : List α) : List α := l.foldr (insertBy key) []

/-- The enabled entries of a branch's active grant map, with their index, in ascending START. -/
def activeGrants (c b : Fin 16) (s : State) : List (Fin 64 × Nat) :=
  sortBy (fun x => geStart x.2) (((List.finRange 64).map (fun i => (i, s.word (grantRow c true (64 * b.val + i.val))))).filter
    (fun x => geEn x.2))

/-- Slots of a branch whose configured context meets a condition, in ascending order. -/
def slotsWhere (c b : Fin 16) (p : Fin 256 → Bool) (s : State) : List (Fin 16) :=
  (List.finRange 16).filter fun k => ctxEn c (ctxRow b k) s && p (ctxRow b k)

/-- A leaf that takes DATA grants: ACTIVE and not STALE. -/
def takesData (c : Fin 16) (s : State) (r : Fin 256) : Bool := ctxState c r s == cxActive && !ctxStale c r s

/-- A leaf that takes RANGE grants: RANGING or STALE. -/
def takesRange (c : Fin 16) (s : State) (r : Fin 256) : Bool := ctxState c r s == cxRanging || ctxStale c r s

/-- Framed bits assigned to a slot among the grants so far. -/
def assignedBits (mode e : Nat) (k : Fin 16) (gs : List ((Fin 64 × Nat) × Fin 16)) : Nat :=
  (gs.filter (fun g => g.2 == k)).foldl (fun a g => a + burstBits mode e (geRounds g.1.2)) 0

/-- One SHARED entry goes to the leaf with the largest positive D, ties to the lower slot. -/
def shareOne (c b : Fin 16) (x : Fin 64 × Nat) (gs : List ((Fin 64 × Nat) × Fin 16)) (s : State) :
    List ((Fin 64 × Nat) × Fin 16) :=
  let mode := s.get (RXDSP.hMode c)
  let d (k : Fin 16) : Int :=
    (1024 * bits (ctxW c (ctxRow b k) 1 s) 32 16 : Nat) - (assignedBits mode (branchE c b s) k gs / 8 : Nat)
  let best := (slotsWhere c b (takesData c s) s).foldl (fun (a : Option (Fin 16)) k =>
    if d k ≤ 0 then a
    else match a with
      | none => some k
      | some j => if d j < d k then some k else some j) none
  match best with
  | some k => gs ++ [(x, k)]
  | none => gs

/-- The grants of one BURST branch for the next cycle (R263), in the order of its four steps. -/
def assignBranch (c b : Fin 16) (s : State) : List ((Fin 64 × Nat) × Fin 16) :=
  let es := activeGrants c b s
  let kind (n : Nat) := es.filter (fun x => geKind x.2 == n)
  let fixed := (kind 0).filterMap fun x =>
    if ctxEn c (ctxRow b (geSlot x.2)) s && takesData c s (ctxRow b (geSlot x.2)) then some (x, geSlot x.2) else none
  let range := (kind 3).zip (slotsWhere c b (takesRange c s) s)
  let disc := (kind 2).map (fun x => (x, (0 : Fin 16)))
  let given := (kind 1).foldl (fun gs x => shareOne c b x gs s) (fixed ++ range)
  given ++ disc

/-- The grants of a carrier for cycle g. -/
def assignCycle (c : Fin 16) (g : Nat) (s : State) : List Grant :=
  ((List.finRange 16).filter (fun b => brEn (branchAct c b.val s) && brBurst (branchAct c b.val s))).flatMap fun b =>
    (assignBranch c b s).map fun x =>
      { c := c, b := b, gcn := g % 65536, index := x.1.1, kind := geKind x.1.2, slot := x.2,
        leafId := if geKind x.1.2 = 2 then 0xFFF else ctxLeafId c (ctxRow b x.2) s, entry := x.1.2, ignored := false,
        excused := false }

/-- GRANT_CYCLE_START (R255, R262, R263): a grant cycle begins, and the grants of the next are fixed. A carrier that is
CALIBRATING fixes none (R299). Cycle 0 waits for a multiframe to begin in HUB mode. Grants of cycles more than 64 back, whose bursts are long past (R258), are forgotten. -/
def execGrantCycleStart (c : Fin 16) (s : State) : Out :=
  act s fun s =>
    if isHub c s && !(s.flag (HUB.hCycFirst c) && s.get (HUB.hMf c) == 2 ^ 64 - 1) then
      let n := if s.flag (HUB.hCycFirst c) then 0 else s.get (HUB.hCyc c) + 1
      let s := ((s.putB (HUB.hCycFirst c) false).put (HUB.hCyc c) n).put (HUB.HUB_STAT_GCN c) n
      let s := forFin 16 (fun b s => s.put (HUB.hRot c b) 0) s
      let s := { s with grants := s.grants.filter fun x => x.c != c || decide (mfLead (n + 1) x.gcn ≤ 64) }
      if carState c s = stCal then s else { s with grants := s.grants ++ assignCycle c (n + 1) s }
    else s

/-! ## Hub messages (R264 to R268) -/

/-- A grant entry of a message (R266). -/
def grantBytes (g : Grant) : List Nat :=
  let sent := match g.kind with
    | 2 => 1
    | 3 => 2
    | _ => 0
  beBytes 2 (g.leafId * 16 + sent * 4 + (geLong g.entry).toNat * 2) ++ beBytes 3 (geStart g.entry)
    ++ beBytes 2 (geRounds g.entry) ++ [g.index.val]

/-- CYC_OFS of a cycle (R265): symbols from the first symbol of the multiframe in progress to the first of the cycle. -/
def cycOfs (c : Fin 16) (cyc : Nat) (s : State) : Nat :=
  ofInt 32 ((15625 * scRate c s * cyc : Nat) - (37200 * scRate c s * s.get (HUB.hMf c) : Nat))

/-- The grants of branch b for the cycle that follows, by entry index. -/
def announced (c b : Fin 16) (s : State) : List Grant :=
  let g := (s.get (HUB.hCyc c) + 1) % 65536
  sortBy (fun x => x.index.val) (s.grants.filter (fun x => x.c == c && x.b == b && x.gcn == g))

/-- The smaller DISC_RLIM of the DISCOVER grants of a message (R267); 0 without one. -/
def rlimOf (c b : Fin 16) (gs : List Grant) (s : State) : Nat :=
  let l := (gs.filter (fun g => g.kind == 2)).map (fun g => discRlim c (brGuard (branchAct c b.val s)) g.entry s)
  match l with
  | [] => 0
  | x :: xs => xs.foldl min x

/-- A message of 60 bytes with its CRC (R265, R268). -/
def withCrc (l : List Nat) : List Nat := l ++ beBytes 4 (crc32c l)

/-- The GRANTS message of a branch frame (R264, R265), its entries in rotation, which then moves on. -/
def grantsMsg (c b : Fin 16) (s : State) : List Nat × State :=
  let gs := announced c b s
  let k := s.get (HUB.hRot c b)
  let five := (gs.rotateLeft (k % max 1 gs.length)).take 5
  let cyc := s.get (HUB.hCyc c) + 1
  let body := [0x10, s.get (HUB.DISC_CFG_SPREAD_LOG2 c)] ++ beBytes 2 cyc ++ beBytes 4 (cycOfs c cyc s)
    ++ beBytes 4 (ofInt 32 (discEqd c s)) ++ [gs.length % 256, five.length] ++ beBytes 2 (rlimOf c b gs s)
    ++ five.flatMap grantBytes ++ List.replicate (40 - 8 * five.length + 4) 0
  (withCrc body, s.put (HUB.hRot c b) ((k + five.length) % max 1 gs.length))

/-- The LEAF_CTRL message of a branch frame (R268): up to four commands that are due. -/
def leafCtrlMsg (c b : Fin 16) (s : State) : List Nat × State :=
  let four := (s.leafCmds.filter (fun x => x.c == c && x.b == b)).take 4
  let one (x : LeafCmd) : List Nat :=
    beBytes 2 (x.leafId * 16 + x.cmd) ++ beBytes 4 (if x.cmd = lcRange then x.eqd else 0) ++ [x.cseq] ++ List.replicate 5 0
  let body := [0x11, 0, 0, 0] ++ four.flatMap one ++ List.replicate (48 - 12 * four.length + 8) 0
  let sent (x : LeafCmd) : Option LeafCmd :=
    if four.contains x then if x.left ≤ 1 then none else some { x with left := x.left - 1 } else some x
  (withCrc body, { s with leafCmds := s.leafCmds.filterMap sent })

/-- The hub message of branch frame f of branch b (R264): none while the carrier is CALIBRATING (R299), or its transmitter takes no
framed data (R172). -/
def hubMsgOf (c b : Fin 16) (f : Nat) (s : State) : List Nat × State :=
  if !lineSends c s then ([], s)
  else if f % 4 = 0 ∧ s.leafCmds.any (fun x => x.c == c && x.b == b) then leafCtrlMsg c b s
  else grantsMsg c b s

/-- Branch frame f of branch b is sent with its hub message (R264, R309). -/
def sendBranchFrame (c b : Fin 16) (f : Nat) (s : State) : State :=
  let r := hubMsgOf c b f s
  sendFrame c b f r.1 (if r.1 = [] then r.2 else r.2.send (.hubMsg c b r.1))

/-! ## Host writes to leaf contexts (R276, R282, R283, R284) -/

/-- Word 0 of a context is written. -/
def ctxWord0 (m : Master) (c : Fin 16) (r : Fin 256) (full : Bool) (d : Nat) (s : State) : State :=
  let l := leafWord c r.val 0
  let st := ctxState c r s
  let s := storeFor m full l (setBits (setBits d 62 1 0) 61 1 0) s
  let s := if bit d 62 then ctxPut c r 1 58 3 0 s else s
  if !bit d 63 then
    if st = cxEmpty then s else ctxMove c r cxEmpty true (sendLeafCmd c r lcDeactivate 0 s)
  else if st = cxEmpty then ctxMove c r cxUnranged true (ctxPut c r 1 56 1 0 s)
  else if bit d 61 then ctxMove c r cxUnranged true (sendLeafCmd c r lcDeactivate 0 s)
  else s

/-- A word of a leaf context is written (R283); the hub keeps CSEQ. -/
def leafCtxWrite (m : Master) (c : Fin 16) (r : Fin 256) (w addr : Nat) (full : Bool) (d : Nat) (s : State) : State :=
  match w with
  | 0 => ctxWord0 m c r full d s
  | 2 =>
    if ctxState c r s = cxUnranged then
      storeFor m full (leafWord c r.val 2) (setBits d 0 8 (bits (ctxW c r 2 s) 0 8)) s
    else logWin (.hub c) causeActiveWrite (masterId m) 0 addr s
  | _ => logWin (.hub c) causeActiveWrite (masterId m) 0 addr s

/-- A word of the tap pool is written (R284): accepted only while the context of its slot, on the branch that holds its
subcarrier, is UNRANGED; tap 15 reads 0. -/
def tapWrite (m : Master) (c : Fin 16) (n addr : Nat) (full : Bool) (d : Nat) (s : State) : State :=
  let e := n / 16
  let k : Fin 16 := Fin.ofNat 16 (e % 16)
  let holds (b : Fin 16) : Bool :=
    let w := branchAct c b.val s
    brEn w && decide (brLo w ≤ e / 16) && decide (e / 16 ≤ brHi w)
  let ok := match (List.finRange 16).find? holds with
    | some b => ctxState c (ctxRow b k) s == cxUnranged
    | none => false
  if ok then storeFor m full (tapWord c n) (if n % 4 = 3 then d % 2 ^ 48 else d) s
  else logWin (.hub c) causeActiveWrite (masterId m) 0 addr s

/-- The window address of word w of context row r. -/
def ctxAddr (c : Fin 16) (r : Fin 256) (w : Nat) : Nat := carrierAddr c (0x6000 + 32 * r.val + 8 * w)

/-- A 64-bit write to word 0 of a context. -/
def ctxCmd (m : Master) (c : Fin 16) (r : Fin 256) (d : Nat) (s : State) : State :=
  winCmd m ⟨.leafCtx, .hub c, 4 * r.val, false, leafWord c r.val 0⟩ false (ctxAddr c r 0) 8 d
    (fun d s => leafCtxWrite m c r 0 (ctxAddr c r 0) true d s) s

/-- LEAF_CTX_ENABLE (R276): word 0 written with EN = 1, neither CLR_FLAGS nor DEACT. -/
def execLeafCtxEnable (m : Master) (c : Fin 16) (r : Fin 256) (v : Nat) (s : State) : Out :=
  act s fun s => ctxCmd m c r (2 ^ 63 + v % 2 ^ 61) s

/-- LEAF_CTX_DISABLE (R276): word 0 written with EN = 0. -/
def execLeafCtxDisable (m : Master) (c : Fin 16) (r : Fin 256) (v : Nat) (s : State) : Out :=
  act s fun s => ctxCmd m c r (v % 2 ^ 61) s

/-- DEACT (R276): word 0 written with EN = 1 and DEACT = 1. -/
def execDeact (m : Master) (c : Fin 16) (r : Fin 256) (v : Nat) (s : State) : Out :=
  act s fun s => ctxCmd m c r (2 ^ 63 + 2 ^ 61 + v % 2 ^ 61) s

/-- CLR_FLAGS (R282): word 0 written with EN = 1 and CLR_FLAGS = 1. -/
def execClrFlags (m : Master) (c : Fin 16) (r : Fin 256) (v : Nat) (s : State) : Out :=
  act s fun s => ctxCmd m c r (2 ^ 63 + 2 ^ 62 + v % 2 ^ 61) s

/-- LEAF_CTX_STALE (R276): AGE of an ACTIVE context has reached CTX_AGE. -/
def execLeafCtxStale (c : Fin 16) (r : Fin 256) (s : State) : Out :=
  act s fun s =>
    let lim := s.get (HUB.LEAF_POL_CTX_AGE c)
    if ctxState c r s = cxActive ∧ lim ≠ 0 ∧ lim ≤ bits (ctxW c r 3 s) 0 16 then ctxPut c r 1 57 1 1 s else s

/-! ## Burst reception -/

/-- The grant of branch b with a cycle number and an entry index. -/
def findGrant (c b : Fin 16) (g : Nat) (i : Fin 64) (s : State) : Option Grant :=
  s.grants.find? fun x => x.c == c && x.b == b && x.gcn == g % 65536 && x.index == i

/-- A grant has been judged. -/
def dropGrant (x : Grant) (s : State) : State :=
  { s with grants := s.grants.filter fun y => !(y.c == x.c && y.b == x.b && y.gcn == x.gcn && y.index == x.index) }

/-- The number of a grant in hCapG. -/
def grantNo (x : Grant) : Nat := 1 + 64 * x.gcn + x.index.val

/-- The grant of the capture of branch b. -/
def capGrant (c b : Fin 16) (s : State) : Option Grant :=
  let n := s.get (HUB.hCapG c b)
  if n = 0 then none else findGrant c b ((n - 1) / 64) (Fin.ofNat 64 ((n - 1) % 64)) s

/-- The expected head of a DATA or RANGE grant (R285). -/
def expHead (x : Grant) (s : State) : Nat := geStart x.entry + 64 * brGuard (branchAct x.c x.b.val s)

/-- A head lies in the detection window of a grant (R287). -/
def inWindow (x : Grant) (head : Int) (s : State) : Bool :=
  if x.kind = 2 then
    decide ((geStart x.entry : Int) ≤ head) && decide (head < (geStart x.entry + 400 * geRounds x.entry : Nat))
  else decide (|head - expHead x s| ≤ s.get (HUB.CAP_CFG_CAP_TOL x.c))

/-- A burst of context row r, granted on branch b, did not pass its header or held an uncorrectable codeword: it counts against
the branch where its leaf is ACTIVE (R297). -/
def burstBad (c b : Fin 16) (r : Fin 256) (s : State) : State :=
  if ctxState c r s = cxActive then s.put (HUB.hBrGood c b) 0 else s

/-- The state of a BURST branch follows its leaves (R297). -/
def burstBranchFollow (c b : Fin 16) (s : State) : State :=
  let w := branchAct c b.val s
  if isHub c s && brEn w && brBurst w && carState c s != stOff then
    let st := if ctxCount c b cxActive s = 0 then stAcq else if s.get (HUB.hBrGood c b) = 125 then stIn else stDeg
    let was := s.get (HUB.BRANCH_STAT_STATE c b)
    let s := (s.put (HUB.BRANCH_STAT_STATE c b) st).raiseIf (.hub c) 4 (decide (was ≠ st))
    if carState c s = stCal then s else streamsSync c (hubFollow c s)
  else s

/-- BURST_GUARD_START (R115, R285): the receiver loads what the leaf context of the granted leaf holds. -/
def execBurstGuardStart (c b : Fin 16) (g : Nat) (i : Fin 64) (s : State) : Out :=
  act s fun s =>
    match findGrant c b g i s with
    | some x =>
      if x.kind = 2 then s
      else
        let r := ctxRow b x.slot
        let v := ctxValid c r s
        let w2 := ctxW c r 2 s
        let s := ((s.put (HUB.hRxTia c b) (bits w2 8 8)).put (HUB.hRxCd c b) (bits w2 16 16)).put (HUB.hRxFreq c b)
          (if v then bits (ctxW c r 3 s) 48 16 else 0)
        let s := (s.put (HUB.hRxHead c b) (expHead x s)).put (HUB.hRxTaps c b)
          (if v && !geLong x.entry then 1 + x.slot.val else 0)
        let s := if s.flag (HDR.FREEZE (.conv c)) then s else s.put (CONV.RX_STAT_TIA_GAIN c) (min 96 (bits w2 8 8))
        s.putB (CONV.RX_STAT_AGC_HOLD c) true
    | none => s

/-- A capture begins at head P (R287). -/
def capBegin (c b : Fin 16) (g : Option Grant) (head pow : Int) (collide : Bool) (s : State) : State :=
  let s := ((s.put (HUB.hCap c b) 1).puti (HUB.hCapPos c b) head).putiSat (HUB.hCapPow c b) pow
  ((s.put (HUB.hCapG c b) ((g.map grantNo).getD 0)).put (HUB.hCapIgn c b) 0).putB (HUB.hCollide c b) collide

/-- BURST_CAPTURE_START (R287): the primary detector finds a head in the window of grant (g, i). -/
def execBurstCaptureStart (c b : Fin 16) (g : Nat) (i : Fin 64) (head pow : Int) (s : State) : Out :=
  rxAct c s fun s =>
    if s.get (HUB.hCap c b) = 0 then
      match findGrant c b g i s with
      | some x => if inWindow x head s then capBegin c b (some x) head pow false s else s
      | none => s
    else s

/-- What becomes of the heads not taken during a capture (R290): MISSED_IN_FALSE if it is abandoned, RECAP_IGN if its
header passes. -/
def ignoredFate (c b : Fin 16) (abandoned : Bool) (s : State) : State :=
  let n := s.get (HUB.hCapIgn c b)
  let s := (if abandoned then s.cntAdd (HUB.hCnt c 4) n else s.cntAdd (HUB.hCnt c 5) n).put (HUB.hCapIgn c b) 0
  { s with grants := s.grants.map fun x =>
      if x.c == c && x.b == b && x.ignored then { x with ignored := false, excused := x.excused || abandoned } else x }

/-- The capture of branch b is abandoned (R288). -/
def capAbandon (c b : Fin 16) (s : State) : State :=
  (ignoredFate c b true (s.cntAdd (HUB.hCnt c 3) 1)).put (HUB.hCap c b) 0

/-- BURST_CAPTURE_ABANDON (R288): no sync word in the window. -/
def execBurstCaptureAbandon (c b : Fin 16) (s : State) : Out :=
  rxAct c s fun s => if s.get (HUB.hCap c b) = 1 then capAbandon c b s else s

/-- A head is not taken (R290). -/
def headIgnored (c b : Fin 16) (head : Int) (s : State) : State :=
  let near (x : Grant) : Bool :=
    x.c == c && x.b == b && decide (64 * x.gcn + 1 ≤ s.get (HUB.hCapG c b)) && decide (s.get (HUB.hCapG c b) ≤ 64 * x.gcn + 64)
  let s := s.put (HUB.hCapIgn c b) (s.get (HUB.hCapIgn c b) + 1)
  { s with grants := s.grants.map fun x => if near x && inWindow x head s then { x with ignored := true } else x }

/-- BURST_RECAPTURE (R289, R291): the secondary detector evaluates a head H' with its power in 0.01 dB. -/
def execBurstRecapture (c b : Fin 16) (head pow : Int) (s : State) : Out :=
  rxAct c s fun s =>
    let st := s.get (HUB.hCap c b)
    let p := s.geti (HUB.hCapPos c b)
    if st = 0 ∨ head < p + 32 then s
    else
      let cur := capGrant c b s
      let pre : Int := match cur with
        | some x => gePre x.entry
        | none => 256
      let strong := decide (s.geti (HUB.hCapPow c b) + 100 * max 1 (s.get (HUB.CAP_CFG_RECAP_DB c)) ≤ pow)
      let gcn := (s.get (HUB.hCapG c b) - 1) / 64
      let own := s.grants.find? fun x => x.c == c && x.b == b && x.gcn == gcn && inWindow x head s
      if st = 1 then
        if head ≤ p + pre + 32 ∧ strong then capBegin c b own head pow false (capAbandon c b s) else headIgnored c b head s
      else if strong then
        let s := s.cntAdd (HUB.hCnt c 2) 1
        let s := match cur with
          | some x => dropGrant x ((ctxPut c (ctxRow b x.slot) 1 60 1 1 s).raise (.hub c) 3)
          | none => s
        capBegin c b own head pow true s
      else s.cntAdd (HUB.hCnt c 5) 1

/-! ### Headers -/

/-- The CRC of a header matches (R272, R273). -/
def hdrOk (h : List Nat) : Bool := h.length == 16 && crc16 (h.take 14) == ofBe (slice h 14 2)
def hdrType (h : List Nat) : Nat := h.headD 0 / 16 % 16
def hdrLeaf (h : List Nat) : Nat := ofBe (slice h 1 2) / 16
def hdrGcn (h : List Nat) : Nat := ofBe (slice h 3 2)
def hdrIndex (h : List Nat) : Nat := h.getD 5 0
def hdrBacklog (h : List Nat) : Nat := ofBe (slice h 6 2)
def hdrRand (h : List Nat) : Nat := ofBe (slice h 8 2)
def hdrSnr (h : List Nat) : Nat := h.getD 10 0

/-- The configured context of branch b that a leaf ID names. -/
def ctxOfId (c b : Fin 16) (id : Nat) (s : State) : Option (Fin 256) :=
  ((List.finRange 16).map (ctxRow b)).find? fun r => ctxEn c r s && ctxLeafId c r s == id

/-- A burst with a valid header is credited to its leaf (R282). -/
def headerGood (c : Fin 16) (r : Fin 256) (h : List Nat) (s : State) : State :=
  let s := s.modify (leafWord c r.val 1) fun x =>
    setBits (setBits (setBits x 48 8 (hdrSnr h)) 32 16 (hdrBacklog h)) 0 16 (bits x 0 16 + 1)
  ((s.cntAdd (HUB.hCnt c 0) 1).put (HUB.hConsec c r) 0).put (HUB.hRangeMiss c r) 0

/-- A discovery burst (R276, R279, R281). -/
def headerDiscovery (c b : Fin 16) (x : Grant) (h : List Nat) (s : State) : State :=
  match ctxOfId c b (hdrLeaf h) s with
  | none =>
    (((s.putB (HUB.UNKNOWN_ID_VALID c) true).put (HUB.UNKNOWN_ID_BRANCH c) b.val).put (HUB.UNKNOWN_ID_LEAF_ID c)
      (hdrLeaf h)).raise (.hub c) 2
  | some r =>
    let s := headerGood c r h s
    if ctxState c r s = cxUnranged then
      let g := brGuard (branchAct c b.val s)
      let hexp : Int := (geStart x.entry + 400 * geRounds x.entry : Nat) - (lenDisc g : Nat) - (64 * hdrRand h : Nat)
        + (64 * g : Nat)
      let eqd := discEqd c s + hexp - s.geti (HUB.hCapPos c b)
      if eqd < symTenUs c s then s.raise (.hub c) 6
      else
        let s := ctxMove c r cxRanging false (ctxPut c r 2 32 32 (ofInt 32 eqd) s)
        sendLeafCmd c r lcRange (ofInt 32 eqd) s
    else s

/-- A DATA or RANGING burst that answers its grant; a RANGING one clears STALE (R276). -/
def headerData (c b : Fin 16) (x : Grant) (h : List Nat) (s : State) : State :=
  let r := ctxRow b x.slot
  let s := headerGood c r h s
  if hdrType h = 3 then
    let ofs := s.geti (HUB.hCapPos c b) - expHead x s
    let near := decide (|ofs| ≤ (max 1 (s.get (HUB.CAP_CFG_RANGE_TOL c)) : Nat))
    let s := ctxPut c r 1 57 1 0 s
    if ctxState c r s = cxRanging then
      if near then sendLeafCmd c r lcActivate 0 (ctxMove c r cxActive false s)
      else
        let eqd := ofInt 32 ((ctxEqd c r s : Nat) - ofs)
        sendLeafCmd c r lcRange eqd (ctxPut c r 2 32 32 eqd s)
    else s
  else s

/-- A header that passes its CRC, against the grant at its position (R281, R292). The payload follows at once: the loading of
the branch is the one that holds now (R18). -/
def headerPass (c b : Fin 16) (h : List Nat) (s : State) : State :=
  let s := if s.flag (HUB.hCollide c b) then
      match ctxOfId c b (hdrLeaf h) s with
      | some r => (ctxPut c r 1 60 1 1 s).raise (.hub c) 3
      | none => s
    else s
  let s := (ignoredFate c b false s).put (HUB.hCap c b) 2
  let s := (s.put (HUB.hCapE c b) (branchE c b s)).put (HUB.hCapCws c b) 0
  let s := s.put (HUB.hCapR c b) ((capGrant c b s).elim 0 fun x => if x.kind = 2 then 0 else geRounds x.entry)
  let mismatch (s : State) : State :=
    let s := (s.cntAdd (HUB.hCnt c 7) 1).put (HUB.hCap c b) 0
    match ctxOfId c b (hdrLeaf h) s with
    | some r => (ctxPut c r 1 59 1 1 s).raise (.hub c) 5
    | none => s
  match capGrant c b s with
  | some x =>
    if x.kind = 2 ∧ hdrType h = 2 then headerDiscovery c b x h s
    else if x.kind ≠ 2 ∧ hdrType h ≠ 2 ∧ hdrLeaf h = x.leafId ∧ hdrGcn h = x.gcn ∧ hdrIndex h = x.index.val then
      headerData c b x h s
    else mismatch s
  | none => mismatch s

/-- BURST_HEADER (R276, R281, R288, R292): the 16 bytes of the header of the running capture. -/
def execBurstHeader (c b : Fin 16) (h : List Nat) (s : State) : Out :=
  rxAct c s fun s =>
    if s.get (HUB.hCap c b) = 1 then
      if hdrOk h then burstBranchFollow c b (headerPass c b h s) else capAbandon c b (s.cntAdd (HUB.hCnt c 6) 1)
    else s

/-! ### Ends of bursts -/

/-- The last eight head offsets take one more, newest first. -/
def pushOfs (c : Fin 16) (r : Fin 256) (ofs : Int) (s : State) : State :=
  let old := (List.finRange 8).map (fun k => s.get (HUB.hOfs c r k))
  let s := forFin 8 (fun k s => s.put (HUB.hOfs c r k) ((ofInt 16 ofs :: old).getD k.val 0)) s
  s.put (HUB.hOfsN c r) (min 8 (s.get (HUB.hOfsN c r) + 1))

/-- The drift adjustment of R280: the mean of eight offsets beyond one symbol becomes a RANGE command. -/
def driftAdjust (c : Fin 16) (r : Fin 256) (s : State) : State :=
  let sum := (List.finRange 8).foldl (fun (a : Int) k => a + s.geti (HUB.hOfs c r k)) 0
  if s.get (HUB.hOfsN c r) = 8 ∧ 128 < |sum| ∧ ctxState c r s = cxActive then
    let q : Int := (|sum| + 64) / 128 - (if |sum| % 128 = 64 then (Config.halfRound sum.natAbs % 2 : Nat) else 0)
    let eqd := ofInt 32 ((ctxEqd c r s : Nat) - (if sum < 0 then -q else q))
    (sendLeafCmd c r lcRange eqd (ctxPut c r 2 32 32 eqd s)).put (HUB.hOfsN c r) 0
  else s

/-- What a burst leaves in its leaf's context and tap pool (R283): what the receiver learnt, with the offset of the burst's head
in 1/16 symbol and the tap words of the branch's subcarriers, sixteen for each. -/
def writeBack (c b : Fin 16) (r : Fin 256) (tphase : Int) (taps : List Nat) (lr : BurstLearn) (s : State) : State :=
  let s := s.modify (leafWord c r.val 2) fun x => setBits (setBits x 16 16 (ofInt 16 lr.cd)) 8 8 lr.tia
  let s := s.store (leafWord c r.val 3) (ofInt 16 lr.freq * 2 ^ 48 + ofInt 16 lr.pwr * 2 ^ 32 + ofInt 16 tphase * 2 ^ 16)
  let w := branchAct c b.val s
  let s := forFin 16 (fun i s =>
    if brLo w ≤ i.val ∧ i.val ≤ brHi w then
      forN 16 (fun n s =>
        let v := taps.getD (16 * (i.val - brLo w) + n) 0
        s.store (tapWord c (16 * (16 * i.val + (ctxSlot r).val) + n)) (if n % 4 = 3 then v % 2 ^ 48 else v)) s
    else s) s
  ctxPut c r 1 56 1 1 s

/-- BURST_END (R280, R283): a burst whose header passed ends, `tphase`, `taps` and `lr` being what the receiver learnt; of the codewords that its
payload holds (R234) those that CODEWORD_DECODE has shown to converge decide. -/
def execBurstEnd (c b : Fin 16) (tphase : Int) (taps : List Nat) (lr : BurstLearn) (s : State) : Out :=
  rxAct c s fun s =>
    if s.get (HUB.hCap c b) = 2 then
      let cws := burstWords (s.get (RXDSP.hMode c)) (capPayload c b s)
      let conv := s.get (HUB.hCapCws c b)
      match capGrant c b s with
      | some x =>
        let s := (if x.kind = 2 then s else dropGrant x s).put (HUB.hCap c b) 0
        if x.kind = 2 then s
        else
          let r := ctxRow b x.slot
          let s := if conv < cws then burstBad c b r s else s
          let s := if s.flag (HDR.FREEZE (.hub c)) then s
            else
              let s := if 90 * cws ≤ 100 * conv then writeBack c b r tphase taps lr s else s
              if ctxState c r s = cxActive then driftAdjust c r (pushOfs c r tphase s) else s
          burstBranchFollow c b s
      | none => s.put (HUB.hCap c b) 0
    else s

/-- BURST_MISSING (R276, R292): grant (g, i) has led to no passing header. -/
def execBurstMissing (c b : Fin 16) (g : Nat) (i : Fin 64) (s : State) : Out :=
  act s fun s =>
    match findGrant c b g i s with
    | some x =>
      let s := dropGrant x s
      if x.kind = 2 ∨ carState c s = stCal then s
      else
        let r := ctxRow b x.slot
        let s := burstBad c b r s
        let s := if x.excused then s
          else
            let s := (s.cntAdd (HUB.hCnt c 1) 1).modify (leafWord c r.val 1) fun v => setBits v 16 16 (bits v 16 16 + 1)
            let s := s.put (HUB.hConsec c r) (min 255 (s.get (HUB.hConsec c r) + 1))
            let s := if x.kind = 3 then s.put (HUB.hRangeMiss c r) (min 3 (s.get (HUB.hRangeMiss c r) + 1)) else s
            if (ctxState c r s = cxActive ∧ max 1 (s.get (HUB.LEAF_POL_LOS_GRANTS c)) ≤ s.get (HUB.hConsec c r))
                ∨ (ctxState c r s = cxRanging ∧ s.get (HUB.hRangeMiss c r) = 3) then ctxLost c r s
            else s
        burstBranchFollow c b s
    | none => s

/-! ## Ticks, the PM second, hinges -/

/-- AGC_HOLD (R115): FREEZE of the CONV page, or a hub carrier with BURST branches. -/
def agcFollow (c : Fin 16) (s : State) : State :=
  s.putB (CONV.RX_STAT_AGC_HOLD c) (s.flag (HDR.FREEZE (.conv c))
    || (isHub c s && (activeBranches c s).any (fun w => brEn w && brBurst w)))

/-- A tick on a hub carrier (R276, R297, R299): the ages of the contexts and the counts of the branches advance. -/
def hubTick (c : Fin 16) (s : State) : State :=
  if isHub c s && carState c s != stCal then
    let s := forFin 256 (fun r s =>
      if ctxState c r s = cxEmpty then s
      else s.modify (leafWord c r.val 3) fun x => setBits x 0 16 (min 65535 (bits x 0 16 + 1))) s
    forFin 16 (fun b s => burstBranchFollow c b (s.put (HUB.hBrGood c b) (min 125 (s.get (HUB.hBrGood c b) + 1)))) s
  else s

/-- The PM second in the HUB page (R300). -/
def hubLatch (c : Fin 16) (s : State) : State :=
  forFin 8 (fun i s => s.cntLatch (HUB.hCnt c i) (HUB.CNT_LO c i) (HUB.CNT_HI_SATURATED c i) (HUB.CNT_HI_COUNT c i)) s

/-- The contexts of a branch that ends (R276): EMPTY, words 1 to 3 cleared; its grants and commands with them, and the
branch is OFF (R300). -/
def branchGone (c b : Fin 16) (s : State) : State :=
  let s := forFin 16 (fun k s => s.zeroRange (leafWord c (ctxRow b k).val 1) 3) s
  let s := ((branchPut c b stOff (s.put (HUB.hCap c b) 0)).put (HUB.hBrStage c b) 0).putB (HUB.BRANCH_STAT_UP_BURST c b) false
  let s := { s with
    grants := s.grants.filter (fun x => !(x.c == c && x.b == b))
    leafCmds := s.leafCmds.filter (fun x => !(x.c == c && x.b == b)) }
  activeFollow c b s

/-- A host write of CAP_CFG, stored with its clamp; RECAP_DB and RANGE_TOL of 0 act as 1 where they are used. -/
def capCfgEff (c : Fin 16) (v : Nat) (s : State) : State :=
  ((s.put (HUB.CAP_CFG_RECAP_DB c) (bits v 28 4)).put (HUB.CAP_CFG_CAP_TOL c) ((Clamp.u 32 1023).apply 10 (bits v 16 10))).put
    (HUB.CAP_CFG_RANGE_TOL c) (bits v 0 8)

end Sys2Proof.Machine
end

