-- ==== Sys2Proof/Machine/Leaf.lean ====
section
/-! DEFINITION. The leaf: the messages it acts on (R269), its states (R277), the bursts it sends (R257, R272, R278), and
what a hinge of the HUB page does to a hub or a leaf (R247, R255, R276, R277). -/
namespace Sys2Proof.Machine

/-- States of LEAF_STAT (R300). -/
def lfDisabled : Nat := 0
def lfNoDs : Nat := 1
def lfUnranged : Nat := 2
def lfRanged : Nat := 3
def lfActive : Nat := 4

def leafState (c : Fin 16) (s : State) : Nat := s.get (HUB.LEAF_STAT_STATE c)

/-- The leaf changes its state (R277). -/
def leafMove (c : Fin 16) (st : Nat) (s : State) : State :=
  if leafState c s = st then s else (s.put (HUB.LEAF_STAT_STATE c) st).raise (.hub c) 7

/-- The leaf has no equalisation delay of its own (R277). -/
def leafUnranged (c : Fin 16) (s : State) : State :=
  leafMove c lfUnranged ((s.put (HUB.LEAF_EQD c) 0).putB (HUB.hEqdDue c) false)

/-- The conditions of the downstream (R277). -/
def leafDsOk (c : Fin 16) (s : State) : Bool :=
  isLeaf c s && inTraffic (carState c s) && s.flag (HUB.LEAF_STAT_SYNC c) && streamAligned c 0 s

/-- A leaf receives hub messages: its branch frame is aligned (R269). -/
def leafHears (c : Fin 16) (s : State) : Bool := isLeaf c s && streamAligned c 0 s && decide (lfUnranged ≤ leafState c s)

/-- The 64 bytes are a hub message of a type whose CRC matches (R265, R268, R269). -/
def hubMsgOk (typ : Nat) (raw : List Nat) : Bool :=
  raw.length == 64 && raw.headD 0 == typ && crc32c (raw.take 60) == ofBe (raw.drop 60)

/-- Entry n of a GRANTS message (R266), where it names this leaf or every leaf. -/
def leafGrantOf (c : Fin 16) (raw : List Nat) (n : Nat) (s : State) : Option LeafGrant :=
  let e := slice raw (16 + 8 * n) 8
  let h := ofBe (slice e 0 2)
  let id := h / 16
  if id = 0xFFF ∨ id = s.get (HUB.LEAF_CFG_LEAF_ID c).active then
    some
      { c := c, gcn := ofBe (slice raw 2 2), index := e.getD 7 0, discover := bits h 2 2 == 1, kind := bits h 2 2,
        long := bit h 1, start := ofBe (slice e 2 3), rounds := ofBe (slice e 5 2), discEqd := toInt 32 (ofBe (slice raw 8 4)),
        discRlim := ofBe (slice raw 14 2), spread := raw.getD 1 0 % 8, mfn := s.get (OTU.hRxMfn c 0)
        ofs := toInt 32 (ofBe (slice raw 4 4)) }
  else none

/-- A cycle boundary passes at the leaf (R277): a new EQD comes into force, and GRANTS reports the cycle that ended. -/
def leafCycle (c : Fin 16) (g : Nat) (s : State) : State :=
  if g = s.get (HUB.hLeafGcn c) then s
  else
    let s := (s.put (HUB.LEAF_STAT_GRANTS c) (s.get (HUB.hAns c))).put (HUB.hAns c) 0
    let s := if s.flag (HUB.hEqdDue c) then
        (s.put (HUB.LEAF_EQD c) (s.get (HUB.hEqdNew c))).putB (HUB.hEqdDue c) false else s
    let s := (s.put (HUB.hFix c) (s.get (HUB.hFixAcc c))).put (HUB.hFixMax c) (s.get (HUB.hFixMaxAcc c))
    ((s.put (HUB.hFixAcc c) 0).put (HUB.hFixMaxAcc c) 0).put (HUB.hLeafGcn c) g

/-- The transmit multiframe in which a symbol lies that a grant places n symbols after the start of its cycle: a leaf's transmit
multiframe begins EQD after its received one, and so does the cycle (R256, R257). -/
def grantMf (c : Fin 16) (x : LeafGrant) (n : Nat) (s : State) : Nat :=
  ofInt 16 (x.mfn + (x.ofs + (n : Int)) / (mfSymbols (scRate c s) : Int))

/-- The transmit rows that will hold in a transmit multiframe (R18): the standby rows where a pending hinge that passes its
checks falls in it or before it. -/
def rowsAt (c : Fin 16) (mf : Nat) (s : State) : List Nat :=
  let now := txMfn c s
  let ahead := mfLead mf now
  let p := Page.txdsp c
  let lead := mfLead (s.get (HDR.HINGE_MF p)) now
  let due := decide (1 ≤ ahead) && decide (ahead ≤ 32767)
    && (s.get (HDR.HINGE_MODE p) == modeNextMf
      || (s.get (HDR.HINGE_MODE p) == modeAtMf && decide (1 ≤ lead) && decide (lead ≤ ahead)))
  let std := tableRows (txLoadRow c false) s
  if s.flag (HDR.PENDING p) && due && !s.flag (HDR.COPYING p) && txTableOk c std s then std
  else tableRows (txLoadRow c true) s

/-- Framed bits of a grant at the leaf, over the transmit rows of the multiframe in which it starts (R274). -/
def leafGrantBits (c : Fin 16) (x : LeafGrant) (s : State) : Nat :=
  burstBits (s.get (TXDSP.hMode c)) (sumLoad (rowsAt c (grantMf c x x.start s) s) (leafLo c s) (leafHi c s)) x.rounds

/-- A DATA grant of the leaf adds to F_fix of R431 and to F_max of R436. A GRANTS message does not tell FIXED from
SHARED (R266), so every DATA grant counts (log entry 36). -/
def leafFixed (c : Fin 16) (x : LeafGrant) (s : State) : State :=
  if x.kind = 0 then
    let b := leafGrantBits c x s
    (s.put (HUB.hFixAcc c) (s.get (HUB.hFixAcc c) + b)).put (HUB.hFixMaxAcc c) (max b (s.get (HUB.hFixMaxAcc c)))
  else s

/-- Two entries of GRANTS messages announce the same grant. -/
def sameGrant (x y : LeafGrant) : Bool := x.c == y.c && x.gcn == y.gcn && x.index == y.index

/-- GRANTS (R265, R266, R269): a GRANTS message is received; a valid one records its grants. Grants of cycles more
than 64 back are forgotten. -/
def execGrants (c : Fin 16) (raw : List Nat) (s : State) : Out :=
  act s fun s =>
    if leafHears c s && hubMsgOk 0x10 raw then
      let g := ofBe (slice raw 2 2)
      let s := leafCycle c g s
      let new := ((List.range (min 5 (raw.getD 13 0))).filterMap (fun n => leafGrantOf c raw n s)).filter
        (fun x => !s.leafGrants.any (sameGrant x))
      let s := forL new (fun x s => leafFixed c x s) s
      { s with leafGrants := s.leafGrants.filter (fun x => x.c != c || decide (mfLead g x.gcn ≤ 64)) ++ new }
    else s

/-- Command k of a LEAF_CTRL message for this leaf, with a code and a new CSEQ: its EQD (R268, R269). -/
def leafCmdOf (c : Fin 16) (raw : List Nat) (k : Fin 4) (cmd : Nat) (s : State) : Option (Nat × Nat) :=
  let e := slice raw (4 + 12 * k.val) 12
  let h := ofBe (slice e 0 2)
  let q := e.getD 6 0 % 256
  if leafHears c s && hubMsgOk 0x11 raw && h / 16 == s.get (HUB.LEAF_CFG_LEAF_ID c).active && h % 16 == cmd
      && q != s.get (HUB.LEAF_STAT_CSEQ c) then some (ofBe (slice e 2 4), q)
  else none

/-- RANGE (R277): command k of a LEAF_CTRL message. The EQD comes into force at the next cycle boundary. -/
def execRange (c : Fin 16) (raw : List Nat) (k : Fin 4) (s : State) : Out :=
  act s fun s =>
    match leafCmdOf c raw k lcRange s with
    | some (eqd, q) =>
      let s := ((s.put (HUB.LEAF_STAT_CSEQ c) q).put (HUB.hEqdNew c) eqd).putB (HUB.hEqdDue c) true
      if leafState c s = lfUnranged then leafMove c lfRanged s else s
    | none => s

/-- ACTIVATE (R277). -/
def execActivate (c : Fin 16) (raw : List Nat) (k : Fin 4) (s : State) : Out :=
  act s fun s =>
    match leafCmdOf c raw k lcActivate s with
    | some (_, q) =>
      let s := s.put (HUB.LEAF_STAT_CSEQ c) q
      if leafState c s = lfRanged ∨ (leafState c s = lfUnranged ∧ !leafBurst c s) then leafMove c lfActive s else s
    | none => s

/-- DEACTIVATE (R277). -/
def execDeactivate (c : Fin 16) (raw : List Nat) (k : Fin 4) (s : State) : Out :=
  act s fun s =>
    match leafCmdOf c raw k lcDeactivate s with
    | some (_, q) =>
      let s := s.put (HUB.LEAF_STAT_CSEQ c) q
      if leafState c s = lfRanged ∨ leafState c s = lfActive then leafUnranged c s else s
    | none => s

/-- NO_DS (R277): a condition of the downstream fails. -/
def execNoDs (c : Fin 16) (s : State) : Out :=
  act s fun s =>
    let s := syncUpdate c s
    if isLeaf c s && decide (lfUnranged ≤ leafState c s) && !leafDsOk c s then
      leafMove c lfNoDs ((s.put (HUB.hPrev c) (leafState c s)).put (HUB.hNoDsTicks c) 0)
    else s

/-- LEAF_DS_RETURN (R277): the conditions hold; the previous state returns after a loss of at most LEAF_HOLD ticks. -/
def execLeafDsReturn (c : Fin 16) (s : State) : Out :=
  act s fun s =>
    let s := syncUpdate c s
    if leafState c s = lfNoDs ∧ leafDsOk c s then
      let p := s.get (HUB.hPrev c)
      if (p = lfRanged ∨ p = lfActive) ∧ s.get (HUB.hNoDsTicks c) ≤ s.get (HUB.LEAF_HOLD c) then leafMove c p s
      else leafUnranged c s
    else s

/-! ## Bursts -/

/-- The grants a leaf answers in its state (R278): kind 0 DATA, 1 DISCOVER, 2 RANGE. -/
def leafAnswers (c : Fin 16) (x : LeafGrant) (s : State) : Bool :=
  let st := leafState c s
  match x.kind with
  | 0 => st == lfActive
  | 1 => st == lfUnranged && (x.gcn + s.get (HUB.LEAF_CFG_LEAF_ID c).active) % 2 ^ x.spread == 0
  | 2 => st == lfRanged || st == lfActive
  | _ => false

/-- DS_SNR of a header (R272): the lowest SNR of the leaf's VALID rows, from 0.01 dB to 0.25 dB units. The manual states
no rounding (log entry 23). -/
def dsSnr (c : Fin 16) (s : State) : Nat :=
  let l := ((List.finRange 16).filter (fun i => decide (leafLo c s ≤ i.val) && decide (i.val ≤ leafHi c s) && rxRowOn c i s
    && s.flag (RXDSP.SC_STAT0_VALID c i))).map (fun i => s.get (RXDSP.SC_STAT0_SNR c i))
  match l with
  | [] => 0
  | x :: xs =>
    let v := xs.foldl min x
    min 255 (v / 25 + (if v % 25 = 0 then 0 else Config.halfRound v % 2))

/-- The header of a burst (R272), with its CRC. -/
def burstHeader (c : Fin 16) (x : LeafGrant) (backlog rand : Nat) (s : State) : List Nat :=
  let typ := if x.kind = 0 then 1 else if x.kind = 1 then 2 else 3
  let long := x.long || x.kind != 0
  let body := [typ * 16 + long.toNat * 8] ++ beBytes 2 (s.get (HUB.LEAF_CFG_LEAF_ID c).active * 16) ++ beBytes 2 x.gcn
    ++ [x.index % 256] ++ beBytes 2 (min 0xFFFF ((backlog + 1023) / 1024)) ++ beBytes 2 rand ++ [dsSnr c s,
      128 * (carState c s == stDeg).toNat + 64 * (s.flag (TXDSP.LOAD_STAT_FALLBACK_ACTIVE c)).toNat, 0, 0]
  body ++ beBytes 2 (crc16 body)

/-- The burst that answers a grant (R257, R270 to R275, R278), `rand` being the random delay of a discovery burst. Its payload
has the loading that holds at its first payload symbol (R18). -/
def burstOf (c : Fin 16) (x : LeafGrant) (backlog guard rand : Nat) (s : State) : BurstOut :=
  let long := x.long || x.kind != 0
  let header := burstHeader c x backlog rand s
  let rounds := if x.kind = 1 then 0 else x.rounds
  let rows := rowsAt c (grantMf c x (x.start + 64 * guard + 32 * (1 + trainReps long) + 64 + 32) s) s
  let range := (List.range 16).filter fun i => decide (leafLo c s ≤ i) && decide (i ≤ leafHi c s)
  { mfn := x.mfn
    start := if x.kind = 1 then x.ofs + x.discEqd + (x.start + 400 * x.rounds : Nat) - (lenDisc guard + 64 * rand : Nat)
      else x.ofs + (s.get (HUB.LEAF_EQD c) + x.start : Nat)
    guard := 64 * guard
    ramp := 16 + 4 * s.get (CONV.TX_RAMP_BURST c)
    header := header
    lead := range.map fun i => (i, burstLead false long i header, burstLead true long i header)
    tail := range.map fun i => (i, burstEndPattern false i, burstEndPattern true i)
    subs := range.map fun i => subLine c i (rows.getD i 0) s
    rounds := rounds
    lay := layBurst (s.get (TXDSP.hMode c)) (100 * sumLoad rows (leafLo c s) (leafHi c s) * rounds) }

/-- BURST_TRANSMIT (R254, R257, R277, R278): the transmit instant of the grant with cycle g and an index; `backlog` are
the bytes queued in the upstream port. The random delay of a discovery burst is free (R278). -/
def execBurstTransmit (c : Fin 16) (g index backlog guard : Nat) (s : State) : Out :=
  act s fun s =>
    match s.leafGrants.find? (fun x => x.c == c && x.gcn == g % 65536 && x.index == index) with
    | some x =>
      let s := { s with leafGrants := s.leafGrants.filter (fun y => !(y == x)) }
      if leafBurst c s && s.flag (HUB.LEAF_STAT_SYNC c) && leafAnswers c x s && txState c s == txBurst && lineSends c s then
        let (v, s) := s.draw 16
        let rand := if x.kind = 1 then v % (x.discRlim + 1) else 0
        let s := s.put (HUB.hAns c) (min 255 (s.get (HUB.hAns c) + 1))
        s.send (.burst c x.gcn x.index (burstOf c x backlog guard rand s))
      else s
    | none => s

/-! ## Ticks, hinges, enabling -/

/-- A tick on a leaf (R277): the length of a loss of the downstream. -/
def leafTick (c : Fin 16) (s : State) : State :=
  if leafState c s = lfNoDs then s.put (HUB.hNoDsTicks c) (min 65535 (s.get (HUB.hNoDsTicks c) + 1)) else s

/-- The leaf exists or not as the mode and ENABLE say (R277). -/
def leafFollow (c : Fin 16) (s : State) : State :=
  if isLeaf c s && pageOn (.hub c) s then
    if leafState c s = lfDisabled then leafMove c lfNoDs (s.put (HUB.hPrev c) lfUnranged) else s
  else if leafState c s = lfDisabled then s
  else
    leafMove c lfDisabled { (s.put (HUB.LEAF_EQD c) 0).putB (HUB.hEqdDue c) false with
      leafGrants := s.leafGrants.filter (fun x => x.c != c) }

/-- What follows a HUB-page hinge that has been taken; `mode`, `brs` are the mode and the branch rows before it, and
`rx` the receive streams (R122, R247, R255, R276, R277, R319). Branches that HUB mode gains, or that change their kind, start to
acquire (R209, R297). -/
def hubTaken (c : Fin 16) (mode : Nat) (brs : List Nat) (rx : List (Fin 16)) (s : State) : State :=
  let now := carMode c s
  let gone := (List.finRange 16).filter fun b =>
    mode == 1 && brEn (brs.getD b.val 0) && !(now == 1 && brEn (branchAct c b.val s))
  let born := (List.finRange 16).filter fun b =>
    brEn (branchAct c b.val s) && !(brEn (brs.getD b.val 0) && brBurst (brs.getD b.val 0) == brBurst (branchAct c b.val s))
  let s := forL gone (fun b s => branchGone c b s) s
  let s := if now = 1 ∧ mode ≠ 1 then ((s.putB (HUB.hCycFirst c) true).put (HUB.hCyc c) 0).put (HUB.hMf c) (2 ^ 64 - 1) else s
  let s := forFin 16 (fun b s => s.putB (HUB.BRANCH_STAT_UP_BURST c b)
    (isHub c s && brEn (branchAct c b.val s) && brBurst (branchAct c b.val s))) s
  let s := forL (rx.filter (fun i => !(streamsRx c s).contains i)) (fun i s => streamGone c i s) s
  let s := txHinge c (agcFollow c (leafFollow c s))
  if mode ≠ now ∧ carState c s ≠ stOff ∧ carState c s ≠ stCal ∧ carState c s ≠ stOos then
    enterAcqAll c ((forL (unitsOf c s) (fun b s => s.put (unitOf c b s).cause lcHostReacq) s).put
      (RXDSP.CARRIER_STAT_LAST_CAUSE c) lcHostReacq)
  else
    let s := streamsSync c (hubFollow c s)
    if now = 1 ∧ mode = 1 ∧ carState c s ≠ stOff ∧ carState c s ≠ stCal then
      hubFollow c (forL born (fun b s =>
        if brBurst (branchAct c b.val s) then burstBranchFollow c b (branchPut c b stAcq s) else enterAcq c b s) s)
    else s

end Sys2Proof.Machine
end

