-- ==== Sys2Proof/Machine/Tm.lean ====
section
/-! DEFINITION. The traffic manager's contexts and its two ingress ends: classification (R398 to R404), policers (R408,
R409), queueing (R410 to R412), context faults (R406), the checks on configuration (R407, R417, R418) and the egress
FIFOs (R428 to R430). -/
namespace Sys2Proof.Machine

/-! ## Contexts (R402) -/

def tcEn (w : Nat) : Bool := bit w 63
def tcExpress (w : Nat) : Bool := bit w 62
def tcPol (w : Nat) : Nat := bits w 59 2
def tcAware (w : Nat) : Bool := bit w 58
def tcK (w : Nat) : Fin 4 := Fin.ofNat 4 (bits w 55 2)
def tcSvc (w : Nat) : Fin 256 := Fin.ofNat 256 (bits w 47 8)
def tcPort (w : Nat) : Fin 16 := Fin.ofNat 16 (bits w 47 4)
def tcWeight (w : Nat) : Nat := max 1 (bits w 40 7)
def tcQmax (w : Nat) : Nat := bits w 20 20
def tcQyel (w : Nat) : Nat := bits w 0 20

/-- Word w of context x of quadrant q. -/
def ctx (q : Fin 4) (x : Fin 4096) (w : Nat) (s : State) : Nat := s.word (contextWord q x.val w)

/-- Carrier 4q + k. -/
def carOf (q k : Fin 4) : Fin 16 := ⟨4 * q.val + k.val, by omega⟩

/-- k of a carrier. -/
def kOf (c : Fin 16) : Fin 4 := Fin.ofNat 4 (c.val % 4)

/-- The contexts of a quadrant of which some word is not zero, with word 0. -/
def ctxLive (q : Fin 4) (s : State) : List (Fin 4096 × Nat) :=
  ((s.live (contextWord q 0 0) 65536).map fun i => i / 16).dedup.map fun x => (Fin.ofNat 4096 x, s.word (contextWord q x 0))

/-- The enabled Express contexts of a quadrant. -/
def expCtxs (q : Fin 4) (s : State) : List (Fin 4096 × Nat) := (ctxLive q s).filter fun x => tcEn x.2 && tcExpress x.2

/-- Charged length (R398). -/
def charged (l : List Nat) : Nat := l.length + 20

/-- Cells of a frame: 64 bytes in Express SRAM, 256 bytes elsewhere (R410, R429). -/
def cellsOf (exp : Bool) (len : Nat) : Nat := if exp then (len + 63) / 64 else (len + 255) / 256

/-! ## Counters and buffers -/

/-- Counter i of R438 takes n more; EXP_DROP and EXP_NONCONF set their interrupt (R439). -/
def tmCount (q : Fin 4) (i : Fin 8) (n : Nat) (s : State) : State :=
  let s := s.cntAdd (TM.hCnt q i) n
  if n = 0 then s else if i = 1 then s.raise (.tm q) 2 else if i = 6 then s.raise (.tm q) 5 else s

def cBufDrop : Fin 8 := 0
def cExpDrop : Fin 8 := 1
def cEccDisc : Fin 8 := 2
def cRplDisc : Fin 8 := 3
def cNotupDisc : Fin 8 := 4
def cEgrDrop : Fin 8 := 5
def cExpNonconf : Fin 8 := 6
def cClsDisc : Fin 8 := 7

/-- Cells that a frame in progress still holds (R413). -/
def flightCells (f : Flight) : Nat := cellsOf f.exp (f.bytes.length - f.done)

/-- Free cells of the packet buffer of a quadrant (R411). -/
def bufFree (q : Fin 4) (s : State) : Nat :=
  262144 - ((s.queued.filter (fun f => f.q == q && !f.exp)).foldl (fun a f => a + cellsOf false f.bytes.length) 0
    + (s.flights.filter (fun f => quadOf f.c == q && !f.exp)).foldl (fun a f => a + flightCells f) 0)

/-- The frames queued in a context, oldest first. -/
def ctxQueue (q : Fin 4) (x : Fin 4096) (s : State) : List TmFrame := s.queued.filter fun f => f.q == q && f.x == x

/-- DEPTH of a context (R402). -/
def ctxDepth (q : Fin 4) (x : Fin 4096) (s : State) : Nat :=
  (ctxQueue q x s).foldl (fun a f => a + cellsOf f.exp f.bytes.length) 0

/-- DEPTH and FRAMES of word 5 follow the queue (R402). -/
def ctxShow (q : Fin 4) (x : Fin 4096) (s : State) : State :=
  let d := min (2 ^ 20 - 1) (ctxDepth q x s)
  let n := min (2 ^ 20 - 1) (ctxQueue q x s).length
  s.modify (contextWord q x.val 5) (fun w => bits w 23 1 * 2 ^ 23 + d * 2 ^ 44 + n * 2 ^ 24)

/-- The context faults (R406, R539): its queued frames are discarded and counted in ECC_DISC. -/
def ctxFault (q : Fin 4) (x : Fin 4096) (s : State) : State :=
  if s.flag (TM.hFault q x) then s
  else
    let n := (ctxQueue q x s).length
    let s := ((s.putB (TM.hFault q x) true).raise (.tm q) 1).modify (contextWord q x.val 0) (fun v => setBits v 61 1 1)
    ctxShow q x { tmCount q cEccDisc n s with queued := s.queued.filter fun f => !(f.q == q && f.x == x) }

/-- The traffic manager's read of word w of a context finds an uncorrectable error: it is counted and logged (R538), and
the context faults. -/
def ctxUe (q : Fin 4) (x : Fin 4096) (w : Nat) (s : State) : State :=
  let l := contextWord q x.val w
  ctxFault q x (countUE l (eccDecode (s.rawData l) (s.rawCheck l)).2.2 false s)

/-- The traffic manager reads words of a context: what it finds is counted, and an uncorrectable word faults the context (R406,
R536, R538). -/
def ctxReads (q : Fin 4) (x : Fin 4096) (ws : List Nat) (s : State) : State :=
  forL ws (fun w s =>
    let r := s.readWord (contextWord q x.val w) false
    if r.1 = .ue then ctxFault q x r.2.2 else r.2.2) s

/-- A statistics word takes n more (R437): it sticks at its maximum, and an uncorrectable word drops the increment and
faults the context (R406, R541). -/
def ctxStat (q : Fin 4) (x : Fin 4096) (i n : Nat) (s : State) : State :=
  let l := contextWord q x.val (8 + i)
  if s.isUE l then ctxUe q x (8 + i) s
  else
    s.modify l (fun w => if bit w 63 then w else if 2 ^ 48 - 1 ≤ bits w 0 48 + n then 2 ^ 63 + (2 ^ 48 - 1) else bits w 0 48 + n)

def sGrnFr : Nat := 0
def sYelFr : Nat := 2
def sRedFr : Nat := 4
def sQdropFr : Nat := 6
def sDiscFr : Nat := 7

/-! ## Ports (R415, R416, R431) -/

/-- Word i of carrier k in a view of the port and calendar table. -/
def calAt (q k : Fin 4) (active : Bool) (i : Nat) (s : State) : Nat := s.word (calWord q active (256 * k.val + i))

def prEn (w : Nat) : Bool := bit w 63
def prShare (w : Nat) : Nat := bits w 59 4
/-- The largest quantum of a port in bytes; QUANTUM 0 acts as 1. -/
def prQuantum (w : Nat) : Nat := 64 * max 1 (bits w 53 6)

/-- The active row of port n of carrier c. -/
def portRow (c n : Fin 16) (s : State) : Nat := calAt (quadOf c) (kOf c) true n.val s

/-- CAL_LEN of a view. -/
def calLen (q k : Fin 4) (active : Bool) (s : State) : Nat := bits (calAt q k active 16 s) 0 11

/-- Calendar entry i of a view. -/
def calEntry (q k : Fin 4) (active : Bool) (i : Nat) (s : State) : Nat := bits (calAt q k active (32 + i / 8) s) (8 * (i % 8)) 8

/-- The IMP tributary of port n of carrier c (R416). -/
def portTrib (c n : Fin 16) (s : State) : Option (Fin 256) :=
  (tribsOn (quadOf c) true s).find? fun t =>
    let d := tribDesc (quadOf c) true t s
    tdImp d && tdClient d == 16 * (kOf c).val + n.val

/-- M of the port's tributary; 0 without one. -/
def tmPortM (c n : Fin 16) (s : State) : Nat :=
  match portTrib c n s with
  | some t => tdM (tribDesc (quadOf c) true t s)
  | none => 0

/-- Bursts take the port's frames (R416). -/
def burstPort (c : Fin 16) (s : State) : Bool := isLeaf c s && leafBurst c s

/-- Port n of carrier c is ready (R416, R427). -/
def tmReady (c n : Fin 16) (s : State) : Bool :=
  prEn (portRow c n s) && (if burstPort c s then n == 0 else (portTrib c n s).isSome)
    && !s.flag (TM.hHold (quadOf c) (kOf c) n)

/-- R_E in bit/s for an Express share (R431): EXP_SHARE / 16 of M × 4.8 Gb/s, or of 7,600 × F_fix on a leaf's BURST
port. -/
def rateExp (c n : Fin 16) (share : Nat) (s : State) : Nat :=
  if burstPort c s then share * 475 * s.get (HUB.hFix c) else share * tmPortM c n s * 300000000

/-- W_p in bytes (R421, R436). -/
def window (c n : Fin 16) (s : State) : Nat :=
  if burstPort c s then 9216 + 95 * s.get (HUB.hFixMax c) / 800 else 9216 + 60 * tmPortM c n s

/-- The Express sums of R417 for a port, given the contexts that feed it as CIR and CBS. -/
def sumsOk (c n : Fin 16) (share : Nat) (l : List (Nat × Nat)) (s : State) : Bool :=
  l == [] || (decide (1 ≤ share) && decide (share ≤ 4)
    && decide (l.foldl (fun a x => a + x.1) 0 * 1000000 ≤ rateExp c n share s) && decide (l.foldl (fun a x => a + x.2) 0 ≤ 32768))

/-- CIR and CBS of a context. -/
def cirCbs (q : Fin 4) (x : Fin 4096) (s : State) : Nat × Nat := (bits (ctx q x 1 s) 42 22, bits (ctx q x 2 s) 44 20)

/-- CIR and CBS of the enabled Express contexts that feed a port, but for context `skip`. -/
def feeding (c n : Fin 16) (skip : Option (Fin 4096)) (s : State) : List (Nat × Nat) :=
  ((expCtxs (quadOf c) s).filter fun x => tcK x.2 == kOf c && tcPort x.2 == n && some x.1 != skip).map fun x =>
    cirCbs (quadOf c) x.1 s

/-- Every port of one carrier of the standby table meets R417. -/
def calOk (q k : Fin 4) (s : State) : Bool :=
  let n := calLen q k false s
  let used := ((List.range n).map fun i => calEntry q k false i s).filter fun e => bit e 7
  let row (p : Nat) : Nat := calAt q k false p s
  decide (1 ≤ n) && decide (n ≤ 1024) && used.all (fun e => prEn (row (e % 16)))
    && (List.finRange 16).all fun p => !prEn (row p.val) || (used.any (fun e => e % 16 == p.val)
      && sumsOk (carOf q k) p (prShare (row p.val)) (feeding (carOf q k) p none s) s)

/-- The check of R81 on the TM page (R417). -/
def tmHingeOk (q : Fin 4) (s : State) : Bool := (List.finRange 4).all fun k => calOk q k s

/-! ## Rejected configuration (R407, R418, R439) -/

def rejCount : Nat := 1
def rejSram : Nat := 2
def rejShare : Nat := 3
def rejEgr : Nat := 4
def rejRate : Nat := 5

/-- A rejection is recorded: CFG_REJ keeps the first since VALID was cleared. -/
def tmReject (q : Fin 4) (cause index : Nat) (s : State) : State :=
  let s := s.raise (.tm q) 0
  if s.flag (TM.CFG_REJ_VALID q) then s
  else ((s.putB (TM.CFG_REJ_VALID q) true).put (TM.CFG_REJ_CAUSE q) cause).put (TM.CFG_REJ_INDEX q) index

/-- Word w of port map entry i. -/
def portMap (q : Fin 4) (i w : Nat) (s : State) : Nat := s.word (portMapWord q (2 * i + w))
def pmEgrExp (w : Nat) : Nat := bits w 42 14
def pmEgrNrm (w : Nat) : Nat := bits w 29 13

/-- The enabled entries of the port map. -/
def pmLive (q : Fin 4) (s : State) : List (Fin 64) := (List.finRange 64).filter fun i => bit (portMap q i.val 0 s) 63

/-- Express SRAM cells allocated, but for context `skip` (R407). -/
def expAlloc (q : Fin 4) (skip : Option (Fin 4096)) (s : State) : Nat :=
  ((expCtxs q s).filter fun x => some x.1 != skip).foldl (fun a x => a + tcQmax x.2) 0
    + (pmLive q s).foldl (fun a i => a + pmEgrExp (portMap q i.val 1 s)) 0

/-- Egress SRAM cells allocated. -/
def egrAlloc (q : Fin 4) (s : State) : Nat := (pmLive q s).foldl (fun a i => a + pmEgrNrm (portMap q i.val 1 s)) 0

/-- Why a word 0 with EN = 1 and EXPRESS = 1 is not enabled (R407); 0 where it is. -/
def ctxReject (q : Fin 4) (x : Fin 4096) (d : Nat) (s : State) : Nat :=
  let c := carOf q (tcK d)
  let n := tcPort d
  if 64 ≤ ((expCtxs q s).filter fun y => y.1 != x).length then rejCount
  else if 8192 < tcQmax d + expAlloc q (some x) s then rejSram
  else if sumsOk c n (prShare (portRow c n s)) (cirCbs q x s :: feeding c n (some x) s) s then 0
  else rejShare

/-! ## Writes (R400, R403, R405 to R407) -/

/-- FLUSH (R405): every queued frame is discarded and counted. A frame in progress is no longer queued. -/
def ctxFlush (q : Fin 4) (x : Fin 4096) (s : State) : State :=
  let n := (ctxQueue q x s).length
  if n = 0 then s
  else ctxStat q x sDiscFr n (ctxShow q x { s with queued := s.queued.filter fun f => !(f.q == q && f.x == x) })

/-- Both buckets take their burst sizes (R403). -/
def ctxFill (q : Fin 4) (x : Fin 4096) (s : State) : State :=
  let w := ctx q x 2 s
  ((s.modify (contextWord q x.val 4) (fun _ => bits w 44 20 * 2 ^ 32 + bits w 24 20)).put (TM.hFracC q x) 0).put (TM.hFrac2 q x) 0

/-- A word of a context is written (R402, R403, R405 to R407). -/
def ctxWrite (m : Master) (q : Fin 4) (x : Fin 4096) (w : Nat) (full : Bool) (d : Nat) (s : State) : State :=
  let l := contextWord q x.val w
  match w with
  | 0 =>
    let s := s.putB (TM.hFault q x) false
    let v := setBits (setBits d 61 1 0) 57 1 0
    let r := if tcEn v && tcExpress v then ctxReject q x v s else 0
    let s := storeFor m full l (if r = 0 then v else setBits v 63 1 0) s
    let s := if r = 0 then s else tmReject q r x.val s
    if bit d 57 then ctxFlush q x s else s
  | 1 | 2 => ctxFill q x (storeFor m full l d s)
  | _ => storeFor m full l d s

/-- A word of the port map is written (R400, R407). -/
def pmWrite (m : Master) (q : Fin 4) (i w : Nat) (full : Bool) (d : Nat) (s : State) : State :=
  let l := portMapWord q (2 * i + w)
  let s' := storeFor m full l d s
  if w = 1 ∧ (8192 < expAlloc q none s' ∨ 4096 < egrAlloc q s') then
    tmReject q rejEgr i (storeFor m full l (setBits d 29 27 0) s)
  else s'

/-! ## Policers (R408, R409) -/

/-- The credit that instant n (counted from 0) brings at a rate in bit/s, in 2^-16 byte (R409): 12.8 ns of it, what is
left of a unit carried on. -/
def creditOf (rate n : Nat) : Nat := (n + 1) * rate * 1048576 / 10000000000 - n * rate * 1048576 / 10000000000

/-- The levels of the two buckets of a context, in 2^-16 byte. -/
def buckets (q : Fin 4) (x : Fin 4096) (s : State) : Nat × Nat :=
  let w := ctx q x 4 s
  (bits w 32 32 * 65536 + s.get (TM.hFracC q x), bits w 0 32 * 65536 + s.get (TM.hFrac2 q x))

/-- The levels of the two buckets are set. -/
def setBuckets (q : Fin 4) (x : Fin 4096) (a b : Nat) (s : State) : State :=
  ((s.modify (contextWord q x.val 4) (fun _ => a / 65536 % 2 ^ 32 * 2 ^ 32 + b / 65536 % 2 ^ 32)).put (TM.hFracC q x) a).put
    (TM.hFrac2 q x) b

/-- The buckets of a policer take the credit of instant n: srTCM fills the second bucket with what the first has no room
for (RFC 2697), trTCM fills it at PIR (RFC 2698). -/
def polCredit (q : Fin 4) (x : Fin 4096) (pol n : Nat) (s : State) : State :=
  let w1 := ctx q x 1 s
  let w2 := ctx q x 2 s
  let cbs := bits w2 44 20 * 65536
  let bs2 := bits w2 24 20 * 65536
  let (a, b) := buckets q x s
  let a' := a + creditOf (bits w1 42 22 * 1000000) n
  let b' := if pol = 1 then b + (a' - cbs) else b + creditOf (bits w1 20 22 * 1000000) n
  setBuckets q x (min a' cbs) (min b' bs2) s

/-- Colours. -/
inductive Colour where
  | green | yellow | red
  deriving DecidableEq, Repr

/-- A frame of charged length n is metered: its colour and the levels it leaves (RFC 2697, RFC 2698). `yel` — it arrives
yellow at a colour-aware policer. -/
def meter (pol : Nat) (yel : Bool) (n a b : Nat) : Colour × Nat × Nat :=
  let z := n * 65536
  if pol = 1 then
    if !yel && decide (z ≤ a) then (.green, a - z, b)
    else if z ≤ b then (.yellow, a, b - z)
    else (.red, a, b)
  else if b < z then (.red, a, b)
  else if yel || decide (a < z) then (.yellow, a, b - z)
  else (.green, a - z, b - z)

/-! ## Classification (R399 to R404, R410, R412) -/

/-- VID, PCP and DEI of the outer tag; an untagged frame has 0, 0 and 0 (R401). -/
def outerTag (b : List Nat) : Nat × Nat × Bool :=
  let tpid := ofBe (slice b 12 2)
  let tci := ofBe (slice b 14 2)
  if (tpid = 0x88A8 ∨ tpid = 0x8100) ∧ 16 ≤ b.length then (tci % 4096, tci / 8192 % 8, tci.testBit 12) else (0, 0, false)

/-- The context of a frame from the port with entry i (R401). -/
def classify (q : Fin 4) (i : Nat) (b : List Nat) (s : State) : Option (Fin 4096) :=
  let w0 := portMap q i 0 s
  let w1 := portMap q i 1 s
  let (vid, pcp, _) := outerTag b
  let base := bits w0 49 12
  if !bit w0 63 then none
  else if bit w0 61 && (bits w1 56 8).testBit pcp then some (Fin.ofNat 4096 (bits w0 0 12))
  else if base ≤ vid ∧ vid - base < bits w0 36 13 then some (Fin.ofNat 4096 (bits w0 24 12 + (vid - base)))
  else if bit w0 62 then some (Fin.ofNat 4096 (bits w0 12 12))
  else none

/-- What becomes of a policed frame. -/
inductive Fate where
  | queue | red | over | noCells
  deriving DecidableEq, Repr

/-- The fate of a frame of a colour (R410, R412). -/
def fateOf (q : Fin 4) (x : Fin 4096) (w0 len : Nat) (col : Colour) (s : State) : Fate :=
  let n := cellsOf (tcExpress w0) len
  let d := ctxDepth q x s + n
  if tcExpress w0 then if col ≠ .green then .red else if d ≤ tcQmax w0 then .queue else .over
  else
    match col with
    | .red => .red
    | .green => if tcQmax w0 < d then .over else if bufFree q s < n then .noCells else .queue
    | .yellow =>
      if tcQyel w0 < d ∨ bufFree q s < s.get (TM.TM_CFG_BUF_YEL q) then .over
      else if bufFree q s < n then .noCells else .queue

/-- A frame enters its queue (R410); BUF_LOW sets when the free cells fall below BUF_YEL (R412). -/
def enqueue (q : Fin 4) (x : Fin 4096) (exp : Bool) (fr : EthFrame) (col : Colour) (s : State) : State :=
  let was := bufFree q s
  let s := ctxShow q x { s with queued := s.queued ++ [⟨q, x, exp, fr.arr, fr.bytes⟩] }
  let y := s.get (TM.TM_CFG_BUF_YEL q)
  let s := s.raiseIf (.tm q) 3 (decide (y ≤ was) && decide (bufFree q s < y))
  let i := if col = .green then sGrnFr else sYelFr
  ctxStat q x (i + 1) (charged fr.bytes) (ctxStat q x i 1 s)

/-- A frame reaches its context (R404, R406, R408 to R412), whose words 0 to 4 are read. -/
def toContext (q : Fin 4) (x : Fin 4096) (fr : EthFrame) (s : State) : State :=
  let s := ctxReads q x (List.range 5) s
  let w0 := ctx q x 0 s
  if s.flag (TM.hFault q x) then tmCount q cEccDisc 1 s
  else if !tcEn w0 then ctxStat q x sDiscFr 1 s
  else
    let n := charged fr.bytes
    let pol := tcPol w0
    let (a, b) := buckets q x s
    let (_, _, dei) := outerTag fr.bytes
    let (col, a', b') := if pol = 1 ∨ pol = 2 then meter pol (tcAware w0 && dei) n a b else (.green, a, b)
    let s := if pol = 1 ∨ pol = 2 then setBuckets q x a' b' s else s
    match fateOf q x w0 fr.bytes.length col s with
    | .queue => enqueue q x (tcExpress w0) fr col s
    | .red => ctxStat q x (sRedFr + 1) n (ctxStat q x sRedFr 1 s)
    | .over => ctxStat q x sQdropFr 1 (if tcExpress w0 then tmCount q cExpDrop 1 s else s)
    | .noCells => ctxStat q x sQdropFr 1 (tmCount q cBufDrop 1 s)

/-- A frame is too long or errored (R399). -/
def frameBad (fr : EthFrame) : Bool := fr.err || decide (9216 < fr.bytes.length)

/-- The port map entry of the port whose first lane is lane n of group g. -/
def portIndex (g : Fin 32) (n : Fin 8) : Nat := g.val % 8 * 8 + n.val

/-- The first lane's group and place of the port with entry i of quadrant q. -/
def portGroup (q : Fin 4) (i : Nat) : Fin 32 := Fin.ofNat 32 (8 * q.val + i / 8 % 8)
def portFirst (i : Nat) : Fin 8 := Fin.ofNat 8 (i % 8)

/-! ## Egress (R428 to R430) -/

/-- The frames in a FIFO, oldest first. -/
def fifo (q : Fin 4) (i : Fin 64) (exp : Bool) (s : State) : List EgrFrame :=
  s.egress.filter fun f => f.q == q && f.i == i && f.exp == exp

/-- Cells a FIFO holds. -/
def fifoCells (q : Fin 4) (i : Fin 64) (exp : Bool) (s : State) : Nat :=
  (fifo q i exp s).foldl (fun a f => a + cellsOf exp f.bytes.length) 0

/-- A frame arrives at the FIFO of its port (R429, R430). -/
def toFifo (q : Fin 4) (i : Fin 64) (b : List Nat) (s : State) : State :=
  let w1 := portMap q i.val 1 s
  let exp := (bits w1 56 8).testBit (outerTag b).2.1
  let room := if exp then pmEgrExp w1 else pmEgrNrm w1
  if room < fifoCells q i exp s + cellsOf exp b.length then tmCount q cEgrDrop 1 s
  else
    let s := if exp && fifo q i true s != [] then tmCount q cExpNonconf 1 s else s
    { s with egress := s.egress ++ [⟨q, i, exp, b⟩] }

/-- The port takes no frames: it is not UP, or it receives remote fault (R391). -/
def portShut (q : Fin 4) (i : Fin 64) (s : State) : Bool :=
  let g := portGroup q i.val
  let n := portFirst i.val
  portState g n s != ptUp || s.flag (LANEGRP.PORT_STAT_RF_RX g n)

/-- EGRESS_FRAME_RECEIVE (R391, R399, R428 to R430, R439): a frame demapped from an IMP tributary of the quadrant, or
from a burst. -/
def execEgressFrameReceive (q : Fin 4) (fr : EthFrame) (s : State) : Out :=
  act s fun s =>
    if !pageOn (.tm q) s then tmCount q cNotupDisc 1 s
    else if frameBad fr then tmCount q cClsDisc 1 s
    else
      let l := egressWord q (outerTag fr.bytes).1
      let e := s.word l
      let i : Fin 64 := Fin.ofNat 64 (bits e 57 6)
      let s := blockReads [l, portMapWord q (2 * i.val), portMapWord q (2 * i.val + 1)] s
      let g := portGroup q i.val
      let n := portFirst i.val
      if !bit e 63 || portState g n s == ptDisabled || portUse g n s != usePkt || !bit (portMap q i.val 0 s) 63 then
        tmCount q cClsDisc 1 s
      else if portShut q i s then tmCount q cNotupDisc 1 s
      else toFifo q i fr.bytes s

/-- EGRESS_FRAME_SEND (R391, R429, R439, R539): a frame boundary of the client port whose first lane is lane n of group
g. `ue` — the read of the frame finds an uncorrectable error. -/
def execEgressFrameSend (g : Fin 32) (n : Fin 8) (ue : Bool) (s : State) : Out :=
  act s fun s =>
    let q := groupQuad g
    let i : Fin 64 := Fin.ofNat 64 (portIndex g n)
    match (fifo q i true s ++ fifo q i false s).head? with
    | some f =>
      if !pageOn (.tm q) s then s
      else
        let s := { s with egress := s.egress.erase f }
        if portShut q i s then tmCount q cNotupDisc 1 s
        else if ue then tmCount q cEccDisc 1 (s.send (.clientFrame q i f.bytes true))
        else s.send (.clientFrame q i f.bytes false)
    | none => s

/-! ## Status, counters -/

/-- TM_STAT (R439). -/
def tmStat (q : Fin 4) (s : State) : Nat := 2 ^ 24 * min 127 (expCtxs q s).length + min 262143 (bufFree q s)

/-- SRAM_STAT (R439). -/
def sramStat (q : Fin 4) (s : State) : Nat := 2 ^ 16 * (8192 - expAlloc q none s) + (4096 - egrAlloc q s)

/-- The PM second in the TM page (R438). -/
def tmLatch (q : Fin 4) (s : State) : State :=
  let sat := (List.finRange 8).any fun i => (s.get (TM.hCnt q i)).testBit 48
  let s := forFin 8 (fun i s => s.cntLatch (TM.hCnt q i) (TM.CNT_LO q i) (TM.CNT_HI_SATURATED q i) (TM.CNT_HI_COUNT q i)) s
  s.raiseIf (.tm q) 4 sat

/-- A soft reset of the TM page (R439): every queue and FIFO is emptied without counting, and words 4, 5 and 8 to 15 of
every context return to 0. -/
def tmClear (q : Fin 4) (s : State) : State :=
  let dyn (i : Nat) : Bool := i % 16 == 4 || i % 16 == 5 || decide (8 ≤ i % 16)
  let s := forL ((s.live (contextWord q 0 0) 65536).filter dyn) (fun i s => s.zeroRange (.quad q 2 i) 1) s
  { s with
    queued := s.queued.filter fun f => f.q != q
    flights := s.flights.filter fun f => quadOf f.c != q
    egress := s.egress.filter fun f => f.q != q
    order := s.order.filter fun n => match n with
      | .sub p _ => p != q
      | .svc c _ => quadOf c != q }

end Sys2Proof.Machine
end

