-- ==== Sys2Proof/Machine/Tmsched.lean ====
section
/-! DEFINITION. The scheduler of the traffic manager: shapers (R423), the timing wheel (R424, R425), deficit round robin
(R422), the release of quanta (R413, R419 to R421), what hinges do to it (R418, R426, R427), and the events of
classification, context writes and credit. -/
namespace Sys2Proof.Machine

/-! ## Nodes -/

/-- Service node v of carrier c (R414). -/
def svc (c : Fin 16) (v : Fin 256) (s : State) : Nat := s.word (svcWord (quadOf c) (kOf c).val v.val)
def snEn (w : Nat) : Bool := bit w 63
def snPort (w : Nat) : Fin 16 := Fin.ofNat 16 (bits w 59 4)
def snWeight (w : Nat) : Nat := max 1 (bits w 52 7)
/-- MAX_RATE in bit/s. -/
def snRate (w : Nat) : Nat := bits w 30 22 * 1000000

/-- MAX_RATE of a subscriber node in bit/s (R402). -/
def subRate (q : Fin 4) (x : Fin 4096) (s : State) : Nat := bits (ctx q x 3 s) 42 22 * 1000000

/-- A shaper (R423): where its level and its place on the wheel are kept, its rate in bit/s and its cap in 2^-16 byte. -/
structure Shaper where
  lvl : Fld
  e : Fld
  ring : Fld
  rate : Nat
  cap : Int

/-- The cap of a node's shaper: 2 × QUANTUM × 64 bytes of its port (R423). -/
def nodeCap (c n : Fin 16) (s : State) : Int := (2 * prQuantum (portRow c n s) * 65536 : Nat)

def subShaper (q : Fin 4) (x : Fin 4096) (s : State) : Shaper :=
  let c := carOf q (tcK (ctx q x 0 s))
  ⟨TM.hSubLvl q x, TM.hSubE q x, TM.hSubRing q x, subRate q x s, nodeCap c (snPort (svc c (tcSvc (ctx q x 0 s)) s)) s⟩

def svcShaper (c : Fin 16) (v : Fin 256) (s : State) : Shaper :=
  ⟨TM.hSvcLvl (quadOf c) (kOf c) v, TM.hSvcE (quadOf c) (kOf c) v, TM.hSvcRing (quadOf c) (kOf c) v, snRate (svc c v s),
    nodeCap c (snPort (svc c v s)) s⟩

/-- The Express shaper of a port: credited at R_E, capped at +9,236 bytes (R423). -/
def expShaper (c n : Fin 16) (s : State) : Shaper :=
  ⟨TM.hExpLvl (quadOf c) (kOf c) n, TM.hExpE (quadOf c) (kOf c) n, TM.hExpRing (quadOf c) (kOf c) n,
    rateExp c n (prShare (portRow c n s)) s, 9236 * 65536⟩

/-- The shaper holds its node back no longer: its level is at least 0, and it is off the wheel (R422, R424). -/
def Shaper.free (h : Shaper) (s : State) : Bool := decide (0 ≤ s.geti h.lvl) && s.get h.e == 0

/-- IN_WHEEL of a subscriber node follows its place (R402). -/
def wheelShow (q : Fin 4) (x : Fin 4096) (s : State) : State :=
  s.modify (contextWord q x.val 5) (fun w => setBits w 23 1 (s.get (TM.hSubE q x) != 0).toNat)

/-- The beat of carrier c's scheduler. -/
def beatOf (c : Fin 16) (s : State) : Nat := s.get (TM.hBeat (quadOf c) (kOf c))

/-- A shaper below 0 is entered on the timing wheel (R424): E = now + ⌈−level / rate⌉, on the coarse ring from 8,192 beats
on. One beat brings rate × 65,536 / 10^10 units. -/
def Shaper.enter (h : Shaper) (now : Nat) (s : State) : State :=
  let l := s.geti h.lvl
  if l < 0 ∧ h.rate ≠ 0 then
    let d := h.rate * 65536
    let wait := ((-l).toNat * 10000000000 + d - 1) / d
    (s.put h.e (now + wait + 1)).putB h.ring (decide (8192 ≤ wait))
  else s

/-- A shaper is debited by a frame started (R423). -/
def Shaper.debit (h : Shaper) (now n : Nat) (s : State) : State :=
  h.enter now (s.puti h.lvl (s.geti h.lvl - (n * 65536 : Nat)))

/-- A shaper is credited at instant n (R409, R423). -/
def Shaper.credit (h : Shaper) (n : Nat) (s : State) : State :=
  s.puti h.lvl (min h.cap (s.geti h.lvl + (creditOf h.rate n : Nat)))

/-! ## Eligibility and the round-robin order (R422, R425) -/

/-- A subscriber node is eligible. -/
def subElig (q : Fin 4) (x : Fin 4096) (s : State) : Bool :=
  !tcExpress (ctx q x 0 s) && ctxQueue q x s != [] && (subRate q x s == 0 || (subShaper q x s).free s)

/-- The contexts of carrier c and service node v that hold frames. -/
def childrenOf (c : Fin 16) (v : Fin 256) (s : State) : List (Fin 4096) :=
  let q := quadOf c
  ((s.queued.filter fun f => f.q == q).map (·.x)).dedup.filter fun x =>
    !tcExpress (ctx q x 0 s) && tcK (ctx q x 0 s) == kOf c && tcSvc (ctx q x 0 s) == v

/-- A service node is eligible: one of its children is (log entry 37). -/
def svcElig (c : Fin 16) (v : Fin 256) (s : State) : Bool :=
  let w := svc c v s
  snEn w && (childrenOf c v s).any (fun x => subElig (quadOf c) x s) && (snRate w == 0 || (svcShaper c v s).free s)

def nodeElig (s : State) : TmNode → Bool
  | .sub q x => subElig q x s
  | .svc c v => svcElig c v s

def nodeIn (q : Fin 4) : TmNode → Bool
  | .sub p _ => p == q
  | .svc c _ => quadOf c == q

/-- A node leaves its parent's order: its visit is over, and a node that is empty has its deficit reset (R422). -/
def nodeLeaves (n : TmNode) (s : State) : State :=
  match n with
  | .sub q x =>
    let k := tcK (ctx q x 0 s)
    let v := tcSvc (ctx q x 0 s)
    let s := if s.get (TM.hCurSub q k v) = x.val + 1 then s.put (TM.hCurSub q k v) 0 else s
    if ctxQueue q x s = [] then s.put (TM.hSubDef q x) 0 else s
  | .svc c v =>
    let f := TM.hCurSvc (quadOf c) (kOf c) (snPort (svc c v s))
    let s := if s.get f = v.val + 1 then s.put f 0 else s
    if childrenOf c v s = [] then s.put (TM.hSvcDef (quadOf c) (kOf c) v) 0 else s

/-- The nodes of a quadrant with frames below them: subscriber nodes in ascending index, then service nodes. -/
def nodesBusy (q : Fin 4) (s : State) : List TmNode :=
  let xs := sortBy Fin.val ((s.queued.filter fun f => f.q == q).map (·.x)).dedup
  let xs := xs.filter fun x => !tcExpress (ctx q x 0 s)
  let vs := (xs.map fun x => (carOf q (tcK (ctx q x 0 s)), tcSvc (ctx q x 0 s))).dedup
  xs.map (TmNode.sub q) ++ (sortBy (fun (y : Fin 16 × Fin 256) => 256 * y.1.val + y.2.val) vs).map fun y => TmNode.svc y.1 y.2

/-- The order follows eligibility: nodes that are eligible no longer leave, and nodes made eligible join at its end, in
ascending index (R425). -/
def orderSync (q : Fin 4) (s : State) : State :=
  let gone := s.order.filter fun n => nodeIn q n && !nodeElig s n
  let s' := forL gone nodeLeaves { s with order := s.order.filter fun n => !(nodeIn q n && !nodeElig s n) }
  { s' with order := s'.order ++ (nodesBusy q s).filter fun n => nodeElig s n && !s'.order.contains n }

/-- Deficit round robin (R422): the node at the head is visited, its deficit growing by 64 × WEIGHT unless this visit has
credited it; it is chosen if its frame fits the deficit, and goes to the end otherwise. The order it leaves, with the
deficits, has the node chosen at its head. -/
def drr {α : Type} (weight size : α → Nat) : Nat → Bool → List (α × Nat) → Option (List (α × Nat))
  | 0, _, _ => none
  | _ + 1, _, [] => none
  | n + 1, credited, (a, d) :: l =>
    let d' := if credited then d else d + 64 * weight a
    if size a ≤ d' then some ((a, d') :: l) else drr weight size n false (l ++ [(a, d')])

/-- The charged length of the head of a context's queue. -/
def headSize (q : Fin 4) (x : Fin 4096) (s : State) : Nat :=
  match (ctxQueue q x s).head? with
  | some f => charged f.bytes
  | none => 0

/-- The subscriber nodes of service node v in their order, as the round robin leaves them with the one chosen first. -/
def pickSub (c : Fin 16) (v : Fin 256) (s : State) : Option (List (Fin 4096 × Nat)) :=
  let q := quadOf c
  let xs := s.order.filterMap fun n => match n with
    | .sub p x => if p == q && tcK (ctx q x 0 s) == kOf c && tcSvc (ctx q x 0 s) == v then some x else none
    | .svc _ _ => none
  let credited := match xs with
    | x :: _ => s.get (TM.hCurSub q (kOf c) v) == x.val + 1
    | [] => false
  drr (fun x => tcWeight (ctx q x 0 s)) (fun x => headSize q x s) (146 * xs.length + 1) credited
    (xs.map fun x => (x, s.get (TM.hSubDef q x)))

/-- The size of the frame that service node v would send. -/
def svcSize (c : Fin 16) (v : Fin 256) (s : State) : Nat :=
  match pickSub c v s with
  | some ((x, _) :: _) => headSize (quadOf c) x s
  | _ => 0

/-- The service nodes of port n in their order, as the round robin leaves them with the one chosen first. -/
def pickSvc (c n : Fin 16) (s : State) : Option (List (Fin 256 × Nat)) :=
  let vs := s.order.filterMap fun m => match m with
    | .svc d v => if d == c && snPort (svc c v s) == n then some v else none
    | .sub _ _ => none
  let credited := match vs with
    | v :: _ => s.get (TM.hCurSvc (quadOf c) (kOf c) n) == v.val + 1
    | [] => false
  drr (fun v => snWeight (svc c v s)) (fun v => svcSize c v s) (146 * vs.length + 1) credited
    (vs.map fun v => (v, s.get (TM.hSvcDef (quadOf c) (kOf c) v)))

/-- The Express head of a port that arrived earliest at the lands, the lower context on a tie (R422). -/
def expressHead (c n : Fin 16) (s : State) : Option TmFrame :=
  let q := quadOf c
  let xs := ((s.queued.filter fun f => f.q == q).map (·.x)).dedup.filter fun x =>
    tcExpress (ctx q x 0 s) && tcK (ctx q x 0 s) == kOf c && tcPort (ctx q x 0 s) == n
  let heads := (sortBy Fin.val xs).filterMap fun x => (ctxQueue q x s).head?
  heads.foldl (fun (a : Option TmFrame) f => match a with
    | none => some f
    | some g => if f.arr < g.arr then some f else some g) none

/-- What a port starts next (R422). -/
inductive Next where
  | express (f : TmFrame)
  | normal (f : TmFrame) (subs : List (Fin 4096 × Nat)) (svcs : List (Fin 256 × Nat))
  deriving DecidableEq, Repr

def Next.frame : Next → TmFrame
  | .express f => f
  | .normal f _ _ => f

/-- The next frame of port n (R422). -/
def chooseNext (c n : Fin 16) (s : State) : Option Next :=
  let normal : Option Next :=
    match pickSvc c n s with
    | some ((v, d) :: vs) =>
      match pickSub c v s with
      | some ((x, e) :: xs) => ((ctxQueue (quadOf c) x s).head?).map fun f => .normal f ((x, e) :: xs) ((v, d) :: vs)
      | _ => none
    | _ => none
  match expressHead c n s with
  | some f => if (expShaper c n s).free s then some (.express f) else normal
  | none => normal

/-- The frame in progress on a port (R421). -/
def flightOn (c n : Fin 16) (s : State) : Option Flight := s.flights.find? fun f => f.c == c && f.n == n

/-- What a calendar entry's port can release now (R419, R421): the rest of its frame in progress, or a frame that fits
its window. -/
def portNext (c n : Fin 16) (s : State) : Option (Option Next) :=
  if !tmReady c n s then none
  else if (flightOn c n s).isSome then some none
  else
    match chooseNext c n s with
    | some x =>
      if s.get (TM.hUnsent (quadOf c) (kOf c) n) + charged x.frame.bytes ≤ window c n s then some (some x) else none
    | none => none

/-! ## Release (R413, R419, R421, R423) -/

/-- A frame in progress ends with an error control block and is counted (R413, R427). -/
def flightEnds (f : Flight) (s : State) : State :=
  tmCount (quadOf f.c) cEccDisc 1 ({ s with flights := s.flights.erase f }.send (.quantum f.c f.n [] 2))

/-- `b` charged bytes of a frame in progress are released to its port. -/
def flightReleases (f : Flight) (b : Nat) (s : State) : State :=
  let rest := s.flights.erase f
  let last := decide (charged f.bytes ≤ f.done + b)
  let s := { s with flights := if last then rest else rest ++ [{ f with done := f.done + b }] }
  let s := s.incStick (TM.hUnsent (quadOf f.c) (kOf f.c) f.n) b
  s.send (.quantum f.c f.n (slice f.bytes f.done b) last.toNat)

/-- One quantum of the frame in progress on port n (R419): up to QUANTUM × 64 bytes, as QUANTUM was at its start (R426), ending
early only at the frame's end. `ue` — the read of its cells finds an uncorrectable error (R413, R539). -/
def releaseQuantum (c n : Fin 16) (ue : Bool) (s : State) : State :=
  match flightOn c n s with
  | some f =>
    if ue then flightEnds f s
    else flightReleases f (min f.quantum (charged f.bytes - f.done)) s
  | none => s

/-- The deficits and the order of a normal frame's nodes as its start leaves them (R422). -/
def commitNormal (c n : Fin 16) (size : Nat) (subs : List (Fin 4096 × Nat)) (svcs : List (Fin 256 × Nat)) (s : State) : State :=
  let q := quadOf c
  let k := kOf c
  let s := forL subs (fun y s => s.put (TM.hSubDef q y.1) y.2) s
  let s := forL svcs (fun y s => s.put (TM.hSvcDef q k y.1) y.2) s
  let moved := svcs.map (fun y => TmNode.svc c y.1) ++ subs.map (fun y => TmNode.sub q y.1)
  let s := { s with order := s.order.filter (fun m => !moved.contains m) ++ moved }
  match subs, svcs with
  | (x, d) :: _, (v, e) :: _ =>
    (((s.put (TM.hSubDef q x) (d - size)).put (TM.hSvcDef q k v) (e - size)).put (TM.hCurSub q k v) (x.val + 1)).put
      (TM.hCurSvc q k n) (v.val + 1)
  | _, _ => s

/-- The shapers of a frame started are debited (R423). -/
def debitNext (c n : Fin 16) (x : Next) (s : State) : State :=
  let now := beatOf c s
  let size := charged x.frame.bytes
  match x with
  | .express _ => (expShaper c n s).debit now size s
  | .normal f _ svcs =>
    let q := quadOf c
    let s := if subRate q f.x s = 0 then s else wheelShow q f.x ((subShaper q f.x s).debit now size s)
    match svcs with
    | (v, _) :: _ => if snRate (svc c v s) = 0 then s else (svcShaper c v s).debit now size s
    | [] => s

/-- A frame leaves its queue and is started on port n; with an uncorrectable error in its first quantum it is discarded
whole (R413, R539). -/
def startFrame (c n : Fin 16) (x : Next) (ue : Bool) (s : State) : State :=
  let f := x.frame
  let s' := ctxShow f.q f.x { s with queued := s.queued.erase f }
  if ue then tmCount (quadOf c) cEccDisc 1 s'
  else
    let s := match x with
      | .express _ => s'
      | .normal _ subs svcs => commitNormal c n (charged f.bytes) subs svcs s'
    let s := debitNext c n x s
    releaseQuantum c n false { s with flights := s.flights ++ [⟨c, n, f.exp, f.bytes, 0, prQuantum (portRow c n s)⟩] }

/-- The first of the calendar entries from place i on, `m` of them, whose port can release, with its place (R419). -/
def scanCalendar (c : Fin 16) (len : Nat) (s : State) : Nat → Nat → Option (Nat × Fin 16 × Option Next)
  | _, 0 => none
  | i, m + 1 =>
    let e := calEntry (quadOf c) (kOf c) true (i % len) s
    let n : Fin 16 := Fin.ofNat 16 (e % 16)
    match (if bit e 7 then portNext c n s else none) with
    | some x => some (i % len, n, x)
    | none => scanCalendar c len s (i + 1) m

/-- The bytes that the ports' IMP streams have taken since the last beat (R421). -/
def portsSend (c : Fin 16) (taken : List Nat) (s : State) : State :=
  forFin 16 (fun n s =>
    let f := TM.hUnsent (quadOf c) (kOf c) n
    if taken.getD n.val 0 = 0 then s else s.put f (s.get f - taken.getD n.val 0)) s

/-- The words of the port and calendar table that a release reads: CAL_LEN, the entry served and the port's row (R415). -/
def entryReads (q k : Fin 4) (i : Nat) (n : Fin 16) (s : State) : State :=
  blockReads ([16, 32 + i / 8, n.val].map fun w => calWord q true (256 * k.val + w)) s

/-- The scheduler reads what it needs of the contexts that hold frames: their words 0, 3 and 5 (R406). -/
def schedReads (q : Fin 4) (s : State) : State :=
  forL ((s.queued.filter fun f => f.q == q).map (·.x)).dedup (fun x s => ctxReads q x [0, 3, 5] s) s

/-- SCHEDULER_BEAT (R406, R413, R419 to R423): one beat of carrier c's scheduler. `taken` — the bytes that each port's IMP stream
has taken; `ue` — the read of the cells of this beat's quantum finds an uncorrectable error. -/
def execSchedulerBeat (c : Fin 16) (taken : List Nat) (ue : Bool) (s : State) : Out :=
  act s fun s =>
    let q := quadOf c
    let k := kOf c
    let ptr := TM.hPtr q k
    let s := (portsSend c taken s).incWrap (TM.hBeat q k) 1
    if !pageOn (.tm q) s then s
    else
      let s := orderSync q (schedReads q s)
      let len := calLen q k true s
      let s :=
        if len = 0 then s
        else
          match scanCalendar c len s (s.get ptr) (min 8 len) with
          | some (i, n, some x) => (startFrame c n x ue (entryReads q k i n s)).put ptr ((i + 1) % len)
          | some (i, n, none) => (releaseQuantum c n ue (entryReads q k i n s)).put ptr ((i + 1) % len)
          | none => s.put ptr ((s.get ptr + 8) % len)
      orderSync q (forFin 16 (fun n s => s.putB (TM.hHold q k n) false) s)

/-! ## Credit and the timing wheel -/

/-- The enabled service nodes of carrier c. -/
def svcLive (c : Fin 16) (s : State) : List (Fin 256) :=
  ((s.live (svcWord (quadOf c) (kOf c).val 0) 256).map (Fin.ofNat 256)).filter fun v => snEn (svc c v s)

/-- BUCKET_CREDIT (R406, R409, R423): every 16 beats the policer buckets and the shapers of a quadrant are credited; the words
of the contexts are read for it. -/
def execBucketCredit (q : Fin 4) (s : State) : Out :=
  act s fun s =>
    let n := s.get (TM.hCredit q)
    let s := s.incWrap (TM.hCredit q) 1
    let s := forL (ctxLive q s) (fun x s => if s.flag (TM.hFault q x.1) then s else ctxReads q x.1 (List.range 5) s) s
    let s := forL (ctxLive q s) (fun x s =>
      let s := if (tcPol x.2 = 1 ∨ tcPol x.2 = 2) ∧ !s.flag (TM.hFault q x.1) then polCredit q x.1 (tcPol x.2) n s else s
      if !tcExpress x.2 && subRate q x.1 s != 0 then (subShaper q x.1 s).credit n s else s) s
    forFin 4 (fun k s =>
      let c := carOf q k
      let s := forL (svcLive c s) (fun v s => if snRate (svc c v s) = 0 then s else (svcShaper c v s).credit n s) s
      forFin 16 (fun n' s => if prEn (portRow c n' s) then (expShaper c n' s).credit n s else s) s) s

/-- A node on the wheel when a slot is reached at a beat (R424): on the coarse ring, a node with E less than 8,192 beats
ahead moves to the fine ring; on the fine ring, a node whose slot ⌈E / 2⌉ is reached leaves the wheel, and is entered
again if its level is still below 0. -/
def Shaper.slot (h : Shaper) (coarse : Bool) (now : Nat) (s : State) : State :=
  let e := s.get h.e - 1
  if s.get h.e = 0 then s
  else if coarse then if s.flag h.ring ∧ e < now + 8192 then s.putB h.ring false else s
  else if !s.flag h.ring ∧ (e + 1) / 2 * 2 ≤ now then h.enter now (s.put h.e 0)
  else s

/-- WHEEL_SLOT_REACHED (R424, R425): the fine or the coarse slot of the beat is reached on carrier c's wheel; Express
shapers come first, then subscriber nodes, then service nodes. -/
def execWheelSlotReached (c : Fin 16) (coarse : Bool) (s : State) : Out :=
  act s fun s =>
    let q := quadOf c
    let now := beatOf c s
    let s := forFin 16 (fun n s => (expShaper c n s).slot coarse now s) s
    let s := forL ((ctxLive q s).filter fun x => tcK x.2 == kOf c && !tcExpress x.2) (fun x s =>
      if s.get (TM.hSubE q x.1) = 0 then s else wheelShow q x.1 ((subShaper q x.1 s).slot coarse now s)) s
    orderSync q (forL (svcLive c s) (fun v s => (svcShaper c v s).slot coarse now s) s)

/-! ## Classification, context writes -/

/-- A frame from the client port whose first lane is lane n of group g reaches the classifier (R391, R399 to R412, R439). A
port that is not UP, or is no PKT port, lets nothing into the traffic manager. -/
def classifyFrame (g : Fin 32) (n : Fin 8) (fr : EthFrame) (s : State) : State :=
  let q := groupQuad g
  if portState g n s != ptUp || portUse g n s != usePkt then s
  else if !pageOn (.tm q) s then tmCount q cNotupDisc 1 s
  else if frameBad fr then tmCount q cClsDisc 1 s
  else
    let i := portIndex g n
    let s := blockReads [portMapWord q (2 * i), portMapWord q (2 * i + 1)] s
    match classify q i fr.bytes s with
    | some x => orderSync q (toContext q x fr s)
    | none => tmCount q cClsDisc 1 s

/-- The window address of word w of context x (R402). -/
def contextAddr (q : Fin 4) (x : Fin 4096) (w : Nat) : Nat := 0x0340_0000 + q.val * 0x30_0000 + 0x8_0000 + 128 * x.val + 8 * w

/-- A word of a context is written, and the scheduler follows: a write of word 0 that changes K or SVC moves the node to its new
parent (R403). -/
def ctxWritten (m : Master) (q : Fin 4) (x : Fin 4096) (w : Nat) (full : Bool) (d : Nat) (s : State) : State :=
  let s' := ctxWrite m q x w full d s
  let k := tcK (ctx q x 0 s)
  let v := tcSvc (ctx q x 0 s)
  if k = tcK (ctx q x 0 s') ∧ v = tcSvc (ctx q x 0 s') then orderSync q s'
  else
    let s' := if s'.get (TM.hCurSub q k v) = x.val + 1 then s'.put (TM.hCurSub q k v) 0 else s'
    orderSync q { s' with order := s'.order.filter fun n => n != .sub q x }

/-- A 64-bit write to word 0 of a context. -/
def contextCmd (m : Master) (q : Fin 4) (x : Fin 4096) (d : Nat) (s : State) : State :=
  winCmd m ⟨.context, .tm q, 16 * x.val, false, contextWord q x.val 0⟩ false (contextAddr q x 0) 8 d
    (fun d s => ctxWritten m q x 0 true d s) s

/-- CONTEXT_ENABLE (R403, R406, R407): word 0 written with EN = 1 and FLUSH = 0. -/
def execContextEnable (m : Master) (q : Fin 4) (x : Fin 4096) (v : Nat) (s : State) : Out :=
  act s fun s => contextCmd m q x (setBits (2 ^ 63 + v % 2 ^ 63) 57 1 0) s

/-- FLUSH (R405): word 0 written with FLUSH = 1. The discard is made at once. -/
def execFlush (m : Master) (q : Fin 4) (x : Fin 4096) (v : Nat) (s : State) : Out :=
  act s fun s => contextCmd m q x (setBits (v % 2 ^ 64) 57 1 1) s

/-! ## Hinges (R418, R426, R427) -/

/-- The TM page's active content is replaced by its standby content (R80, R426): a frame in progress on a port that no
calendar entry serves any more completes at once (log entry 38). -/
def tmSwap (q : Fin 4) (s : State) : State :=
  let s := s.copyRange (calWord q false 0) (calWord q true 0) 1024
  let s := forFin 4 (fun k s =>
    let len := calLen q k true s
    s.put (TM.hPtr q k) (if len = 0 then 0 else s.get (TM.hPtr q k) % len)) s
  let lost := s.flights.filter fun f => quadOf f.c == q && !prEn (portRow f.c f.n s)
  orderSync q (forL lost (fun f s => flightReleases f (charged f.bytes - f.done) s) s)

/-- The ports of a quadrant that a TSI hinge disturbs, given the tributaries disturbed and both views of their
descriptors (R427). -/
def portsDisturbed (q : Fin 4) (ds : List (Nat × Nat)) : List (Fin 16 × Fin 16) :=
  let ports := ds.flatMap fun d => (([d.1, d.2].filter fun w => tdEn w && tdImp w).map fun w =>
    (carOf q (Fin.ofNat 4 (tdClient w / 16)), (Fin.ofNat 16 (tdClient w) : Fin 16)))
  ports.dedup

/-- A port's tributary is disturbed (R427): it is not ready for the releases of the hinge beat, and a frame in progress is
ended. -/
def portDisturb (c n : Fin 16) (s : State) : State :=
  let s := s.putB (TM.hHold (quadOf c) (kOf c) n) true
  match flightOn c n s with
  | some f => flightEnds f s
  | none => s

/-- The Express sums of every port of a quadrant that is in use, port n of carrier 4q + k at place 16k + n: whether they meet
R417. -/
def portsSums (q : Fin 4) (s : State) : List Bool :=
  (List.range 64).map fun i =>
    let c := carOf q (Fin.ofNat 4 (i / 16))
    let n : Fin 16 := Fin.ofNat 16 i
    let w := portRow c n s
    !prEn w || sumsOk c n (prShare w) (feeding c n none s) s

/-- A TSI hinge has changed the M of ports (R418): those whose Express sums no longer meet R417 are recorded. -/
def portsRated (q : Fin 4) (old : List Bool) (s : State) : State :=
  let now := portsSums q s
  forL (List.range 64) (fun i s => if old.getD i true && !now.getD i true then tmReject q rejRate i s else s) s

end Sys2Proof.Machine
end

