-- ==== Sys2Proof/Machine/Timing.lean ====
section
/-! DEFINITION. Time, frequency and references (chapter 13 without PTP): device time, steps and labels (R494 to R497),
the references (R477 to R482), the DPLL (R483 to R493), the outputs (R498 to R504), line time transfer (R505 to R512)
and the ToD input (R513, R514). -/
namespace Sys2Proof.Machine

/-! ## Quotients and open values -/

/-- A field set to a signed value; free where the value does not fit, since the spec states none (log entry 3). -/
def State.putOpen (s : State) (f : Fld) (i : Int) : State :=
  if -(2 ^ (f.width - 1) : Int) ≤ i ∧ i < (2 ^ (f.width - 1) : Int) then s.puti f i else s.putFree f

/-! ## Device time (R473) -/

/-- 2^-16 ns in a second, and in a tick of 1,000,000 beats (R21; log entry 56). -/
def secU : Nat := 65536000000000
def tickU : Nat := 52428800000

/-- A time in 2^-16 ns since the epoch, and back; the seconds field wraps at 48 bits. -/
def timeUnits (t : DevTime) : Nat := (t.sec * 1000000000 + t.ns) * 65536 + t.frac
def timeOf (u : Nat) : DevTime := ⟨u / secU % 2 ^ 48, u % secU / 65536, u % 65536⟩

/-- A time moved by a signed number of 2^-16 ns. -/
def timePlus (t : DevTime) (d : Int) : DevTime := timeOf (((timeUnits t : Int) + d) % ((2 ^ 48 * secU : Nat) : Int)).toNat

/-- A step in ps, rounded to the nearest 2^-16 ns (R494): 1 ps is 8192/125 of them. -/
def stepUnits (ps : Int) : Int := (ps * 16384 + 125) / 250

/-! ## Outputs: fields by output -/

/-- EN of output o: CLKO0 to CLKO3, PPSO0, PPSO1, FPO0, FPO1 (R523). -/
def outEn (o : Fin 8) : Fld :=
  if o.val < 4 then TIMING2.CLKO_CFG_EN (Fin.ofNat 4 o.val)
  else if o.val < 6 then TIMING2.PPSO_CFG_EN (Fin.ofNat 2 o.val)
  else TIMING2.FPO_CFG_EN (Fin.ofNat 2 o.val)

/-- Device time has moved by d, in 10^-4 of 2^-16 ns, and output time has not (R498). -/
def outputsLag (d : Int) (s : State) : State :=
  if d = 0 then s
  else forFin 8 (fun o s =>
    if s.flag (outEn o) then (s.puti (TIMING2.hMis o) (s.geti (TIMING2.hMis o) - d)).raise .timing2 0 else s) s

/-- What CLKOn sends (R499, R500): FREQ, with M1001 times 1000/1001, and a pull toward MIS 0; nothing without the core
synthesiser (R671, R680). -/
def clockShape (n : Fin 4) (s : State) : Nat × Nat × Int :=
  let mis := s.geti (TIMING2.hMis (Fin.ofNat 8 n.val))
  let slope : Int := s.get (TIMING2.PULL_CFG_SLOPE n)
  if pageOn .timing2 s && s.flag (TIMING2.CLKO_CFG_EN n) && s.flag PWR.hSynthLock then
    let m := s.flag (TIMING2.CLKO_CFG_M1001 n)
    (s.get (TIMING2.CLKO_FREQ n) * (if m then 1000 else 1), if m then 1001 else 1,
      if s.flag (TIMING2.CLKO_MIS_HI_PULLING n) then (if 0 < mis then -slope else if mis < 0 then slope else 0) else 0)
  else (0, 1, 0)

/-- CLKOn follows its registers. -/
def clockOut (n : Fin 4) (s : State) : State :=
  let x := clockShape n s
  s.send (.clock n x.1 x.2.1 x.2.2)

/-- Device time moves by `u` (2^-16 ns), that is `ps`: every phase against it moves with it (R477, R498), and a pull takes its new
direction (R500). -/
def timeMoves (u ps : Int) (s : State) : State :=
  let s := outputsLag (10000 * u) { s with time := timePlus s.time u }
  let s := forFin 4 (fun n s => if s.flag (TIMING2.CLKO_MIS_HI_PULLING n) then clockOut n s else s) s
  forFin 8 (fun n s => s.puti (TIMING1.hPhase n) (s.geti (TIMING1.hPhase n) - ps)) s

/-! ## References -/

/-- The kind of reference n: 0 F, 1 P, 2 T (R477). -/
def refKind (n : Fin 8) (s : State) : Nat :=
  let pps := s.flag (TIMING1.REF_CFG_PPS_EN n)
  match n.val with
  | 0 => if pps then if s.flag (TIMING1.REF_CFG_TOD_EN 0) then 2 else 1 else 0
  | 1 => if pps then 1 else 0
  | 2 | 3 => 0
  | 4 | 5 => if s.flag (TIMING1.REF_CFG_TIME_MODE n) then 2 else 0
  | 6 => 1
  | _ => 2

/-- A phase folded into (-0.5 s, +0.5 s] (R477). -/
def foldPhase (p : Int) : Int :=
  let r := p % 1000000000000
  if 500000000000 < r then r - 1000000000000 else r

/-- The phase of reference n less device time: folded for P, 0 for F (R477). -/
def refPhase (n : Fin 8) (s : State) : Int :=
  match refKind n s with
  | 0 => 0
  | 1 => foldPhase (s.geti (TIMING1.hPhase n))
  | _ => s.geti (TIMING1.hPhase n)

/-- REF_PHASE of reference n follows its phase; it saturates (R522). -/
def showPhase (n : Fin 8) (s : State) : State :=
  s.puti (TIMING1.REF_PHASE n) (clampI (-2147483647) 2147483647 (refPhase n s))

/-- Reference n is faulty (R478, R520). -/
def refFaulty (n : Fin 8) (s : State) : Bool :=
  !pageOn .timing1 s || !s.flag (TIMING1.REF_STAT_ACTIVE n) || s.flag (TIMING1.REF_STAT_FREQ_FAULT n)
    || s.flag (TIMING1.REF_STAT_PPS_FAULT n) || s.flag (TIMING1.REF_STAT_MSG_FAULT n) || s.flag (TIMING1.REF_STAT_LOOP n)

/-- The selected reference. -/
def selectedRef (s : State) : Option (Fin 8) :=
  if s.flag TIMING0.DPLL_STAT_SEL_VALID then some (Fin.ofNat 8 (s.get TIMING0.DPLL_STAT_SEL)) else none

/-- The count of fault-free ticks of reference n starts, or starts again (R479). -/
def qualRestart (n : Fin 8) (s : State) : State :=
  let wtr := s.flag (TIMING1.hWtr n)
  let s := s.put (TIMING1.WTR_LEFT n) (if wtr then s.get TIMING0.REF_WTR else max 1 (s.get TIMING0.QUAL_QUAL_TICKS))
  s.putB (TIMING1.REF_STAT_WTR_RUN n) (wtr && !refFaulty n s)

/-- Reference n stops being QUALIFIED (R479), and the DPLL freezes if it is the selected one (R488). -/
def unqualify (n : Fin 8) (s : State) : State :=
  let s := (s.raiseIf .timing1 0 (s.flag (TIMING1.REF_STAT_QUALIFIED n))).putB (TIMING1.REF_STAT_QUALIFIED n) false
  if selectedRef s = some n then s.putB TIMING0.DPLL_STAT_FAST_HOLD true else s

/-- Reference n has become faulty (R479). -/
def refFails (n : Fin 8) (s : State) : State :=
  let s := if s.flag (TIMING1.REF_STAT_QUALIFIED n) then s.putB (TIMING1.hWtr n) true else s
  qualRestart n (unqualify n s)

/-- A fault of reference n has ended: without another one, its count starts (R479). -/
def refReturns (n : Fin 8) (s : State) : State :=
  if refFaulty n s || s.flag (TIMING1.REF_STAT_QUALIFIED n) then s else qualRestart n s

/-- The lane, or the carrier and stream, that REF_CFG names (R522). -/
def refLane (n : Fin 8) (s : State) : Fin 32 × Fin 8 :=
  let l := s.get (TIMING1.REF_CFG_SRC n)
  (Fin.ofNat 32 (l / 8), Fin.ofNat 8 l)
def refCarrier (n : Fin 8) (s : State) : Fin 16 := Fin.ofNat 16 (s.get (TIMING1.REF_CFG_SRC n) / 16)
def refStream (n : Fin 8) (s : State) : Fin 16 := Fin.ofNat 16 (s.get (TIMING1.REF_CFG_SRC n))

/-- The reference has no clock, where the engine's own state shows it (R478): none where only the pins do. -/
def refNoClk (n : Fin 8) (s : State) : Option Bool :=
  match n.val with
  | 2 | 3 =>
    let l := refLane n s
    some (!s.flag (LANEGRP.LANE_STAT_CDR_LOCK l.1 l.2) || !s.flag (LANEGRP.LANE_STAT_CLK_PRESENT l.1 l.2))
  | 4 | 5 =>
    let c := refCarrier n s
    some (!inTraffic (streamState c (refStream n s) s) || (refKind n s == 0 && isHub c s))
  | 6 => some (!s.flag (TIMING1.REF_STAT_ACTIVE 6))
  | _ => none

/-- Row 0 or 1 of line time transfer, for REF4 and REF5 (R524). -/
def ltRow (n : Fin 8) : Fin 2 := Fin.ofNat 2 n.val

/-- A fault applies to reference n (R478). -/
def faultApplies (n : Fin 8) (k : RefFault) (s : State) : Bool :=
  match k with
  | .noClk => n != 6
  | .freq => decide (n.val ≤ 5)
  | .pps => (decide (n.val ≤ 1) && refKind n s != 0) || n == 7
  | .msg => (n == 0 && refKind n s == 2) || n == 7 || (decide (4 ≤ n.val ∧ n.val ≤ 5) && refKind n s == 2)
  | .loop => decide (4 ≤ n.val ∧ n.val ≤ 5) && refKind n s == 2

/-- Whether the condition of a fault holds, where the engine's own state shows it (R478, R511). -/
def faultSeen (n : Fin 8) (k : RefFault) (s : State) : Option Bool :=
  let time := decide (4 ≤ n.val ∧ n.val ≤ 5)
  match k with
  | .noClk => refNoClk n s
  | .freq => some (decide (s.get (TIMING1.REF_LIM_FREQ_LIM n) < (s.geti (TIMING1.REF_STAT_FOFS n)).natAbs))
  | .pps => none
  | .msg =>
    if time then
      some (decide (8 ≤ s.get (OTU.hMfSince (refCarrier n s) (refStream n s)))
        || !s.flag (TIMING3.LTT_STAT_FAR_TV (ltRow n)))
    else if s.flag TIMING3.hTodBad then some true else none
  | .loop => if s.flag (TIMING3.LTT_STAT_LOOP (ltRow n)) then some true else none

/-- The flag of a fault in REF_STAT, and the value it has while the fault holds. -/
def faultFlag (n : Fin 8) : RefFault → Fld × Bool
  | .noClk => (TIMING1.REF_STAT_ACTIVE n, false)
  | .freq => (TIMING1.REF_STAT_FREQ_FAULT n, true)
  | .pps => (TIMING1.REF_STAT_PPS_FAULT n, true)
  | .msg => (TIMING1.REF_STAT_MSG_FAULT n, true)
  | .loop => (TIMING1.REF_STAT_LOOP n, true)

/-- A fault of reference n enters. -/
def faultEnter (n : Fin 8) (k : RefFault) (s : State) : State :=
  let f := faultFlag n k
  let s := if k = .loop ∧ !s.flag f.1 then s.raise .timing3 2 else s
  refFails n (s.putB f.1 f.2)

/-- REF_FAULT (R478): reference n meets a fault condition. -/
def execRefFault (n : Fin 8) (k : RefFault) (s : State) : Out :=
  act s fun s => if faultApplies n k s && (faultSeen n k s).getD true then faultEnter n k s else s

/-- A condition of reference n has ended: FREQ_FAULT at 7/8 of its limit or below, the others where they no longer
hold (R478). -/
def faultOver (n : Fin 8) (k : RefFault) (s : State) : Bool :=
  match k with
  | .freq => decide (8 * (s.geti (TIMING1.REF_STAT_FOFS n)).natAbs ≤ 7 * s.get (TIMING1.REF_LIM_FREQ_LIM n))
  | k => !(faultSeen n k s).getD false

/-- REF_FAULT_CLEAR (R479): a fault condition of reference n ends; ACTIVE sets with it, and the count of fault-free ticks
starts. REF6 becomes active by UPDATE alone. -/
def execRefFaultClear (n : Fin 8) (k : RefFault) (s : State) : Out :=
  act s fun s =>
    if n = 6 then s
    else if faultOver n k s then
      let f := faultFlag n k
      let s := s.putB f.1 (!f.2)
      let s := if (refNoClk n s).getD false then s else s.putB (TIMING1.REF_STAT_ACTIVE n) true
      refReturns n s
    else s

/-- REF_QUALIFIED (R479): the fault-free ticks are complete. -/
def execRefQualified (n : Fin 8) (s : State) : Out :=
  act s fun s =>
    if !refFaulty n s && !s.flag (TIMING1.REF_STAT_QUALIFIED n) && s.get (TIMING1.WTR_LEFT n) == 0 then
      ((s.putB (TIMING1.REF_STAT_QUALIFIED n) true).putB (TIMING1.REF_STAT_WTR_RUN n) false).raise .timing1 0
    else s

/-- The fields that REF_CFG of reference n has (R522). -/
def refCfgMask (n : Fin 8) : Nat :=
  match n.val with
  | 0 => 0xC00FFFFF
  | 1 => 0x800FFFFF
  | 2 | 3 => 0x0FF00000
  | 4 | 5 => 0x2FF00000
  | _ => 0

/-- A write of REF_CFG[n]: qualification restarts, even of the selected reference (R479, R522). Faults that no longer
apply end, and a clock that the engine's own state shows is judged at once. -/
def refCfgEff (n : Fin 8) (v : Nat) (s : State) : State :=
  let v := v &&& refCfgMask n
  let s := (((s.put (TIMING1.REF_CFG_PPS_EN n) (bits v 31 1)).put (TIMING1.REF_CFG_TOD_EN n) (bits v 30 1)).put
    (TIMING1.REF_CFG_TIME_MODE n) (bits v 29 1)).put (TIMING1.REF_CFG_SRC n) (bits v 20 8)
  let s := s.put (TIMING1.REF_CFG_FREQ n) (bits v 0 20)
  let s := forL [RefFault.freq, .pps, .msg, .loop] (fun k s =>
    if faultApplies n k s then s else s.putB (faultFlag n k).1 false) s
  let s := match refNoClk n s with
    | some b => s.putB (TIMING1.REF_STAT_ACTIVE n) (!b)
    | none => s
  showPhase n (qualRestart n ((unqualify n s).putB (TIMING1.hWtr n) false))

/-- REF_CFG_WRITE (R522). -/
def execRefCfgWrite (m : Master) (n : Fin 8) (v : Nat) (s : State) : Out :=
  act s fun s => writeCmd m .timing1 (0x100 + 0x20 * n.val) v (refCfgEff n v) s

/-- A write of REF6_CMD (R478, R482): UPDATE takes the offset and makes REF6 active; INVALID makes it inactive until the
next UPDATE. Of both in one write, INVALID is the later. -/
def ref6Eff (v : Nat) (s : State) : State :=
  let s := if bit v 0 then
      let s := s.puti TIMING1.hRef6Ofs (toInt 48 (s.get TIMING1.REF6_OFS_HI * 2 ^ 32 + s.get TIMING1.REF6_OFS_LO))
      let old := (List.finRange 64).map (fun k => s.get (TIMING1.hUpd k))
      let s := forFin 64 (fun k s => s.put (TIMING1.hUpd k) ((s.tickCount :: old).getD k.val 0)) s
      let s := (s.put TIMING1.hUpdN (min 64 (s.get TIMING1.hUpdN + 1))).put TIMING1.hRef6Ticks 0
      refReturns 6 ((s.putB TIMING1.hRef6New true).putB (TIMING1.REF_STAT_ACTIVE 6) true)
    else s
  if bit v 1 then refFails 6 (s.putB (TIMING1.REF_STAT_ACTIVE 6) false) else s

/-- UPDATE (R482). -/
def execUpdate (m : Master) (s : State) : Out := act s fun s => writeCmd m .timing1 0x04C 1 (ref6Eff 1) s

/-- INVALID (R478). -/
def execInvalid (m : Master) (s : State) : Out := act s fun s => writeCmd m .timing1 0x04C 2 (ref6Eff 2) s

/-- REF6_TIMEOUT (R478): REF6_TIMEOUT ticks have passed without an UPDATE. -/
def execRef6Timeout (s : State) : Out :=
  act s fun s =>
    if s.flag (TIMING1.REF_STAT_ACTIVE 6)
        && decide (max 1 (s.get TIMING1.REF6_CFG_REF6_TIMEOUT) ≤ s.get TIMING1.hRef6Ticks) then
      (refFails 6 (s.putB (TIMING1.REF_STAT_ACTIVE 6) false)).raise .timing1 1
    else s

/-- REF_SUM (R522). -/
def refSum (s : State) : Nat :=
  256 * mask 8 (fun n => s.flag (TIMING1.REF_STAT_ACTIVE (Fin.ofNat 8 n)))
    + mask 8 (fun n => s.flag (TIMING1.REF_STAT_QUALIFIED (Fin.ofNat 8 n)))

/-! ## Selection (R480) -/

/-- The active priority of reference n (R481). -/
def refPrio (n : Fin 8) (s : State) : Nat := s.get (TIMING0.REF_PRIO n).active

/-- QUALIFIED, with a priority other than 0 (R480). -/
def refUsable (n : Fin 8) (s : State) : Bool := s.flag (TIMING1.REF_STAT_QUALIFIED n) && refPrio n s != 0

/-- The usable reference with the smallest priority, the lower index on a tie. -/
def bestRef (s : State) : Option (Fin 8) :=
  (List.finRange 8).foldl (fun a n =>
    if refUsable n s then
      match a with
      | some k => if refPrio n s < refPrio k s then some n else a
      | none => some n
    else a) none

/-- The selection of a tick (R480). -/
def selectRef (s : State) : Option (Fin 8) :=
  let f : Fin 8 := Fin.ofNat 8 (s.get TIMING0.DPLL_CTRL_FORCE_SEL)
  if s.flag TIMING0.DPLL_CTRL_FORCE_SEL_EN && refUsable f s then some f
  else match selectedRef s with
    | some n =>
      if refUsable n s && (!s.flag TIMING0.DPLL_CTRL_REVERTIVE
          || (List.finRange 8).all (fun k => !(refUsable k s && decide (refPrio k s < refPrio n s)))) then some n
      else bestRef s
    | none => bestRef s

/-- The build-out of the selected reference n: 0 in the registers for F, and for every other reference (R492). -/
def setBo (n : Fin 8) (ps : Int) (s : State) : State :=
  let ps := if refKind n s = 0 then 0 else ps
  let s := s.puti TIMING0.hBo ps
  if -(2 ^ 47 : Int) ≤ ps ∧ ps < 2 ^ 47 then
    (s.put (TIMING1.BO_LO n) (ofInt 48 ps)).put (TIMING1.BO_HI n) (ofInt 48 ps / 2 ^ 32)
  else (s.putFree (TIMING1.BO_LO n)).putFree (TIMING1.BO_HI n)

/-- The selected reference changes (R480, R492). -/
def setSelected (r : Option (Fin 8)) (s : State) : State :=
  if selectedRef s = r then s
  else
    let s := forFin 8 (fun n s => ((s.put (TIMING1.BO_LO n) 0).put (TIMING1.BO_HI n) 0).putB
      (TIMING1.REF_STAT_SELECTED n) (r == some n)) (s.puti TIMING0.hBo 0)
    ((s.putB TIMING0.DPLL_STAT_SEL_VALID r.isSome).put TIMING0.DPLL_STAT_SEL ((r.map (·.val)).getD 0)).raise .timing0 1

/-! ## Steps and labels (R494 to R497) -/

/-- The pending label is taken: the seconds field takes the captured value (R495). -/
def labelApply (s : State) : State :=
  let d : Int := (s.get TIMING0.hSec : Int) - s.time.sec
  let s := timeMoves (d * secU) (d * 1000000000000) s
  ((s.putB TIMING0.TIME_STAT_SEC_PEND false).putB TIMING0.hLabelled true).raise .timing0 5

/-- Device time counts forward; a whole second passed takes the pending label (R495). -/
def timeCounts (u : Nat) (s : State) : State :=
  let t := timeUnits s.time
  let s := { s with time := timeOf (t + u) }
  if s.flag TIMING0.TIME_STAT_SEC_PEND && t / secU != (t + u) / secU then labelApply s else s

/-- Device time steps by `ps` (R494). A forward step past a whole second takes the pending label (R495). -/
def stepBy (ps : Int) (s : State) : State :=
  let t := timeUnits s.time
  let s := timeMoves (stepUnits ps) ps s
  let s := (s.incWrap TIMING0.TIME_STAT_COUNT 1).raise .timing0 4
  if s.flag TIMING0.TIME_STAT_SEC_PEND && decide (0 < ps) && t / secU != timeUnits s.time / secU then labelApply s else s

/-- Device time reaches the instant of the next tick (R497). -/
def toTick (s : State) : State := (timeCounts (tickU - s.get PWR.hPart) s).put PWR.hPart tickU

/-- The pending step is applied at the tick, and subtracted from the build-out of the selected reference (R494). -/
def stepApply (s : State) : State :=
  if s.flag TIMING0.TIME_STAT_STEP_PEND then
    let ps := s.geti TIMING0.hStep
    let s := stepBy ps (s.putB TIMING0.TIME_STAT_STEP_PEND false)
    match selectedRef s with
    | some n => setBo n (s.geti TIMING0.hBo - ps) s
    | none => s
  else s

/-- STEP_APPLY (R494, R497): the pending step is added to device time at the tick. -/
def execStepApply (s : State) : Out :=
  act s fun s => if s.flag PWR.hSynthLock && s.flag TIMING0.TIME_STAT_STEP_PEND then stepApply (toTick s) else s

/-- SEC_LABEL_APPLY (R495): device time reaches the next whole second within the tick interval in progress, and the
pending label is taken. -/
def execSecLabelApply (s : State) : Out :=
  act s fun s =>
    let u := secU - timeUnits s.time % secU
    if s.flag PWR.hSynthLock && s.flag TIMING0.TIME_STAT_SEC_PEND && decide (s.get PWR.hPart + u ≤ tickU) then
      (timeCounts u s).put PWR.hPart (s.get PWR.hPart + u)
    else s

/-- A time command is rejected or accepted (R496, R521). -/
def timeReject (s : State) : State := (s.putB TIMING0.TIME_STAT_REJ true).raise .timing0 6
def timeAccept (s : State) : State := s.putB TIMING0.TIME_STAT_REJ false

/-- A step is pending (R494). -/
def stepPend (ps : Int) (s : State) : State := ((timeAccept s).puti TIMING0.hStep ps).putB TIMING0.TIME_STAT_STEP_PEND true

/-- STEP_GO (R494, R496). -/
def stepGo (s : State) : State :=
  if s.flag TIMING0.TIME_STAT_STEP_PEND then timeReject s
  else stepPend (toInt 48 (s.get TIMING0.STEP_HI * 2 ^ 32 + s.get TIMING0.STEP_LO)) s

/-- SEC_GO (R495, R496). -/
def secGo (s : State) : State :=
  if s.flag TIMING0.TIME_STAT_SEC_PEND then timeReject s
  else ((timeAccept s).put TIMING0.hSec (s.get TIMING0.SEC_SET_HI * 2 ^ 32 + s.get TIMING0.SEC_SET_LO)).putB
    TIMING0.TIME_STAT_SEC_PEND true

/-- BO_APPLY (R496). -/
def boApply (s : State) : State :=
  match selectedRef s with
  | some n =>
    if refKind n s = 0 ∨ s.flag TIMING0.TIME_STAT_STEP_PEND then timeReject s else stepPend (s.geti TIMING0.hBo) s
  | none => timeReject s

/-- TIME_VALID takes a value; clearing it also forgets that the seconds were labelled (R485). -/
def setTimeValid (b : Bool) (s : State) : State :=
  let s := s.raiseIf .timing0 2 (s.flag TIMING0.DPLL_STAT_TIME_VALID != b)
  let s := s.putB TIMING0.DPLL_STAT_TIME_VALID b
  if b then s else s.putB TIMING0.hLabelled false

/-- A write of TIME_CMD, its bits taken from bit 0 upward (R521). -/
def timeCmdEff (v : Nat) (s : State) : State :=
  let s := if bit v 0 then stepGo s else s
  let s := if bit v 1 then secGo s else s
  let s := if bit v 2 then boApply s else s
  if bit v 3 then setTimeValid false (timeAccept s) else s

/-- STEP_GO. -/
def execStepGo (m : Master) (s : State) : Out := act s fun s => writeCmd m .timing0 0x0A0 1 (timeCmdEff 1) s
/-- SEC_GO. -/
def execSecGo (m : Master) (s : State) : Out := act s fun s => writeCmd m .timing0 0x0A0 2 (timeCmdEff 2) s
/-- BO_APPLY. -/
def execBoApply (m : Master) (s : State) : Out := act s fun s => writeCmd m .timing0 0x0A0 4 (timeCmdEff 4) s
/-- INVALIDATE (R485). -/
def execInvalidate (m : Master) (s : State) : Out := act s fun s => writeCmd m .timing0 0x0A0 8 (timeCmdEff 8) s

/-! ## The DPLL (R483) -/

/-- States of the DPLL (R521). -/
def dpFree : Nat := 0
def dpAcq : Nat := 1
def dpLocked : Nat := 2
def dpHold : Nat := 3
def dpLost : Nat := 4
def dpllState (s : State) : Nat := s.get TIMING0.DPLL_STAT_STATE

/-- HO_VALID takes a value; without it there is no history (R489, R490). -/
def setHoValid (b : Bool) (s : State) : State :=
  let s := (s.raiseIf .timing0 3 (s.flag TIMING0.DPLL_STAT_HO_VALID != b)).putB TIMING0.DPLL_STAT_HO_VALID b
  if b then s else { s.put TIMING0.hLockTicks 0 with hist := [] }

/-- The core synthesiser with the DPLL's state (R20): it follows the DPLL in ACQUIRING, LOCKED and HOLDOVER, and slews to
XO_IN from there. -/
def synthFollow (new : Nat) (s : State) : State :=
  if 1 ≤ new ∧ new ≤ 3 then s.put PWR.hSynth 2 else if s.get PWR.hSynth = 2 then s.put PWR.hSynth 1 else s

/-- The DPLL changes its state (R483). -/
def dpllGo (new : Nat) (s : State) : State :=
  let old := dpllState s
  if old = new then s
  else
    let s := ((s.put TIMING0.DPLL_STAT_STATE new).put TIMING0.hLockCnt 0).put TIMING0.hDwell 0
    let s := synthFollow new (s.raise .timing0 0)
    if old = dpLocked ∧ !s.flag TIMING0.DPLL_STAT_HO_VALID then { s.put TIMING0.hLockTicks 0 with hist := [] } else s

/-- The FREE_RUN rows of R483. -/
def dpllFree (s : State) : State := if dpllState s = dpFree then s else dpllGo dpFree (setTimeValid false s)

/-- The LOST rows of R483. -/
def dpllLost (s : State) : State := dpllGo dpLost (setTimeValid false s)

/-- The ticks of history that the holdover frequency averages: 2^HO_AVG s ending HO_DELAY ticks before the fault
(R489). -/
def holdSpan (s : State) : List Int :=
  (s.hist.drop (s.get TIMING0.HO_AVG_HO_DELAY)).take (1250 * 2 ^ s.get TIMING0.HO_AVG_HO_AVG)

/-- The DPLL enters HOLDOVER (R483, R489): the mean of the history, free where the history does not reach so far. -/
def dpllHoldover (s : State) : State :=
  let l := holdSpan s
  let s := if l.length < 1250 * 2 ^ s.get TIMING0.HO_AVG_HO_AVG then s.putFree TIMING0.hHold else s.puti TIMING0.hHold (quot (l.foldl (· + ·) 0) l.length)
  dpllGo dpHold ((s.put TIMING0.HO_ELAPSED 0).put TIMING0.hHoTicks 0)

/-- MODE = AUTO (R521). -/
def dpllAuto (s : State) : Bool := s.get TIMING0.DPLL_CTRL_MODE == 0 || s.get TIMING0.DPLL_CTRL_MODE == 3

/-- No reference is wanted: MODE = AUTO and every active REF_PRIO 0 (R483). -/
def dpllIdle (s : State) : State :=
  if pageOn .timing0 s && dpllAuto s && (List.finRange 8).all (fun n => refPrio n s == 0) then dpllFree s else s

/-- A write of DPLL_CTRL (R483, R521). -/
def dpllCtrlEff (v : Nat) (s : State) : State :=
  let s := ((s.put TIMING0.DPLL_CTRL_MODE (bits v 30 2)).put TIMING0.DPLL_CTRL_REVERTIVE (bits v 29 1)).put
    TIMING0.DPLL_CTRL_FORCE_SEL_EN (bits v 28 1) |>.put TIMING0.DPLL_CTRL_FORCE_SEL (bits v 24 3)
  if !pageOn .timing0 s then s
  else match bits v 30 2 with
    | 1 => dpllFree s
    | 2 =>
      if s.flag TIMING0.DPLL_STAT_HO_VALID then if dpllState s = dpLocked then dpllHoldover s else s
      else if dpllState s = dpHold then s else dpllLost s
    | _ => dpllIdle s

/-- DPLL_MODE_WRITE (R483). -/
def execDpllModeWrite (m : Master) (v : Nat) (s : State) : Out :=
  act s fun s => writeCmd m .timing0 0x040 v (dpllCtrlEff v) s

/-- The alignment of R493: F pulls the frequency only, P steps device time by its folded phase, T steps it to the
reference's time and labels the seconds. -/
def alignRef (n : Fin 8) (s : State) : State :=
  let s := setBo n 0 (s.putB TIMING0.hAlign false)
  match refKind n s with
  | 0 => s
  | 1 => stepBy (refPhase n s) s
  | _ => (stepBy (refPhase n s) s).putB TIMING0.hLabelled true

/-- The build-out of R492, or the alignment of the first reference after STANDBY exit (R491). -/
def takeRef (n : Fin 8) (s : State) : State :=
  if s.flag TIMING0.hAlign then alignRef n s else setBo n (refPhase n s) s

/-- The transitions that a selection makes (R483): `changed` where it changed the reference. -/
def dpllSelect (r : Option (Fin 8)) (changed : Bool) (s : State) : State :=
  let wanted := (List.finRange 8).any (fun n => refPrio n s != 0)
  if dpllAuto s && !wanted then dpllFree s
  else
    match dpllState s, r with
    | 0, none => if dpllAuto s then dpllGo dpLost s else s
    | 0, some n | 4, some n =>
      if dpllAuto s then alignRef n ((dpllGo dpAcq s).put TIMING0.DPLL_STAT_BW_STEP 0) else s
    | 1, none | 2, none => if s.flag TIMING0.DPLL_STAT_HO_VALID then dpllHoldover s else dpllLost s
    | 1, some n | 2, some n => if changed then takeRef n s else s
    | 3, some n => if dpllAuto s then takeRef n ((dpllGo dpAcq s).put TIMING0.DPLL_STAT_BW_STEP 3) else s
    | _, _ => s

/-- Selection, build-out or alignment and the transitions of R483 at a tick (R497). -/
def dpllTick (s : State) : State :=
  if pageOn .timing0 s && !s.flag (HDR.RESET_BUSY .timing0) then
    let r := selectRef s
    let changed := selectedRef s != r
    (dpllSelect r changed (setSelected r s)).putB TIMING0.DPLL_STAT_FAST_HOLD false
  else s

/-- B_MAX of reference n in 0.1 mHz (R477); that of REF6 is a twentieth of the mean rate of its last updates. -/
def refBMax (n : Fin 8) (s : State) : Nat :=
  match n.val with
  | 4 | 5 => if refKind n s = 0 then 1000000 else 100000
  | 6 =>
    let k := s.get TIMING1.hUpdN
    let d := s.get (TIMING1.hUpd 0) - s.get (TIMING1.hUpd (Fin.ofNat 64 (k - 1)))
    if k < 2 then min 100000 Config.ref6Max else if d = 0 then 100000 else min 100000 (625000 * (k - 1) / d)
  | 7 => 500
  | _ => 1000000

/-- The least number from lo up whose product test holds, by halving; `fuel` halvings. -/
def leastFrom (p : Nat → Bool) : Nat → Nat → Nat → Nat
  | 0, lo, _ => lo
  | fuel + 1, lo, hi =>
    if hi ≤ lo then lo
    else
      let mid := (lo + hi) / 2
      if p mid then leastFrom p fuel lo mid else leastFrom p fuel (mid + 1) hi

/-- The dwell of acquisition step k in ticks (R486, R487): the least n with n × B at least 1,591.55 Hz, at most 12,500;
B is B_0 × (B_T / B_0)^(k/3). -/
def dwellTicks (k : Nat) (s : State) : Nat :=
  match selectedRef s with
  | some n =>
    let b0 := min 1000000 (refBMax n s)
    let bt := min (s.get TIMING0.DPLL_BW) (refBMax n s)
    leastFrom (fun x => decide (15915500 ^ 3 ≤ x ^ 3 * (b0 ^ (3 - k) * bt ^ k))) 15 1 12500
  | none => 12500

/-- The phase error is within LOCK_THR, which is in 0.1 ns (R483, R521). -/
def phaseOk (s : State) : Bool := decide ((s.geti TIMING0.hErr).natAbs ≤ 100 * s.get TIMING0.LOCK_THR)

/-- DPLL_BW_STEP (R487): at the end of a dwell the next step is taken, or the dwell restarts. -/
def execDpllBwStep (s : State) : Out :=
  act s fun s =>
    let k := s.get TIMING0.DPLL_STAT_BW_STEP
    if dpllState s = dpAcq ∧ k < 3 ∧ dwellTicks k s ≤ s.get TIMING0.hDwell then
      let s := (s.put TIMING0.hDwell 0).put TIMING0.hLockCnt 0
      if phaseOk s then s.put TIMING0.DPLL_STAT_BW_STEP (k + 1) else s
    else s

/-- DPLL_LOCKED (R483): LOCK_TICKS consecutive ticks in the window at step 3. -/
def execDpllLocked (s : State) : Out :=
  act s fun s =>
    if dpllState s = dpAcq ∧ s.get TIMING0.DPLL_STAT_BW_STEP = 3
        ∧ max 1 (s.get TIMING0.QUAL_LOCK_TICKS) ≤ s.get TIMING0.hLockCnt then dpllGo dpLocked s
    else s

/-- HO_VALID_SET (R490): LOCKED for the longer of HO_MIN s and 2^HO_AVG s plus HO_DELAY ticks. -/
def execHoValidSet (s : State) : Out :=
  act s fun s =>
    let need := max (1250 * s.get TIMING0.HO_CFG_HO_MIN)
      (1250 * 2 ^ s.get TIMING0.HO_AVG_HO_AVG + s.get TIMING0.HO_AVG_HO_DELAY)
    if dpllState s = dpLocked ∧ !s.flag TIMING0.DPLL_STAT_HO_VALID ∧ need ≤ s.get TIMING0.hLockTicks then setHoValid true s
    else s

/-- HOLDOVER_EXPIRY (R483): HO_ELAPSED has reached 10 × HO_MAX s. -/
def execHoldoverExpiry (s : State) : Out :=
  act s fun s =>
    let lim := 10 * s.get TIMING0.HO_CFG_HO_MAX
    if dpllState s = dpHold ∧ lim ≠ 0 ∧ lim ≤ s.get TIMING0.HO_ELAPSED then dpllLost (setHoValid false s) else s

/-- CORE_SYNTH_LOCK (R21, R24): the started core synthesiser first reports lock, and ticks begin; device time has counted
`ns` on until then (R520). -/
def execCoreSynthLock (ns : Nat) (s : State) : Out :=
  act s fun s =>
    if s.flag PWR.hSynthRun && !s.flag PWR.hSynthLock then
      let s := (((timeCounts (65536 * ns) s).putB PWR.hSynthLock true).put PWR.hPart 0).putB TIMING0.DPLL_STAT_XO_PRESENT true
      let s := if dpllState s = dpHold then s.incWrap TIMING0.hHoTicks (ns / 800000) else s
      forFin 4 (fun n s => if s.flag (TIMING2.CLKO_CFG_EN n) then clockOut n s else s) s
    else s

/-- The most that the output frequency moves in a tick, in 10^-14 units (R475: 10 ppm/s). -/
def freqSlope : Int := 800000

/-- SYNTH_REACHES_XO (R20): the slewing synthesiser arrives at the XO_IN frequency, which it is within a tick's slope of, and
follows it. -/
def execSynthReachesXo (s : State) : Out :=
  act s fun s =>
    if s.get PWR.hSynth = 1 ∧ (s.geti PWR.hFreq).natAbs ≤ freqSlope.natAbs then (s.put PWR.hSynth 0).put PWR.hFreq 0 else s

/-- The output frequency of the tick (R20, R475, R484, R488, R489): it moves toward what the state asks for by at most
10 ppm/s and stays within 50 ppm. `asked` is what the loop asks for, if measured; while the synthesiser slews to XO_IN it
says where on that way the tick finds it (log entry 56). -/
def freqTick (asked : Option Int) (s : State) : State :=
  let now := s.geti PWR.hFreq
  let target : Int :=
    if s.get PWR.hSynth = 0 then 0
    else if s.get PWR.hSynth = 1 then clampI (min now 0) (max now 0) (asked.getD 0)
    else if s.flag (HDR.FREEZE .timing0) || s.flag TIMING0.DPLL_STAT_FAST_HOLD then now
    else if dpllState s = dpHold then s.geti TIMING0.hHold
    else asked.getD now
  s.puti PWR.hFreq (clampI (-5000000000) 5000000000 (clampI (now - freqSlope) (now + freqSlope) target))

/-- FREQ_OFS: the output frequency in 10^-12 units (R521). -/
def freqOfs (s : State) : Nat := ofInt 32 (quot (s.geti PWR.hFreq) 100)

/-- What a tick counts in the DPLL (R483, R487, R489, R490). -/
def dpllCounts (s : State) : State :=
  match dpllState s with
  | 1 =>
    if s.get TIMING0.DPLL_STAT_BW_STEP < 3 then s.incStick TIMING0.hDwell 1
    else s.put TIMING0.hLockCnt (if phaseOk s then min 65536 (s.get TIMING0.hLockCnt + 1) else 0)
  | 2 => { s.incStick TIMING0.hLockTicks 1 with hist := (s.geti PWR.hFreq :: s.hist).take (1250 * 4096 + 65536) }
  | 3 =>
    let s := s.incStick TIMING0.hHoTicks 1
    s.put TIMING0.HO_ELAPSED (min (2 ^ 32 - 1) (s.get TIMING0.hHoTicks / 1250))
  | _ => s

/-! ## Measurements of a tick -/

/-- The edge of PPSINn (R477, R513, R514): the phase of the second, and with PPSIN0 the label of the edge. -/
def ppsEdge (n : Fin 2) (t : Nat) (s : State) : State :=
  if n = 0 then
    let label := if s.flag TIMING3.hTodNew then s.get TIMING3.TOD_SEC_HI * 2 ^ 32 + s.get TIMING3.TOD_SEC_LO
      else s.get TIMING3.hTodLabel + 1
    let s := (s.putB TIMING3.hTodNew false).put TIMING3.hTodLabel label
    let corr := s.geti TIMING3.hTodCorr
    let full : Int := s.get TIMING3.hTodLabel * 1000000000000 + corr - t
    let s := s.puti (TIMING1.hPhase 0) (if refKind 0 s = 2 then full else -(t : Int))
    s.puti (TIMING1.hPhase 7) full
  else s.puti (TIMING1.hPhase 1) (-(t : Int))

/-- A measurement that concerns this chapter. -/
def timingMeas (m : Meas) (s : State) : State :=
  match m with
  | .pps n t => ppsEdge n t s
  | .refFofs n v => if n.val ≤ 5 then s.puti (TIMING1.REF_STAT_FOFS n) v else s
  | .phaseErr v => match selectedRef s with
    | some n => if refKind n s = 0 then (s.puti TIMING0.hErr v).putOpen TIMING0.PHASE_ERR v else s
    | none => s
  | .xo p => s.putB TIMING0.DPLL_STAT_XO_PRESENT p
  | _ => s

/-- The loop phase error against a P or T reference (R492). -/
def errTick (s : State) : State :=
  match selectedRef s with
  | some n =>
    if refKind n s = 0 then s
    else
      let e := refPhase n s - s.geti TIMING0.hBo
      (s.puti TIMING0.hErr e).putOpen TIMING0.PHASE_ERR e
  | none => s

/-- The references at a tick: the last host sample of REF6, the counts of R478 and R479, and REF_PHASE. -/
def refsTick (s : State) : State :=
  let s := if s.flag TIMING1.hRef6New then
      (s.puti (TIMING1.hPhase 6) (s.geti TIMING1.hRef6Ofs)).putB TIMING1.hRef6New false else s
  let s := s.put TIMING1.hRef6Ticks (min 65536 (s.get TIMING1.hRef6Ticks + 1))
  forFin 8 (fun n s =>
    let s := if !refFaulty n s && !s.flag (TIMING1.REF_STAT_QUALIFIED n) && s.get (TIMING1.WTR_LEFT n) != 0 then
        s.put (TIMING1.WTR_LEFT n) (s.get (TIMING1.WTR_LEFT n) - 1) else s
    showPhase n s) s

/-- A pull moves output time toward device time by SLOPE ns/s for a tick (R500). -/
def pullTick (n : Fin 4) (s : State) : State :=
  if s.flag (TIMING2.CLKO_MIS_HI_PULLING n) then
    let o : Fin 8 := Fin.ofNat 8 n.val
    let mis := s.geti (TIMING2.hMis o)
    let d : Int := min mis.natAbs (524288 * s.get (TIMING2.PULL_CFG_SLOPE n))
    s.puti (TIMING2.hMis o) (if mis < 0 then mis + d else mis - d)
  else s

/-- Device time is sampled for a tick, after a pending step and the second crossings (R497). -/
def timingSample (s : State) : State := (stepApply (toTick s)).put PWR.hPart 0

/-- The rest of a tick in the timing engine (R497). -/
def timingTick (ms : List Meas) (s : State) : State :=
  let s := refsTick (forL ms timingMeas s)
  let s := errTick (dpllTick s)
  let s := freqTick (ms.findSome? (fun m => match m with
    | .freqOfs v => some v
    | _ => none)) s
  let s := forFin 4 pullTick (dpllCounts s)
  match selectedRef s with
  | some n =>
    if dpllState s = dpLocked ∧ refKind n s ≠ 0 ∧ s.flag TIMING0.hLabelled ∧ !s.flag TIMING0.DPLL_STAT_TIME_VALID then
      setTimeValid true s
    else s
  | none => s

/-! ## Enabling and resetting (R520) -/

/-- ENABLE of sub-page 0 is written 0 (R483, R520). -/
def timing0Off (s : State) : State := dpllFree (setTimeValid false (setHoValid false (setSelected none s)))

/-- A soft reset of sub-page 0 (R483, R520) beside the registers: the history ends and the synthesiser leaves the DPLL;
nothing of it sets INT_RAW. -/
def timing0Reset (s : State) : State :=
  forFin 8 (fun n s => ((s.put (TIMING1.BO_LO n) 0).put (TIMING1.BO_HI n) 0).putB (TIMING1.REF_STAT_SELECTED n) false)
    { synthFollow 0 s with hist := [] }

/-- ENABLE of sub-page 1 goes to 0: every reference is faulty (R520). -/
def timing1Off (s : State) : State := forFin 8 refFails s

/-- ENABLE of sub-page 1 goes to 1: the references without a fault start their counts (R479). -/
def timing1On (s : State) : State := forFin 8 refReturns s

/-! ## Outputs (R498 to R504) -/

/-- The offset of the CFG register of output o (R523). -/
def outOffset (o : Fin 8) : Nat := 0x100 + 0x20 * o.val

/-- The frame rates N/D by RATE (R502); none where reserved. -/
def frameRate : Nat → Option (Nat × Nat)
  | 0 => some (24000, 1001) | 1 => some (24, 1) | 2 => some (25, 1) | 3 => some (30000, 1001) | 4 => some (30, 1)
  | 5 => some (48000, 1001) | 6 => some (48, 1) | 7 => some (50, 1) | 8 => some (60000, 1001) | 9 => some (60, 1)
  | 10 => some (100, 1) | 11 => some (120000, 1001) | 12 => some (120, 1) | _ => none

/-- A write of the CFG register of output o (R498, R502, R523): when EN rises, output time is set to device time. -/
def outCfgEff (o : Fin 8) (v : Nat) (s : State) : State :=
  let rises := !s.flag (outEn o) && bit v 31
  let s := s.put (outEn o) (bits v 31 1)
  let s := if o.val < 4 then s.put (TIMING2.CLKO_CFG_M1001 (Fin.ofNat 4 o.val)) (bits v 30 1)
    else if o.val < 6 then
      let m : Fin 2 := Fin.ofNat 2 o.val
      (s.put (TIMING2.PPSO_CFG_POL m) (bits v 30 1)).put (TIMING2.PPSO_CFG_WIDTH m) (bits v 0 20)
    else
      let m : Fin 2 := Fin.ofNat 2 o.val
      let s := ((s.put (TIMING2.FPO_CFG_POL m) (bits v 30 1)).put (TIMING2.FPO_CFG_RATE m) (bits v 24 4)).put
        (TIMING2.FPO_CFG_DIV m) (bits v 16 8)
      (s.put (TIMING2.FPO_CFG_WIDTH m) (bits v 0 16)).raiseIf .timing2 2 (frameRate (bits v 24 4)).isNone
  let s := if rises then (s.raiseIf .timing2 0 (s.get (TIMING2.hMis o) != 0)).put (TIMING2.hMis o) 0 else s
  if o.val < 4 then clockOut (Fin.ofNat 4 o.val) s else s

/-- OUTPUT_ENABLE (R498): a write of an output's CFG register. -/
def execOutputEnable (m : Master) (o : Fin 8) (v : Nat) (s : State) : Out :=
  act s fun s => writeCmd m .timing2 (outOffset o) v (outCfgEff o v) s

/-- A write of CLKO_CMD (R500): of both bits in one write, STOP_PULL is the later. -/
def clkoCmdEff (n : Fin 4) (v : Nat) (s : State) : State :=
  let s := if bit v 0 then s.putB (TIMING2.CLKO_MIS_HI_PULLING n) true else s
  let s := if bit v 1 then s.putB (TIMING2.CLKO_MIS_HI_PULLING n) false else s
  if bit v 0 || bit v 1 then clockOut n s else s

/-- PULL (R500). -/
def execPull (m : Master) (n : Fin 4) (s : State) : Out :=
  act s fun s => writeCmd m .timing2 (0x10C + 0x20 * n.val) 1 (clkoCmdEff n 1) s

/-- STOP_PULL (R500). -/
def execStopPull (m : Master) (n : Fin 4) (s : State) : Out :=
  act s fun s => writeCmd m .timing2 (0x10C + 0x20 * n.val) 2 (clkoCmdEff n 2) s

/-- PULL_DONE (R500): |MIS| has reached 1 ps or less. -/
def execPullDone (n : Fin 4) (s : State) : Out :=
  act s fun s =>
    let o : Fin 8 := Fin.ofNat 8 n.val
    if s.flag (TIMING2.CLKO_MIS_HI_PULLING n) && decide ((s.geti (TIMING2.hMis o)).natAbs ≤ 655360) then
      clockOut n (((s.put (TIMING2.hMis o) 0).putB (TIMING2.CLKO_MIS_HI_PULLING n) false).raise .timing2 1)
    else s

/-- A write of REALIGN to pulse output p: PPSO0, PPSO1, FPO0, FPO1 (R503). -/
def realignEff (p : Fin 4) (v : Nat) (s : State) : State := if bit v 0 then s.putB (TIMING2.hRealign p) true else s

/-- REALIGN (R503). -/
def execRealign (m : Master) (p : Fin 4) (s : State) : Out :=
  act s fun s => writeCmd m .timing2 (0x18C + 0x20 * p.val) 1 (realignEff p 1) s

/-- MIS in ps (R498). -/
def outputPs (o : Fin 8) (s : State) : Int := quot (s.geti (TIMING2.hMis o)) 655360

/-- MIS_LO and MIS_HI of output o but for PULLING, saturated (R498, R523). -/
def outputWords (o : Fin 8) (s : State) : Nat × Nat :=
  let v := outputPs o s
  let lim : Int := 2 ^ 47 - 1
  let w := ofInt 48 (clampI (-lim) lim v)
  (w % 2 ^ 32, (decide (v < -lim ∨ lim < v)).toNat * 2 ^ 30 + w / 2 ^ 32)

/-- The instant of pulse k of a pulse output and its period, both in 1/d of 10^-4 of 2^-16 ns; none where the output has
no such pulse (R501, R502). -/
def pulseAt (p : Fin 4) (k : Nat) (s : State) : Option (Int × Nat × Nat) :=
  let m : Fin 2 := Fin.ofNat 2 p.val
  if p.val < 2 then
    some (k * 655360000000000000 + toInt 32 (s.get (TIMING2.PPSO_OFS m)) * 655360000, 655360000000000000, 1)
  else
    match frameRate (s.get (TIMING2.FPO_CFG_RATE m)) with
    | some (n, d) =>
      let div := max 1 (s.get (TIMING2.FPO_CFG_DIV m))
      if k % div = 0 then
        some (k * d * 655360000000000000 + toInt 32 (s.get (TIMING2.FPO_OFS m)) * 655360000 * n,
          div * d * 655360000000000000, n)
      else none
    | none => none

/-- The width of a pulse, and its level (R501, R502): FPO's width is at most half its period. -/
def pulseShape (p : Fin 4) (period d : Nat) (s : State) : Bool × Nat :=
  let m : Fin 2 := Fin.ofNat 2 p.val
  if p.val < 2 then (!s.flag (TIMING2.PPSO_CFG_POL m), s.get (TIMING2.PPSO_CFG_WIDTH m) * 655360000000)
  else (!s.flag (TIMING2.FPO_CFG_POL m), min (s.get (TIMING2.FPO_CFG_WIDTH m) * 655360000000) (period / (2 * d)))

/-- OUTPUT_EDGE (R501 to R503): pulse output p emits pulse k where output time reaches its instant within the tick
interval in progress; after REALIGN device time decides instead, at least half a period after the last edge, and MIS
becomes 0. -/
def execOutputEdge (p : Fin 4) (k : Nat) (s : State) : Out :=
  act s fun s =>
    let o : Fin 8 := Fin.ofNat 8 (4 + p.val)
    let re := s.flag (TIMING2.hRealign p)
    let base : Int := 10000 * timeUnits s.time + (if re then 0 else s.geti (TIMING2.hMis o))
    match pulseAt p k s with
    | some (at_, period, d) =>
      let into : Int := at_ - base * d
      let tick : Int := 10000 * tickU * d
      let seen : Int := (s.tickCount : Int) * tick + into
      let last := s.get (TIMING2.hEdge p)
      let gap : Int := seen - ((last : Int) - 1) * d
      if s.flag PWR.hSynthLock && pageOn .timing2 s && s.flag (outEn o) && decide (0 ≤ into ∧ into < tick)
          && (last == 0 || (if re then decide ((period : Int) ≤ 2 * gap) else decide (0 < gap))) then
        let shape := pulseShape p period d s
        let s := (s.put (TIMING2.hEdge p) ((seen / d).toNat + 1)).send (.edge p k shape.1 shape.2)
        if re then ((s.raiseIf .timing2 0 (s.get (TIMING2.hMis o) != 0)).put (TIMING2.hMis o) 0).putB (TIMING2.hRealign p) false
        else s
      else s
    | none => s

/-! ## Line time transfer (R505 to R512) -/

/-- A timestamp that is kept under a multiframe number (R506). -/
def stampGet (w mfn : Nat) : Option Nat :=
  if bit w 112 && bits w 96 16 == mfn % 65536 then some (bits w 0 96) else none

/-- The twelve bytes of a timestamp: seconds, nanoseconds, fraction (R507). -/
def stampBytes (u : Nat) : List Nat := beBytes 6 (u / secU) ++ beBytes 4 (u % secU / 65536) ++ beBytes 2 u

/-- 2^-16 ns that the fields of a timestamp spell. -/
def unitsOfBytes (l : List Nat) : Nat := ofBe (slice l 0 6) * secU + ofBe (slice l 6 4) * 65536 + ofBe (slice l 10 2)

/-- The time message of transmit stream i in multiframe `mfn` (R507); the departure of the multiframe two before is free
where there was none. -/
def timeMsg (c i : Fin 16) (mfn : Nat) (s : State) : List Nat × State :=
  let two := (mfn + 65534) % 65536
  let (tx, s) := match stampGet (s.get (OTU.hDep c i (Fin.ofNat 256 two))) two with
    | some u => (u, s)
    | none => s.draw 96
  let last := s.get (OTU.hArrLast c i)
  let rx := stampGet (s.get (OTU.hArr c i (Fin.ofNat 256 (last - 1)))) (last - 1)
  let burst := isHub c s && brBurst (branchAct c i.val s)
  let mine := match selectedRef s with
    | some n => decide (4 ≤ n.val ∧ n.val ≤ 5) && refCarrier n s == c && refStream n s == i
    | none => false
  let st := dpllState s
  let flags := 128 * s.get TIMING0.DPLL_STAT_TIME_VALID + 64 * (st == dpLocked || st == dpHold).toNat + 32 * mine.toNat
    + 16 * burst.toNat + 8 * (decide (last ≠ 0) && rx.isSome).toNat
  let body := [0x20, flags, s.get TIMING3.OSMC_QL_QL, 0] ++ beBytes 2 two ++ stampBytes tx
    ++ beBytes 2 (last - 1) ++ stampBytes (rx.getD 0) ++ beBytes 4 (if burst then eqRtd c s else 0) ++ List.replicate 24 0
  (body ++ beBytes 4 (crc32c body), s)

/-- The OSMC bytes of the multiframe that begins are placed: the time message where OSMC_TX asks for one (R505, R512,
R520). -/
def placeOsmc (c i : Fin 16) (s : State) : State :=
  let on := pageOn .timing3 s && (s.get TIMING3.OSMC_TX).testBit c.val && !isZr (s.get (TXDSP.hMode c))
  let (l, s) := if on then timeMsg c i (s.get (OTU.MFN_TX c)) s else ([], s)
  forFin 8 (fun w s => s.put (OTU.hOsmTx c i w) (ofLe (slice l (8 * w.val) 8))) s

/-- A tributary without an enabled TX association sends zeros in its segment overhead channel (R441). -/
def clearSegs (pay : TxPayload) (s : State) : TxPayload :=
  { pay with tribs := pay.tribs.map fun x =>
      if (asLive x.q s).any fun y => !adRx y.2 && adTrib y.2 == x.t then x else { x with seg := [] } }

/-- TX_MULTIFRAME_START (R311, R313): a transmit multiframe begins; the loading and time messages are
sent with it, and its frame 0. What the sources of the carrier's transmit slots give for it is kept for
its frames (R340). -/
def execTxMultiframeStart (c : Fin 16) (t : MultiframeStart) (s : State) : Out :=
  act s fun s =>
    if otuRuns c s then
      let s := txMultiframe c t.time { s with txPay := s.txPay.filter (fun x => x.1 != c) ++ [(c, clearSegs t.pay s)] }
      let s := forL (streamsTx c s) (fun i s => placeOsmc c i s) s
      let s := if isHub c s then forL (streamsTx c s) (fun b s => s.put (OTU.hBrFrame c b) 0) (s.incWrap (HUB.hMf c) 1) else s
      txFrame c (s.put (OTU.hFrame c) 0)
    else s

/-- BRANCH_FRAME_SEND (R264): the next downstream branch frame of branch b is sent with its hub message. -/
def execBranchFrameSend (c b : Fin 16) (s : State) : Out :=
  act s fun s =>
    let f := s.get (OTU.hBrFrame c b)
    if otuRuns c s && isHub c s && (streamsTx c s).contains b && decide (f < 256) then
      (sendBranchFrame c b f s).put (OTU.hBrFrame c b) (f + 1)
    else s

/-- The 64 OSMC bytes received (R505). -/
def osmcBytes (c i : Fin 16) (s : State) : List Nat :=
  (List.finRange 8).flatMap (fun w => leBytes 8 (s.get (OTU.hOsmRx c i w)))

/-- A time message is valid (R507). -/
def timeMsgOk (l : List Nat) : Bool := l.getD 0 0 == 0x20 && ofBe (slice l 60 4) == crc32c (slice l 0 60)

/-- ASYM of row j (R508). -/
def asymOf (j : Fin 2) (s : State) : Int := toInt 48 (s.get (TIMING3.ASYM_HI j) * 2 ^ 32 + s.get (TIMING3.ASYM_LO j))

/-- Symbols of a carrier in ps / 8192 (R256): R_sc symbols in 8 ns. -/
def symbolsW (c : Fin 16) (n : Int) (s : State) : Int :=
  quot (n * 65536000) (max 1 (bits (s.get (RXDSP.hMode c)) 0 8))

/-- Twice the offset and twice the delay of one sample, in ps / 8192 (R508, R509); none where the sample is discarded. -/
def ltSample (c i : Fin 16) (j : Fin 2) (l : List Nat) (s : State) : Option (Int × Int) :=
  let mfnTx := ofBe (slice l 4 2)
  let t1 : Int := unitsOfBytes (slice l 6 12)
  match stampGet (s.get (OTU.hArr c i (Fin.ofNat 256 mfnTx))) mfnTx with
  | none => none
  | some t2 =>
    let fwd : Int := ((t2 : Int) - t1) * 125
    if isLeaf c s && leafBurst c s then
      if bit (l.getD 1 0) 4 && (leafState c s == lfRanged || leafState c s == lfActive) then
        let rtt := symbolsW c ((ofBe (slice l 32 4) : Int) - toInt 32 (s.get (HUB.LEAF_EQD c))) s
        some (2 * fwd - rtt - 8192 * asymOf j s, rtt)
      else none
    else if bit (l.getD 1 0) 3 then
      let mfnRx := ofBe (slice l 18 2)
      match stampGet (s.get (OTU.hDep c i (Fin.ofNat 256 mfnRx))) mfnRx with
      | some t3 =>
        let back : Int := ((unitsOfBytes (slice l 20 12) : Int) - t3) * 125
        if isHub c s && brBurst (branchAct c i.val s) then none
        else some (fwd - back - 8192 * asymOf j s, fwd + back)
      | none => none
    else none

/-- A sample enters the means of row j (R510), and the phase of its reference is its negative (R508). -/
def ltAdd (c i : Fin 16) (j : Fin 2) (x : Int × Int) (s : State) : State :=
  let th := x.1 :: (List.finRange 16).map (fun k => s.geti (TIMING3.hTheta j k))
  let dl := x.2 :: (List.finRange 16).map (fun k => s.geti (TIMING3.hDelay j k))
  let s := forFin 16 (fun k s => (s.puti (TIMING3.hTheta j k) (th.getD k.val 0)).puti (TIMING3.hDelay j k) (dl.getD k.val 0)) s
  let n := min 16 (s.get (TIMING3.hSamples j) + 1)
  let s := s.put (TIMING3.hSamples j) n
  let s := s.putOpen (TIMING3.LTT_OFS j) (quot ((th.take n).foldl (· + ·) 0) (16384 * n))
  let d := quot ((dl.take n).foldl (· + ·) 0) (163840 * n)
  let s := if 0 ≤ d ∧ d < 2 ^ 32 then s.put (TIMING3.LTT_DELAY j) d.toNat else s.putFree (TIMING3.LTT_DELAY j)
  let s := (s.raiseIf .timing3 1 (!s.flag (TIMING3.LTT_STAT_VALID j))).putB (TIMING3.LTT_STAT_VALID j) true
  let r : Fin 8 := Fin.ofNat 8 (4 + j.val)
  showPhase r ((s.puti (TIMING1.hPhase r) (-quot x.1 16384)).put (OTU.hMfSince c i) 0)

/-- What a message does in row j: far flags and QL, and its sample (R508, R511, R524). -/
def ltMessage (c i : Fin 16) (j : Fin 2) (l : List Nat) (s : State) : State :=
  if timeMsgOk l then
    let s := ((s.put (TIMING3.LTT_STAT_FAR_TV j) (bits (l.getD 1 0) 7 1)).put (TIMING3.LTT_STAT_LOOP j)
      (bits (l.getD 1 0) 5 1)).put (TIMING3.LTT_STAT_QL j) (l.getD 2 0)
    match ltSample c i j l s with
    | some x => ltAdd c i j x s
    | none => s
  else s.incWrap (TIMING3.LTT_STAT_DISC j) 1

/-- TIME_MESSAGE (R507, R508): the OSMC bytes of a received multiframe of stream i are complete. Bytes that are all 0 are
no message (R505). -/
def execTimeMessage (c i : Fin 16) (s : State) : Out :=
  act s fun s =>
    if pageOn .timing3 s && s.get (OTU.hOsmN c i) == 64 then
      let l := osmcBytes c i s
      let s := s.put (OTU.hOsmN c i) 0
      if l.all (· == 0) then s
      else forFin 2 (fun j s =>
        let r : Fin 8 := Fin.ofNat 8 (4 + j.val)
        if s.flag (TIMING1.REF_CFG_TIME_MODE r) && refCarrier r s == c && refStream r s == i then ltMessage c i j l s
        else s) s
    else s

/-! ## ToD input (R513, R514) -/

/-- A ToD message is valid (R514). -/
def todOk (l : List Nat) : Bool :=
  l.length == 24 && l.getD 0 0 == 0xA5 && l.getD 1 0 == 0x5A && l.getD 2 0 == 1
    && ofBe (slice l 22 2) == crc16 (slice l 0 22)

/-- TOD_ERR counts (R513, R524): an invalid message in its upper half, a window or sequence error in its lower. -/
def todErrCrc (s : State) : State := (s.incWrap TIMING3.TOD_ERR_CRC 1).raise .timing3 0
def todErrSeq (s : State) : State := (s.incWrap TIMING3.TOD_ERR_SEQ 1).raise .timing3 0

/-- The fields of a valid message are reported (R514, R524). -/
def todReport (l : List Nat) (s : State) : State :=
  let s := ((s.putB TIMING3.TOD_STAT_VALID true).put TIMING3.TOD_STAT_LEAP_P (bits (l.getD 3 0) 6 1)).put
    TIMING3.TOD_STAT_LEAP_M (bits (l.getD 3 0) 5 1)
  let s := (s.put TIMING3.TOD_STAT_CLOCK_CLASS (l.getD 12 0)).put TIMING3.TOD_STAT_UTC_OFFSET (ofBe (slice l 10 2))
  let s := (s.put TIMING3.TOD_SEC_HI (ofBe (slice l 4 2))).put TIMING3.TOD_SEC_LO (ofBe (slice l 6 4))
  ((s.put TIMING3.hTodCorr (ofBe (slice l 16 4))).putB TIMING3.hTodNew true).putB TIMING3.hTodSeen true

/-- TOD_MESSAGE (R513, R514): a message whose last byte arrives `us` microseconds after a PPSIN0 edge. -/
def execTodMessage (l : List Nat) (us : Nat) (s : State) : Out :=
  act s fun s =>
    if pageOn .timing3 s && s.flag TIMING3.TOD_CFG_EN then
      if !todOk l then todErrCrc (s.putB TIMING3.TOD_STAT_VALID false)
      else if us < 10000 ∨ 990000 < us then todErrSeq s
      else
        let last := s.get TIMING3.TOD_SEC_HI * 2 ^ 32 + s.get TIMING3.TOD_SEC_LO
        let gap := s.flag TIMING3.hTodSeen && ofBe (slice l 4 6) != (last + 1) % 2 ^ 48
        let bad := gap || !bit (l.getD 3 0) 7
        let s := (todReport l (if gap then todErrSeq s else s)).putB TIMING3.hTodBad bad
        if bad then forL [(0 : Fin 8), 7] (fun n s => if faultApplies n .msg s then faultEnter n .msg s else s) s else s
    else s

end Sys2Proof.Machine
end

