-- ==== Sys2Proof/Machine/Hinge.lean ====
section
/-! DEFINITION. Hinges (R70 to R84): arming and cancelling, the counting multiframe, the hinge beat with its checks and
what it does to each page, and the end of the copy-forward. -/
namespace Sys2Proof.Machine

/-! ## Modes and the counting multiframe -/

/-- A page supports a mode (R75, R159, R197, R293, R300): the pages with hinged content and the modes their chapters
name. PAIRED is armed by software only on an RXDSP page that is neither a hub's nor a leaf's. -/
def hingeSupports (p : Page) (mode : Nat) (s : State) : Bool :=
  match p with
  | .xqsw | .timing0 => mode == modeImmediate || mode == modeNextTick
  | .txdsp _ | .hub _ | .tsi _ | .tm _ => decide (mode ≤ modeAtMf)
  | .rxdsp c => decide (mode ≤ modeAtMf) || (mode == modePaired && carMode c s == 0)
  | _ => false

/-- The carrier whose multiframe a page of a quadrant counts (R72). -/
def hingeCarrier (q : Fin 4) (p : Page) (s : State) : Fin 16 := ⟨4 * q.val + s.get (HDR.MF_SRC p) % 4, by omega⟩

/-- The carrier whose transmit multiframe a page counts (R72, R159, R300; log entry 90); none where it counts a received
one or none. -/
def hingeTx (p : Page) (s : State) : Option (Fin 16) :=
  match p with
  | .txdsp c | .hub c => some c
  | .tsi q => some (hingeCarrier q (.tsi q) s)
  | .tm q => some (hingeCarrier q (.tm q) s)
  | .rxdsp c => if rxMfStream c s = none then some c else none
  | _ => none

/-- The counting multiframe of a page is present (R77, R311, R312). -/
def hingePresent (p : Page) (s : State) : Bool :=
  match hingeTx p s with
  | some c => txMfPresent c s
  | none =>
    match p with
    | .rxdsp c => (rxMfStream c s).any fun i => streamAligned c i s
    | _ => false

/-- The number of the counting multiframe of a page; 0 on a level-4 page (R73). -/
def hingeMfn (p : Page) (s : State) : Nat :=
  match p, hingeTx p s with
  | .rxdsp c, some _ => rxMfOf c (txMfn c s) s
  | .rxdsp c, none => ((rxMfStream c s).map fun i => s.get (OTU.hRxMfn c i)).getD 0
  | _, some c => txMfn c s
  | _, none => 0

/-! ## SHADOW_CTRL -/

/-- A page of a quadrant (R36, R38). -/
def quadPage : Page → Bool
  | .frm _ | .tsi _ | .tm _ | .ciph _ | .mem _ | .htr _ | .qint _ => true
  | .mon d => decide (d.val < 4)
  | _ => false

/-- The bits of SHADOW_CTRL that are stored (R72): MF_SRC is reserved but on quadrant pages. -/
def shadowMask (p : Page) (v : Nat) : Nat :=
  bits v 27 3 * 2 ^ 27 + (if quadPage p then bits v 22 2 * 2 ^ 22 else 0) + bits v 0 16

/-- A pending hinge is cancelled (R78): a PAIRED one ends its exchange (log entry 92). -/
def hingeCancel (p : Page) (s : State) : State :=
  if s.flag (HDR.PENDING p) then
    let s := s.putB (HDR.PENDING p) false
    match p with
    | .txdsp c => (s.putB (TXDSP.LOAD_STAT_SERVE_PENDING c) false).putB (TXDSP.hOrder c) false
    | .rxdsp c =>
      (if s.get (HDR.HINGE_MODE p) = modePaired then endRequest c s else s).putB (RXDSP.hOrder c) false
    | _ => s
  else s

/-- The request of a PAIRED arm starts (R164): LAST_SEQ is its SEQ (R172). -/
def pairedRequest (c : Fin 16) (mf : Nat) (s : State) : State :=
  let s := s.incWrap (TXDSP.hSeq c) 1
  (((s.put (TXDSP.LOAD_STAT_LAST_SEQ c) (s.get (TXDSP.hSeq c))).putB (TXDSP.LOAD_STAT_REQ_PENDING c) true).putB
    (TXDSP.hAcc c) false).put (TXDSP.LOAD_MFN_RX c) mf

/-- The target of an AT_MF or PAIRED arm lies outside the window, the counting multiframe being present (R76). -/
def outsideWindow (p : Page) (mode mf : Nat) (s : State) : Bool :=
  (mode == modeAtMf || mode == modePaired) && hingePresent p s
    && !(decide (2 ≤ mfLead mf (hingeMfn p s)) && decide (mfLead mf (hingeMfn p s) ≤ 32767))

/-- An arm takes effect (R72, R75, R76, R164). MF_SRC is stored first, because it selects the multiframe the window is
measured against. -/
def hingeArm (p : Page) (mode src mf : Nat) (s : State) : State :=
  if !hingeSupports p mode s then refuse p 2 s
  else
    let s := s.put (HDR.MF_SRC p) src
    if outsideWindow p mode mf s then refuse p 1 s
    else
      let s := ((s.putB (HDR.PENDING p) true).put (HDR.HINGE_MODE p) mode).put (HDR.HINGE_MF p) mf
      let s := s.put (HDR.hArm p) (if hingePresent p s then hingeMfn p s + 1 else 0)
      let s := s.put (HDR.hArmTick p) s.tickCount
      match p with
      | .rxdsp c =>
        let s := s.putB (RXDSP.hOrder c) false
        if mode = modePaired then pairedRequest c mf s else s
      | .txdsp c => s.putB (TXDSP.hOrder c) false
      | _ => s

/-- A write to SHADOW_CTRL (R72, R78): a cancel acts alone, and an arm while a hinge is pending is dropped and
logged. -/
def shadowCtrlEff (m : Master) (p : Page) (v : Nat) (s : State) : State :=
  if bit v 30 then hingeCancel p (s.put (HDR.hShadow p) (shadowMask p v))
  else if bit v 31 then
    if s.flag (HDR.PENDING p) then logErr p causeArmPending (masterId m) 0 false 0x024 s
    else hingeArm p (bits v 27 3) (bits (shadowMask p v) 22 2) (bits v 0 16) (s.put (HDR.hShadow p) (shadowMask p v))
  else s.put (HDR.hShadow p) (shadowMask p v)

/-- HINGE_ARM (R72): a write of SHADOW_CTRL with HINGE_ARM = 1. -/
def execHingeArm (m : Master) (p : Page) (mode : Fin 8) (mfSrc : Fin 4) (mf : Nat) (s : State) : Out :=
  let v := 2 ^ 31 + mode.val * 2 ^ 27 + mfSrc.val * 2 ^ 22 + mf % 2 ^ 16
  act s fun s => writeCmd m p 0x024 v (shadowCtrlEff m p v) s

/-- HINGE_CANCEL (R78): a write of SHADOW_CTRL with HINGE_CANCEL = 1. -/
def execHingeCancel (m : Master) (p : Page) (s : State) : Out :=
  act s fun s => writeCmd m p 0x024 (2 ^ 30) (shadowCtrlEff m p (2 ^ 30)) s

/-! ## The hinge beat -/

/-- The beat of a page's pending hinge (R74), the multiframe modes apart from a copy-forward in progress. -/
def hingeDue (p : Page) (s : State) : Bool :=
  s.flag (HDR.PENDING p) && !stopped p s &&
    (match s.get (HDR.HINGE_MODE p) with
     | 0 => !s.flag (HDR.COPYING p)
     | 1 => hingePresent p s && s.get (HDR.hArm p) != 0 && s.get (HDR.hArm p) != hingeMfn p s + 1
     | 2 | 3 => hingePresent p s && s.get (HDR.HINGE_MF p) == hingeMfn p s
     | 4 => !s.flag (HDR.COPYING p) && decide (s.get (HDR.hArmTick p) < s.tickCount)
     | _ => false)

/-- The hinge counts a multiframe. -/
def hingeByMf (p : Page) (s : State) : Bool :=
  s.get (HDR.HINGE_MODE p) == modeNextMf || s.get (HDR.HINGE_MODE p) == modeAtMf || s.get (HDR.HINGE_MODE p) == modePaired

/-- The check of R81 on the standby content (R34, R158, R252, R261, R351, R368, R416). -/
def hingeContentOk (p : Page) (s : State) : Bool :=
  match p with
  | .txdsp c => isZr (s.get (TXDSP.hMode c)) || txTableOk c (tableRows (txLoadRow c false) s) s
  | .rxdsp c => isZr (s.get (RXDSP.hMode c)) || rxTableOk c (tableRows (rxLoadRow c false) s) s
  | .hub c => hubHingeOk c s
  | .tsi q => tsiOk q s
  | .tm q => tmHingeOk q s
  | .xqsw => xqswOk s
  | _ => true

/-- Why a hinge whose beat has come is refused (R74, R81, R164, R169): none where it is taken. -/
def hingeRefusal (p : Page) (s : State) : Option Nat :=
  let late := hingeByMf p s && s.flag (HDR.COPYING p)
  match p with
  | .txdsp c =>
    if hingeByMf p s && s.flag (TXDSP.hFbPend c) && txRuns c s then some 4
    else if late then some 5 else if hingeContentOk p s then none else some 3
  | .rxdsp c =>
    if s.get (HDR.HINGE_MODE p) = modePaired ∧ !s.flag (TXDSP.hAcc c) then some 4
    else if late then some 5 else if hingeContentOk p s then none else some 3
  | _ => if late then some 5 else if hingeContentOk p s then none else some 3

/-- A hinge is refused on its beat. -/
def hingeRefuse (p : Page) (cause : Nat) (s : State) : State :=
  match p with
  | .txdsp c => refuseTx c cause s
  | .rxdsp c => refuseRx c cause s
  | _ => refuse p cause s

/-- The RWH fields of a page. -/
def Page.rwh (p : Page) : List Fld :=
  (Page.regs p).flatMap fun r => (r.fields.filter fun f => f.acc == .rwh).flatMap fun f =>
    (List.range r.count).flatMap fun i => (List.range r.count2).map fun j =>
      ⟨p.base + r.off + i * r.stride + j * r.stride2, f.lsb, f.width, f.acc, f.reset⟩

/-- The standby values of a page's RWH fields become active (R52, R80). -/
def rwhTake (p : Page) (s : State) : State := forL (Page.rwh p) (fun f s => s.put f.active (s.get f)) s

/-- The transmit loading hinge is taken (R80, R159, R165, R169, R295), and the signal takes the new shape. -/
def txTake (c : Fin 16) (s : State) : State :=
  let s := s.copyRange (txLoadRow c false 0) (txLoadRow c true 0) 16
  let s := (s.put (TXDSP.LOAD_MFN_TX c) (txMfn c s)).putB (TXDSP.LOAD_STAT_SERVE_PENDING c) false
  let s := (if s.get (TXDSP.hState c) = 3 then s.put (TXDSP.hState c) 1 else s).putB (TXDSP.LOAD_STAT_FALLBACK_ACTIVE c) false
  lineSend c (if s.flag (TXDSP.hOrder c) then
      (s.copyRange (txLoadRow c true 0) (txFallbackRow c 0) 16).putB (TXDSP.hOrder c) false
    else s)

/-- The receive loading hinge is taken (R80, R164, R189, R206, R295). -/
def rxTake (c : Fin 16) (s : State) : State :=
  let was := mask 16 fun i => rxRowOn c (Fin.ofNat 16 i) s
  let s := if s.get (HDR.HINGE_MODE (.rxdsp c)) = modePaired then endRequest c s else s
  let s := seedTaps c was (s.copyRange (rxLoadRow c false 0) (rxLoadRow c true 0) 16)
  let s := if s.flag (RXDSP.hOrder c) then
      (s.copyRange (rxLoadRow c true 0) (rxFallbackRow c 0) 16).putB (RXDSP.hOrder c) false else s
  scCheckAll c s

/-- The hinge of the HUB page is taken (R80, R300). -/
def hubTake (c : Fin 16) (s : State) : State :=
  let mode := carMode c s
  let brs := activeBranches c s
  let rx := streamsRx c s
  let s := (rwhTake (.hub c) s).copyRange (branchRow c false 0) (branchRow c true 0) 16
  hubTaken c mode brs rx (s.copyRange (grantRow c false 0) (grantRow c true 0) 1024)

/-- The hinge of a TSI page is taken (R80, R356 to R358, R418, R427, R454). -/
def tsiTake (q : Fin 4) (s : State) : State :=
  let old := connLive q true s
  let new := connLive q false s
  let ds := ((List.finRange 256).map fun t => (t, tribDesc q true t s, tribDesc q false t s)).filter fun x =>
    (tdEn x.2.1 || tdEn x.2.2) && disturbed x.1 old new x.2.1 x.2.2
  let ports := portsDisturbed q (ds.map (·.2))
  let m := portsSums q s
  segsAbandon q (ds.map (·.1)) (portsRated q m (forL ports (fun p s => portDisturb p.1 p.2 s) (tsiSwap q s)))

/-- What a hinge does to the content of its page (R80). -/
def hingeSwap (p : Page) (s : State) : State :=
  match p with
  | .txdsp c => txTake c s
  | .rxdsp c => rxTake c s
  | .hub c => hubTake c s
  | .tsi q => tsiTake q s
  | .tm q => tmSwap q s
  | .xqsw => xqswSwap s
  | .timing0 => dpllIdle (rwhTake .timing0 s)
  | _ => s

/-- The multiframe number a hinge records: 0 on a level-4 page (R73). -/
def hingeLast (p : Page) (s : State) : Nat := hingeMfn p s

/-- A hinge is taken on its beat (R80, R82): the copy-forward starts. -/
def hingeTaken (p : Page) (s : State) : State :=
  let s := (s.put (HDR.LAST_MF p) (hingeLast p s)).putB (HDR.PENDING p) false
  hingeSwap p ((s.putB (HDR.COPYING p) true).put (HDR.ACTIVE_SEL p) (1 - s.get (HDR.ACTIVE_SEL p)))

/-- A page of a loading table. -/
def loadingPage : Page → Bool
  | .txdsp _ | .rxdsp _ => true
  | _ => false

/-- The pages whose hinge beat this is, each with the reason of its refusal, as the beat starts (R16, R81). The loading
hinges come first: what a HUB hinge leads to, such as a new acquisition, follows the beat (R18). -/
def hingesDue (ps : List Page) (s : State) : List (Page × Option Nat) :=
  let due := ps.dedup.filter fun p => hingeDue p s
  (due.filter loadingPage ++ due.filter fun p => !loadingPage p).map fun p => (p, hingeRefusal p s)

/-- One hinge of the beat. A hinge that another of the same beat has already ended is left alone. -/
def hingeAct (x : Page × Option Nat) (s : State) : State :=
  match x.2 with
  | some cause => hingeRefuse x.1 cause s
  | none => if s.flag (HDR.PENDING x.1) then hingeTaken x.1 s else s

/-- The Tumblers that see a hinge of a page (R578): that of the carrier, those of the quadrant, or the hub's. -/
def hingeEvent (p : Page) (s : State) : State :=
  match p with
  | .txdsp c | .rxdsp c | .hub c => tumbEvent (Fin.ofNat 18 c.val) evHinge s
  | .tsi q | .tm q => quadTumbEvent q evHinge s
  | _ => hubTumbEvent evHinge s

/-- The copy-forward of a page completes (R82). The standby page holds the active content already: no write reached it
since the hinge beat. -/
def copyDone (p : Page) (s : State) : State :=
  hingeEvent p (((s.putB (HDR.COPYING p) false).putB (HDR.DONE p) true).raise p intHingeDone)

end Sys2Proof.Machine
end

