-- ==== Sys2Proof/Machine/Crypto.lean ====
section
/-! DEFINITION. The standard algorithms that the engine uses on bytes: AES-256 (FIPS 197), AES key wrap with and without
padding (RFC 3394, RFC 5649), GCM (NIST SP 800-38D) and SHA-256 (FIPS 180-4), as R440, R449, R461, R467 and R654 name
them. Byte strings are lists of numbers below 256. -/
namespace Sys2Proof.Machine

/-! ## AES-256 -/

/-- The S-box, entry i of a group of 32 in byte i, least significant first. -/
def aesSbox : List Nat :=
  [0xc072a49cafa2d4adf04759fa7dc982ca76abd7fe2b670130c56f6bf27b777c63,
    0x75b227ebe28012079a059618c323c7041531d871f1e5a534ccf73f362693fdb7,
    0xcf584c4a39becb6a5bb1fc20ed00d153842fe329b3d63b52a05a6e1b1a2c8309,
    0xd2f3ff1021dab6bcf5389d928f40a351a89f3c507f02f94585334d43fbaaefd0,
    0xdb0b5ede14b8ee4688902a22dc4f816073195d643d7ea7c41744975fec130ccd,
    0x08ae7a65eaf4566ca94ed58d6d37c8e779e4959162acd3c25c2406490a3a32e0,
    0x9e1dc186b95735610ef6034866b53e708a8bbd4b1f74dde8c6b4a61c2e2578ba,
    0x16bb54b00f2d99416842e6bf0d89a18cdf2855cee9871e9b948ed9691198f8e1]

/-- The inverse S-box. -/
def aesInvSbox : List Nat :=
  [0xcbe9dec444438e3487ff2f9b8239e37cfbd7f3819ea340bf38a53630d56a0952,
    0x25d18b6d49a25b76b224d92866a12e084ec3fa420b954cee3d23c2a632947b54,
    0x849d8da75746155edab9edfd5048706c92b6655dcc5ca4d41698688664f6f872,
    0x6b8a130103bdafc1020f3fca8f1e2cd00645b3b80558e4f70ad3bc8c00abd890,
    0x6edf751ce837f9e28535ade72274ac9673e6b4f0cecff297eadc674f4111913a,
    0xf45acd78fec0db9a2079d2c64b3e56fc1bbe18aa0e62b76f89c5291d711af147,
    0xef9cc9939f7ae52d0d4ab519a97f51605fec8027591012b131c7078833a8dd1f,
    0x7d0c2155631469e126d677ba7e042b17619953833cbbebc8b0f52aae4d3be0a0]

/-- Entry b of an S-box. -/
def sboxAt (t : List Nat) (b : Nat) : Nat := t.getD (b / 32) 0 / 256 ^ (b % 32) % 256

/-- Multiplication by x in the field of FIPS 197. -/
def xtime (b : Nat) : Nat := if b < 128 then 2 * b else (2 * b ^^^ 0x11B) % 256

/-- Multiplication by a constant below 16. -/
def gmul (k b : Nat) : Nat :=
  let b2 := xtime b
  let b4 := xtime b2
  let b8 := xtime b4
  (if k.testBit 0 then b else 0) ^^^ (if k.testBit 1 then b2 else 0) ^^^ (if k.testBit 2 then b4 else 0)
    ^^^ (if k.testBit 3 then b8 else 0)

/-- Two byte strings added bit by bit. -/
def xorBytes (a b : List Nat) : List Nat := List.zipWith (fun x y => x ^^^ y) a b

/-- Word i of the key schedule from the words before it, newest first. -/
def keyWord (i : Nat) (ws : List (List Nat)) : List Nat :=
  let prev := ws.headD []
  let old := ws.getD 7 []
  let t :=
    if i % 8 = 0 then
      xorBytes (((prev.drop 1) ++ prev.take 1).map (sboxAt aesSbox)) [2 ^ (i / 8 - 1), 0, 0, 0]
    else if i % 8 = 4 then prev.map (sboxAt aesSbox)
    else prev
  xorBytes old t

/-- The 15 round keys of a 32-byte key, in order. -/
def roundKeys (key : List Nat) : List (List Nat) :=
  let first := ((List.range 8).map fun i => slice key (4 * i) 4).reverse
  let all := ((List.range 52).foldl (fun ws i => keyWord (i + 8) ws :: ws) first).reverse
  (List.range 15).map fun r => ((all.drop (4 * r)).take 4).flatten

/-- The bytes of a state with row r rotated left by r places; byte 4c + r is row r of column c. -/
def shiftRows (s : List Nat) : List Nat := (List.range 16).map fun i => s.getD ((i + 4 * (i % 4)) % 16) 0

def invShiftRows (s : List Nat) : List Nat := (List.range 16).map fun i => s.getD ((i + 12 * (i % 4)) % 16) 0

/-- Each column multiplied by the circulant matrix with first row k. -/
def mixWith (k : List Nat) (s : List Nat) : List Nat :=
  (List.range 16).map fun i =>
    let c := 4 * (i / 4)
    (List.range 4).foldl (fun a j => a ^^^ gmul (k.getD ((j + 4 - i % 4) % 4) 0) (s.getD (c + j) 0)) 0

/-- AES-256 of one block under its round keys. -/
def aesEncrypt (rk : List (List Nat)) (b : List Nat) : List Nat :=
  match rk with
  | [] => b
  | k0 :: ks =>
    let round (s k : List Nat) : List Nat := xorBytes (mixWith [2, 3, 1, 1] (shiftRows (s.map (sboxAt aesSbox)))) k
    let s := (ks.dropLast).foldl round (xorBytes b k0)
    xorBytes (shiftRows (s.map (sboxAt aesSbox))) (ks.getLastD [])

/-- The inverse cipher. -/
def aesDecrypt (rk : List (List Nat)) (b : List Nat) : List Nat :=
  match rk.reverse with
  | [] => b
  | k0 :: ks =>
    let round (s k : List Nat) : List Nat :=
      mixWith [14, 11, 13, 9] (xorBytes ((invShiftRows s).map (sboxAt aesInvSbox)) k)
    let s := (ks.dropLast).foldl round (xorBytes b k0)
    xorBytes ((invShiftRows s).map (sboxAt aesInvSbox)) (ks.getLastD [])

/-- The round keys of a key given as a number, its first byte most significant. -/
def keysOf (key : Nat) : List (List Nat) := roundKeys (beBytes 32 key)

/-! ## Key wrap -/

/-- The default initial value of RFC 3394. -/
def kwDefault : List Nat := List.replicate 8 0xA6

/-- The initial value of RFC 5649 for 32 bytes. -/
def kwPadded : List Nat := [0xA6, 0x59, 0x59, 0xA6, 0, 0, 0, 32]

/-- A 32-byte key wrapped under an initial value: 40 bytes. -/
def keyWrap (kek : Nat) (iv : List Nat) (key : Nat) : List Nat :=
  let rk := keysOf kek
  let p := beBytes 32 key
  let (a, r) := (List.range 24).foldl (fun (x : List Nat × List (List Nat)) t =>
    let i := t % 4
    let b := aesEncrypt rk (x.1 ++ x.2.getD i [])
    (xorBytes (b.take 8) (beBytes 8 (t + 1)), x.2.set i (b.drop 8))) (iv, (List.range 4).map fun i => slice p (8 * i) 8)
  a ++ r.flatten

/-- A 40-byte blob unwrapped: the key, where the integrity check passes (R461). -/
def keyUnwrap (kek : Nat) (iv : List Nat) (blob : List Nat) : Option Nat :=
  let rk := keysOf kek
  let (a, r) := (List.range 24).reverse.foldl (fun (x : List Nat × List (List Nat)) t =>
    let i := t % 4
    let b := aesDecrypt rk (xorBytes x.1 (beBytes 8 (t + 1)) ++ x.2.getD i [])
    (b.take 8, x.2.set i (b.drop 8))) (slice blob 0 8, (List.range 4).map fun i => slice blob (8 + 8 * i) 8)
  if a = iv then some (ofBe r.flatten) else none

/-! ## GCM -/

/-- One bit step of the product in GCM's field: the accumulator, and the factor still to be added. -/
def ghashBit (x : Nat) (zv : Nat × Nat) (i : Nat) : Nat × Nat :=
  (if x.testBit (127 - i) then zv.1 ^^^ zv.2 else zv.1,
    if zv.2 % 2 = 1 then (zv.2 / 2) ^^^ 0xE1000000000000000000000000000000 else zv.2 / 2)

/-- The product of two elements of GCM's field. -/
def ghashMul (x h : Nat) : Nat := ((List.range 128).foldl (ghashBit x) (0, h)).1

/-- The blocks of a byte string, the last padded with zeros. -/
def blocksOf (l : List Nat) : List (List Nat) :=
  (List.range ((l.length + 15) / 16)).map fun i =>
    let b := slice l (16 * i) 16
    b ++ List.replicate (16 - b.length) 0

/-- GHASH of the padded additional data and ciphertext and of their lengths. -/
def ghash (h : Nat) (aad ct : List Nat) : Nat :=
  (blocksOf aad ++ blocksOf ct ++ [beBytes 8 (8 * aad.length) ++ beBytes 8 (8 * ct.length)]).foldl
    (fun y b => ghashMul (y ^^^ ofBe b) h) 0

/-- The key stream of GCM for a 96-bit IV, over n blocks. -/
def gcmStream (rk : List (List Nat)) (iv : List Nat) (n : Nat) : List Nat :=
  (List.range n).flatMap fun i => aesEncrypt rk (iv ++ beBytes 4 (i + 2))

/-- Encryption and decryption add the same key stream. -/
def gcmCrypt (key : Nat) (iv data : List Nat) : List Nat :=
  xorBytes data (gcmStream (keysOf key) iv ((data.length + 15) / 16))

/-- The 128-bit tag. -/
def gcmTag (key : Nat) (iv aad ct : List Nat) : List Nat :=
  let rk := keysOf key
  let h := ofBe (aesEncrypt rk (List.replicate 16 0))
  xorBytes (beBytes 16 (ghash h aad ct)) (aesEncrypt rk (iv ++ [0, 0, 0, 1]))

/-! ## SHA-256 -/

def shaK : List Nat :=
  [0x428A2F98, 0x71374491, 0xB5C0FBCF, 0xE9B5DBA5, 0x3956C25B, 0x59F111F1, 0x923F82A4, 0xAB1C5ED5, 0xD807AA98,
    0x12835B01, 0x243185BE, 0x550C7DC3, 0x72BE5D74, 0x80DEB1FE, 0x9BDC06A7, 0xC19BF174, 0xE49B69C1, 0xEFBE4786,
    0x0FC19DC6, 0x240CA1CC, 0x2DE92C6F, 0x4A7484AA, 0x5CB0A9DC, 0x76F988DA, 0x983E5152, 0xA831C66D, 0xB00327C8,
    0xBF597FC7, 0xC6E00BF3, 0xD5A79147, 0x06CA6351, 0x14292967, 0x27B70A85, 0x2E1B2138, 0x4D2C6DFC, 0x53380D13,
    0x650A7354, 0x766A0ABB, 0x81C2C92E, 0x92722C85, 0xA2BFE8A1, 0xA81A664B, 0xC24B8B70, 0xC76C51A3, 0xD192E819,
    0xD6990624, 0xF40E3585, 0x106AA070, 0x19A4C116, 0x1E376C08, 0x2748774C, 0x34B0BCB5, 0x391C0CB3, 0x4ED8AA4A,
    0x5B9CCA4F, 0x682E6FF3, 0x748F82EE, 0x78A5636F, 0x84C87814, 0x8CC70208, 0x90BEFFFA, 0xA4506CEB, 0xBEF9A3F7,
    0xC67178F2]

def shaInit : List Nat :=
  [0x6A09E667, 0xBB67AE85, 0x3C6EF372, 0xA54FF53A, 0x510E527F, 0x9B05688C, 0x1F83D9AB, 0x5BE0CD19]

def add32 (a b : Nat) : Nat := (a + b) % 0x100000000
def rotr32 (n a : Nat) : Nat := a / 2 ^ n ||| a * 2 ^ (32 - n) % 0x100000000

/-- The message schedule word after the words before it, newest first. -/
def shaWord (ws : List Nat) : Nat :=
  let a := ws.getD 1 0
  let b := ws.getD 14 0
  let s1 := rotr32 17 a ^^^ rotr32 19 a ^^^ a / 1024
  let s0 := rotr32 7 b ^^^ rotr32 18 b ^^^ b / 8
  (s1 + ws.getD 6 0 + s0 + ws.getD 15 0) % 0x100000000

/-- One round on the eight working variables. -/
def shaRound (v : List Nat) (kw : Nat × Nat) : List Nat :=
  match v with
  | [a, b, c, d, e, f, g, h] =>
    let t1 := h + (rotr32 6 e ^^^ rotr32 11 e ^^^ rotr32 25 e) + ((e &&& f) ^^^ ((0xFFFFFFFF - e) &&& g)) + kw.1 + kw.2
    let t2 := (rotr32 2 a ^^^ rotr32 13 a ^^^ rotr32 22 a) + ((a &&& b) ^^^ (a &&& c) ^^^ (b &&& c))
    [add32 t1 t2, a, b, c, add32 d t1, e, f, g]
  | _ => v

/-- One 64-byte block. -/
def shaBlock (v : List Nat) (b : List Nat) : List Nat :=
  let w0 := ((List.range 16).map fun i => ofBe (slice b (4 * i) 4)).reverse
  let ws := ((List.range 48).foldl (fun ws _ => shaWord ws :: ws) w0).reverse
  List.zipWith add32 v ((List.zip shaK ws).foldl shaRound v)

/-- SHA-256 of a byte string, as 32 bytes. -/
def sha256 (l : List Nat) : List Nat :=
  let pad := [0x80] ++ List.replicate ((119 - l.length % 64) % 64) 0
  let m := l ++ pad ++ beBytes 8 (8 * l.length)
  (((List.range (m.length / 64)).map fun i => slice m (64 * i) 64).foldl shaBlock shaInit).flatMap (beBytes 4)

end Sys2Proof.Machine
end

