-- ==== Sys2Proof/Machine/Ciph.lean ====
section
/-! DEFINITION. The cipher of a quadrant: key slots (R452, R460, R462 to R464), segments sent (R445 to R453) and received
(R455 to R459), and writes to association descriptors (R443, R444). -/
namespace Sys2Proof.Machine

/-! ## Counters -/

/-- Counter i of R470 takes one more; AUTH_FAIL and REPLAY set their interrupt. -/
def cpCount (q : Fin 4) (i : Fin 10) (s : State) : State :=
  let s := s.cntAdd (CIPH.hCnt q i) 1
  if i = 2 then s.raise (.ciph q) 0 else if i = 6 then s.raise (.ciph q) 7 else s

def kSegTx : Fin 10 := 0
def kSegRx : Fin 10 := 1
def kAuthFail : Fin 10 := 2
def kHdrErr : Fin 10 := 3
def kSaMismatch : Fin 10 := 4
def kKeyUnknown : Fin 10 := 5
def kReplay : Fin 10 := 6
def kKaTx : Fin 10 := 7
def kKaRx : Fin 10 := 8
def kVfDiscard : Fin 10 := 9

/-- A statistics word of an association (4 SEG, 5 FAIL, 6 HDR_ERR, 7 KA) takes one more (R442). -/
def asStat (q : Fin 4) (a : Fin 1024) (w : Nat) (s : State) : State :=
  s.modify (assocWord q a.val w) fun v =>
    if bit v 63 then v else if 2 ^ 48 - 1 ≤ bits v 0 48 + 1 then 2 ^ 63 + (2 ^ 48 - 1) else bits v 0 48 + 1

/-- The PM second in the CIPH page (R470). -/
def cpLatch (q : Fin 4) (s : State) : State :=
  let sat := (List.finRange 10).any fun i => (s.get (CIPH.hCnt q i)).testBit 48
  let s := forFin 10 (fun i s =>
    s.cntLatch (CIPH.hCnt q i) (CIPH.CNT_LO q i) (CIPH.CNT_HI_SATURATED q i) (CIPH.CNT_HI_COUNT q i)) s
  s.raiseIf (.ciph q) 8 sat

/-- CIPH_STAT (R470). -/
def ciphStat (q : Fin 4) (s : State) : Nat :=
  let l := asLive q s
  2 ^ 16 * (l.countP fun y => !adRx y.2) + l.countP fun y => adRx y.2

/-- An association of the quadrant is STOPPED (R470). -/
def anyStopped (q : Fin 4) (s : State) : Bool := (asLive q s).any fun y => asState q y.1 s == asStopped

/-! ## Key slots (R460) -/

def slotStat (q : Fin 4) (k : Fin 1024) (s : State) : Nat := s.word (slotStatWord q k.val)
def slotLoaded (q : Fin 4) (k : Fin 1024) (s : State) : Bool := bit (slotStat q k s) 63
def slotPrev (q : Fin 4) (k : Fin 1024) (s : State) : Bool := bit (slotStat q k s) 62
def slotGen (q : Fin 4) (k : Fin 1024) (s : State) : Nat := bits (slotStat q k s) 54 8
def slotWear (q : Fin 4) (k : Fin 1024) (s : State) : Nat := bits (slotStat q k s) 0 48

/-- The slot's status word is set. -/
def slotSet (q : Fin 4) (k : Fin 1024) (loaded prev : Bool) (gen wear : Nat) (s : State) : State :=
  s.store (slotStatWord q k.val) (2 ^ 63 * loaded.toNat + 2 ^ 62 * prev.toNat + 2 ^ 54 * (gen % 256) + wear % 2 ^ 48)

/-- The wear limit (R452). -/
def wearLimit (q : Fin 4) (s : State) : Nat :=
  if s.get (CIPH.CIPH_CFG_WEAR_LOG2 q) = 48 then 2 ^ 48 - 1 else 2 ^ s.get (CIPH.CIPH_CFG_WEAR_LOG2 q)

/-- A segment has been encrypted under CUR (R452): WEAR counts it, and warns or stops. -/
def slotWorn (q : Fin 4) (k : Fin 1024) (s : State) : State :=
  let lim := wearLimit q s
  let w := min (2 ^ 48 - 1) (slotWear q k s + 1)
  let s := slotSet q k (slotLoaded q k s) (slotPrev q k s) (slotGen q k s) w s
  (s.raiseIf (.ciph q) 3 (w == 7 * lim / 8)).raiseIf (.ciph q) 4 (w == lim)

/-- CIPH_CFG is written: slots whose WEAR thereby reaches the mark or the limit warn or stop (R452). -/
def wearFollow (q : Fin 4) (old s : State) : State :=
  let a := wearLimit q old
  let b := wearLimit q s
  let hit (x y : Nat) : Bool := (List.finRange 1024).any fun k => decide (slotWear q k s < x) && decide (y ≤ slotWear q k s)
  if b < a then (s.raiseIf (.ciph q) 3 (hit (7 * a / 8) (7 * b / 8))).raiseIf (.ciph q) 4 (hit a b) else s

/-- The enabled associations that use a slot. -/
def slotUsers (q : Fin 4) (k : Fin 1024) (s : State) : List (Fin 1024 × Nat) := (asLive q s).filter fun y => adSlot y.2 == k

/-- An association stops because its slot is erased (R453, R459, R463). -/
def asErased (q : Fin 4) (y : Fin 1024 × Nat) (s : State) : State :=
  let st := asState q y.1 s
  if (if adRx y.2 then st == asHunt || st == asVerify || st == asRun else st == asRun) then
    (asMove q y.1 asStopped acErased s).raise (.ciph q) 1
  else s

/-- The erase of a slot commits (R463): its associations stand stopped, and CUR and PREV are zeroised. -/
def slotErase (q : Fin 4) (k : Fin 1024) (s : State) : State :=
  let us := slotUsers q k s
  let s := forL us (fun y s => (asErased q y s).putB (CIPH.hTook q y.1) false) s
  let s := ((s.put (CIPH.hCur q k) 0).put (CIPH.hPrev q k) 0).put (CIPH.hStage q k) 0
  slotSet q k false false (slotGen q k s) (slotWear q k s) s

/-- The import into a slot commits (R462): PREV takes CUR, CUR the new key, KEYGEN increases and WEAR returns to 0;
associations stopped for want of the key run again (R453, R459). -/
def slotImport (q : Fin 4) (k : Fin 1024) (s : State) : State :=
  let us := slotUsers q k s
  let loaded := slotLoaded q k s
  let s := if loaded then s.put (CIPH.hPrev q k) (s.get (CIPH.hCur q k)) else s
  let s := ((s.put (CIPH.hCur q k) (s.get (CIPH.hNew q k))).put (CIPH.hNew q k) 0).put (CIPH.hStage q k) 0
  let s := slotSet q k true loaded (slotGen q k s + 1) 0 s
  forL us (fun y s =>
    let s := s.putB (CIPH.hTook q y.1) false
    let c := asCause q y.1 s
    if asState q y.1 s = asStopped then
      if adRx y.2 then if c = acErased then asMove q y.1 asHunt 0 s else s
      else if c = acNoKey ∨ c = acErased ∨ c = acWorn then asMove q y.1 asRun 0 s else s
    else s) s

/-- The current generation and key of a slot as an association sees them: the staged key once it has taken it (R462). -/
def keyNow (q : Fin 4) (a : Fin 1024) (k : Fin 1024) (s : State) : Option (Nat × Nat) :=
  if s.get (CIPH.hStage q k) = 1 ∧ s.flag (CIPH.hTook q a) then some ((slotGen q k s + 1) % 256, s.get (CIPH.hNew q k))
  else if slotLoaded q k s then some (slotGen q k s, s.get (CIPH.hCur q k))
  else none

/-- The previous generation and key of a slot as an association sees them. -/
def keyBefore (q : Fin 4) (a : Fin 1024) (k : Fin 1024) (s : State) : Option (Nat × Nat) :=
  if s.get (CIPH.hStage q k) = 1 ∧ s.flag (CIPH.hTook q a) then
    if slotLoaded q k s then some (slotGen q k s, s.get (CIPH.hCur q k)) else none
  else if slotPrev q k s then some ((slotGen q k s + 255) % 256, s.get (CIPH.hPrev q k))
  else none

/-- The key of a generation that reception accepts: CUR or a valid PREV (R455, R460). -/
def keyFor (q : Fin 4) (a : Fin 1024) (k : Fin 1024) (gen : Nat) (s : State) : Option Nat :=
  match keyNow q a k s with
  | some (g, key) => if g = gen then some key else (keyBefore q a k s).bind fun x => if x.1 = gen then some x.2 else none
  | none => (keyBefore q a k s).bind fun x => if x.1 = gen then some x.2 else none

/-! ## Boundaries (R462, R463, R465, R467) -/

/-- The association carries no segments, so no boundary of it will come: its tributary is not enabled, or its side is
dead (log entry 46). -/
def asIdle (q : Fin 4) (w : Nat) (s : State) : Bool :=
  if adRx w then sideDead q (adTrib w) (adSide w) s else !tdEn (tribDesc q true (adTrib w) s)

/-- A SAVE stops the association at its boundary (R453, R459, R467). -/
def asSaves (q : Fin 4) (y : Fin 1024 × Nat) (s : State) : State :=
  let st := asState q y.1 s
  let s := s.putB (CIPH.hSaving q y.1) false
  if st = asStopped ∨ st = asOff then s else asMove q y.1 asStopped acSaved s

/-- A staged command meets the association at a segment boundary (R462, R463, R467). -/
def asBoundary (q : Fin 4) (y : Fin 1024 × Nat) (s : State) : State :=
  let k := adSlot y.2
  let st := s.get (CIPH.hStage q k)
  let s := if st ≠ 0 ∧ !s.flag (CIPH.hTook q y.1) then
      let s := s.putB (CIPH.hTook q y.1) true
      if st = 2 then asErased q y s else s
    else s
  if s.flag (CIPH.hSaving q y.1) then asSaves q y s else s

/-- A hardware stop of a TX association (R451, R452, R465), before any staged command. -/
def txStops (q : Fin 4) (y : Fin 1024 × Nat) (s : State) : State :=
  if asState q y.1 s ≠ asRun then s
  else if asSeq q y.1 s = 2 ^ 64 - 1 then (asMove q y.1 asStopped acExhausted s).raise (.ciph q) 2
  else if wearLimit q s ≤ slotWear q (adSlot y.2) s then asMove q y.1 asStopped acWorn s
  else s

/-! ## Descriptors with errors (R539) -/

/-- The descriptor's words 0 to 3 are read: what is found is counted (R536, R538), and an uncorrectable error marks the
association. -/
def asRead (q : Fin 4) (a : Fin 1024) (s : State) : State :=
  forL (List.range 4) (fun w s =>
    let r := s.readWord (assocWord q a.val w) false
    if r.1 = .ue then r.2.2.putB (CIPH.hBad q a) true else r.2.2) s

/-- The read of a key slot that finds an uncorrectable error erases it at once (R539). -/
def slotUe (q : Fin 4) (w : Nat) (ue : Bool) (s : State) : State := if ue then slotErase q (adSlot w) s else s

/-! ## Transmission (R445 to R453) -/

/-- A segment header without its CRC (R448). -/
def segHeader (ka : Bool) (gen saId seq : Nat) : List Nat :=
  let b := [128 * ka.toNat, gen % 256] ++ beBytes 2 saId ++ beBytes 8 seq ++ [0, 0]
  b ++ beBytes 2 (crc16 b)

/-- The IV of a segment (R449). -/
def segIv (salt seq : Nat) : List Nat := beBytes 4 salt ++ beBytes 8 seq

/-- The data-channel byte of a segment group beside which overhead byte o begins (R446). -/
def ohPlace (o : Nat) : Nat := 128 * o

/-- Record j of a segment group, from the header of the segment that follows segment j and the tag of the one before it; bytes
3,808 to 3,823 of the group, zeros, come after record 118 (R446, R447). -/
def recordBytes (j : Nat) (header tag : List Nat) : List Nat :=
  header ++ tag ++ if j = 118 then List.replicate 16 0 else []

/-- The header and the tag of a record (R447). -/
def recordHeader (b : List Nat) : List Nat := b.take 16
def recordTag (b : List Nat) : List Nat := slice b 16 16

/-- Segment j of a group begins with a header and a tag to come (R446, R447): the record before it carries the header and the tag
of the segment before that; the first segment of a frame sequence has no record before it. -/
def sendRecord (q : Fin 4) (a : Fin 1024) (j : Fin 119) (header tag : List Nat) (s : State) : State :=
  let old := s.segTags.find? fun g => g.q == q && g.a == a
  let p := (j.val + 118) % 119
  let zero := List.replicate 16 0
  let s := if old.isSome || decide (j.val ≠ 0) then
      s.send (.segRecord q a p (ohPlace (32 * p)) (recordBytes p header ((old.map (·.before)).getD zero))) else s
  { s with segTags := s.segTags.filter (fun g => !(g.q == q && g.a == a)) ++ [⟨q, a, tag, (old.map (·.last)).getD zero⟩] }

/-- A key-absent segment of n payload bytes, segment j of its group, is sent (R449). -/
def sendAbsent (q : Fin 4) (a : Fin 1024) (j : Fin 119) (saId n : Nat) (s : State) : State :=
  let hd := segHeader true 0 saId 0
  sendRecord q a j hd (List.replicate 16 0) ((cpCount q kKaTx (asStat q a 7 s)).send (.segment q a hd (List.replicate n 0)))

/-- A segment, segment j of its group, is encrypted and sent (R449, R450, R452). -/
def sendSegment (q : Fin 4) (y : Fin 1024 × Nat) (j : Fin 119) (gen key : Nat) (data : List Nat) (s : State) : State :=
  let a := y.1
  let k := adSlot y.2
  let n := asSeq q a s
  let hd := segHeader false gen (adSaId y.2) n
  let iv := segIv (asSalt q a s) n
  let ct := gcmCrypt key iv data
  let fresh := s.get (CIPH.hStage q k) == 1 && s.flag (CIPH.hTook q a)
  let s := sendRecord q a j hd (gcmTag key iv hd ct) (s.send (.segment q a hd ct))
  let s := (s.modify (assocWord q a.val 2) (fun v => (v + 1) % 2 ^ 64)).modify (assocWord q a.val 3) (fun v => setBits v 50 8 gen)
  let s := cpCount q kSegTx (asStat q a 4 s)
  if fresh then s else slotWorn q k s

/-- TX_SEGMENT_SEND (R445 to R453, R465, R470, R539): association a reaches a segment boundary, the segment `d` of its group beginning
with its payload; `ue` — the read of its key slot finds an uncorrectable error. -/
def execTxSegmentSend (q : Fin 4) (a : Fin 1024) (d : SegmentOut) (ue : Bool) (s : State) : Out :=
  act s fun s =>
    let s := asRead q a s
    let w := asWord q a 0 s
    if s.flag (CIPH.hBad q a) then if adRx w then s else sendAbsent q a d.j (adSaId w) d.data.length s
    else if !adEn w || adRx w || !tdEn (tribDesc q true (adTrib w) s) then s
    else
      let s := asBoundary q (a, w) (txStops q (a, w) (slotUe q w ue s))
      match (if asState q a s = asRun ∧ pageOn (.ciph q) s then keyNow q a (adSlot w) s else none) with
      | some (gen, key) => sendSegment q (a, w) d.j gen key d.data s
      | none => sendAbsent q a d.j (adSaId w) d.data.length s

/-! ## Reception (R455 to R459) -/

/-- The mapper acts on a segment that is replaced (R456, R457): on the side in force of an IMP tributary, `n` frames are
ended or discarded and counted. -/
def segReplaced (q : Fin 4) (y : Fin 1024 × Nat) (n : Nat) (s : State) : State :=
  let t := adTrib y.2
  let s := s.send (.replaced q y.1)
  if tdImp (tribDesc q true t s) && s.get (TSI.hSel q t) == (adSide y.2).val then tmCount q cEccDisc n s else s

/-- AUTO (R442): 0b11 acts as AUTO. -/
def adAuto (w : Nat) : Bool := adMode w == 0 || adMode w == 3

/-- A segment has failed (R456, R458, R459). -/
def segFailed (q : Fin 4) (y : Fin 1024 × Nat) (n : Nat) (s : State) : State :=
  let a := y.1
  let s := asStat q a 5 s
  let s := if asState q a s = asVerify then cpCount q kVfDiscard s else s
  let s := segReplaced q y n s
  let s := (s.put (CIPH.hPass q a) 0).incStick (CIPH.hFail q a) 1
  if asState q a s = asRun ∧ adAuto y.2 ∧ max 1 (s.get (CIPH.CIPH_CFG_FAIL_RUN q)) ≤ s.get (CIPH.hFail q a) then
    (asMove q a asVerify 0 s).raise (.ciph q) 6
  else s

/-- A segment has passed (R455, R458, R459). -/
def segPassed (q : Fin 4) (y : Fin 1024 × Nat) (g : RxSegment) (plain : List Nat) (s : State) : State :=
  let a := y.1
  let s := s.modify (assocWord q a.val 2) (fun _ => g.seq)
  let s := s.modify (assocWord q a.val 3) (fun v => setBits v 50 8 g.gen)
  let s := cpCount q kSegRx (asStat q a 4 s)
  let s := (s.put (CIPH.hFail q a) 0).incStick (CIPH.hPass q a) 1
  if asState q a s = asVerify then
    let s := s.send (.plaintext q a plain)
    if adAuto y.2 ∧ max 1 (s.get (CIPH.CIPH_CFG_VF_PASS q)) ≤ s.get (CIPH.hPass q a) then asMove q a asRun 0 s else s
  else s

/-- A segment is decrypted (R455): in RUN its plaintext passes at once (R456), in VERIFY it is held (R458). -/
def segDecrypt (q : Fin 4) (y : Fin 1024 × Nat) (gen seq : Nat) (data : List Nat) (s : State) : State :=
  let a := y.1
  let key := keyFor q a (adSlot y.2) gen s
  let g : RxSegment := ⟨q, a, segHeader false gen (adSaId y.2) seq, data, key, gen, seq⟩
  let s := { s with segments := s.segments ++ [g] }
  match key with
  | some k => if asState q a s = asRun then s.send (.plaintext q a (gcmCrypt k (segIv (asSalt q a s) seq) data)) else s
  | none => s

/-- A segment is judged by its header (R455). -/
def segJudge (q : Fin 4) (y : Fin 1024 × Nat) (hd data : List Nat) (n : Nat) (s : State) : State :=
  let a := y.1
  let gen := hd.getD 1 0
  let seq := ofBe (slice hd 4 8)
  if crc16 (hd.take 14) ≠ ofBe (slice hd 14 2) then
    segDecrypt q y (s.get (CIPH.hGen q a)) ((asSeq q a s + 1) % 2 ^ 64) data (cpCount q kHdrErr (asStat q a 6 s))
  else if bit (hd.headD 0) 7 then
    let s := cpCount q kKaRx (asStat q a 7 s)
    segReplaced q y n ((s.put (CIPH.hPass q a) 0).put (CIPH.hFail q a) 0)
  else
    let s := s.put (CIPH.hGen q a) gen
    if ofBe (slice hd 2 2) ≠ adSaId y.2 then segFailed q y n (cpCount q kSaMismatch s)
    else if keyFor q a (adSlot y.2) gen s = none then segFailed q y n (cpCount q kKeyUnknown s)
    else if seq ≤ asSeq q a s then segFailed q y n (cpCount q kReplay s)
    else segDecrypt q y gen seq data s

/-- RX_SEGMENT_RECEIVE (R441, R447, R455 to R459, R470, R539): a segment of RX association a, with the record before it, which has
its header; `n` — the frames of an IMP tributary that end or begin in it, `ue` — the read of its key slot finds an uncorrectable
error. -/
def execRxSegmentReceive (q : Fin 4) (a : Fin 1024) (rcd data : List Nat) (n : Nat) (ue : Bool) (s : State) : Out :=
  act s fun s =>
    let hd := recordHeader rcd
    let s := asRead q a s
    let w := asWord q a 0 s
    let y := (a, w)
    if s.flag (CIPH.hBad q a) then segReplaced q y n s
    else if !adEn w || !adRx w then s
    else if sideDead q (adTrib w) (adSide w) s then asLost q (adTrib w) (adSide w) s
    else
      let s := asBoundary q y (slotUe q w ue s)
      let st := asState q a s
      if !pageOn (.ciph q) s || st == asStopped || st == asOff then segReplaced q y n s
      else if st = asHunt then
        if crc16 (hd.take 14) = ofBe (slice hd 14 2) ∧ !bit (hd.headD 0) 7 then
          segJudge q y hd data n (asMove q a (if adMode w = 1 then asRun else asVerify) 0 s)
        else segReplaced q y n s
      else segJudge q y hd data n s

/-- RX_TAG_RESULT (R447, R455, R456, R458, R459, R539): the record after the oldest segment that waits for its tag, which has it.
`n` as above; `ue` — the read of the verify buffer finds an uncorrectable error. -/
def execRxTagResult (q : Fin 4) (a : Fin 1024) (rcd : List Nat) (n : Nat) (ue : Bool) (s : State) : Out :=
  act s fun s =>
    match s.segments.find? (fun g => g.q == q && g.a == a) with
    | some g =>
      let s := { s with segments := s.segments.erase g }
      let y := (a, asWord q a 0 s)
      let iv := segIv (asSalt q a s) g.seq
      if ue ∧ asState q a s = asVerify then segFailed q y n s
      else
        match g.key with
        | some k =>
          if gcmTag k iv g.aad g.data = recordTag rcd then segPassed q y g (gcmCrypt k iv g.data) s
          else segFailed q y n (cpCount q kAuthFail s)
        | none => segFailed q y n (cpCount q kAuthFail s)
    | none => s

/-- ODUFLEX_LOSS (R360, R459): a side loses ODUflex alignment; its RX association returns to HUNT. -/
def execOduflexLoss (q : Fin 4) (t : Fin 256) (x : Fin 2) (s : State) : Out :=
  act s fun s => asLost q t x (oduflexLoss q t x s)

/-! ## Descriptor writes (R442 to R444) -/

def dupAssoc : Nat := 1
def dupSalt : Nat := 2

/-- Why an association is not enabled (R444); 0 where it is. -/
def asReject (q : Fin 4) (a : Fin 1024) (d : Nat) (s : State) : Nat :=
  let others := (asLive q s).filter fun y => y.1 != a
  if others.any (fun y => adTrib y.2 == adTrib d && adRx y.2 == adRx d && (!adRx d || adSide y.2 == adSide d)) then dupAssoc
  else if !adRx d && others.any (fun y => !adRx y.2 && adSlot y.2 == adSlot d && asSalt q y.1 s == asSalt q a s) then dupSalt
  else 0

/-- An enabled association starts (R453, R459). -/
def asStart (q : Fin 4) (a : Fin 1024) (s : State) : State :=
  let w := asWord q a 0 s
  if adRx w then asMove q a asHunt 0 s
  else if slotLoaded q (adSlot w) s then asMove q a asRun 0 s
  else asMove q a asStopped acNoKey s

/-- A rejected enable is recorded: CFG_REJ keeps the first since VALID was cleared (R470). -/
def cpReject (q : Fin 4) (cause : Nat) (a : Fin 1024) (s : State) : State :=
  let s := s.raise (.ciph q) 5
  if s.flag (CIPH.CFG_REJ_VALID q) then s
  else ((s.putB (CIPH.CFG_REJ_VALID q) true).put (CIPH.CFG_REJ_CAUSE q) cause).put (CIPH.CFG_REJ_INDEX q) a.val

/-- The association's own marks are cleared. -/
def asForget (q : Fin 4) (a : Fin 1024) (s : State) : State :=
  ((s.putB (CIPH.hTook q a) false).putB (CIPH.hSaving q a) false).putB (CIPH.hBad q a) false

/-- EN = 1 is applied to a word 0 under R444: whether it is accepted, and the state after. -/
def asEnable (q : Fin 4) (a : Fin 1024) (put : Nat → State → State) (d : Nat) (s : State) : Bool × State :=
  let r := asReject q a d s
  if r = 0 then (true, asStart q a (put d (asForget q a s)))
  else (false, cpReject q r a (put (setBits d 63 1 0) s))

/-- A word of a descriptor is written by a master (R442, R443). -/
def assocWrite (m : Master) (q : Fin 4) (a : Fin 1024) (w addr : Nat) (full : Bool) (d : Nat) (s : State) : State :=
  let l := assocWord q a.val w
  let cur := asWord q a 0 s
  let deny := logWin (.ciph q) causeActiveWrite (masterId m) 0 addr s
  match w with
  | 0 =>
    if adEn cur ∧ bits d 25 38 ≠ bits cur 25 38 then deny
    else if adEn d ∧ !adEn cur then (asEnable q a (fun d s => storeFor m full l d s) d s).2
    else
      let s := storeFor m full l d (s.putB (CIPH.hBad q a) false)
      if adEn cur ∧ !adEn d then asMove q a asOff 0 (asForget q a s) else s
  | 1 | 2 => if adEn cur then deny else storeFor m full l d s
  | 3 => if adEn cur then deny else s
  | _ => storeFor m full l d s

/-- The window address of word w of association a (R442). -/
def assocAddr (q : Fin 4) (a : Fin 1024) (w : Nat) : Nat := 0x0340_0000 + q.val * 0x30_0000 + 0x4_0000 + 64 * a.val + 8 * w

/-- A 64-bit write to word 0 of a descriptor. -/
def assocCmd (m : Master) (q : Fin 4) (a : Fin 1024) (d : Nat) (s : State) : State :=
  winCmd m ⟨.assoc, .ciph q, 8 * a.val, false, assocWord q a.val 0⟩ false (assocAddr q a 0) 8 d
    (fun d s => assocWrite m q a 0 (assocAddr q a 0) true d s) s

/-- ASSOC_ENABLE (R443, R444, R453, R459): word 0 written with EN = 1. -/
def execAssocEnable (m : Master) (q : Fin 4) (a : Fin 1024) (v : Nat) (s : State) : Out :=
  act s fun s => assocCmd m q a (2 ^ 63 + v % 2 ^ 63) s

/-- ASSOC_DISABLE (R453, R459): word 0 written with EN = 0. -/
def execAssocDisable (m : Master) (q : Fin 4) (a : Fin 1024) (v : Nat) (s : State) : Out :=
  act s fun s => assocCmd m q a (v % 2 ^ 63) s

/-! ## Soft reset (R470) -/

/-- Words 3 to 7 of every descriptor are cleared; descriptor words 0 to 2 and the key slots are kept. -/
def ciphClear (q : Fin 4) (s : State) : State :=
  let l := (s.live (assocWord q 0 0) 8192).filter fun i => decide (3 ≤ i % 8)
  let s := forL l (fun i s => s.zeroRange (assocWord q 0 i) 1) s
  { s with segments := s.segments.filter fun g => g.q != q }

/-- Every enabled association starts as at its enable (R466, R470). -/
def ciphStart (q : Fin 4) (s : State) : State := forL (asLive q s) (fun y s => asStart q y.1 (asForget q y.1 s)) s

end Sys2Proof.Machine
end

