-- ==== Sys2Proof/Machine/Keyway.lean ====
section
/-! DEFINITION. The Keyway: its commands (R461 to R465, R467 to R469, R472), the saved-association table, and zeroisation
(R466, R659). -/
namespace Sys2Proof.Machine

/-! ## Results (R471) -/

def krOk : Nat := 1
def krRefused : Nat := 2
def krIntegrity : Nat := 3

def kcIndex : Nat := 1
def kcNoKek : Nat := 2
def kcState : Nat := 3
def kcNoRecord : Nat := 4
def kcStale : Nat := 5
def kcFloor : Nat := 6
def kcSlotFull : Nat := 7
def kcSlotEmpty : Nat := 8
def kcLen : Nat := 9

/-- The running command's result is known; KEYWAY_CMD_DONE reports it. -/
def kwEnds (r cause : Nat) (s : State) : State := (s.put KEYWAY.hRes r).put KEYWAY.hCause cause

/-! ## Arguments -/

def kwWrap (s : State) : Bool := bit (s.get KEYWAY.hArg) 31
def kwRecord (s : State) : Fin 16384 := Fin.ofNat 16384 (bits (s.get KEYWAY.hArg) 16 14)
def kwKek (s : State) : Nat := bits (s.get KEYWAY.hArg) 12 4
def kwIndex (s : State) : Nat := bits (s.get KEYWAY.hArg) 0 12
/-- The quadrant and the slot, or the association, of INDEX. -/
def kwQuad (s : State) : Fin 4 := Fin.ofNat 4 (kwIndex s / 1024)
def kwPlace (s : State) : Fin 1024 := Fin.ofNat 1024 (kwIndex s)

/-- KW_ARG0 as one word. -/
def kwArg0 (s : State) : Nat :=
  s.get KEYWAY.KW_ARG0_WRAP * 2 ^ 31 + s.get KEYWAY.KW_ARG0_RECORD * 2 ^ 16 + s.get KEYWAY.KW_ARG0_KEK * 2 ^ 12
    + s.get KEYWAY.KW_ARG0_INDEX

/-- The bytes of KW_BUF (R471). -/
def kwBuf (s : State) : List Nat := (List.finRange 32).flatMap fun w => leBytes 4 (s.get (KEYWAY.KW_BUF w))

/-- Bytes are written to KW_BUF from its start. -/
def kwFill (l : List Nat) (s : State) : State :=
  forFin 32 (fun w s => if 4 * w.val < l.length then s.put (KEYWAY.KW_BUF w) (ofLe (slice l (4 * w.val) 4)) else s) s

def kekLoaded (k : Nat) (s : State) : Bool := (s.get KEYWAY.KEK_STAT).testBit k
def kekOf (k : Nat) (s : State) : Nat := s.get (KEYWAY.hKek (Fin.ofNat 16 k))

/-! ## The commands -/

/-- IMPORT_KEK (R461). -/
def kwImportKek (s : State) : State :=
  if kwIndex s = 0 ∨ 15 < kwIndex s ∨ kwKek s ≠ 0 then kwEnds krRefused kcIndex s
  else if !kekLoaded 0 s then kwEnds krRefused kcNoKek s
  else
    match keyUnwrap (kekOf 0 s) kwDefault ((kwBuf s).take 40) with
    | some k => kwEnds krOk 0 ((s.put (KEYWAY.hKek (Fin.ofNat 16 (kwIndex s))) k).setBit KEYWAY.KEK_STAT (kwIndex s))
    | none => kwEnds krIntegrity 0 s

/-- ERASE_KEK (R472): keys unwrapped under it stay in their slots. -/
def kwEraseKek (s : State) : State :=
  if kwIndex s = 0 ∨ 15 < kwIndex s then kwEnds krRefused kcIndex s
  else kwEnds krOk 0 ((s.put (KEYWAY.hKek (Fin.ofNat 16 (kwIndex s))) 0).clrBit KEYWAY.KEK_STAT (kwIndex s))

/-- IMPORT_KEY (R461, R462): the key is staged; a slot that no association uses commits at once. -/
def kwImportKey (s : State) : State :=
  let q := kwQuad s
  let k := kwPlace s
  if !kekLoaded (kwKek s) s then kwEnds krRefused kcNoKek s
  else
    match keyUnwrap (kekOf (kwKek s) s) kwDefault ((kwBuf s).take 40) with
    | some key =>
      let s := (s.put (CIPH.hNew q k) key).put (CIPH.hStage q k) 1
      if slotUsers q k s = [] then kwEnds krOk 0 (slotImport q k s) else s
    | none => kwEnds krIntegrity 0 s

/-- ERASE_KEY (R463): staged; a slot that no association uses is erased at once. -/
def kwEraseKey (s : State) : State :=
  let q := kwQuad s
  let k := kwPlace s
  let s := s.put (CIPH.hStage q k) 2
  if slotUsers q k s = [] then kwEnds krOk 0 (slotErase q k s) else s

/-- RETIRE_PREV (R464): immediately. -/
def kwRetirePrev (s : State) : State :=
  let q := kwQuad s
  let k := kwPlace s
  kwEnds krOk 0 (slotSet q k (slotLoaded q k s) false (slotGen q k s) (slotWear q k s) (s.put (CIPH.hPrev q k) 0))

/-- SAVE (R467): refused where the association is OFF; otherwise it stops at its next segment boundary. -/
def kwSave (s : State) : State :=
  let q := kwQuad s
  let a := kwPlace s
  if !adEn (asWord q a 0 s) then kwEnds krRefused kcState s else s.putB (CIPH.hSaving q a) true

/-- The record of R468 without its CRC. -/
def recordBody (q : Fin 4) (a : Fin 1024) (wrap : Bool) (r : Fin 16384) (serial : Nat) (s : State) : List Nat :=
  let w := asWord q a 0 s
  [0x54, 0x53, 0x41, 0x43] ++ leBytes 2 1
    ++ [(adRx w).toNat + 2 * (adSide w).val + 4 * adMode w + 16 * wrap.toNat, slotGen q (adSlot w) s] ++ leBytes 2 r.val
    ++ leBytes 2 (adSaId w) ++ leBytes 4 serial ++ leBytes 4 (asSalt q a s) ++ leBytes 4 0 ++ leBytes 8 (asSeq q a s)
    ++ List.replicate 28 0

/-- A saved record (R467, R468): 64 bytes, and with WRAP the slot's CUR wrapped with padding under KEK0. -/
def recordOf (q : Fin 4) (a : Fin 1024) (wrap : Bool) (r : Fin 16384) (serial : Nat) (s : State) : List Nat :=
  let b := recordBody q a wrap r serial s
  b ++ leBytes 4 (crc32c b)
    ++ if wrap then keyWrap (kekOf 0 s) kwPadded (s.get (CIPH.hCur q (adSlot (asWord q a 0 s)))) else []

/-- SAVE_COMPLETE (R467): the association has stopped at its boundary, or has none to come; its entry is updated and the
record written. -/
def execSaveComplete (s : State) : Out :=
  act s fun s =>
    if s.flag KEYWAY.KW_STAT_BUSY ∧ s.get KEYWAY.hOp = 6 ∧ s.get KEYWAY.hRes = 0 then
      let q := kwQuad s
      let a := kwPlace s
      let y := (a, asWord q a 0 s)
      let s := if s.flag (CIPH.hSaving q a) ∧ asIdle q y.2 s then asSaves q y s else s
      if s.flag (CIPH.hSaving q a) then s
      else
        let r := kwRecord s
        let s := (((s.incWrap (KEYWAY.hSvSerial r) 1).putB (KEYWAY.hSvValid r) true).put (KEYWAY.hSvFloor r) (asSeq q a s))
        let rec' := recordOf q a (kwWrap s) r (s.get (KEYWAY.hSvSerial r)) s
        kwEnds krOk 0 ((kwFill rec' s).put KEYWAY.KW_STAT_LEN rec'.length)
    else s

/-- The descriptor, and with a wrapped record the key slot, take what a record holds, and EN = 1 is applied under R444
(R469). -/
def restoreApply (q : Fin 4) (a : Fin 1024) (rec' : List Nat) (key : Option Nat) (s : State) : State :=
  let w := asWord q a 0 s
  let k := adSlot w
  let fl := rec'.getD 6 0
  let s := match key with
    | some v => slotSet q k true false (rec'.getD 7 0) (slotWear q k s) ((s.put (CIPH.hCur q k) v).put (CIPH.hPrev q k) 0)
    | none => s
  let s := s.modify (assocWord q a.val 1) (fun v => setBits v 32 32 (ofLe (slice rec' 16 4)))
  let s := s.modify (assocWord q a.val 2) (fun _ => ofLe (slice rec' 24 8))
  let d := setBits (setBits (setBits w 25 16 (ofLe (slice rec' 10 2))) 61 1 (bits fl 1 1)) 59 2 (bits fl 2 2)
  let (ok, s) := asEnable q a (fun d s => s.modify (assocWord q a.val 0) (fun _ => d)) (setBits d 63 1 1) s
  if ok then kwEnds krOk 0 (s.putB (KEYWAY.hSvValid (Fin.ofNat 16384 (ofLe (slice rec' 8 2)))) false)
  else kwEnds krRefused kcState s

/-- RESTORE (R469): the checks in their order. -/
def kwRestore (s : State) : State :=
  let q := kwQuad s
  let a := kwPlace s
  let len := s.get KEYWAY.KW_STAT_LEN
  let rec' := (kwBuf s).take 64
  let key := if len = 104 then keyUnwrap (kekOf 0 s) kwPadded (slice (kwBuf s) 64 40) else none
  let w := asWord q a 0 s
  let r : Fin 16384 := Fin.ofNat 16384 (ofLe (slice rec' 8 2))
  if len ≠ 64 ∧ len ≠ 104 then kwEnds krRefused kcLen s
  else if (len = 104 ∧ key = none) ∨ rec'.take 4 ≠ [0x54, 0x53, 0x41, 0x43] ∨ ofLe (slice rec' 4 2) ≠ 1
      ∨ ofLe (slice rec' 60 4) ≠ crc32c (rec'.take 60) then kwEnds krIntegrity 0 s
  else if adEn w ∨ adRx w ≠ bit (rec'.getD 6 0) 0 then kwEnds krRefused kcState s
  else if 16384 ≤ ofLe (slice rec' 8 2) ∨ !s.flag (KEYWAY.hSvValid r) then kwEnds krRefused kcNoRecord s
  else if ofLe (slice rec' 12 4) ≠ s.get (KEYWAY.hSvSerial r) then kwEnds krRefused kcStale s
  else if !adRx w ∧ ofLe (slice rec' 24 8) < s.get (KEYWAY.hSvFloor r) then kwEnds krRefused kcFloor s
  else if len = 104 ∧ slotLoaded q (adSlot w) s then kwEnds krRefused kcSlotFull s
  else if len = 64 ∧ !slotLoaded q (adSlot w) s then kwEnds krRefused kcSlotEmpty s
  else restoreApply q a rec' key s

/-- DISCARD (R472): the entry becomes not VALID. -/
def kwDiscard (s : State) : State := kwEnds krOk 0 (s.putB (KEYWAY.hSvValid (kwRecord s)) false)

/-- A write of KW_CMD (R465, R471, R472): dropped while a command runs; an OP without a command starts nothing, and so
does a write while the block is disabled. -/
def kwCmdEff (v : Nat) (s : State) : State :=
  let op := v % 16
  if op = 0 ∨ 8 < op ∨ !pageOn .keyway s then s
  else if s.flag KEYWAY.KW_STAT_BUSY then (s.putB KEYWAY.KW_STAT_REJ_BUSY true).raise .keyway 1
  else
    let s := (((s.putB KEYWAY.KW_STAT_BUSY true).put KEYWAY.KW_STAT_RESULT 0).put KEYWAY.KW_STAT_CAUSE 0).put KEYWAY.hOp op
    let s := ((s.put KEYWAY.hArg (kwArg0 s)).put KEYWAY.hRes 0).put KEYWAY.hCause 0
    match op with
    | 1 => kwImportKek s
    | 2 => kwEraseKek s
    | 3 => kwImportKey s
    | 4 => kwEraseKey s
    | 5 => kwRetirePrev s
    | 6 => kwSave s
    | 7 => kwRestore s
    | _ => kwDiscard s

/-- IMPORT_KEK (R461, R465, R472). -/
def execImportKek (m : Master) (s : State) : Out := act s fun s => writeCmd m .keyway 0x040 1 (kwCmdEff 1) s
/-- ERASE_KEK (R465, R472). -/
def execEraseKek (m : Master) (s : State) : Out := act s fun s => writeCmd m .keyway 0x040 2 (kwCmdEff 2) s
/-- IMPORT_KEY (R461, R462, R465, R472). -/
def execImportKey (m : Master) (s : State) : Out := act s fun s => writeCmd m .keyway 0x040 3 (kwCmdEff 3) s
/-- ERASE_KEY (R463, R465, R472). -/
def execEraseKey (m : Master) (s : State) : Out := act s fun s => writeCmd m .keyway 0x040 4 (kwCmdEff 4) s
/-- RETIRE_PREV (R464, R465, R472). -/
def execRetirePrev (m : Master) (s : State) : Out := act s fun s => writeCmd m .keyway 0x040 5 (kwCmdEff 5) s
/-- SAVE (R465, R467, R472). -/
def execSave (m : Master) (s : State) : Out := act s fun s => writeCmd m .keyway 0x040 6 (kwCmdEff 6) s
/-- RESTORE (R465, R469, R472). -/
def execRestore (m : Master) (s : State) : Out := act s fun s => writeCmd m .keyway 0x040 7 (kwCmdEff 7) s
/-- DISCARD (R465, R472). -/
def execDiscard (m : Master) (s : State) : Out := act s fun s => writeCmd m .keyway 0x040 8 (kwCmdEff 8) s

/-- Every association that uses the slot has met the staged command, or has no boundary to come. -/
def allTook (q : Fin 4) (k : Fin 1024) (s : State) : Bool :=
  (slotUsers q k s).all fun y => s.flag (CIPH.hTook q y.1) || asIdle q y.2 s

/-- KEY_IMPORT_COMMIT (R452, R453, R459, R462): the last association of the slot has taken the staged key. -/
def execKeyImportCommit (s : State) : Out :=
  act s fun s =>
    let q := kwQuad s
    let k := kwPlace s
    if s.flag KEYWAY.KW_STAT_BUSY ∧ s.get KEYWAY.hOp = 3 ∧ s.get (CIPH.hStage q k) = 1 ∧ allTook q k s then
      kwEnds krOk 0 (slotImport q k s)
    else s

/-- KEY_ERASE_COMMIT (R453, R459, R463): the last association of the slot has stopped. -/
def execKeyEraseCommit (s : State) : Out :=
  act s fun s =>
    let q := kwQuad s
    let k := kwPlace s
    if s.flag KEYWAY.KW_STAT_BUSY ∧ s.get KEYWAY.hOp = 4 ∧ s.get (CIPH.hStage q k) = 2 ∧ allTook q k s then
      kwEnds krOk 0 (slotErase q k s)
    else s

/-- KEYWAY_CMD_DONE (R472): the running command's result is reported. -/
def execKeywayCmdDone (s : State) : Out :=
  act s fun s =>
    let r := s.get KEYWAY.hRes
    if s.flag KEYWAY.KW_STAT_BUSY ∧ r ≠ 0 then
      let s := ((s.putB KEYWAY.KW_STAT_BUSY false).put KEYWAY.KW_STAT_RESULT r).put KEYWAY.KW_STAT_CAUSE (s.get KEYWAY.hCause)
      ((s.put KEYWAY.hRes 0).put KEYWAY.hOp 0).raise .keyway (if r = krOk then 0 else 1)
    else s

/-! ## Zeroisation (R466, R659) -/

/-- Every key slot is zeroised. -/
def slotsZero (q : Fin 4) (s : State) : State :=
  let s := s.resetRange (CIPH.hCur q 0).key ((CIPH.hCur q 0).key + 64 * (4 * 1024)) (fun _ => false)
  s.zeroRange (slotStatWord q 0) 1024

/-- The key slots, KEK1 to KEK15 and the saved-association table are zeroised (R466); KEK0 too where `root` is set
(R659). -/
def keywayZero (root : Bool) (s : State) : State :=
  let s := forFin 4 slotsZero s
  let s := s.resetRange (KEYWAY.hSvValid 0).key ((KEYWAY.hSvValid 0).key + 64 * (3 * 16384)) (fun _ => false)
  let s := forFin 15 (fun k s => s.put (KEYWAY.hKek (Fin.ofNat 16 (k.val + 1))) 0) s
  let s := if root then s.put (KEYWAY.hKek 0) 0 else s
  s.put KEYWAY.KEK_STAT (if root then 0 else s.get KEYWAY.KEK_STAT % 2)

end Sys2Proof.Machine
end

