-- ==== Sys2Proof/Machine/Monchain.lean ====
section
/-! DEFINITION. The decimation chain of a monitor converter (R588, R589) and the outputs of a dwell (R592, R593), from the
stream of its modulator. Outputs are in codes, 2²³ being full scale (R590). -/
namespace Sys2Proof.Machine

/-- n / 2^k rounded to the nearest, half to even (R588). -/
def roundEven (n : Int) (k : Nat) : Int :=
  let q := n / 2 ^ k
  let r := n % 2 ^ k
  if 2 * r < 2 ^ k then q else if 2 ^ k < 2 * r then q + 1 else q + q % 2

/-- A result as 24 bits. -/
def code24 (i : Int) : Int := clampI (-(2 ^ 23)) (2 ^ 23 - 1) i

/-- The n-th power of the moving sum of 16 samples: tap j of the sinc⁴ filter is the number of ways in which four numbers
below 16 make j. -/
def sincTaps : List Int :=
  let box (l : List Int) : List Int := (List.range (l.length + 15)).map fun j =>
    ((List.range 16).map fun i => if i ≤ j then l.getD (j - i) 0 else 0).sum
  box (box (box (List.replicate 16 1)))

/-- The sum of a filter's taps over the samples, the first tap at the first sample. -/
def dotTaps (taps xs : List Int) : Int := (List.zipWith (· * ·) taps xs).sum

/-- Every k-th window of a stream, from its start. -/
def windowsOf (len step : Nat) (xs : List Int) : List (List Int) :=
  (List.range ((xs.length + step - len) / step)).map fun i => (xs.drop (step * i)).take len

/-- The sinc⁴ stage: 61 samples to a result, one result in 16 samples (R588, R589). -/
def sincStage (xs : List Int) : List Int := (windowsOf 61 16 xs).map fun w => code24 (roundEven (2 ^ 23 * dotTaps sincTaps w) 16)

/-- The taps of a half-band stage in 2⁻²⁴: 19, alike about the centre of one half, every other one 0 but for it (R588). The
rest are the design's. -/
def halfBandTaps : List Int :=
  (List.range 19).map fun j =>
    if j = 9 then 2 ^ 23 else if j % 2 = 1 then 0 else Config.halfBand (min j (18 - j) / 2)

/-- A half-band stage (R588). -/
def halfStage (xs : List Int) : List Int := (windowsOf 19 2 xs).map fun w => code24 (roundEven (dotTaps halfBandTaps w) 24)

/-- The chain with DEC half-band stages. -/
def monChain (dec : Nat) (xs : List Int) : List Int := dec.repeat halfStage (sincStage xs)

/-- The modulator samples that a result takes in (R589, R593). -/
def chainSpan (dec : Nat) : Nat := 61 + 288 * (2 ^ dec - 1)

/-- The samples within k eighths of a microsecond: 40.96 or 5.12 to the microsecond (R587). -/
def monSamples (lp : Bool) (us8 : Nat) : Nat := us8 * (if lp then 64 else 512) / 100

/-- The outputs that belong to an entry with a dwell of `dwell` µs (R592). The stream begins D before the dwell; the chain's
phase against it is `phase` samples. An output at a time belongs to the entry if the time D before it lies in the dwell, at
least 0.5 µs after its start. -/
def monOutputs (lp : Bool) (dec dwell phase : Nat) (stream : List Bool) : List Int :=
  let step := 16 * 2 ^ dec
  let skip := phase % step
  let xs : List Int := (stream.drop skip).map fun b => if b then 1 else -1
  ((monChain dec xs).zipIdx.filter fun o =>
    let tau := skip + step * o.2
    decide (monSamples lp 4 < tau) && decide (tau * 100 < dwell * if lp then 512 else 4096)).map (·.1)

end Sys2Proof.Machine
end

