-- ==== Sys2Proof/Machine/Monhtr.lean ====
section
/-! DEFINITION. The monitor converters (R586 to R595, R606) and the heater channels (R596 to R601, R607). -/
namespace Sys2Proof.Machine

/-! ## Monitor converters -/

/-- The hub Tumblers and MON4 are not stopped by STANDBY (R671): in an exit they run again once the core synthesiser has locked
(R681). -/
def hubRuns (s : State) : Bool :=
  decide (s.get PWR.PWR_STAT_DEV_STATE < 2) || (s.get PWR.PWR_STAT_DEV_STATE == 3 && s.flag PWR.hSynthLock)

/-- The converter of page d is not stopped by sleep or STANDBY (R587). -/
def monAwake (d : Fin 5) (s : State) : Bool :=
  if d.val < 4 then decide (qState (Fin.ofNat 4 d.val) s < 2) else hubRuns s

/-- The converter of page d runs. -/
def monRuns (d : Fin 5) (s : State) : Bool := pageOn (.mon d) s && monAwake d s && !s.flag (HDR.RESET_BUSY (.mon d))

/-- The group delay of a chain in units of 10^5 / 4096 ns (R589). -/
def monDelayUnits (lp : Bool) (dec : Nat) : Nat := (30 + 144 * (2 ^ dec - 1)) * if lp then 8 else 1

/-- GRP_DELAY: the group delay in ns, to the nearest (R589). -/
def monDelayNs (lp : Bool) (dec : Nat) : Nat := (monDelayUnits lp dec * 100000 + 2048) / 4096

/-- The number of half-band stages that DEC selects (R606). -/
def monStages (dec : Nat) : Nat := max 1 (min 6 dec)

/-- CTRL.ENABLE goes from 0 to 1: LP, DEC and TRIG are sampled (R587). -/
def monStart (d : Fin 5) (s : State) : State :=
  let lp := s.flag (MON.MON_CFG_LP d)
  let dec := monStages (s.get (MON.MON_CFG_DEC d))
  (((s.putB (MON.hLp d) lp).put (MON.hDec d) dec).put (MON.hTrig d) (s.get (MON.MON_CFG_TRIG d))).put (MON.GRP_DELAY_D d)
    (monDelayNs lp dec)

/-- The converter stops: a pass in progress is abandoned. -/
def monStop (d : Fin 5) (s : State) : State :=
  ((((s.putB (MON.MON_STAT_RUNNING d) false).put (MON.MON_STAT_CUR d) 0).putB (MON.hDue d) false).putB (MON.hDone d) false).putB
    (MON.hTail d) false

/-- At a tick a TICK-triggered pass becomes due (R591). -/
def monTick (d : Fin 5) (s : State) : State :=
  if monRuns d s && s.flag (MON.hTrig d) then s.putB (MON.hDue d) true else s

/-- The pass number after PASSES: it wraps and skips 0xFFFF (R606). -/
def passNext (n : Nat) : Nat := if 0xFFFE ≤ n then 0 else n + 1

/-- SEQ[e] as a word. -/
def monSeq (d : Fin 5) (e : Fin 16) (s : State) : Nat :=
  s.get (MON.SEQ_INPUT d e) * 2 ^ 24 + s.get (MON.SEQ_GAIN d e) * 2 ^ 16 + s.get (MON.SEQ_DWELL d e)

/-- A pass starts: the sequence, LAST and TRIG are sampled (R591). -/
def monPass (d : Fin 5) (s : State) : State :=
  let s := forFin 16 (fun e s => s.put (MON.hSeq d e) (monSeq d e s)) s
  let s := (s.put (MON.hLast d) (s.get (MON.MON_CFG_LAST d))).put (MON.hTrig d) (s.get (MON.MON_CFG_TRIG d))
  ((s.putB (MON.MON_STAT_RUNNING d) true).put (MON.MON_STAT_CUR d) 0).putB (MON.hDone d) false

/-- A dwell of a sampled entry, in µs (R591). -/
def monDwell (d : Fin 5) (e : Fin 16) (s : State) : Nat := max 1 (s.get (MON.hSeq d e) % 2 ^ 8)

/-- An entry of the pass is shorter than 2D + 0.5 µs (R593). -/
def monShort (d : Fin 5) (s : State) : Bool :=
  (List.finRange 16).any fun e =>
    decide (e.val ≤ s.get (MON.hLast d)) &&
      decide (monDwell d e s * 1000 * 4096 <
        2 * monDelayUnits (s.flag (MON.hLp d)) (s.get (MON.hDec d)) * 100000 + 500 * 4096)

/-- What the last entry of the running pass needs until its outputs are in, D after its dwell. -/
def monTail (d : Fin 5) (s : State) : State :=
  (((s.putB (MON.hTail d) true).put (MON.hTailE d) (s.get (MON.hLast d))).put (MON.hTailDwell d)
    (monDwell d (Fin.ofNat 16 (s.get (MON.hLast d))) s)).putB (MON.hTailShort d) (monShort d s)

/-- A free-running pass may start: none runs, or the running one is in its last dwell, which ends here (R591). -/
def monFreeDue (d : Fin 5) (s : State) : Bool :=
  !s.flag (MON.MON_STAT_RUNNING d)
    || (s.get (MON.MON_STAT_CUR d) == s.get (MON.hLast d) && !s.flag (MON.hTail d) && !s.flag (MON.hDone d))

/-- MON_PASS_START (R591): a pass starts, or a TICK-triggered one that finds the last not ended counts as OVERRUN. -/
def execMonPassStart (d : Fin 5) (s : State) : Out :=
  act s fun s =>
    if !monRuns d s then s
    else if s.flag (MON.hTrig d) then
      if !s.flag (MON.hDue d) then s
      else
        let s := s.putB (MON.hDue d) false
        if s.flag (MON.MON_STAT_RUNNING d) then (s.incWrap (MON.MON_STAT_OVERRUN d) 1).raise (.mon d) 3 else monPass d s
    else if !monFreeDue d s then s
    else monPass d (if s.flag (MON.MON_STAT_RUNNING d) then monTail d s else s)

/-- SUM of entry e. -/
def monSum (d : Fin 5) (e : Fin 16) (s : State) : Int :=
  toInt 48 (s.get (MON.SUM_HI_SUM d e) * 2 ^ 32 + s.get (MON.SUM_LO d e))

/-- SUM of entry e set. -/
def monPutSum (d : Fin 5) (e : Fin 16) (i : Int) (s : State) : State :=
  (s.put (MON.SUM_LO d e) (ofInt 48 i)).put (MON.SUM_HI_SUM d e) (ofInt 48 i / 2 ^ 32)

/-- One output of the chain is accumulated (R594). -/
def monOutput (d : Fin 5) (e : Fin 16) (v : Int) (s : State) : State :=
  let lim : Int := 2 ^ 47 - 1
  let sum := monSum d e s + v
  let s :=
    if s.flag (MON.SUM_HI_SAT d e) then s
    else if lim < sum ∨ sum < -lim then
      ((monPutSum d e (clampI (-lim) lim sum) s).putB (MON.SUM_HI_SAT d e) true).raise (.mon d) 2
    else monPutSum d e sum s
  let s := s.incStick (MON.COUNT d e) 1
  let s := if v < s.geti (MON.MIN d e) then s.puti (MON.MIN d e) v else s
  if s.geti (MON.MAX d e) < v then s.puti (MON.MAX d e) v else s

/-- The entry whose outputs come in next: the last one of an earlier pass first. -/
def monEntry (d : Fin 5) (s : State) : Fin 16 :=
  Fin.ofNat 16 (if s.flag (MON.hTail d) then s.get (MON.hTailE d) else s.get (MON.MON_STAT_CUR d))

/-- The outputs of the chain that belong to that entry, from the modulator's stream (R592). -/
def monDwellOuts (d : Fin 5) (phase : Nat) (stream : List Bool) (s : State) : List Int :=
  monOutputs (s.flag (MON.hLp d)) (s.get (MON.hDec d))
    (if s.flag (MON.hTail d) then s.get (MON.hTailDwell d) else monDwell d (monEntry d s) s) phase stream

/-- The outputs l of a dwell of entry e are in: they are accumulated, and MEAN and PASS are written (R594). -/
def monResult (d : Fin 5) (e : Fin 16) (l : List Int) (s : State) : State :=
  let s := forL l (monOutput d e) s
  if l.isEmpty then (s.put (MON.MEAN d e) 0).put (MON.PASS d e) 0xFFFF
  else (s.puti (MON.MEAN d e) (l.sum / (l.length : Int))).put (MON.PASS d e) (passNext (s.get (MON.MON_STAT_PASSES d)))

/-- The pass goes to its next entry, or has its last output in. -/
def monAdvance (d : Fin 5) (e : Fin 16) (s : State) : State :=
  if s.flag (MON.hTail d) || e.val == s.get (MON.hLast d) then s.putB (MON.hDone d) true
  else s.put (MON.MON_STAT_CUR d) (e.val + 1)

/-- MON_DWELL_END (R592, R594): the outputs that belong to the entry in its dwell are in. The modulator's stream begins D before
the dwell. -/
def execMonDwellEnd (d : Fin 5) (outs : DwellBits) (s : State) : Out :=
  act s fun s =>
    if !monRuns d s || !s.flag (MON.MON_STAT_RUNNING d) || s.flag (MON.hDone d) then s
    else monAdvance d (monEntry d s) (monResult d (monEntry d s) (monDwellOuts d outs.phase outs.stream s) s)

/-- The end of a pass is raised to the Tumblers: those of the quadrant, or the hub's for MON4 (R578, R595). -/
def monEvent (d : Fin 5) (s : State) : State :=
  if d.val < 4 then quadTumbEvent (Fin.ofNat 4 d.val) evMon s else hubTumbEvent evMon s

/-- MON_PASS_END (R591, R593): the pass ends; a free-running one that has started meanwhile runs on. -/
def execMonPassEnd (d : Fin 5) (s : State) : Out :=
  act s fun s =>
    if !monRuns d s || !s.flag (MON.MON_STAT_RUNNING d) || !s.flag (MON.hDone d) then s
    else
      let tail := s.flag (MON.hTail d)
      let short := if tail then s.flag (MON.hTailShort d) else monShort d s
      let s := (s.put (MON.MON_STAT_PASSES d) (passNext (s.get (MON.MON_STAT_PASSES d)))).putB (MON.MON_STAT_SHORT d) short
      let s := ((s.putB (MON.MON_STAT_RUNNING d) tail).putB (MON.hTail d) false).putB (MON.hDone d) false
      monEvent d ((s.raiseIf (.mon d) 1 short).raise (.mon d) 0)

/-- Entry e is cleared: SUM, COUNT and SAT to 0, MIN and MAX to the ends of the range (R595). -/
def monClear (d : Fin 5) (e : Fin 16) (s : State) : State :=
  ((((s.clear (MON.SUM_LO d e)).clear (MON.SUM_HI_SUM d e)).clear (MON.SUM_HI_SAT d e)).clear (MON.COUNT d e)
    |>.clear (MON.MIN d e)).clear (MON.MAX d e)

/-- A write of ACC_CLR (R595). -/
def accClrEff (d : Fin 5) (v : Nat) (s : State) : State := forFin 16 (fun e s => if v.testBit e.val then monClear d e s else s) s

/-- ACC_CLR (R595). -/
def execAccClr (m : Master) (d : Fin 5) (v : Nat) (s : State) : Out :=
  act s fun s => writeCmd m (.mon d) 0x04C v (accClrEff d v) s

/-! ## Heater channels -/

/-- Causes of R598. -/
def hcStale : Nat := 1
def hcTrap : Nat := 2
def hcOpen : Nat := 3
def hcShort : Nat := 4
def hcTrip : Nat := 5
def hcForced : Nat := 6
def hcSupply : Nat := 7

/-- SHORT, TRIP and SUPPLY: they replace any other cause and force the output to 0 (R598). -/
def hcHard (c : Nat) : Bool := c == hcShort || c == hcTrip || c == hcSupply

/-- The target of channel h (R596, R599, R601, R607). -/
def htrTarget (q : Fin 4) (h : Fin 32) (s : State) : Nat :=
  if !s.flag (HTR.CH_CFG_EN q h) || !pageOn (.htr q) s || qState q s != 0 || s.flag (HTR.hZero q h) then 0
  else if s.flag (HTR.CH_STAT_FAULTED q h) then
    if hcHard (s.get (HTR.CH_STAT_CAUSE q h)) then 0 else s.get (HTR.CH_LIM_SAFE q h)
  else min (s.get (HTR.SETPT q h)) (s.get (HTR.CH_LIM_MAX q h))

/-- With SLEW = 0 the output equals its target at once, unless FREEZE holds it (R596, R607). -/
def htrFollow (q : Fin 4) (h : Fin 32) (s : State) : State :=
  if s.flag (HDR.FREEZE (.htr q)) || s.get (HTR.CH_CFG_SLEW q h) != 0 then s
  else s.put (HTR.CH_STAT_OUT q h) (htrTarget q h s)

/-- Every output of quadrant q follows. -/
def htrFollowAll (q : Fin 4) (s : State) : State := forFin 32 (htrFollow q) s

/-- One tick of an output with SLEW > 0 (R596). -/
def htrStep (q : Fin 4) (h : Fin 32) (s : State) : State :=
  let slew := s.get (HTR.CH_CFG_SLEW q h)
  let out := s.get (HTR.CH_STAT_OUT q h)
  let tgt := htrTarget q h s
  if s.flag (HDR.FREEZE (.htr q)) || slew == 0 then s
  else s.put (HTR.CH_STAT_OUT q h) (if out ≤ tgt then min tgt (out + slew) else max tgt (out - slew))

/-- The STALE count of a channel: ticks without a SETPT write from its owner (R598). -/
def htrCount (q : Fin 4) (h : Fin 32) (s : State) : State :=
  if s.flag (HDR.FREEZE (.htr q)) then s
  else if s.get (HTR.CH_CFG_WD_TICKS q h) = 0 ∨ s.get (HTR.CH_CFG_OWNER q h) = 0 then s.put (HTR.hStale q h) 0
  else s.incStick (HTR.hStale q h) 1

/-- HEATER_SLEW_STEP (R596): a tick reaches the heaters of quadrant q. -/
def htrTick (q : Fin 4) (s : State) : State :=
  if qState q s = 2 then s else forFin 32 (fun h s => htrCount q h (htrStep q h s)) s

/-- HTR_STAT.TOT_MA: the sum of OUT in mA (R607). -/
def htrTotal (q : Fin 4) (s : State) : Nat :=
  (List.finRange 32).foldl (fun a h => a + s.get (HTR.CH_STAT_OUT q h)) 0
def htrTotMa (q : Fin 4) (s : State) : Nat := (quot (htrTotal q s) 100).toNat

/-- Channel h enters FAULTED, or a hard cause takes the place of the one recorded (R598). -/
def htrFault (q : Fin 4) (h : Fin 32) (cause : Nat) (s : State) : State :=
  let s :=
    if !s.flag (HTR.CH_STAT_FAULTED q h) then
      ((s.putB (HTR.CH_STAT_FAULTED q h) true).put (HTR.CH_STAT_CAUSE q h) cause).raise (.htr q) 0
    else if hcHard cause then s.put (HTR.CH_STAT_CAUSE q h) cause
    else s
  htrFollow q h (if hcHard cause then s.put (HTR.CH_STAT_OUT q h) 0 else s)

/-- The sum of R597, in 10 µA units. -/
def htrLoad (q : Fin 4) (s : State) : Nat :=
  (List.finRange 32).foldl (fun a h =>
    if s.flag (HTR.CH_CFG_EN q h) then
      a + max (min (s.get (HTR.SETPT q h)) (s.get (HTR.CH_LIM_MAX q h))) (s.get (HTR.CH_LIM_SAFE q h))
    else a) 0

/-- The fields that a write of SETPT (0), CH_CFG (1) or CH_LIM (2) of channel h stores (R607). -/
def htrStore (q : Fin 4) (h : Fin 32) (which : Fin 3) (v : Nat) (s : State) : State :=
  match which with
  | 0 => s.put (HTR.SETPT q h) (min 6000 (v % 2 ^ 13))
  | 1 =>
    (((s.put (HTR.CH_CFG_EN q h) (bits v 31 1)).put (HTR.CH_CFG_OWNER q h) (bits v 24 6)).put (HTR.CH_CFG_WD_TICKS q h)
      (bits v 16 8)).put (HTR.CH_CFG_SLEW q h) (bits v 0 8)
  | 2 => (s.put (HTR.CH_LIM_MAX q h) (min 6000 (bits v 16 13))).put (HTR.CH_LIM_SAFE q h) (min 6000 (bits v 0 13))

/-- A write of SETPT, CH_CFG or CH_LIM: checked against TOT_LIM (R597), and the owner's SETPT write restarts the STALE
count (R598). -/
def htrWriteEff (m : Master) (q : Fin 4) (h : Fin 32) (which : Fin 3) (v : Nat) (s : State) : State :=
  let s' := htrStore q h which v s
  if 100 * s.get (HTR.HTR_CFG_TOT_LIM q) < htrLoad q s' then (s.putB (HTR.HTR_STAT_ILIM_REJ q) true).raise (.htr q) 1
  else
    let s' := if which = 0 ∧ s.get (HTR.CH_CFG_OWNER q h) = masterId m then s'.put (HTR.hStale q h) 0 else s'
    htrFollow q h (s'.putB (HTR.hZero q h) false)

/-- HEATER_SETPT_WRITE (R597): a write of SETPT (0), CH_CFG (1) or CH_LIM (2) of channel h. -/
def execHeaterSetptWrite (m : Master) (q : Fin 4) (h : Fin 32) (which : Fin 3) (v : Nat) (s : State) : Out :=
  act s fun s => writeCmd m (.htr q) (0x100 + 16 * h.val + 4 * which.val) v (htrWriteEff m q h which v) s

/-- STALE (R598): WD_TICKS ticks have passed without a SETPT write from the owner. -/
def execStale (q : Fin 4) (h : Fin 32) (s : State) : Out :=
  act s fun s =>
    let wd := s.get (HTR.CH_CFG_WD_TICKS q h)
    if wd = 0 ∨ s.get (HTR.CH_CFG_OWNER q h) = 0 ∨ s.get (HTR.hStale q h) < wd ∨ qState q s ≠ 0 then s
    else htrFault q h hcStale s

/-- OPEN (R598): the source cannot deliver its output. -/
def execOpen (q : Fin 4) (h : Fin 32) (s : State) : Out :=
  act s fun s => if qState q s = 2 then s else htrFault q h hcOpen (s.putB (HTR.hOpen q h) true)

/-- SHORT (R598): the sensed current exceeds MAX by more than 10 %. -/
def execShort (q : Fin 4) (h : Fin 32) (s : State) : Out :=
  act s fun s => if qState q s = 2 then s else htrFault q h hcShort (s.putB (HTR.hShort q h) true)

/-- TRIP (R598): the quadrant die exceeds THERM_TRIP. -/
def execTrip (q : Fin 4) (s : State) : Out :=
  act s fun s =>
    if qState q s = 2 then s
    else
      let s := (s.raiseIf (.htr q) 2 (!s.flag (HTR.HTR_STAT_TRIP q))).putB (HTR.HTR_STAT_TRIP q) true
      forFin 32 (fun h => htrFault q h hcTrip) s

/-- SUPPLY (R598): VDD_HTR leaves its range. -/
def execSupply (q : Fin 4) (s : State) : Out :=
  act s fun s =>
    if qState q s = 2 then s
    else
      let s := (s.raiseIf (.htr q) 3 (s.flag (HTR.HTR_STAT_VDD_OK q))).putB (HTR.HTR_STAT_VDD_OK q) false
      forFin 32 (fun h => htrFault q h hcSupply) (s.putB (HTR.hSupply q) true)

/-- What the front ends measure of VDD_HTR: in range, or not (R607). -/
def htrVdd (q : Fin 4) (ok : Bool) (s : State) : State :=
  let s := s.raiseIf (.htr q) 3 (!ok && s.flag (HTR.HTR_STAT_VDD_OK q))
  (s.putB (HTR.HTR_STAT_VDD_OK q) ok).putB (HTR.hSupply q) !ok

/-- A condition of R598 that outlasts its moment holds for channel h. -/
def htrCondition (q : Fin 4) (h : Fin 32) (s : State) : Bool :=
  s.flag (HTR.hOpen q h) || s.flag (HTR.hShort q h) || s.flag (HTR.HTR_STAT_TRIP q) || s.flag (HTR.hSupply q)

/-- A write of 1 to FAULTED (R599). -/
def htrClear (q : Fin 4) (h : Fin 32) (s : State) : State :=
  if !s.flag (HTR.CH_STAT_FAULTED q h) || htrCondition q h s then s
  else htrFollow q h ((s.putB (HTR.CH_STAT_FAULTED q h) false).put (HTR.hStale q h) 0)

/-- A write of CH_STAT[h]: FAULTED is cleared before FORCE_SAFE acts (R50, R598, R599). -/
def chStatEff (q : Fin 4) (h : Fin 32) (v : Nat) (s : State) : State :=
  let s := if bit v 31 then htrClear q h s else s
  if bit v 30 then htrFault q h hcForced s else s

/-- FORCE_SAFE (R598). -/
def execForceSafe (m : Master) (q : Fin 4) (h : Fin 32) (s : State) : Out :=
  act s fun s => writeCmd m (.htr q) (0x10C + 16 * h.val) (2 ^ 30) (chStatEff q h (2 ^ 30)) s

/-- FAULTED_CLEAR (R599). -/
def execFaultedClear (m : Master) (q : Fin 4) (h : Fin 32) (s : State) : Out :=
  act s fun s => writeCmd m (.htr q) (0x10C + 16 * h.val) (2 ^ 31) (chStatEff q h (2 ^ 31)) s

/-- The owner of channels is lost: a Tumbler's CORE context has trapped, or a Ward core was reset (R598). -/
def htrOwnerLost (id : Nat) (s : State) : State :=
  forFin 4 (fun q s =>
    if qState q s = 2 then s
    else forFin 32 (fun h s => if s.get (HTR.CH_CFG_OWNER q h) = id then htrFault q h hcTrap s else s) s) s

/-- A quadrant wakes: the STALE counts restart and the targets are computed again (R601). -/
def htrWake (q : Fin 4) (s : State) : State := htrFollowAll q (forFin 32 (fun h s => s.put (HTR.hStale q h) 0) s)

/-- What a soft reset of the HTR page keeps (R607). -/
def htrKept (q : Fin 4) : List Fld :=
  [HTR.HTR_STAT_VDD_OK q, HTR.HTR_STAT_TRIP q, HTR.hSupply q] ++ (List.finRange 32).flatMap fun h =>
    [HTR.SETPT q h, HTR.CH_CFG_EN q h, HTR.CH_CFG_OWNER q h, HTR.CH_CFG_WD_TICKS q h, HTR.CH_CFG_SLEW q h,
      HTR.CH_LIM_MAX q h, HTR.CH_LIM_SAFE q h, HTR.CH_STAT_OUT q h, HTR.CH_STAT_FAULTED q h, HTR.CH_STAT_CAUSE q h,
      HTR.hOpen q h, HTR.hShort q h]

/-- A soft reset of the HTR page: every target is 0, and FAULTED clears where no condition holds (R607). -/
def htrReset (q : Fin 4) (s : State) : State := forFin 32 (fun h s => htrFollow q h ((htrClear q h s).putB (HTR.hZero q h) true)) s

/-- FAULT_MASK (R607). -/
def htrFaults (q : Fin 4) (s : State) : Nat := mask 32 fun h => s.flag (HTR.CH_STAT_FAULTED q (Fin.ofNat 32 h))

end Sys2Proof.Machine
end

