-- ==== Sys2Proof/Machine/Tumb.lean ====
section
/-! DEFINITION. The Tumblers: contexts and their states (R558 to R562), the instruction set (R563, R567 to R573), the
sandbox (R572, R575, R576), waiting (R578) and the counters (R581 to R585). Context x is CORE for 0 and USER for 1. -/
namespace Sys2Proof.Machine

/-! ## States -/

def tsIdle : Nat := 0
def tsRunning : Nat := 1
def tsWaiting : Nat := 2
def tsTrapped : Nat := 3
def tsHalted : Nat := 4

/-- Trap causes (R573). -/
def tcEccFetch : Nat := 1
def tcEccData : Nat := 2
def tcIllegal : Nat := 3
def tcBounds : Nat := 4
def tcAlign : Nat := 5
def tcPageFault : Nat := 6
def tcPerm : Nat := 7
def tcWatchdog : Nat := 8
def tcSoft : Nat := 9

def tumbState (t : Fin 18) (x : Fin 2) (s : State) : Nat := s.get (TUMB.hState t x)
def tumbPc (t : Fin 18) (x : Fin 2) (s : State) : Nat := s.get (TUMB.hPc t x)

/-- The entry point of a context. -/
def tumbEntry (x : Fin 2) : Nat := 4096 * x.val

/-- The Tumbler's clock runs: its quadrant is not asleep, or for a hub Tumbler the engine not in STANDBY (R560). -/
def tumbAwake (t : Fin 18) (s : State) : Bool :=
  match Page.quadrant (.tumb t) with
  | some q => decide (qState q s < 2)
  | none => hubRuns s

/-- WDOG_x (R562). -/
def tumbWdog (t : Fin 18) (x : Fin 2) (s : State) : Nat := if x = 0 then s.get (TUMB.WDOG_WDOG_C t) else s.get (TUMB.WDOG_WDOG_U t)

/-- The watchdog count of a running context exceeds its limit (R562). -/
def wdogOver (t : Fin 18) (x : Fin 2) (s : State) : Bool :=
  tumbWdog t x s != 0 && decide (256 * tumbWdog t x s < s.get (TUMB.hWd t x))

/-! ## Registers -/

/-- T0 reads 0. -/
def tGet (t : Fin 18) (x : Fin 2) (r : Nat) (s : State) : Nat := if r = 0 then 0 else s.get (TUMB.hT t x (Fin.ofNat 16 r))

/-- A register is written; writes of T0 are discarded. -/
def tPut (t : Fin 18) (x : Fin 2) (r v : Nat) (s : State) : State := if r = 0 then s else s.put (TUMB.hT t x (Fin.ofNat 16 r)) v

def aGet (t : Fin 18) (x : Fin 2) (n : Nat) (s : State) : Int := s.geti (TUMB.hA t x (Fin.ofNat 2 n))
def aPut (t : Fin 18) (x : Fin 2) (n : Nat) (i : Int) (s : State) : State := s.puti (TUMB.hA t x (Fin.ofNat 2 n)) i

/-- An integer as a 36-bit value, wrapping. -/
def w36 (i : Int) : Nat := ofInt 36 i
/-- The signed value of a 36-bit word. -/
def s36 (v : Nat) : Int := toInt 36 v
def sat36 (i : Int) : Int := clampI (-(2 ^ 35)) (2 ^ 35 - 1) i
def sat64 (i : Int) : Int := clampI (-(2 ^ 63)) (2 ^ 63 - 1) i
/-- The saturation of MAC and MSU (R569). -/
def sat71 (i : Int) : Int := clampI (-(2 ^ 71 - 1)) (2 ^ 71 - 1) i

/-! ## Instruction fields (R568) -/

def fOp (w : Nat) : Nat := bits w 26 6
def fRd (w : Nat) : Nat := bits w 22 4
def fRa (w : Nat) : Nat := bits w 18 4
def fRb (w : Nat) : Nat := bits w 14 4
/-- imm18, or the offset of a branch, sign-extended. -/
def fImm (w : Nat) : Int := toInt 18 (bits w 0 18)
/-- The accumulator of an A-format instruction. -/
def fAcc (w : Nat) : Nat := bits w 13 1
def fSh (w : Nat) : Nat := bits w 0 6
/-- The accumulator of an I-format instruction that names one. -/
def fAccI (w : Nat) : Nat := bits w 22 1
def fTarget (w : Nat) : Nat := bits w 0 13

/-- The opcode is listed, and every field that the instruction requires to be 0 is 0 (R568, R569). -/
def tumbLegal (w : Nat) : Bool :=
  let op := fOp w
  if 0x01 ≤ op ∧ op ≤ 0x0D then bits w 0 14 == 0
  else if 0x10 ≤ op ∧ op ≤ 0x17 then true
  else if op = 0x18 then fRa w == 0
  else if op = 0x1B then fRd w == 0 && fRb w == 0 && bits w 6 7 == 0
  else if op = 0x1C ∨ op = 0x1D ∨ op = 0x1E then fRd w == 0 && bits w 0 13 == 0
  else if op = 0x1F then fRa w == 0 && fRb w == 0 && bits w 6 7 == 0
  else if op = 0x20 ∨ op = 0x21 ∨ op = 0x24 ∨ op = 0x25 then true
  else if op = 0x22 ∨ op = 0x23 ∨ op = 0x26 ∨ op = 0x27 ∨ op = 0x34 then bits w 23 3 == 0
  else if 0x28 ≤ op ∧ op ≤ 0x2D then true
  else if op = 0x2E then bits w 13 9 == 0
  else if op = 0x2F then fRd w == 0 && bits w 0 18 == 0
  else if op = 0x30 ∨ op = 0x32 ∨ op = 0x35 ∨ op = 0x36 then bits w 0 26 == 0
  else if op = 0x31 ∨ op = 0x33 ∨ op = 0x37 then true
  else false

/-! ## Counters -/

/-- The count of EVCn as it reads: 48 bits, stuck at its largest value where STICK = 1 (R581). -/
def evcValue (t : Fin 18) (n : Fin 8) (s : State) : Nat :=
  if s.flag (TUMB.EVC_CFG_STICK t n) then min (s.get (TUMB.hEvc t n)) (2 ^ 48 - 1) else s.get (TUMB.hEvc t n) % 2 ^ 48

/-- A context has posted as many page writes as it may hold (R570). -/
def postFull (t : Fin 18) (x : Fin 2) (s : State) : Bool :=
  decide (8 ≤ (s.posted.filter fun p => p.t == t && p.x == x).length)

/-- The instruction at the PC as it is stored, corrected, without the read being counted. -/
def tumbPeek (t : Fin 18) (x : Fin 2) (s : State) : Nat :=
  let pc := tumbPc t x s
  let l := tumbProg t (pc / 2)
  bits (eccDecode (s.rawData l) (s.rawCheck l)).2.1 (32 * (pc % 2)) 32

/-- A RUNNING context stalls on page space: on a page read, or on a full write queue (R567, R570). -/
def tumbStalled (t : Fin 18) (x : Fin 2) (s : State) : Bool :=
  tumbState t x s == tsRunning &&
    (s.get (TUMB.hStall t x) != 0
      || (postFull t x s && (fOp (tumbPeek t x s) == 0x25 || fOp (tumbPeek t x s) == 0x27)))

/-- k Tumbler cycles pass: CYCLE, the counts of cycles, and the watchdog counts of RUNNING contexts, which FREEZE holds
(R561, R562, R581, R582). -/
def tumbCycles (t : Fin 18) (k : Nat) (s : State) : State :=
  let wait (x : Fin 2) : Bool := tumbState t x s == tsWaiting
  let stall (x : Fin 2) : Bool := tumbStalled t x s
  let s := (s.incWrap (TUMB.hCycle t) k).put (TUMB.hInTick t) (min 250000 (s.get (TUMB.hInTick t) + k))
  let s := evcCount t 4 stall k (evcCount t 5 wait k (evcCount t 0 (fun _ => true) k s))
  if s.flag (HDR.FREEZE (.tumb t)) then s
  else forFin 2 (fun x s => if tumbState t x s = tsRunning then s.incStick (TUMB.hWd t x) k else s) s

/-! ## Traps -/

/-- The trap record of a context. -/
def tumbRecord (t : Fin 18) (x : Fin 2) (cause arg : Nat) (s : State) : State :=
  let pc := tumbPc t x s
  if x = 0 then ((s.put (TUMB.TRAP_C0_CAUSE t) cause).put (TUMB.TRAP_C0_PC t) pc).put (TUMB.TRAP_C1_ARG t) arg
  else ((s.put (TUMB.TRAP_U0_CAUSE t) cause).put (TUMB.TRAP_U0_PC t) pc).put (TUMB.TRAP_U1_ARG t) arg

/-- What a context waited or stalled for is over. -/
def tumbForget (t : Fin 18) (x : Fin 2) (s : State) : State :=
  ((s.put (TUMB.hStall t x) 0).put (TUMB.hWait t x) 0).putB (TUMB.hStop t x) false

/-- TUMB_TRAP (R560, R573): a context traps. A CORE trap releases the Tumbler's hasps, is reported as a mailbox event and
takes the heater channels the Tumbler owns to their safe state; a USER trap is reported while EVT_CFG.USER_TRAP is 1
(R633). -/
def tumbTrap (t : Fin 18) (x : Fin 2) (cause arg : Nat) (s : State) : State :=
  let pc := tumbPc t x s
  let s := tumbForget t x (((tumbRecord t x cause arg s).put (TUMB.hState t x) tsTrapped).raise (.tumb t) x.val)
  let s := { s with posted := s.posted.filter fun p => !(p.t == t && p.x == x) }
  let report (s : State) : State := postEvent evcTumbTrap ([t.val, x.val, cause, 0] ++ leBytes 4 pc ++ leBytes 4 arg) s
  if x = 0 then htrOwnerLost (masterId (.tumb t)) (report (haspsLost (.tumb t) s))
  else if s.flag MBOX.EVT_CFG_USER_TRAP then report s
  else s

/-! ## Issue -/

/-- A context could issue an instruction in this cycle (R559, R561). -/
def tumbReady (t : Fin 18) (x : Fin 2) (s : State) : Bool :=
  tumbState t x s == tsRunning && !tumbStalled t x s && !s.flag (HDR.FREEZE (.tumb t)) && tumbAwake t s
    && !s.flag (HDR.RESET_BUSY (.tumb t)) && !wdogOver t x s

/-- A context issues: CORE when it is ready, USER only when CORE is not (R559). -/
def tumbIssues (t : Fin 18) (x : Fin 2) (s : State) : Bool := tumbReady t x s && (x == 0 || !tumbReady t 0 s)

/-- The fetch of the instruction at the PC: what the read finds, the instruction's bits [31:0], the state after (R563,
R539). -/
def tumbFetch (t : Fin 18) (x : Fin 2) (s : State) : EccKind × Nat × State :=
  let pc := tumbPc t x s
  let r := s.readWord (tumbProg t (pc / 2)) false
  (r.1, bits r.2.1 (32 * (pc % 2)) 32, r.2.2)

/-- An instruction cycle of context x: the fetch traps on an uncorrectable word (R573); an instruction that `is` accepts has
its effect. The counters count the cycle under the freeze in force when it begins (R584). -/
def tumbCycle (t : Fin 18) (x : Fin 2) (is : Nat → Bool) (eff : Nat → State → State) (s : State) : State :=
  if !tumbIssues t x s then s
  else
    match tumbFetch t x s with
    | (.ue, _, s') => tumbTrap t x tcEccFetch (tumbPc t x s / 2) (tumbCycles t 1 s')
    | (_, w, s') => if is w then eff w (evcOnce t x 1 (tumbCycles t 1 s')) else s

/-- The instruction with an opcode, its required fields 0. -/
def tumbOp (t : Fin 18) (x : Fin 2) (op : Nat) (eff : Nat → State → State) (s : State) : State :=
  tumbCycle t x (fun w => fOp w == op && tumbLegal w) eff s

/-- The PC moves to an instruction of the context's partition; a move out of it traps, and nothing else happens (R571). -/
def tumbGoto (t : Fin 18) (x : Fin 2) (pc : Int) (f : State → State) (s : State) : State :=
  if pc / 4096 = (x.val : Int) then (f s).put (TUMB.hPc t x) pc.toNat else tumbTrap t x tcBounds (w36 pc) s

/-- A sequential step: the instruction's effect, and the PC goes to the next instruction. -/
def tumbStep (t : Fin 18) (x : Fin 2) (f : State → State) (s : State) : State := tumbGoto t x (tumbPc t x s + 1) f s

/-- An R-format operation. -/
def tumbR (t : Fin 18) (x : Fin 2) (op : Nat) (f : Nat → Nat → Nat) (s : State) : State :=
  tumbOp t x op (fun w => tumbStep t x fun s => tPut t x (fRd w) (f (tGet t x (fRa w) s) (tGet t x (fRb w) s)) s) s

/-- An I-format operation on ra and the immediate. -/
def tumbI (t : Fin 18) (x : Fin 2) (op : Nat) (f : Nat → Int → Nat) (s : State) : State :=
  tumbOp t x op (fun w => tumbStep t x fun s => tPut t x (fRd w) (f (tGet t x (fRa w) s) (fImm w)) s) s

/-! ## Register arithmetic (R569) -/

def alAdd (a b : Nat) : Nat := (a + b) % 2 ^ 36
def alSub (a b : Nat) : Nat := w36 (s36 a - s36 b)
def alAnd (a b : Nat) : Nat := a &&& b
def alOr (a b : Nat) : Nat := a ||| b
def alXor (a b : Nat) : Nat := a ^^^ b
def alSll (a n : Nat) : Nat := a * 2 ^ n % 2 ^ 36
def alSrl (a n : Nat) : Nat := a / 2 ^ n
def alSra (a n : Nat) : Nat := w36 (s36 a / (2 ^ n : Nat))
def alSlt (a b : Nat) : Nat := (decide (s36 a < s36 b)).toNat
def alSltu (a b : Nat) : Nat := (decide (a < b)).toNat
def alMin (a b : Nat) : Nat := if s36 a ≤ s36 b then a else b
def alMax (a b : Nat) : Nat := if s36 a ≤ s36 b then b else a
def alAdds (a b : Nat) : Nat := w36 (sat36 (s36 a + s36 b))

/-- ADD (R569). -/
def execAdd (t : Fin 18) (x : Fin 2) (s : State) : Out := act s (tumbR t x 0x01 alAdd)
/-- SUB (R569). -/
def execSub (t : Fin 18) (x : Fin 2) (s : State) : Out := act s (tumbR t x 0x02 alSub)
/-- AND (R569). -/
def execAnd (t : Fin 18) (x : Fin 2) (s : State) : Out := act s (tumbR t x 0x03 alAnd)
/-- OR (R569). -/
def execOr (t : Fin 18) (x : Fin 2) (s : State) : Out := act s (tumbR t x 0x04 alOr)
/-- XOR (R569). -/
def execXor (t : Fin 18) (x : Fin 2) (s : State) : Out := act s (tumbR t x 0x05 alXor)
/-- SLL (R569). -/
def execSll (t : Fin 18) (x : Fin 2) (s : State) : Out := act s (tumbR t x 0x06 fun a b => alSll a (b % 64))
/-- SRL (R569). -/
def execSrl (t : Fin 18) (x : Fin 2) (s : State) : Out := act s (tumbR t x 0x07 fun a b => alSrl a (b % 64))
/-- SRA (R569). -/
def execSra (t : Fin 18) (x : Fin 2) (s : State) : Out := act s (tumbR t x 0x08 fun a b => alSra a (b % 64))
/-- SLT (R569). -/
def execSlt (t : Fin 18) (x : Fin 2) (s : State) : Out := act s (tumbR t x 0x09 alSlt)
/-- SLTU (R569). -/
def execSltu (t : Fin 18) (x : Fin 2) (s : State) : Out := act s (tumbR t x 0x0A alSltu)
/-- MIN (R569). -/
def execMin (t : Fin 18) (x : Fin 2) (s : State) : Out := act s (tumbR t x 0x0B alMin)
/-- MAX (R569). -/
def execMax (t : Fin 18) (x : Fin 2) (s : State) : Out := act s (tumbR t x 0x0C alMax)
/-- ADDS (R569). -/
def execAdds (t : Fin 18) (x : Fin 2) (s : State) : Out := act s (tumbR t x 0x0D alAdds)
/-- ADDI (R569). -/
def execAddi (t : Fin 18) (x : Fin 2) (s : State) : Out := act s (tumbI t x 0x10 fun a i => alAdd a (w36 i))
/-- ANDI (R569). -/
def execAndi (t : Fin 18) (x : Fin 2) (s : State) : Out := act s (tumbI t x 0x11 fun a i => alAnd a (w36 i))
/-- ORI (R569). -/
def execOri (t : Fin 18) (x : Fin 2) (s : State) : Out := act s (tumbI t x 0x12 fun a i => alOr a (w36 i))
/-- XORI (R569). -/
def execXori (t : Fin 18) (x : Fin 2) (s : State) : Out := act s (tumbI t x 0x13 fun a i => alXor a (w36 i))
/-- SLLI (R569). -/
def execSlli (t : Fin 18) (x : Fin 2) (s : State) : Out := act s (tumbI t x 0x14 fun a i => alSll a (ofInt 6 i))
/-- SRLI (R569). -/
def execSrli (t : Fin 18) (x : Fin 2) (s : State) : Out := act s (tumbI t x 0x15 fun a i => alSrl a (ofInt 6 i))
/-- SRAI (R569). -/
def execSrai (t : Fin 18) (x : Fin 2) (s : State) : Out := act s (tumbI t x 0x16 fun a i => alSra a (ofInt 6 i))
/-- SLTI (R569). -/
def execSlti (t : Fin 18) (x : Fin 2) (s : State) : Out := act s (tumbI t x 0x17 fun a i => (decide (s36 a < i)).toNat)
/-- LUI (R569). -/
def execLui (t : Fin 18) (x : Fin 2) (s : State) : Out := act s (tumbI t x 0x18 fun _ i => w36 (i * 2 ^ 18))

/-! ## Accumulators (R569) -/

/-- An A-format operation that writes its accumulator. -/
def tumbA (t : Fin 18) (x : Fin 2) (op : Nat) (f : Nat → State → State) (s : State) : State :=
  tumbOp t x op (fun w => tumbStep t x (f w)) s

/-- The exact product of ra and rb. -/
def tumbProduct (t : Fin 18) (x : Fin 2) (w : Nat) (s : State) : Int := s36 (tGet t x (fRa w) s) * s36 (tGet t x (fRb w) s)

/-- The effect of MOVT: a shifted value that the 72 bits cannot hold is a free value (log entry 80). -/
def movtEff (t : Fin 18) (x : Fin 2) (w : Nat) (s : State) : State :=
  let v := s36 (tGet t x (fRa w) s) * (2 ^ fSh w : Nat)
  if -(2 ^ 71) ≤ v ∧ v < 2 ^ 71 then aPut t x (fAcc w) v s else s.putFree (TUMB.hA t x (Fin.ofNat 2 (fAcc w)))

/-- MOVT (R569). -/
def execMovt (t : Fin 18) (x : Fin 2) (s : State) : Out := act s (tumbA t x 0x1B (movtEff t x))

/-- MUL, MAC and MSU count as code 0x07 (R582). -/
def tumbMul (t : Fin 18) (x : Fin 2) (op : Nat) (f : Int → Int → Int) (s : State) : State :=
  tumbA t x op (fun w s =>
    aPut t x (fAcc w) (f (aGet t x (fAcc w) s) (tumbProduct t x w s)) (evcOnce t x 7 s)) s

/-- MUL (R569). -/
def execMul (t : Fin 18) (x : Fin 2) (s : State) : Out := act s (tumbMul t x 0x1C fun _ p => p)
/-- MAC (R569). -/
def execMac (t : Fin 18) (x : Fin 2) (s : State) : Out := act s (tumbMul t x 0x1D fun a p => sat71 (a + p))
/-- MSU (R569). -/
def execMsu (t : Fin 18) (x : Fin 2) (s : State) : Out := act s (tumbMul t x 0x1E fun a p => sat71 (a - p))
/-- MOVA (R569). -/
def execMova (t : Fin 18) (x : Fin 2) (s : State) : Out :=
  act s (tumbA t x 0x1F fun w s => tPut t x (fRd w) (w36 (sat36 (aGet t x (fAcc w) s / (2 ^ fSh w : Nat)))) s)

/-! ## Data memory -/

/-- The address ra + imm18 of a data or page access, modulo 2^36. -/
def tumbAddr (t : Fin 18) (x : Fin 2) (w : Nat) (s : State) : Nat := alAdd (tGet t x (fRa w) s) (w36 (fImm w))

/-- A context may address this data word (R571). -/
def dataOk (x : Fin 2) (a : Nat) : Bool := decide (2048 * x.val ≤ a) && decide (a < 4096)

/-- A load: out of bounds and uncorrectable words trap, the latter after the read has been counted (R571, R573). -/
def tumbLoad (t : Fin 18) (x : Fin 2) (op : Nat) (f : Nat → Nat → State → State) (s : State) : State :=
  tumbOp t x op (fun w s =>
    let a := tumbAddr t x w s
    if !dataOk x a then tumbTrap t x tcBounds a s
    else
      match s.readWord (tumbData t a) false with
      | (.ue, _, s') => tumbTrap t x tcEccData a s'
      | (_, d, s') => tumbStep t x (f w d) s') s

/-- A store of a whole word (R569, R571). -/
def tumbStore (t : Fin 18) (x : Fin 2) (op : Nat) (f : Nat → State → Int) (s : State) : State :=
  tumbOp t x op (fun w s =>
    let a := tumbAddr t x w s
    if !dataOk x a then tumbTrap t x tcBounds a s else tumbStep t x (fun s => s.store (tumbData t a) (ofInt 64 (f w s))) s) s

/-- LD (R569). -/
def execLd (t : Fin 18) (x : Fin 2) (s : State) : Out := act s (tumbLoad t x 0x20 fun w d => tPut t x (fRd w) (d % 2 ^ 36))
/-- ST (R569). -/
def execSt (t : Fin 18) (x : Fin 2) (s : State) : Out := act s (tumbStore t x 0x21 fun w s => s36 (tGet t x (fRd w) s))
/-- LDA (R569). -/
def execLda (t : Fin 18) (x : Fin 2) (s : State) : Out := act s (tumbLoad t x 0x22 fun w d => aPut t x (fAccI w) (toInt 64 d))
/-- STA (R569). -/
def execSta (t : Fin 18) (x : Fin 2) (s : State) : Out := act s (tumbStore t x 0x23 fun w s => sat64 (aGet t x (fAccI w) s))

/-! ## Page space -/

/-- The carrier whose page this is, if any. -/
def Page.carrierOf : Page → Option (Fin 16)
  | .conv c | .txdsp c | .rxdsp c | .fec c | .otu c | .hub c | .cal c | .cint c => some c
  | .tumb t => if t.val < 16 then some (Fin.ofNat 16 t.val) else none
  | _ => none

/-- Carrier Tumbler t reaches page p for reads or writes (R572). -/
def pageInScope (t : Fin 18) (p : Page) (wr : Bool) : Bool :=
  match Page.quadrant p with
  | none => !wr
  | some q =>
    q.val == t.val / 4 &&
      match Page.carrierOf p with
      | some c => c.val == t.val
      | none => true

/-- The table regions of carrier t and its quadrant hold the access (R572, R85). -/
def tablesInScope (t : Fin 18) (a size : Nat) : Bool :=
  let q0 := 0x0340_0000 + (t.val / 4) * 0x30_0000
  let c0 := q0 + 0x10_0000 + (t.val % 4) * 0x8_0000
  (decide (q0 ≤ a) && decide (a + size ≤ q0 + 0x10_0000)) || (decide (c0 ≤ a) && decide (a + size ≤ c0 + 0x8_0000))

/-- The CORE scope of R572. -/
def tumbScope (t : Fin 18) (a size : Nat) (wr : Bool) : Bool :=
  if t.val < 16 then
    match Page.ofAddr a with
    | some p => pageInScope t p wr
    | none => tablesInScope t a size
  else decide (a + size ≤ 2 ^ 26) && !(wr && (Page.ofAddr a == some .fuse || Page.ofAddr a == some .boot || Page.ofAddr a == some .keyway))

/-- The pages that no USER access may touch (R575). -/
def userForbidden : Page → Bool
  | .tumb _ | .devInt | .pwr | .hubctl | .keyway | .boot | .fuse | .mbox | .pcie | .dma _ => true
  | _ => false

/-- The access lies wholly within a PERM window that allows it (R575, R576). -/
def permAllows (t : Fin 18) (a size : Nat) (wr : Bool) (s : State) : Bool :=
  (List.finRange 8).any fun w =>
    s.flag (if wr then TUMB.PERM_BASE_W t w else TUMB.PERM_BASE_R t w) && decide (4 * s.get (TUMB.PERM_BASE_ADDR t w) ≤ a)
      && decide (a + size ≤ 4 * s.get (TUMB.PERM_LIM_ADDR t w) + 4)

/-- The page that owns an address: the register page, or the page of the table word (R575). -/
def ownerPage (a : Nat) : Option Page :=
  match Page.ofAddr a with
  | some p => some p
  | none => (hitAt a).map (·.page)

/-- A USER page-space access is refused (R575). -/
def permDenies (t : Fin 18) (a size : Nat) (wr : Bool) (s : State) : Bool :=
  !permAllows t a size wr s || !tumbScope t a size wr ||
    (match Page.ofAddr a with
      | some p => userForbidden p || (wr && decide (a - p.base < 0x040))
      | none => false) ||
    (match ownerPage a with
      | some p => wr && s.holds (.tumb t) (.page p)
      | none => false)

/-- The trap of a page-space access, if any: its cause (R571, R572, R575). -/
def pageTrap (t : Fin 18) (x : Fin 2) (a size : Nat) (wr : Bool) (s : State) : Option Nat :=
  if a % size ≠ 0 then some tcAlign
  else if x = 1 then (if permDenies t a size wr s then some tcPerm else none)
  else if tumbScope t a size wr then none
  else some tcPageFault

/-- A page read: once its checks pass, the context stalls until the data returns (R567, R570). A read after which the PC
would leave the partition traps at once (R571). -/
def tumbPageRead (t : Fin 18) (x : Fin 2) (op size : Nat) (s : State) : State :=
  tumbOp t x op (fun w s =>
    let a := tumbAddr t x w s
    match pageTrap t x a size false s with
    | some c => tumbTrap t x c a s
    | none =>
      let pc := tumbPc t x s
      if (pc + 1) / 4096 = x.val then
        (((evcOnce t x 2 s).put (TUMB.hStall t x) (if size = 4 then 1 else 2)).put (TUMB.hStAddr t x) a).put (TUMB.hStRd t x) (fRd w)
      else tumbTrap t x tcBounds (pc + 1) s) s

/-- A page write: once its checks pass, it is posted (R570). -/
def tumbPageWrite (t : Fin 18) (x : Fin 2) (op size : Nat) (f : Nat → State → Nat) (s : State) : State :=
  tumbOp t x op (fun w s =>
    let a := tumbAddr t x w s
    match pageTrap t x a size true s with
    | some c => tumbTrap t x c a s
    | none => tumbStep t x (fun s => { s with posted := s.posted ++ [⟨t, x, a, size, f w s⟩] }) s) s

/-- LDP (R569, R570). -/
def execLdp (t : Fin 18) (x : Fin 2) (s : State) : Out := act s (tumbPageRead t x 0x24 4)
/-- STP (R569, R570). -/
def execStp (t : Fin 18) (x : Fin 2) (s : State) : Out := act s (tumbPageWrite t x 0x25 4 fun w s => tGet t x (fRd w) s % 2 ^ 32)
/-- LDPW (R569, R570). -/
def execLdpw (t : Fin 18) (x : Fin 2) (s : State) : Out := act s (tumbPageRead t x 0x26 8)
/-- STPW (R569, R570). -/
def execStpw (t : Fin 18) (x : Fin 2) (s : State) : Out :=
  act s (tumbPageWrite t x 0x27 8 fun w s => ofInt 64 (sat64 (aGet t x (fAccI w) s)))

/-! ## Branches and jumps -/

/-- A branch whose condition is f (R568, R569). -/
def tumbBranch (t : Fin 18) (x : Fin 2) (op : Nat) (f : Nat → Nat → Bool) (s : State) : State :=
  tumbOp t x op (fun w s =>
    if f (tGet t x (fRd w) s) (tGet t x (fRa w) s) then
      tumbGoto t x ((tumbPc t x s : Int) + fImm w) (evcOnce t x 6) s
    else tumbStep t x id s) s

/-- BEQ (R569). -/
def execBeq (t : Fin 18) (x : Fin 2) (s : State) : Out := act s (tumbBranch t x 0x28 fun a b => a == b)
/-- BNE (R569). -/
def execBne (t : Fin 18) (x : Fin 2) (s : State) : Out := act s (tumbBranch t x 0x29 fun a b => a != b)
/-- BLT (R569). -/
def execBlt (t : Fin 18) (x : Fin 2) (s : State) : Out := act s (tumbBranch t x 0x2A fun a b => decide (s36 a < s36 b))
/-- BGE (R569). -/
def execBge (t : Fin 18) (x : Fin 2) (s : State) : Out := act s (tumbBranch t x 0x2B fun a b => decide (s36 b ≤ s36 a))
/-- BLTU (R569). -/
def execBltu (t : Fin 18) (x : Fin 2) (s : State) : Out := act s (tumbBranch t x 0x2C fun a b => decide (a < b))
/-- BGEU (R569). -/
def execBgeu (t : Fin 18) (x : Fin 2) (s : State) : Out := act s (tumbBranch t x 0x2D fun a b => decide (b ≤ a))

/-- JAL (R569). -/
def execJal (t : Fin 18) (x : Fin 2) (s : State) : Out :=
  act s (tumbOp t x 0x2E fun w s =>
    tumbGoto t x (fTarget w) (fun s => tPut t x (fRd w) (tumbPc t x s + 1) (evcOnce t x 6 s)) s)

/-- JR (R569). -/
def execJr (t : Fin 18) (x : Fin 2) (s : State) : Out :=
  act s (tumbOp t x 0x2F fun w s => tumbGoto t x (tGet t x (fRa w) s % 2 ^ 13 : Nat) (evcOnce t x 6) s)

/-! ## Waiting -/

/-- A context begins to wait; its PC moves on when it wakes. -/
def tumbWait (t : Fin 18) (x : Fin 2) (kind : Nat) (f : State → State) (s : State) : State :=
  let pc := tumbPc t x s
  if (pc + 1) / 4096 = x.val then ((f s).put (TUMB.hState t x) tsWaiting).put (TUMB.hWait t x) kind
  else tumbTrap t x tcBounds (pc + 1) s

/-- WAITT (R578): wait for a tick issued after this instruction. -/
def execWaitt (t : Fin 18) (x : Fin 2) (s : State) : Out :=
  act s (tumbOp t x 0x30 fun _ s => tumbWait t x 1 (fun s => s.put (TUMB.hWaitTick t x) s.tickCount) s)

/-- A WAITE completes with the events it consumes (R569). -/
def waiteDone (t : Fin 18) (x : Fin 2) (rd m : Nat) (s : State) : State :=
  let v := tumbPending t x s &&& m
  (tumbConsume t x m (evcOnce t x 0xB (tPut t x rd v s))).put (TUMB.hWd t x) 0

/-- WAITE (R569, R578). -/
def execWaite (t : Fin 18) (x : Fin 2) (s : State) : Out :=
  act s (tumbOp t x 0x31 fun w s =>
    let m := bits w 0 8 ||| bits (tGet t x (fRa w) s) 0 8
    if tumbPending t x s &&& m ≠ 0 then tumbStep t x (waiteDone t x (fRd w) m) s
    else tumbWait t x 2 (fun s => (s.put (TUMB.hWaitM t x) m).put (TUMB.hWaitRd t x) (fRd w)) s)

/-- What a WAITING context waits for has come (R578). -/
def tumbWoken (t : Fin 18) (x : Fin 2) (s : State) : Bool :=
  if s.get (TUMB.hWait t x) = 1 then decide (s.get (TUMB.hWaitTick t x) < s.tickCount)
  else tumbPending t x s &&& s.get (TUMB.hWaitM t x) != 0

/-- TUMB_WAKE (R578): the awaited tick or event has come, n cycles after the last accounted one. -/
def execTumbWake (t : Fin 18) (x : Fin 2) (n : Nat) (s : State) : Out :=
  act s fun s =>
    if tumbState t x s ≠ tsWaiting ∨ s.flag (HDR.FREEZE (.tumb t)) ∨ !tumbAwake t s then s
    else if !tumbWoken t x s then s
    else
      let s := tumbCycles t n s
      let s :=
        if s.get (TUMB.hWait t x) = 1 then s.put (TUMB.hWd t x) 0
        else waiteDone t x (s.get (TUMB.hWaitRd t x)) (s.get (TUMB.hWaitM t x)) s
      ((tumbForget t x s).put (TUMB.hState t x) tsRunning).put (TUMB.hPc t x) (tumbPc t x s + 1)

/-! ## Control -/

/-- HALT (R560). -/
def execHalt (t : Fin 18) (x : Fin 2) (s : State) : Out :=
  act s (tumbOp t x 0x32 fun _ => tumbStep t x fun s => (s.put (TUMB.hState t x) tsHalted).raise (.tumb t) (2 + x.val))

/-- TRAP (R573). -/
def execTrap (t : Fin 18) (x : Fin 2) (s : State) : Out := act s (tumbOp t x 0x33 fun w => tumbTrap t x tcSoft (w36 (fImm w)))

/-- ILLEGAL (R569): an opcode that is not listed, or a field that must be 0 and is not. -/
def execIllegal (t : Fin 18) (x : Fin 2) (s : State) : Out :=
  act s (tumbCycle t x (fun w => !tumbLegal w) fun w => tumbTrap t x tcIllegal w)

/-- The counter that RDC reads; counters 9 to 15 do not exist and read a free value (log entry 80). -/
def rdcEff (t : Fin 18) (x : Fin 2) (w n : Nat) (s : State) : State :=
  if n < 8 then aPut t x (fAccI w) (evcValue t (Fin.ofNat 8 n) s) s
  else if n = 8 then aPut t x (fAccI w) (s.get (TUMB.hCycle t)) s
  else s.putFree (TUMB.hA t x (Fin.ofNat 2 (fAccI w)))

/-- RDC (R569, R577, R583). -/
def execRdc (t : Fin 18) (x : Fin 2) (s : State) : Out :=
  act s (tumbOp t x 0x34 fun w s =>
    let n := bits w 0 4
    if x = 1 ∧ !s.flag (HDR.CNT_USER (.tumb t)) then tumbTrap t x tcPerm n s else tumbStep t x (rdcEff t x w n) s)

/-- FRZC and RUNC: the USER context traps, with an argument that the spec does not give (R577, R584). -/
def tumbFreeze (t : Fin 18) (x : Fin 2) (op : Nat) (on : Bool) (s : State) : State :=
  tumbOp t x op (fun _ s =>
    if x = 1 then tumbTrap t x tcPerm (Config.freeValue s.freeCtr % 2 ^ 32) { s with freeCtr := s.freeCtr + 1 }
    else tumbStep t x (fun s => s.putB (TUMB.CNT_CTRL_FREEZE t) on) s) s

/-- FRZC (R584). -/
def execFrzc (t : Fin 18) (x : Fin 2) (s : State) : Out := act s (tumbFreeze t x 0x35 true)
/-- RUNC (R584). -/
def execRunc (t : Fin 18) (x : Fin 2) (s : State) : Out := act s (tumbFreeze t x 0x36 false)
/-- RDTK (R569). -/
def execRdtk (t : Fin 18) (x : Fin 2) (s : State) : Out :=
  act s (tumbOp t x 0x37 fun w => tumbStep t x fun s => tPut t x (fRd w) (s.get (TUMB.hTicks t)) s)

/-! ## Commands (R560, R585) -/

/-- Registers, accumulators and pending events of a context are cleared and its PC is the entry point (R560). -/
def tumbClear (t : Fin 18) (x : Fin 2) (s : State) : State :=
  let s := forFin 16 (fun r s => s.put (TUMB.hT t x r) 0) s
  let s := forFin 2 (fun n s => s.put (TUMB.hA t x n) 0) s
  let s := if x = 0 then s.putB (TUMB.hFresh t) true else s
  tumbForget t x ((tumbConsume t x 0xFF s).put (TUMB.hPc t x) (tumbEntry x))

/-- A context runs: its watchdog count restarts and no AUTO start stays due (R562). -/
def tumbGo (t : Fin 18) (x : Fin 2) (s : State) : State :=
  (((s.put (TUMB.hState t x) tsRunning).put (TUMB.hWd t x) 0).putB (TUMB.hAutoDue t x) false).putB (TUMB.hAutoTick t x) false

def tumbStart (t : Fin 18) (x : Fin 2) (s : State) : State :=
  if pageOn (.tumb t) s && tumbState t x s == tsHalted then tumbGo t x s else s

def tumbRestart (t : Fin 18) (x : Fin 2) (s : State) : State :=
  if pageOn (.tumb t) s && (tumbState t x s == tsHalted || tumbState t x s == tsTrapped) then tumbGo t x (tumbClear t x s) else s

/-- STOP: a page read in progress completes first (R560). -/
def tumbStop (t : Fin 18) (x : Fin 2) (s : State) : State :=
  if tumbState t x s = tsRunning ∧ s.get (TUMB.hStall t x) ≠ 0 then s.putB (TUMB.hStop t x) true
  else if tumbState t x s = tsRunning ∨ tumbState t x s = tsWaiting then (tumbForget t x s).put (TUMB.hState t x) tsHalted
  else s

/-- A write of TUMB_CMD: for each context STOP acts alone, else RESTART alone, else START (R560). -/
def tumbCmdEff (t : Fin 18) (v : Nat) (s : State) : State :=
  forFin 2 (fun x s =>
    if bit v (3 * x.val + 1) then tumbStop t x s
    else if bit v (3 * x.val + 2) then tumbRestart t x s
    else if bit v (3 * x.val) then tumbStart t x s
    else s) s

/-- TUMB_START (R560). -/
def execTumbStart (m : Master) (t : Fin 18) (x : Fin 2) (s : State) : Out :=
  act s fun s => writeCmd m (.tumb t) 0x044 (2 ^ (3 * x.val)) (tumbCmdEff t (2 ^ (3 * x.val))) s

/-- TUMB_STOP (R560). -/
def execTumbStop (m : Master) (t : Fin 18) (x : Fin 2) (s : State) : Out :=
  act s fun s => writeCmd m (.tumb t) 0x044 (2 ^ (3 * x.val + 1)) (tumbCmdEff t (2 ^ (3 * x.val + 1))) s

/-- TUMB_RESTART (R560). -/
def execTumbRestart (m : Master) (t : Fin 18) (x : Fin 2) (s : State) : Out :=
  act s fun s => writeCmd m (.tumb t) 0x044 (2 ^ (3 * x.val + 2)) (tumbCmdEff t (2 ^ (3 * x.val + 2))) s

/-- AUTO_x. -/
def tumbAuto (t : Fin 18) (x : Fin 2) (s : State) : Bool :=
  if x = 0 then s.flag (TUMB.TUMB_CTRL_AUTO_C t) else s.flag (TUMB.TUMB_CTRL_AUTO_U t)

/-- TUMB_AUTO_START (R585): the tick at which the AUTO start of a HALTED context falls due has come. -/
def execTumbAutoStart (t : Fin 18) (x : Fin 2) (s : State) : Out :=
  act s fun s =>
    if s.flag (TUMB.hAutoTick t x) then
      let s := s.putB (TUMB.hAutoTick t x) false
      if tumbAuto t x s then tumbStart t x s else s
    else s

/-- TUMB_WATCHDOG (R562). -/
def execTumbWatchdog (t : Fin 18) (x : Fin 2) (s : State) : Out :=
  act s fun s =>
    if tumbState t x s = tsRunning ∧ !s.flag (HDR.FREEZE (.tumb t)) ∧ tumbAwake t s ∧ wdogOver t x s then
      tumbTrap t x tcWatchdog (s.get (TUMB.hWd t x)) s
    else s

/-- A write of DOORBELL (R578). -/
def doorbellEff (t : Fin 18) (v : Nat) (s : State) : State :=
  let s := if bit v 0 then tumbPend t 0 evDoorbell s else s
  if bit v 1 then tumbPend t 1 evDoorbell s else s

/-- TUMB_DOORBELL (R578). -/
def execTumbDoorbell (m : Master) (t : Fin 18) (x : Fin 2) (s : State) : Out :=
  act s fun s => writeCmd m (.tumb t) 0x068 (2 ^ x.val) (doorbellEff t (2 ^ x.val)) s

/-- A write of PERM_BASE[w] (which = 0) or PERM_LIM[w]: dropped while the USER context runs or waits (R576). -/
def permEff (m : Master) (t : Fin 18) (w : Fin 8) (which : Fin 2) (v : Nat) (s : State) : State :=
  if tumbState t 1 s = tsRunning ∨ tumbState t 1 s = tsWaiting then
    logErr (.tumb t) causeActiveWrite (masterId m) 0 false (0x180 + 8 * w.val + 4 * which.val) s
  else if which = 0 then
    ((s.put (TUMB.PERM_BASE_R t w) (bits v 31 1)).put (TUMB.PERM_BASE_W t w) (bits v 30 1)).put (TUMB.PERM_BASE_ADDR t w) (bits v 2 24)
  else s.put (TUMB.PERM_LIM_ADDR t w) (bits v 2 24)

/-- PERM_WINDOW_WRITE (R576). -/
def execPermWindowWrite (m : Master) (t : Fin 18) (w : Fin 8) (which : Fin 2) (v : Nat) (s : State) : Out :=
  act s fun s => writeCmd m (.tumb t) (0x180 + 8 * w.val + 4 * which.val) v (permEff m t w which v) s

/-- Count n and its OVF clear (R581). -/
def evcClear (t : Fin 18) (n : Fin 8) (s : State) : State := (s.put (TUMB.hEvc t n) 0).putB (TUMB.EVC_HI_OVF t n) false

/-- A write of CNT_CTRL (R581, R584). -/
def cntCtrlEff (t : Fin 18) (v : Nat) (s : State) : State :=
  forFin 8 (fun n s => if bit v n.val then evcClear t n s else s) (s.put (TUMB.CNT_CTRL_FREEZE t) (bits v 31 1))

/-- COUNTER_FREEZE_WRITE (R584). -/
def execCounterFreezeWrite (m : Master) (t : Fin 18) (on : Bool) (s : State) : Out :=
  act s fun s => writeCmd m (.tumb t) 0x0C0 (2 ^ 31 * on.toNat) (cntCtrlEff t (2 ^ 31 * on.toNat)) s

/-- COUNTER_CLR (R581): a write of CNT_CTRL. -/
def execCounterClr (m : Master) (t : Fin 18) (v : Nat) (s : State) : Out :=
  act s fun s => writeCmd m (.tumb t) 0x0C0 v (cntCtrlEff t v) s

/-- EVCn has reached its largest value: OVF, the event and the interrupt (R581). -/
def evcOverflow (t : Fin 18) (n : Fin 8) (s : State) : State :=
  (tumbEvent t evEvcOvf (s.putB (TUMB.EVC_HI_OVF t n) true)).raise (.tumb t) 4

/-- EVC_OVF (R581). -/
def execEvcOvf (t : Fin 18) (n : Fin 8) (s : State) : Out :=
  act s fun s =>
    let v := s.get (TUMB.hEvc t n)
    if s.flag (TUMB.EVC_CFG_STICK t n) then
      if 2 ^ 48 - 1 ≤ v ∧ !s.flag (TUMB.EVC_HI_OVF t n) then evcOverflow t n s else s
    else if 2 ^ 48 ≤ v then evcOverflow t n (s.put (TUMB.hEvc t n) (v - 2 ^ 48))
    else s

/-! ## Ticks, resets, sleep, loading -/

/-- A tick reaches Tumbler t (R578, R582, R585): the cycles of the tick that no command has accounted for pass first. -/
def tumbTick (t : Fin 18) (pm : Bool) (s : State) : State :=
  if !tumbAwake t s then s
  else
    let s := (tumbCycles t (250000 - s.get (TUMB.hInTick t)) s).put (TUMB.hInTick t) 0
    let s := evcCount t 8 (fun _ => true) 1 ((tumbEvent t evTick s).incWrap (TUMB.hTicks t) 1)
    let s := if pm then tumbEvent t evPmSec s else s
    forFin 2 (fun x s =>
      if s.flag (TUMB.hAutoDue t x) && pageOn (.tumb t) s then
        (s.putB (TUMB.hAutoDue t x) false).putB (TUMB.hAutoTick t x) true
      else s) s

/-- CTRL.ENABLE written 0 acts as STOP on both contexts (R585). -/
def tumbOff (t : Fin 18) (s : State) : State := tumbStop t 1 (tumbStop t 0 s)

/-- What a soft reset of a TUMB page keeps (R585). -/
def tumbKept (t : Fin 18) : List Fld :=
  [TUMB.WDOG_WDOG_C t, TUMB.WDOG_WDOG_U t, TUMB.TUMB_STAT_VALID_C t, TUMB.TUMB_STAT_VALID_U t, TUMB.IMG_C_PROG_ID t,
    TUMB.IMG_C_VERSION t, TUMB.IMG_U_PROG_ID t, TUMB.IMG_U_VERSION t, TUMB.hState t 0, TUMB.hState t 1, TUMB.hSec t]
    ++ (List.finRange 16).map (TUMB.PARAM t)
    ++ (List.finRange 8).flatMap fun w =>
      [TUMB.PERM_BASE_R t w, TUMB.PERM_BASE_W t w, TUMB.PERM_BASE_ADDR t w, TUMB.PERM_LIM_ADDR t w]

/-- A soft reset of the TUMB page: every context but an IDLE one is HALTED at its entry point, and the Tumbler's hasps and
outstanding writes are lost (R58, R59, R560). -/
def tumbReset (t : Fin 18) (s : State) : State :=
  let s := masterFails (.tumb t) { s with posted := s.posted.filter fun p => p.t != t }
  forFin 2 (fun x s =>
    let s := tumbClear t x s
    if tumbState t x s = tsIdle then s else (s.put (TUMB.hState t x) tsHalted).putB (TUMB.hAutoDue t x) true) s

/-- Sleep of the Tumbler's quadrant, or STANDBY: a running or waiting context is HALTED and its registers are lost
(R560). -/
def tumbSleep (t : Fin 18) (s : State) : State :=
  forFin 2 (fun x s =>
    if tumbState t x s = tsRunning ∨ tumbState t x s = tsWaiting then
      let s := forFin 16 (fun r s => if r = 0 then s else s.putFree (TUMB.hT t x r)) s
      let s := forFin 2 (fun n s => s.putFree (TUMB.hA t x n)) s
      let s := if x = 0 then s.putB (TUMB.hFresh t) true else s
      (((tumbForget t x s).put (TUMB.hState t x) tsHalted).put (TUMB.hPc t x) (tumbEntry x)).putB (TUMB.hAutoDue t x) true
    else s) s

/-- VALID_x. -/
def tumbValid (t : Fin 18) (x : Fin 2) : Fld := if x = 0 then TUMB.TUMB_STAT_VALID_C t else TUMB.TUMB_STAT_VALID_U t

/-- An image load into a context's partition begins (R560). -/
def tumbLoadStart (t : Fin 18) (x : Fin 2) (s : State) : State :=
  ((tumbForget t x s).put (TUMB.hState t x) tsIdle).putB (tumbValid t x) false

/-- An image load has completed and verified (R560). -/
def tumbLoaded (t : Fin 18) (x : Fin 2) (prog ver : Nat) (s : State) : State :=
  let s := (s.put (TUMB.hState t x) tsHalted).putB (tumbValid t x) true
  let s := if x = 0 then s.putB (TUMB.hFresh t) true else s
  let s := if x = 0 then (s.put (TUMB.IMG_C_PROG_ID t) prog).put (TUMB.IMG_C_VERSION t) ver
    else (s.put (TUMB.IMG_U_PROG_ID t) prog).put (TUMB.IMG_U_VERSION t) ver
  ((s.put (TUMB.hPc t x) (tumbEntry x)).putB (TUMB.hAutoDue t x) true).raise (.tumb t) 5

end Sys2Proof.Machine
end

