-- ==== Sys2Proof/Machine/Boot.lean ====
section
/-! DEFINITION. Boot, images and fuses (chapter 18): the Woxia image and its verification (R644 to R648), the flash copies
(R641, R642), the boot chain and recovery (R649 to R651), identity and KEK0 (R652 to R654), the measurements (R655,
R656), the closing of debug (R659) and the fuse commands (R661 to R663). Whether a signature verifies is an operand of
the event that checks it: the blocks whose signature does. -/
namespace Sys2Proof.Machine

/-! ## Owner keys (R638, R639) -/

/-- The bytes of owner key slot k. -/
def ownerKey (k : Fin 2) (s : State) : List Nat := (List.finRange 8).flatMap fun w => leBytes 4 (s.get (FUSE.OWNER_PK k w))

/-- Owner slot k is valid (R639). -/
def ownerValid (k : Fin 2) (s : State) : Bool :=
  s.flag (FUSE.hOwnProg k) && s.get (FUSE.hOwnCrc k) == crc16 (ownerKey k s) && !bit (s.get FUSE.FUSE_STAT_REVOKE) k.val

/-- Owner slot k is damaged (R639). -/
def ownerDamaged (k : Fin 2) (s : State) : Bool := !ownerValid k s && (ownerKey k s).any (fun b => b != 0)

/-- The owner slot in use: the lowest valid one (R639). -/
def ownerInUse (s : State) : Option (Fin 2) := (List.finRange 2).find? fun k => ownerValid k s

/-- OWNER_SLOT of BOOT_STAT as the fuses stand (R660). -/
def showOwner (s : State) : State :=
  s.put BOOT.BOOT_STAT_OWNER_SLOT (match ownerInUse s with | some k => k.val | none => 3)

/-- Device serial number: 8 bytes, least significant first. -/
def serialBytes (s : State) : List Nat := leBytes 4 (s.get ID.SERIAL_LO) ++ leBytes 4 (s.get ID.SERIAL_HI)

/-! ## The Woxia image (R644, R645) -/

def imgNum (img : List Nat) (o n : Nat) : Nat := ofLe (slice img o n)
def imgKind (img : List Nat) : Nat := imgNum img 6 1
def imgSigs (img : List Nat) : Nat := imgNum img 7 1
def imgProg (img : List Nat) : Nat := imgNum img 8 2
def imgVersion (img : List Nat) : Nat := imgNum img 10 2
def imgSecver (img : List Nat) : Nat := imgNum img 12 4
def imgPayloadLen (img : List Nat) : Nat := imgNum img 16 4
def imgTarget (img : List Nat) : Nat := imgNum img 20 4
def imgProgWords (img : List Nat) : Nat := imgNum img 24 4
def imgDataWords (img : List Nat) : Nat := imgNum img 28 4
def imgDataBase (img : List Nat) : Nat := imgNum img 32 4
def imgDebugOnly (img : List Nat) : Bool := bit (imgNum img 36 4) 0
def imgPayload (img : List Nat) : List Nat := slice img 128 (imgPayloadLen img)

/-- The length of an image by its header. -/
def imgTotal (img : List Nat) : Nat := 128 + imgPayloadLen img + 7864 * imgSigs img

/-- MAGIC of R644. -/
def imgMagic (img : List Nat) : Bool := slice img 0 4 == [0x57, 0x4F, 0x58, 0x49]

/-- Image kinds (R644). -/
def ikStage1 : Nat := 1
def ikFirmware : Nat := 2
def ikCore : Nat := 3
def ikUser : Nat := 4

/-- Signature block j of an image: its KEY_SLOT where its other fields are as R645 gives them. -/
def imgBlock (img : List Nat) (j : Nat) : Option Nat :=
  let b := slice img (128 + imgPayloadLen img + 7864 * j) 8
  if b.drop 1 = [1, 0, 0, 0, 0, 0, 0] then b.head? else none

/-- A block that names a key slot and whose signature verifies under it. -/
def imgSigned (img : List Nat) (slot : Nat) (good : Nat → Bool) : Bool :=
  (List.range (imgSigs img)).any fun j => imgBlock img j == some slot && good j

/-- A block names an owner slot that is not valid. -/
def imgNamesInvalid (img : List Nat) (s : State) : Bool :=
  (List.range (imgSigs img)).any fun j =>
    (imgBlock img j == some 1 && !ownerValid 0 s) || (imgBlock img j == some 2 && !ownerValid 1 s)

/-- Mailbox STATUS codes (R631). -/
def stOk : Nat := 0
def stBadOpcode : Nat := 1
def stBadLen : Nat := 2
def stBadArg : Nat := 3
def stTargetBusy : Nat := 4
def stSigFail : Nat := 5
def stRollback : Nat := 6
def stRevoked : Nat := 7
def stNvmFail : Nat := 8
def stFwRestart : Nat := 9
def stDenied : Nat := 0xA

/-- Causes of BOOT_STAT (R660). -/
def bcFlash : Nat := 1
def bcNoImage : Nat := 2
def bcSigFail : Nat := 3
def bcRollback : Nat := 4
def bcRevoked : Nat := 5
def bcFormat : Nat := 6
def bcCoreImage : Nat := 7
def bcCert : Nat := 8
def bcUserImage : Nat := 9

/-- The owner check of R646: none where it passes, else STATUS and boot cause. -/
def ownerCheck (img : List Nat) (good : Nat → Bool) (s : State) : Option (Nat × Nat) :=
  let passes := match ownerInUse s with
    | some k => imgSigned img (1 + k.val) good
    | none => false
  if passes then none
  else if imgNamesInvalid img s then some (stRevoked, bcRevoked)
  else if ownerInUse s = none then some (stDenied, bcSigFail)
  else some (stSigFail, bcSigFail)

/-- The context's data range holds the image's data words (R564, R644). -/
def imgDataFits (img : List Nat) : Bool :=
  let lo := if imgKind img = ikUser then 2048 else 0
  imgDataWords img == 0 || (decide (lo ≤ imgDataBase img) && decide (imgDataBase img + imgDataWords img ≤ 4096))

/-- The verification of an image of an expected kind within `limit` bytes, for Tumbler t where one is named (R646): none
where it passes, else STATUS and boot cause of the first check that fails. -/
def verifyImage (img : List Nat) (limit kind : Nat) (t : Option (Fin 18)) (good : Nat → Bool) (s : State) :
    Option (Nat × Nat) :=
  let tumb := kind == ikCore || kind == ikUser
  let tawell := kind != ikUser
  if !imgMagic img || imgNum img 4 2 != 1 || imgKind img != kind || decide (limit < imgTotal img)
      || decide (img.length < imgTotal img) then some (stBadArg, bcFormat)
  else if tumb && ((match t with | some t => !(imgTarget img).testBit t.val | none => false)
      || decide (2048 < imgProgWords img) || !imgDataFits img) then some (stBadArg, bcFormat)
  else if sha256 (imgPayload img) ≠ slice img 40 32 then some (stSigFail, bcSigFail)
  else if tawell && !imgSigned img 0 good then some (stSigFail, bcSigFail)
  else
    match (if !tawell || s.flag FUSE.FUSE_STAT_OWNER_COSIGN then ownerCheck img good s else none) with
    | some e => some e
    | none =>
      if tawell && decide (imgSecver img < s.get FUSE.FUSE_STAT_ARB) then some (stRollback, bcRollback)
      else if imgDebugOnly img && !bit (s.get BOOT.DBG_STAT_SCOPE) (if tumb then 1 else 2) then some (stDenied, bcFormat)
      else none

/-! ## Measurements (R655, R656) -/

/-- The measurement of a verified image: KIND, Tumbler, PROG_ID, VERSION and the SHA-256 of its header. -/
def measurement (img : List Nat) (t : Nat) : List Nat :=
  [imgKind img, t] ++ slice img 8 4 ++ [0, 0] ++ sha256 (slice img 0 128)

/-- Measurement i is replaced. -/
def measure (i : Fin 38) (img : List Nat) (t : Nat) (s : State) : State := s.put (BOOT.hMeas i) (ofLe (measurement img t))

/-- The place of a context's measurement. -/
def measPlace (t : Fin 18) (x : Fin 2) : Fin 38 := Fin.ofNat 38 (2 + 18 * x.val + t.val)

/-! ## Loading a Tumbler image (R648, R574) -/

/-- Word i of an image's payload; a word past the payload is open (log entry 82). -/
def payloadWord (img : List Nat) (i : Nat) (s : State) : Nat × State :=
  if 8 * i + 8 ≤ imgPayloadLen img then (ofLe (slice (imgPayload img) (8 * i) 8), s) else s.draw 64

/-- A word of the payload stored in a memory of the Tumbler. -/
def loadWord (img : List Nat) (i : Nat) (l : Loc) (s : State) : State :=
  let r := payloadWord img i s
  r.2.store l r.1

/-- The load into a context's partition begins: its measurement is cleared with VALID (R560, R656). -/
def imageBegin (t : Fin 18) (x : Fin 2) (s : State) : State := (tumbLoadStart t x s).put (BOOT.hMeas (measPlace t x)) 0

/-- A verified image is loaded into the partition of context x of Tumbler t (R648). -/
def imageLoad (t : Fin 18) (x : Fin 2) (img : List Nat) (s : State) : State :=
  let s := forN 2048 (fun i s =>
    let l := tumbProg t (2048 * x.val + i)
    if i < imgProgWords img then loadWord img i l s else s.store l 0) s
  let s := forN (imgDataWords img) (fun i s => loadWord img (imgProgWords img + i) (tumbData t (imgDataBase img + i)) s) s
  let s := measure (measPlace t x) img t.val (tumbLoaded t x (imgProg img) (imgVersion img) s)
  let s := if x = 0 then s.put (TUMB.hSec t) (imgSecver img) else s
  postEvent evcImageLoaded ([t.val, x.val] ++ slice img 8 4) s

/-! ## Flash copies (R641, R642) -/

/-- A kind of image copy: its bases A and B, and its size. -/
structure CopyKind where
  baseA : Nat
  baseB : Nat
  size : Nat
  deriving DecidableEq, Repr

def copyStage1 : CopyKind := ⟨0x000_0000, 0x004_0000, 0x4_0000⟩
def copyFirmware : CopyKind := ⟨0x008_0000, 0x048_0000, 0x40_0000⟩
def copyCore : CopyKind := ⟨0x088_0000, 0x098_0000, 0x10_0000⟩

/-- A copy whose trailer is valid (R642). -/
structure Candidate where
  copyB : Bool
  base : Nat
  seq : Nat
  len : Nat
  deriving DecidableEq, Repr

/-- MAGIC of a trailer. -/
def trailerMagic : List Nat := [0x54, 0x57, 0x53, 0x4C]

/-- The trailer of a copy (R642). -/
def trailerBytes (seq len : Nat) : List Nat :=
  let b := trailerMagic ++ leBytes 4 seq ++ leBytes 4 len
  b ++ leBytes 4 (crc32c b)

/-- A copy, if it is a candidate. -/
def candidate (k : CopyKind) (copyB : Bool) (s : State) : Option Candidate :=
  let base := if copyB then k.baseB else k.baseA
  let t := s.getList (flashKey (base + k.size - 16)) 16
  let seq := ofLe (slice t 4 4)
  let len := ofLe (slice t 8 4)
  if t = trailerBytes seq len then some ⟨copyB, base, seq, len⟩ else none

/-- The copyCandidates of a kind in the order in which they are tried: the larger SEQ first, A on equal SEQ. -/
def copyCandidates (k : CopyKind) (s : State) : List Candidate :=
  match candidate k false s, candidate k true s with
  | some a, some b => if a.seq < b.seq then [b, a] else [a, b]
  | some a, none => [a]
  | none, some b => [b]
  | none, none => []

/-- The content of a candidate. -/
def content (x : Candidate) (s : State) : List Nat := s.getList (flashKey x.base) x.len

/-- The images of a concatenation with their offsets, up to the first place without MAGIC; what is left there, if
anything. -/
def splitImages : Nat → Nat → List Nat → List (Nat × List Nat) × List Nat
  | 0, _, l => ([], l)
  | n + 1, o, l =>
    if imgMagic l && decide (imgTotal l ≤ l.length) then
      let r := splitImages n (o + imgTotal l) (l.drop (imgTotal l))
      ((o, l.take (imgTotal l)) :: r.1, r.2)
    else ([], l)

/-- The images of a concatenation. -/
def imagesOf (l : List Nat) : List (Nat × List Nat) × List Nat := splitImages (l.length / 128 + 1) 0 l

/-- The boot cause with which a content fails as a concatenation of CORE images; none where every image passes. -/
def coreFault (l : List Nat) (good : Nat → Nat → Bool) (s : State) : Option (Nat × Nat) :=
  let r := imagesOf l
  if r.1 = [] || r.2 ≠ [] then some (stBadArg, bcFormat)
  else (r.1.findSome? fun y => verifyImage y.2 (imgTotal y.2) ikCore none (good y.1) s)

/-- The boot cause with which a candidate fails; none where it passes. `good a j` says that signature block j of the image
at flash address a verifies. -/
def copyFault (k : CopyKind) (kind : Nat) (x : Candidate) (good : Nat → Nat → Bool) (s : State) : Option Nat :=
  if k.size - 16 < x.len then some bcFormat
  else if kind = ikCore then (coreFault (content x s) (fun o => good (x.base + o)) s).map (fun e => e.2)
  else (verifyImage (content x s) x.len kind none (good x.base) s).map (fun e => e.2)

/-- The last fault found (R660). -/
def bootCause (cause : Nat) (s : State) : State := s.put BOOT.BOOT_STAT_CAUSE cause

/-- The copyCandidates tried in order: the first that passes, and the state with the cause of every one that failed
(R642). -/
def tryCopies (k : CopyKind) (kind : Nat) (good : Nat → Nat → Bool) : List Candidate → State → Option Candidate × State
  | [], s => (none, s)
  | x :: l, s =>
    match copyFault k kind x good s with
    | none => (some x, s)
    | some cause => tryCopies k kind good l (bootCause cause s)

/-- The copies of a kind are tried; without a candidate the fault is NO_IMAGE, without an answer FLASH (R650, R660). -/
def selectCopy (k : CopyKind) (kind : Nat) (good : Nat → Nat → Bool) (flash : Bool) (s : State) : Option Candidate × State :=
  if !flash then (none, bootCause bcFlash s)
  else if copyCandidates k s = [] then (none, bootCause bcNoImage s)
  else tryCopies k kind good (copyCandidates k s) s

/-! ## Identity, KEK0 and the certificate (R652 to R654) -/

/-- "mn1632 " in ASCII. -/
def labelMn : List Nat := [0x6D, 0x6E, 0x31, 0x36, 0x33, 0x32, 0x20]

def identitySeed (s : State) : List Nat := leBytes 32 (s.get FUSE.hIdSeed)

/-- The first 16 bytes of SHA-256 over a label and IDENTITY_SEED (R652). -/
def idValue (label : List Nat) (s : State) : List Nat := (sha256 (labelMn ++ label ++ identitySeed s)).take 16

def idSkSeed (s : State) : List Nat := idValue [0x73, 0x6B, 0x2E, 0x73, 0x65, 0x65, 0x64] s
def idSkPrf (s : State) : List Nat := idValue [0x73, 0x6B, 0x2E, 0x70, 0x72, 0x66] s
def idPkSeed (s : State) : List Nat := idValue [0x70, 0x6B, 0x2E, 0x73, 0x65, 0x65, 0x64] s

/-- ID_PK: PK.seed, then PK.root (R652, FIPS 205). -/
def idPk (s : State) : List Nat := idPkSeed s ++ beBytes 16 (s.get BOOT.hIdRoot)

/-- KEK0 (R654). -/
def kek0 (s : State) : List Nat :=
  if s.flag FUSE.FUSE_STAT_KEK_SEED_SET then
    sha256 (labelMn ++ [0x6B, 0x65, 0x6B, 0x30] ++ serialBytes s ++ leBytes 32 (s.get FUSE.hKekSeed))
  else sha256 (labelMn ++ [0x6B, 0x65, 0x6B, 0x30, 0x2D, 0x69, 0x64] ++ identitySeed s)

/-- Identity and KEK0 are derived (R649, R652, R654). -/
def deriveKeys (s : State) : State :=
  let root := Config.idRoot (ofBe (idSkSeed s)) (ofBe (idSkPrf s)) (ofBe (idPkSeed s))
  ((s.put BOOT.hIdRoot root).put (KEYWAY.hKek 0) (ofBe (kek0 s))).setBit KEYWAY.KEK_STAT 0

/-- The device certificate as it stands in flash (R641, R653). -/
def certBytes (s : State) : List Nat := s.getList (flashKey 0x0D8_0000) 7952

/-- The certificate's SERIAL and ID_PK are the device's own (R652). -/
def certMatches (s : State) : Bool := slice (certBytes s) 8 8 == serialBytes s && slice (certBytes s) 32 32 == idPk s

/-! ## Debug (R657 to R659) -/

/-- DBG_CHAL takes a new value from the entropy source (R658): a free value. -/
def newChallenge (s : State) : State := (s.putFree BOOT.DBG_CHAL_LO).putFree BOOT.DBG_CHAL_HI

/-- SCOPE takes a value (R660). -/
def setScope (v : Nat) (s : State) : State := (s.put BOOT.DBG_STAT_SCOPE v).raiseIf .boot 1 (s.get BOOT.DBG_STAT_SCOPE != v)

/-- A write of DBG_CMD (R659): LOCK closes the debug session, whose hasps are released (R58). -/
def dbgCmdEff (v : Nat) (s : State) : State := if bit v 0 then haspsLost .debug (setScope 0 s) else s

/-- LOCK (R659). -/
def execLock (m : Master) (s : State) : Out := act s fun s => writeCmd m .boot 0x05C 1 (dbgCmdEff 1) s

/-! ## The boot chain (R649 to R651) -/

/-- Stages (R660). -/
def bsRom : Nat := 0
def bsStage1 : Nat := 1
def bsFirmware : Nat := 2
def bsRunning : Nat := 3
def bsRecoveryS1 : Nat := 0xE
def bsRecoveryRom : Nat := 0xF

def bootStage (s : State) : Nat := s.get BOOT.BOOT_STAT_STAGE

/-- The running stage changes. -/
def setStage (st : Nat) (s : State) : State := (s.put BOOT.BOOT_STAT_STAGE st).raise .boot 0

/-- READY of the mailbox takes a value; READY_CHG where it changes (R635). -/
def setReady (on : Bool) (s : State) : State := (s.putB MBX.MB_STAT_READY on).raiseIf .mbox 3 (s.flag MBX.MB_STAT_READY != on)

/-- READY sets: FW_READY is sent, and STANDBY_REQ counts from now on (R633, R672). -/
def readySets (s : State) : State :=
  postEvent evcFwReady (leBytes 2 (s.get BOOT.FW_ID_VERSION)) ((setReady true s).putB PWR.hSeenReady true)

/-- BOOT_FAULT with the stage and a cause (R633, R650). -/
def bootFault (cause : Nat) (s : State) : State := postEvent evcBootFault [bootStage s, cause] (bootCause cause s)

/-- Stage 1 runs (R649): the core synthesiser is started, with XO_CFG as the ROM has it (R474). -/
def runStage1 (img : List Nat) (s : State) : State :=
  let s := measure 0 img 0 (s.put BOOT.SECVER_SECURITY_VERSION (imgSecver img))
  setStage bsStage1 ((s.put PWR.hXo (s.get TIMING0.XO_CFG_XO_IN)).putB PWR.hSynthRun true)

/-- The ROM stage ends (R649, R650). -/
def romEnds (good : Nat → Nat → Bool) (flash : Bool) (s : State) : State :=
  let s := showOwner (newChallenge (deriveKeys s))
  match selectCopy copyStage1 ikStage1 good flash s with
  | (some x, s) => runStage1 (content x s) ((s.putB BOOT.BOOT_STAT_S1_COPY x.copyB).putB (BOOT.hCopyUsed 0) true)
  | (none, s) => setStage bsRecoveryRom s

/-- Stage 1 ends (R649, R650). -/
def stage1Ends (good : Nat → Nat → Bool) (flash : Bool) (s : State) : State :=
  match selectCopy copyFirmware ikFirmware good flash s with
  | (some x, s) =>
    let img := content x s
    let s := s.putB (BOOT.hCopyUsed 1) true
    let s := ((s.putB BOOT.BOOT_STAT_FW_COPY x.copyB).put BOOT.FW_ID_PROG_ID (imgProg img)).put BOOT.FW_ID_VERSION (imgVersion img)
    setStage bsFirmware (measure 1 img 0 (s.put BOOT.SECVER_FW_SECVER (imgSecver img)))
  | (none, s) =>
    let s := setStage bsRecoveryS1 s
    readySets (bootFault (s.get BOOT.BOOT_STAT_CAUSE) s)

/-- The CORE contexts are loaded, each from the first image whose TARGET names its Tumbler (R648). -/
def loadCores (l : List Nat) (s : State) : State :=
  forFin 18 (fun t s =>
    match (imagesOf l).1.find? (fun y => (imgTarget y.2).testBit t.val) with
    | some y => imageLoad t 0 y.2 (imageBegin t 0 s)
    | none => s) s

/-- The core program copy is verified and loaded (R649, R650). -/
def coreStage (good : Nat → Nat → Bool) (flash : Bool) (s : State) : State :=
  match selectCopy copyCore ikCore good flash s with
  | (some x, s) => loadCores (content x s) ((s.putB BOOT.BOOT_STAT_CORE_COPY x.copyB).putB (BOOT.hCopyUsed 2) true)
  | (none, s) => bootFault bcCoreImage s

/-- The images of the USER store that verify; a BOOT_FAULT for every other (R650). -/
def userImages (good : Nat → Nat → Bool) (s : State) : List (List Nat) × State :=
  (imagesOf (s.getList (flashKey 0x0A8_0000) 0x10_0000)).1.foldl (fun r y =>
    match verifyImage y.2 (imgTotal y.2) ikUser none (good (0x0A8_0000 + y.1)) r.2 with
    | none => (r.1 ++ [y.2], r.2)
    | some _ => (r.1, bootFault bcUserImage r.2)) ([], s)

/-- The USER contexts are loaded from the store. -/
def userStage (good : Nat → Nat → Bool) (s : State) : State :=
  let r := userImages good s
  forFin 18 (fun t s =>
    match r.1.find? (fun img => (imgTarget img).testBit t.val) with
    | some img => imageLoad t 1 img (imageBegin t 1 s)
    | none => s) r.2

/-- The firmware stage ends (R649): core programs, USER images, calibration records, the certificate, the Tumbler pages,
and READY. -/
def firmwareEnds (good : Nat → Nat → Bool) (flash : Bool) (ms : Nat) (s : State) : State :=
  let s := coreStage good flash s
  let s := if flash then userStage good s else s
  let s := forFin 16 (fun c s => calLoad c flash s) s
  let s := if flash && certMatches s then s.putB BOOT.hCertOk true else bootFault bcCert s
  let s := forFin 18 (fun t s => s.putB (HDR.ENABLE (.tumb t)) true) s
  readySets (setStage bsRunning (s.put BOOT.BOOT_TIME (min ms 65535)))

/-- BOOT_STAGE_COMPLETE (R649, R650): the running stage ends. `sigs` names the signature blocks that verify, by the flash
address of their image and their place in it; `flash` says whether the flash answers; `ms` is the time since RESET_N
release. -/
def execBootStageComplete (sigs : List (Nat × Nat)) (flash : Bool) (ms : Nat) (s : State) : Out :=
  act s fun s =>
    let good (a j : Nat) : Bool := sigs.contains (a, j)
    let st := bootStage s
    if st = bsRom then romEnds good flash s
    else if st = bsStage1 then stage1Ends good flash s
    else if st = bsFirmware then firmwareEnds good flash ms s
    else s

/-! ### Recovery (R651) -/

/-- A recovery register is written: only in RECOVERY_ROM; otherwise dropped and logged (R651). -/
def rcvOnly (m : Master) (off : Nat) (eff : State → State) (s : State) : State :=
  if bootStage s = bsRecoveryRom then eff s else logErr .boot causeActiveWrite (masterId m) 0 false off s

/-- A write of RCV_ADDR: a multiple of 4. -/
def rcvAddrEff (m : Master) (v : Nat) (s : State) : State := rcvOnly m 0x060 (fun s => s.put BOOT.RCV_ADDR (v / 4 * 4)) s

/-- A write of RCV_DATA: four bytes into the staging SRAM, region H4; RCV_ADDR moves on. -/
def rcvDataEff (m : Master) (v : Nat) (s : State) : State :=
  rcvOnly m 0x064 (fun s =>
    let a := s.get BOOT.RCV_ADDR
    (s.modify (.hub 4 (a / 8)) (fun d => setBits d (8 * (a % 8)) 32 v)).put BOOT.RCV_ADDR (a + 4)) s

/-- RCV_DATA (R651). -/
def execRcvData (m : Master) (v : Nat) (s : State) : Out := act s fun s => writeCmd m .boot 0x064 v (rcvDataEff m v) s

/-- n bytes of a memory region from byte o on, corrected. -/
def regionBytes (l : Loc) (o n : Nat) (s : State) : List Nat :=
  ((List.range ((o % 8 + n + 7) / 8)).flatMap (fun i => leBytes 8 (s.word (l.plus (o / 8 + i)))) |>.drop (o % 8)).take n

/-- A write of RCV_CMD: GO makes the ROM verify the received bytes as a STAGE1 image. -/
def rcvCmdEff (m : Master) (v : Nat) (good : Nat → Bool) (s : State) : State :=
  rcvOnly m 0x068 (fun s =>
    if bit v 0 then
      let img := regionBytes (.hub 4 0) 0 262144 s
      match verifyImage img 262144 ikStage1 none good s with
      | none => runStage1 (img.take (imgTotal img)) (s.putB BOOT.BOOT_STAT_RCV_IMAGE true)
      | some e => bootCause e.2 s
    else s) s

/-- GO (R651): `sigs` names the signature blocks of the image that verify. -/
def execGo (m : Master) (sigs : List Nat) (s : State) : Out :=
  act s fun s => writeCmd m .boot 0x068 1 (rcvCmdEff m 1 (fun j => sigs.contains j)) s

/-! ## Fuse commands (R661 to R663) -/

/-- Operations and refusal causes of FUSE_CMD (R661). -/
def fcMaster : Nat := 1
def fcSlotUsed : Nat := 2
def fcArbHigh : Nat := 3
def fcLastKey : Nat := 4
def fcStaging : Nat := 5
def fcBadArg : Nat := 6

/-- The 32 bytes of KEY_BUF as a number, byte 0 lowest. -/
def keyBuf (s : State) : Nat := ofLe ((List.finRange 8).flatMap fun w => leBytes 4 (s.get (FUSE.KEY_BUF w)))

/-- KEY_BUF is cleared: a command has ended. -/
def keyBufClear (s : State) : State := forFin 8 (fun w s => s.put (FUSE.KEY_BUF w) 0) s

/-- The lowest SECURITY_VERSION of the images of a content, if it holds any. -/
def contentSecver (kind : Nat) (l : List Nat) : List Nat :=
  if kind = ikCore then (imagesOf l).1.map (fun y => imgSecver y.2) else [imgSecver l]

/-- SECURITY_VERSIONs of the Tawell images that run, and of the copies that R642 would select at the next RESET_N (R662): the
first candidate of each kind that fails no check of R646, its signatures being taken as good (log entry 109). -/
def secversNow (s : State) : List Nat :=
  let boot := if bootStage s = bsRom || bootStage s = bsRecoveryRom then [] else [s.get BOOT.SECVER_SECURITY_VERSION]
  let fw := if bootStage s = bsFirmware || bootStage s = bsRunning then [s.get BOOT.SECVER_FW_SECVER] else []
  let cores := ((List.finRange 18).filter fun t => s.flag (TUMB.TUMB_STAT_VALID_C t)).map fun t => s.get (TUMB.hSec t)
  let first (k : CopyKind) (kind : Nat) : List Nat :=
    match (copyCandidates k s).find? fun x => (copyFault k kind x (fun _ _ => true) s).isNone with
    | some x => contentSecver kind (content x s)
    | none => []
  List.flatten [boot, fw, cores, first copyStage1 ikStage1, first copyFirmware ikFirmware, first copyCore ikCore]

/-- The mailbox runs STAGE_FIRMWARE. -/
def staging (s : State) : Bool := (s.flag MBX.MB_STAT_BUSY || s.flag MBOX.hDiscard) && s.get MBOX.hOp == 0x11 && !s.flag MBOX.hDone

/-- The refusal of a fuse command, if any (R662). -/
def fuseRefusal (m : Master) (op arg : Nat) (s : State) : Option Nat :=
  let k : Fin 2 := Fin.ofNat 2 arg
  if m ≠ .pcie || !s.holds .pcie (.page .fuse) then some fcMaster
  else if op = 1 then
    if 1 < arg then some fcBadArg
    else if s.flag (FUSE.hOwnProg k) || ownerDamaged k s then some fcSlotUsed
    else none
  else if op = 2 then
    if 1 < arg then some fcBadArg
    else if ownerValid k s && !ownerValid (1 - k) s && s.flag FUSE.FUSE_STAT_OWNER_COSIGN then some fcLastKey
    else none
  else if op = 3 then
    if 64 < arg then some fcBadArg
    else if s.get FUSE.FUSE_STAT_ARB < arg then
      if (secversNow s).any (fun v => decide (v < arg)) then some fcArbHigh
      else if staging s then some fcStaging
      else none
    else none
  else if op = 4 then if s.flag FUSE.FUSE_STAT_KEK_SEED_SET then some fcSlotUsed else none
  else if op = 5 then if ownerInUse s = none then some fcLastKey else none
  else none

/-- A write of FUSE_CMD (R661, R662). -/
def fuseCmdEff (m : Master) (v : Nat) (s : State) : State :=
  let op := bits v 28 4
  let arg := bits v 0 8
  if op = 0 then s
  else if s.flag FUSE.FUSE_STAT_BUSY then logErr .fuse causeActiveWrite (masterId m) 0 false 0x044 s
  else
    match fuseRefusal m op arg s with
    | some cause => keyBufClear (((s.put FUSE.FUSE_STAT_RESULT 2).put FUSE.FUSE_STAT_CAUSE cause).raise .fuse 1)
    | none =>
      if 6 < op then s
      else ((((s.putB FUSE.FUSE_STAT_BUSY true).put FUSE.FUSE_STAT_RESULT 0).put FUSE.FUSE_STAT_CAUSE 0).put FUSE.hOp op).put
        FUSE.hArg arg

/-- A fuse command of master m. -/
def fuseCmd (m : Master) (op arg : Nat) (s : State) : State :=
  writeCmd m .fuse 0x044 (op * 2 ^ 28 + arg) (fuseCmdEff m (op * 2 ^ 28 + arg)) s

/-- PROGRAM_OWNER (R662). -/
def execProgramOwner (m : Master) (arg : Fin 256) (s : State) : Out := act s (fuseCmd m 1 arg.val)
/-- REVOKE_OWNER (R662). -/
def execRevokeOwner (m : Master) (arg : Fin 256) (s : State) : Out := act s (fuseCmd m 2 arg.val)
/-- ADVANCE_ARB (R662). -/
def execAdvanceArb (m : Master) (arg : Fin 256) (s : State) : Out := act s (fuseCmd m 3 arg.val)
/-- PROGRAM_KEK_SEED (R662). -/
def execProgramKekSeed (m : Master) (s : State) : Out := act s (fuseCmd m 4 0)
/-- SET_COSIGN (R662). -/
def execSetCosign (m : Master) (s : State) : Out := act s (fuseCmd m 5 0)
/-- DISABLE_DEBUG (R662). -/
def execDisableDebug (m : Master) (s : State) : Out := act s (fuseCmd m 6 0)

/-- Key fuses of owner slot k are blown: bits only rise. -/
def blowOwner (k : Fin 2) (key : Nat) (s : State) : State :=
  forFin 8 (fun w s => s.put (FUSE.OWNER_PK k w) (s.get (FUSE.OWNER_PK k w) ||| bits key (32 * w.val) 32)) s

/-- The fuses that a completed command has blown (R662, R663). -/
def fuseBlown (s : State) : State :=
  let op := s.get FUSE.hOp
  let arg := s.get FUSE.hArg
  let k : Fin 2 := Fin.ofNat 2 arg
  if op = 1 then
    let s := blowOwner k (keyBuf s) s
    (s.put (FUSE.hOwnCrc k) (crc16 (ownerKey k s))).putB (FUSE.hOwnProg k) true
  else if op = 2 then s.setBit FUSE.FUSE_STAT_REVOKE k.val
  else if op = 3 then s.put FUSE.FUSE_STAT_ARB (max (s.get FUSE.FUSE_STAT_ARB) arg)
  else if op = 4 then (s.put FUSE.hKekSeed (s.get FUSE.hKekSeed ||| keyBuf s)).putB FUSE.FUSE_STAT_KEK_SEED_SET true
  else if op = 5 then s.putB FUSE.FUSE_STAT_OWNER_COSIGN true
  else s.putB FUSE.FUSE_STAT_DEBUG_DISABLE true

/-- FUSE_CMD_DONE (R663). -/
def execFuseCmdDone (s : State) : Out :=
  act s fun s =>
    if s.flag FUSE.FUSE_STAT_BUSY then
      let s := showOwner (fuseBlown s)
      keyBufClear (((s.putB FUSE.FUSE_STAT_BUSY false).put FUSE.FUSE_STAT_RESULT 1).raise .fuse 0)
    else s

/-- A reset cuts a fuse command short (R663): a damaged slot, an unprogrammed KEK_SEED, or an ARB value between the old one
and ARG. Which key bits are blown, and whether a single bit is, are free values. -/
def fuseCut (s : State) : State :=
  if s.flag FUSE.FUSE_STAT_BUSY then
    let op := s.get FUSE.hOp
    let arg := s.get FUSE.hArg
    let k : Fin 2 := Fin.ofNat 2 arg
    let key := keyBuf s
    let r := s.draw 256
    let part := if key &&& r.1 = 0 then key else key &&& r.1
    let s := r.2
    if op = 1 then (blowOwner k part s).putFree (FUSE.hOwnCrc k)
    else if op = 2 then if bit r.1 0 then s.setBit FUSE.FUSE_STAT_REVOKE k.val else s
    else if op = 3 then
      let old := s.get FUSE.FUSE_STAT_ARB
      if old < arg then s.put FUSE.FUSE_STAT_ARB (old + r.1 % (arg - old + 1)) else s
    else if op = 4 then s.put FUSE.hKekSeed (s.get FUSE.hKekSeed ||| (key &&& r.1))
    else if op = 5 then s.putB FUSE.FUSE_STAT_OWNER_COSIGN (bit r.1 0 || s.flag FUSE.FUSE_STAT_OWNER_COSIGN)
    else s.putB FUSE.FUSE_STAT_DEBUG_DISABLE (bit r.1 0 || s.flag FUSE.FUSE_STAT_DEBUG_DISABLE)
  else s

end Sys2Proof.Machine
end

