-- ==== Sys2Proof/Machine/Mbox.lean ====
section
/-! DEFINITION. The mailbox (R628 to R633, R643, R655, R658): its exchange, and what the firmware does for each command.
A command row is the firmware's execution of the command that SUBMIT has handed over; MB_RESPONSE then makes the response
valid. -/
namespace Sys2Proof.Machine

/-! ## The exchange (R628 to R630) -/

/-- Bytes of the command in the command buffer (R629). -/
def mbCmd (o n : Nat) (s : State) : List Nat := s.getList (bar2Key (0x2_0000 + o)) n

/-- The payload of the command. -/
def mbPayload (n : Nat) (s : State) : List Nat := mbCmd 16 n s

/-- A command is in execution, whether its response is awaited or discarded. -/
def mbBusy (s : State) : Bool := s.flag MBX.MB_STAT_BUSY || s.flag MBOX.hDiscard

/-- A write of MB_DOORBELL (R630). -/
def submitEff (v : Nat) (s : State) : State :=
  if !bit v 0 then s
  else if !s.flag MBX.MB_STAT_READY || s.flag MBX.MB_STAT_BUSY || s.flag MBX.MB_STAT_RESP_VALID then s.putB MBX.MB_STAT_REJ true
  else
    let tag := ofLe (mbCmd 4 4 s)
    let op := ofLe (mbCmd 0 2 s)
    let s := ((s.putB MBX.MB_STAT_REJ false).putB MBX.MB_STAT_BUSY true).put MBX.MB_STAT_TAG tag
    if s.flag MBOX.hDiscard then ((s.putB MBOX.hNext true).put MBOX.hNextOp op).put MBOX.hNextTag tag
    else ((s.put MBOX.hOp op).put MBOX.hTag tag).putB MBOX.hDone false

/-- The command whose response is discarded has completed; one submitted since is then executed (R609, R630). -/
def discardEnds (s : State) : State :=
  let s := ((s.putB MBOX.hDiscard false).putB MBOX.hDone false)
  if s.flag MBOX.hNext then ((s.put MBOX.hOp (s.get MBOX.hNextOp)).put MBOX.hTag (s.get MBOX.hNextTag)).putB MBOX.hNext false
  else s

/-- SUBMIT (R630). -/
def execSubmit (s : State) : Out := act s (submitEff 1)

/-- A write of MB_ACK (R630). -/
def ackEff (v : Nat) (s : State) : State := if bit v 0 then s.putB MBX.MB_STAT_RESP_VALID false else s

/-- ACK (R630). -/
def execAck (s : State) : Out := act s (ackEff 1)

/-- A response in the response buffer (R629). -/
def mbWrite (op status tag : Nat) (payload : List Nat) (s : State) : State :=
  s.putList (bar2Key 0x3_0000)
    (leBytes 2 op ++ leBytes 2 status ++ leBytes 4 tag ++ leBytes 4 payload.length ++ [0, 0, 0, 0] ++ payload)

/-- Firmware has executed the command and writes its response, unless that is discarded (R609, R630). -/
def mbAnswer (status : Nat) (payload : List Nat) (s : State) : State :=
  let s := if s.flag MBOX.hDiscard then s else mbWrite (s.get MBOX.hOp) status (s.get MBOX.hTag) payload s
  s.putB MBOX.hDone true

/-- The firmware that runs serves an opcode: all of R631 when boot has completed, GET_INFO and STAGE_FIRMWARE in
RECOVERY_S1 (R650). -/
def mbServes (op : Nat) (s : State) : Bool :=
  if bootStage s = bsRunning then [0x0001, 0x0002, 0x0010, 0x0011, 0x0020, 0x0021, 0x0030].contains op
  else bootStage s == bsRecoveryS1 && (op == 0x0001 || op == 0x0011)

/-- The firmware executes the command op with a payload of n bytes: BAD_LEN for another length. -/
def mbRun (op n : Nat) (body : State → State) (s : State) : State :=
  if mbBusy s && !s.flag MBOX.hDone && s.get MBOX.hOp == op && s.flag PWR.hWard && mbServes op s then
    if ofLe (mbCmd 8 4 s) ≠ n then mbAnswer stBadLen [] s else body s
  else s

/-- MB_RESPONSE (R630): the response is made valid; an opcode that is not served is answered with BAD_OPCODE. -/
def execMbResponse (s : State) : Out :=
  act s fun s =>
    if mbBusy s && s.flag PWR.hWard && (s.flag MBOX.hDone || !mbServes (s.get MBOX.hOp) s) then
      let s := if s.flag MBOX.hDone then s else mbAnswer stBadOpcode [] s
      if s.flag MBOX.hDiscard then discardEnds s
      else
        (((s.putB MBX.MB_STAT_RESP_VALID true).putB MBX.MB_STAT_BUSY false).putB MBOX.hDone false).raise .mbox 0
    else s

/-! ## Commands (R631) -/

/-- GET_INFO (R631). The layout of its payload is the model's (log entry 83): PROG_ID, VERSION, boot stage, owner slot
or 0xFF, ARB, and the number and list of the calibration record versions accepted (R136). -/
def execGetInfo (s : State) : Out :=
  act s (mbRun 0x0001 0 fun s =>
    let slot := match ownerInUse s with | some k => k.val | none => 0xFF
    mbAnswer stOk (leBytes 2 (s.get BOOT.FW_ID_PROG_ID) ++ leBytes 2 (s.get BOOT.FW_ID_VERSION)
      ++ [bootStage s, slot, s.get FUSE.FUSE_STAT_ARB, 1] ++ leBytes 2 1) s)

/-- GET_LOG (R631, R632): the retained events from a start index, oldest first. -/
def execGetLog (s : State) : Out :=
  act s (mbRun 0x0002 4 fun s => mbAnswer stOk ((s.evtLog.drop (ofLe (mbPayload 4 s))).flatten) s)

/-- An image in the host region of quadrant 0 (R631). -/
def hostImage (off len : Nat) (s : State) : List Nat := regionBytes (.quad 0 1 0) off len s

/-- LOAD_IMAGE after the check of its arguments: `sigs` names the signature blocks that verify. -/
def loadImage (t : Fin 18) (x : Fin 2) (off len : Nat) (sigs : List Nat) (s : State) : State :=
  if tumbState t x s = tsRunning ∨ tumbState t x s = tsWaiting then mbAnswer stTargetBusy [] s
  else
    let s := imageBegin t x s
    let img := hostImage off len s
    match verifyImage img len (if x = 0 then ikCore else ikUser) (some t) (fun j => sigs.contains j) s with
    | some e => mbAnswer e.1 [] s
    | none => mbAnswer stOk [] (imageLoad t x img s)

/-- LOAD_IMAGE (R560, R574, R631, R646, R648). -/
def execLoadImage (sigs : List Nat) (s : State) : Out :=
  act s (mbRun 0x0010 12 fun s =>
    let p := mbPayload 12 s
    let t := p.getD 0 0
    let x := p.getD 1 0
    let off := ofLe (slice p 4 4)
    let len := ofLe (slice p 8 4)
    if 17 < t ∨ 1 < x ∨ slice p 2 2 ≠ [0, 0] ∨ 33554432 < off + len then mbAnswer stBadArg [] s
    else loadImage (Fin.ofNat 18 t) (Fin.ofNat 2 x) off len sigs s)

/-- The copy of a kind that is not in use, and the SEQ it takes: with none in use, copy A and 1 (R643; log entry 84). -/
def stageTarget (k : CopyKind) (i : Fin 3) (usesB : Bool) (s : State) : Nat × Nat :=
  if s.flag (BOOT.hCopyUsed i) then
    let seq := match candidate k usesB s with | some x => x.seq | none => 0
    (if usesB then k.baseA else k.baseB, seq + 1)
  else (k.baseA, 1)

/-- A region of flash is erased: an erased byte reads as one never written (log entry 85). -/
def flashErase (base size : Nat) (s : State) : State :=
  { s with mem := s.mem.filter fun c => !(decide (flashKey base ≤ c.1) && decide (c.1 < flashKey (base + size))) }

/-- The region is erased, the image written, the trailer last (R643); nothing but the erased region is left where the
flash fails. -/
def stageWrite (k : CopyKind) (i : Fin 3) (usesB : Bool) (img : List Nat) (ok : Bool) (s : State) : State :=
  let tgt := stageTarget k i usesB s
  let s := flashErase tgt.1 k.size s
  if ok then
    mbAnswer stOk [] ((s.putList (flashKey tgt.1) img).putList (flashKey (tgt.1 + k.size - 16)) (trailerBytes tgt.2 img.length))
  else mbAnswer stNvmFail [] s

/-- What STAGE_FIRMWARE does with the image of a kind. -/
def stageImage (kind : Nat) (img : List Nat) (sigs : List (Nat × Nat)) (ok : Bool) (s : State) : State :=
  let good (o j : Nat) : Bool := sigs.contains (o, j)
  let go (k : CopyKind) (i : Fin 3) (usesB : Fld) (fault : Option (Nat × Nat)) (img : List Nat) : State :=
    match fault with
    | some e => mbAnswer e.1 [] s
    | none => if k.size - 16 < img.length then mbAnswer stBadArg [] s else stageWrite k i (s.flag usesB) img ok s
  if kind = ikStage1 then
    go copyStage1 0 BOOT.BOOT_STAT_S1_COPY (verifyImage img img.length kind none (good 0) s) (img.take (imgTotal img))
  else if kind = ikFirmware then
    go copyFirmware 1 BOOT.BOOT_STAT_FW_COPY (verifyImage img img.length kind none (good 0) s) (img.take (imgTotal img))
  else if kind = ikCore then go copyCore 2 BOOT.BOOT_STAT_CORE_COPY (coreFault img good s) img
  else mbAnswer stBadArg [] s

/-- STAGE_FIRMWARE (R643): `sigs` names the signature blocks that verify, by the offset of their image and their place in
it; `ok` says whether the flash takes the copy. -/
def execStageFirmware (sigs : List (Nat × Nat)) (ok : Bool) (s : State) : Out :=
  act s (mbRun 0x0011 8 fun s =>
    let p := mbPayload 8 s
    let off := ofLe (slice p 0 4)
    let len := ofLe (slice p 4 4)
    if 33554432 < off + len then mbAnswer stBadArg [] s
    else
      let img := hostImage off len s
      stageImage (imgKind img) img sigs ok s)

/-- The body of an attestation report (R655). -/
def reportBody (nonce : List Nat) (s : State) : List Nat :=
  let flags := mask 6 fun i =>
    [s.get BOOT.DBG_STAT_SCOPE != 0, s.flag BOOT.DBG_STAT_EVER, s.flag TIMING0.DPLL_STAT_TIME_VALID,
      s.flag FUSE.FUSE_STAT_OWNER_COSIGN, s.flag BOOT.BOOT_STAT_RCV_IMAGE, s.flag FUSE.FUSE_STAT_KEK_SEED_SET].getD i false
  let owner := match ownerInUse s with
    | some k => (k.val, ownerKey k s)
    | none => (0xFF, List.replicate 32 0)
  [0x54, 0x57, 0x41, 0x52] ++ leBytes 2 1 ++ leBytes 2 flags ++ serialBytes s ++ nonce ++ leBytes 8 s.time.sec
    ++ leBytes 4 s.time.ns ++ [s.get FUSE.FUSE_STAT_ARB, s.get FUSE.FUSE_STAT_REVOKE, owner.1, 0] ++ idPk s ++ owner.2
    ++ (List.finRange 38).flatMap (fun i => leBytes 40 (s.get (BOOT.hMeas i)))

/-- ATTEST (R655): the body and its signature by the identity key, which is a free value (log entry 86). -/
def execAttest (s : State) : Out :=
  act s (mbRun 0x0020 32 fun s =>
    let body := reportBody (mbPayload 32 s) s
    let sig := s.draw (8 * 17088)
    mbAnswer stOk (body ++ leBytes 17088 sig.1) sig.2)

/-- GET_CERT (R652). -/
def execGetCert (s : State) : Out :=
  act s (mbRun 0x0021 0 fun s => if s.flag BOOT.hCertOk then mbAnswer stOk (certBytes s) s else mbAnswer stNvmFail [] s)

/-- A key slot of a token is none of the three, or an owner slot that is not valid (R658). -/
def tokenSlotBad (slot : Nat) (s : State) : Bool :=
  match slot with
  | 0 => false
  | 1 => !ownerValid 0 s
  | 2 => !ownerValid 1 s
  | _ => true

/-- The scopes a token names are unlocked; before WARD the Keyway is zeroised (R658, R659). -/
def unlockScopes (scope : Nat) (s : State) : State :=
  let s := if bit scope 2 then keywayZero true s else s
  let s := if scope = 0 then s else s.putB BOOT.DBG_STAT_EVER true
  setScope (s.get BOOT.DBG_STAT_SCOPE ||| scope) s

/-- DEBUG_UNLOCK (R658): `sig` says whether the token's signature verifies. -/
def execDebugUnlock (sig : Bool) (s : State) : Out :=
  act s (mbRun 0x0030 7888 fun s =>
    let p := mbPayload 32 s
    let scope := p.getD 6 0 % 8
    let slot := p.getD 7 0
    let chal := leBytes 4 (s.get BOOT.DBG_CHAL_LO) ++ leBytes 4 (s.get BOOT.DBG_CHAL_HI)
    let done (status : Nat) (s : State) : State := newChallenge (mbAnswer status [] s)
    if slice p 0 6 ≠ [0x54, 0x57, 0x44, 0x54, 1, 0] ∨ slice p 24 8 ≠ List.replicate 8 0 then done stBadArg s
    else if s.flag FUSE.FUSE_STAT_DEBUG_DISABLE || slice p 8 8 != serialBytes s || slice p 16 8 != chal || tokenSlotBad slot s
        || (bit scope 2 && slot != 0) then done stDenied s
    else if !sig then done stSigFail s
    else done stOk (unlockScopes scope s))

/-! ## Ward resets (R58, R630) -/

/-- WARD_CORE_RESET (R58, R59, R630): the core's hasps are released and its writes discarded, WARD_EXCEPTION is reported,
the heaters it owned fail safe (R598), and a command in execution on Ward0 is lost. -/
def execWardCoreReset (n : Fin 2) (cause addr : Nat) (s : State) : Out :=
  act s fun s =>
    if !s.flag PWR.hWard then s
    else
      let s := htrOwnerLost (masterId (.ward n)) (masterFails (.ward n) s)
      let s := postEvent evcWardException ([n.val] ++ leBytes 4 cause ++ leBytes 8 addr) s
      if n = 0 && mbBusy s then
        let s := readySets (setReady false s)
        let s := if s.flag MBOX.hDiscard then discardEnds s else s
        if !s.flag MBX.MB_STAT_BUSY then s.putB MBOX.hDone false
        else
          let s := mbWrite (s.get MBOX.hOp) stFwRestart (s.get MBOX.hTag) [] s
          (((s.putB MBX.MB_STAT_RESP_VALID true).putB MBX.MB_STAT_BUSY false).putB MBOX.hDone false).raise .mbox 0
      else s

end Sys2Proof.Machine
end

