-- ==== Sys2Proof/Machine/Mem.lean ====
section
/-! DEFINITION. The commands of chapter 14: initialisation (R527), buckets (R536, R537), ECC test mode and the indirect
DRAM access (R532 to R535), the scrubbers (R543 to R546), the DRAM channel arbiter (R548 to R552) and what retention
does to the memories (R553 to R555). A report domain `d` is a quadrant for d below 4, and the hub die for d = 4. -/
namespace Sys2Proof.Machine

/-! ## Regions -/

/-- The words of region r of a quadrant, and of region Hr of the hub (R526); 0 where the hub has no such region. -/
def regionWords (d : Fin 5) (r : Fin 16) : Nat :=
  if d.val < 4 then
    ([8388608, 4194304, 65536, 65536, 131072, 29184, 5120, 524288, 42096, 42096, 42096, 42096, 8192, 8192, 8192, 8192]
      : List Nat).getD r.val 0
  else ([10696, 8192, 8192, 524288, 32768, 4096] : List Nat).getD r.val 0

/-- Word w of region r of a report domain. -/
def regionLoc (d : Fin 5) (r : Fin 16) (w : Nat) : Loc :=
  if d.val < 4 then .quad (Fin.ofNat 4 d.val) r w else .hub (Fin.ofNat 6 r.val) w

/-- The page of a report domain (R556, R557). -/
def memPage (d : Fin 5) : Page := if d.val < 4 then .mem (Fin.ofNat 4 d.val) else .hubctl

/-- The fields of a region's scrubber and bucket timer. -/
structure ScrubFlds where
  pos : Fld
  laps : Fld
  slow : Fld
  time : Fld
  ticks : Fld
  leak : Fld
  leakTicks : Fld

def scrubFlds (d : Fin 5) (r : Fin 16) : ScrubFlds :=
  if d.val < 4 then
    let q : Fin 4 := Fin.ofNat 4 d.val
    ⟨MEM.SCRUB_POS q r, MEM.LAP_STAT_LAPS q r, MEM.LAP_STAT_LAP_SLOW q r, MEM.LAP_TIME q r, MEM.hLapTicks q r, MEM.hLeak q r,
      MEM.BKT_CFG_LEAK_TICKS q r⟩
  else
    let r : Fin 6 := Fin.ofNat 6 r.val
    ⟨HUBCTL.SCRUB_POS r, HUBCTL.LAP_STAT_LAPS r, HUBCTL.LAP_STAT_LAP_SLOW r, HUBCTL.LAP_TIME r, HUBCTL.hLapTicks r,
      HUBCTL.hLeak r, HUBCTL.BKT_CFG_LEAK_TICKS r⟩

/-- PACE, where 0 acts as 1, and EN of SCRUB_CFG (R543, R556). -/
def scrubPace (d : Fin 5) (s : State) : Nat :=
  max 1 (if d.val < 4 then s.get (MEM.SCRUB_CFG_PACE (Fin.ofNat 4 d.val)) else s.get HUBCTL.SCRUB_CFG_PACE)
def scrubEn (d : Fin 5) (s : State) : Bool :=
  if d.val < 4 then s.flag (MEM.SCRUB_CFG_EN (Fin.ofNat 4 d.val)) else s.flag HUBCTL.SCRUB_CFG_EN

/-- The quadrant or the device is awake. -/
def memAwake (d : Fin 5) (s : State) : Bool :=
  s.get PWR.PWR_STAT_DEV_STATE == 0 && (decide (4 ≤ d.val) || qState (Fin.ofNat 4 d.val) s == 0)

/-- The scrubbers of a domain run (R543, R546): LAP_STAT.ACTIVE. -/
def scrubRuns (d : Fin 5) (s : State) : Bool :=
  s.flag (HDR.ENABLE (memPage d)) && scrubEn d s && memAwake d s && !s.flag (HDR.RESET_BUSY (memPage d))

/-- The scrubbers of a domain have stopped: each starts a new lap at word 0 (R546). -/
def scrubStop (d : Fin 5) (s : State) : State :=
  forFin 16 (fun r s => (s.put (scrubFlds d r).pos 0).put (scrubFlds d r).ticks 0) s

/-- The region scrubber is behind pace at some time before the next tick (R543). -/
def scrubBehind (d : Fin 5) (r : Fin 16) (s : State) : Bool :=
  let f := scrubFlds d r
  decide (s.get f.pos * scrubPace d s < regionWords d r * (s.get f.ticks + 1))

/-- The end of a lap (R545). -/
def lapEnd (d : Fin 5) (r : Fin 16) (s : State) : State :=
  let f := scrubFlds d r
  let t := s.get f.ticks
  let slow := decide (2 * scrubPace d s < t)
  let s := ((s.incStick f.laps 1).put f.time (min t 0xFFFFFF)).putB f.slow slow
  ((s.raiseIf (memPage d) 2 slow).put f.pos 0).put f.ticks 0

/-- The word that the scrubber reads: corrected and written back, or counted and left (R544); a context word that cannot
be corrected faults its context (R406). -/
def scrubWord (d : Fin 5) (r : Fin 16) (w : Nat) (s : State) : State :=
  let l := regionLoc d r w
  match s.readWord l true with
  | (.ok, _, s) => s
  | (.ce, v, s) => s.store l v
  | (.ue, _, s) => if d.val < 4 ∧ r = 2 then ctxFault (Fin.ofNat 4 d.val) (Fin.ofNat 4096 (w / 16)) s else s

/-- SCRUB_READ (R543 to R545): the scrubber of region r reads its next word, which ends a lap after the last. -/
def execScrubRead (d : Fin 5) (r : Fin 16) (s : State) : Out :=
  act s fun s =>
    let f := scrubFlds d r
    if scrubRuns d s && !s.flag (HDR.FREEZE (memPage d)) && scrubBehind d r s then
      let w := s.get f.pos
      let s := scrubWord d r w s
      if w + 1 < regionWords d r then s.put f.pos (w + 1) else lapEnd d r s
    else s

/-- BUCKET_LEAK (R536): LEAK_TICKS ticks have passed. -/
def execBucketLeak (d : Fin 5) (r : Fin 16) (s : State) : Out :=
  act s fun s =>
    let f := scrubFlds d r
    let l := regionLoc d r 0
    if regionWords d r ≠ 0 ∧ s.get f.leakTicks ≠ 0 ∧ s.get f.leakTicks ≤ s.get f.leak then
      bucketOver l ((s.put f.leak 0).put l.level (s.get l.level - 1))
    else s

/-- What a tick counts for the memories of a domain: the lap of every running scrubber, and the time to the next leak. -/
def memTick (d : Fin 5) (s : State) : State :=
  let on := scrubRuns d s && !s.flag (HDR.FREEZE (memPage d))
  forFin 16 (fun r s =>
    if regionWords d r = 0 then s
    else
      let f := scrubFlds d r
      let s := if on then s.incStick f.ticks 1 else s
      s.put f.leak (min 65535 (s.get f.leak + 1))) s

/-- A write of BKT_CFG of region r judges OVER again (R537). -/
def bktCfgEff (d : Fin 5) (r : Fin 16) (v : Nat) (s : State) : State :=
  let l := regionLoc d r 0
  bucketOver l ((s.put (scrubFlds d r).leakTicks (bits v 16 16)).put l.thr (bits v 0 16))

/-- A write of SCRUB_CFG: EN written 0 stops the scrubbers (R546). -/
def scrubCfgEff (d : Fin 5) (v : Nat) (s : State) : State :=
  let s := if d.val < 4 then
      (s.put (MEM.SCRUB_CFG_EN (Fin.ofNat 4 d.val)) (bits v 31 1)).put (MEM.SCRUB_CFG_PACE (Fin.ofNat 4 d.val)) (bits v 0 24)
    else (s.put HUBCTL.SCRUB_CFG_EN (bits v 31 1)).put HUBCTL.SCRUB_CFG_PACE (bits v 0 24)
  if bit v 31 then s else scrubStop d s

/-- OVER of every region of a domain, as STATUS.BLOCK_STATE and MEM_STAT show it (R556). -/
def overBits (d : Fin 5) (s : State) : Nat :=
  mask 16 (fun r => decide (regionWords d (Fin.ofNat 16 r) ≠ 0) && s.flag (regionLoc d (Fin.ofNat 16 r) 0).over)

/-- A write of 1 to UE_LOG.VALID clears the record (R556). -/
def ueLogEff (d : Fin 5) (v : Nat) (s : State) : State :=
  let l := regionLoc d 0 0
  let g := l.ueLog
  if bit v 31 then
    (((((s.putB g.valid false).putB l.ueOverrun false).putB g.scrub false).put g.region 0).put g.syndrome 0).put g.addr 0
  else s

/-! ## Initialisation (R527) -/

/-- MEMORY_INIT_DONE (R527): the DRAM tier of quadrant q is all zero with valid check bits. -/
def execMemoryInitDone (q : Fin 4) (s : State) : Out :=
  act s fun s =>
    if memAwake (Fin.ofNat 5 q.val) s && !s.flag (MEM.MEM_STAT_INIT_DONE q) then
      (((s.zeroRange (.quad q 0 0) 8388608).zeroRange (.quad q 1 0) 4194304)).putB (MEM.MEM_STAT_INIT_DONE q) true
    else s

/-! ## ECC test mode (R532 to R535) -/

/-- The owner of the page's hasp alone may do this; another master's write is dropped and logged (R532). -/
def ownerOnly (m : Master) (p : Page) (off : Nat) (eff : State → State) (s : State) : State :=
  if s.holds m (.page p) then eff s
  else logErr p causeHaspDrop (masterId m) (if s.flag (HDR.HASP_HELD p) then s.get (HDR.HASP_OWNER p) else 0) false off s

/-- A write of ECC_TEST (R532, R533). -/
def eccTestEff (m : Master) (d : Fin 5) (v : Nat) (s : State) : State :=
  let l := regionLoc d 0 0
  ownerOnly m (memPage d) (if d.val < 4 then 0x054 else 0x194) (fun s =>
    let s := (s.put (eccRaw l) (bits v 31 1)).put (eccChk l) (bits v 0 8)
    if bit v 30 then s.putB (eccArm l) true else s) s

/-- ECC_TEST_WRITE (R532). -/
def execEccTestWrite (m : Master) (d : Fin 5) (v : Nat) (s : State) : Out :=
  act s fun s => writeCmd m (memPage d) (if d.val < 4 then 0x054 else 0x194) v (eccTestEff m d v) s

/-- A write of DR_CMD starts an operation (R535): 1 READ, 2 WRITE, 3 WRITE_RAW. -/
def drCmdEff (m : Master) (q : Fin 4) (v : Nat) (s : State) : State :=
  ownerOnly m (.mem q) 0x060 (fun s =>
    if s.flag (MEM.DR_CMD_BUSY q) || bits v 0 2 == 0 then s
    else
      let s := (s.putB (MEM.DR_CMD_BUSY q) true).put (MEM.hDrOp q) (bits v 0 2)
      let s := (s.put (MEM.hDrAddr q) (s.get (MEM.DR_ADDR q))).put (MEM.hDrChk q) (s.get (MEM.DR_CHK q))
      let s := s.put (MEM.hDrData q) (s.get (MEM.DR_DATA_HI q) * 2 ^ 32 + s.get (MEM.DR_DATA_LO q))
      s.put (MEM.hDrRaw q) (s.get (MEM.ECC_TEST_RAW q))) s

/-- READ. -/
def execRead (m : Master) (q : Fin 4) (s : State) : Out := act s fun s => writeCmd m (.mem q) 0x060 1 (drCmdEff m q 1) s
/-- WRITE. -/
def execWrite (m : Master) (q : Fin 4) (s : State) : Out := act s fun s => writeCmd m (.mem q) 0x060 2 (drCmdEff m q 2) s
/-- WRITE_RAW. -/
def execWriteRaw (m : Master) (q : Fin 4) (s : State) : Out := act s fun s => writeCmd m (.mem q) 0x060 3 (drCmdEff m q 3) s

/-- A tier word of quadrant q (R526); none above the tier. -/
def tierWord (q : Fin 4) (w : Nat) : Option Loc :=
  if w < 8388608 then some (.quad q 0 w) else if w < 12582912 then some (.quad q 1 (w - 8388608)) else none

/-- DR_DATA takes a word. -/
def drData (q : Fin 4) (v : Nat) (s : State) : State := (s.put (MEM.DR_DATA_LO q) v).put (MEM.DR_DATA_HI q) (v / 2 ^ 32)

/-- The operation itself (R535); a word address above the tier leads nowhere, and a READ there gives a free value. -/
def drOperate (q : Fin 4) (s : State) : State :=
  match s.get (MEM.hDrOp q), tierWord q (s.get (MEM.hDrAddr q)) with
  | 1, some l =>
    if s.flag (MEM.hDrRaw q) then ((drData q (s.rawData l) s).put (MEM.DR_CHK q) (s.rawCheck l)).putB (MEM.DR_CMD_UE q) false
    else
      match s.readWord l false with
      | (.ue, _, s) => (drData q (2 ^ 64 - 1) s).putB (MEM.DR_CMD_UE q) true
      | (_, v, s) => (drData q v s).putB (MEM.DR_CMD_UE q) false
  | 1, none => ((s.putFree (MEM.DR_DATA_LO q)).putFree (MEM.DR_DATA_HI q)).putB (MEM.DR_CMD_UE q) false
  | 2, some l => s.store l (s.get (MEM.hDrData q))
  | 3, some l => s.storeRaw l (s.get (MEM.hDrData q)) (s.get (MEM.hDrChk q))
  | _, _ => s

/-- DR_DONE (R535): the indirect access completes; it waits while the tier initialises or refreshes itself (R527). -/
def execDrDone (q : Fin 4) (s : State) : Out :=
  act s fun s =>
    if s.flag (MEM.DR_CMD_BUSY q) && s.flag (MEM.MEM_STAT_INIT_DONE q) && !s.flag (MEM.MEM_STAT_SELF_REFRESH q) then
      (((drOperate q s).putB (MEM.DR_CMD_BUSY q) false).put (MEM.hDrOp q) 0).raise (.mem q) 4
    else s

/-! ## The DRAM channel arbiter (R548 to R552) -/

/-- The credit that ARB_CFG gives a client: PKT_RD, PKT_WR, DMA, SCRUB (R548). -/
def arbCredit (q : Fin 4) (k : Fin 4) (s : State) : Nat :=
  match k.val with
  | 0 => s.get (MEM.ARB_CFG0_PKT_RD q)
  | 1 => s.get (MEM.ARB_CFG0_PKT_WR q)
  | 2 => s.get (MEM.ARB_CFG1_DMA q)
  | _ => s.get (MEM.ARB_CFG1_SCRUB q)

/-- ARBITER_WINDOW (R548, R550, R552): a window of channel h starts. -/
def execArbiterWindow (q : Fin 4) (h : Fin 64) (s : State) : Out :=
  act s fun s =>
    if memAwake (Fin.ofNat 5 q.val) s then
      let s := forFin 4 (fun k s => (s.put (MEM.hCred q h k) (arbCredit q k s)).put (MEM.hWait q h k) 0) s
      s.put (MEM.hWaitMax q h) (max 1 (s.get (MEM.ARB_CFG1_WAIT_MAX q)))
    else s

/-- A client requests; it has credit left. -/
def arbReq (q : Fin 4) (h : Fin 64) (k : Fin 4) (s : State) : Bool := s.get (MEM.hFill q h k) != 0
def arbCred (q : Fin 4) (h : Fin 64) (k : Fin 4) (s : State) : Bool := s.get (MEM.hCred q h k) != 0

/-- The client of a set with the largest fill, the first of R549's order on a tie. -/
def arbLargest (q : Fin 4) (h : Fin 64) (p : Fin 4 → Bool) (s : State) : Option (Fin 4) :=
  (List.finRange 4).foldl (fun a k =>
    if p k then
      match a with
      | some j => if s.get (MEM.hFill q h j) < s.get (MEM.hFill q h k) then some k else a
      | none => some k
    else a) none

/-- Who wins a slot (R549). -/
inductive ArbWin where
  | forcedRefresh | debug | forced (k : Fin 4) | client (k : Fin 4) | refresh | idle
  deriving DecidableEq, Repr

/-- The rules of R549. -/
def arbDecide (q : Fin 4) (h : Fin 64) (dbg : Bool) (s : State) : ArbWin :=
  let req (k : Fin 4) := arbReq q h k s
  let cred (k : Fin 4) := arbCred q h k s
  if 8 ≤ s.get (MEM.hRefresh q h) then .forcedRefresh
  else if dbg then .debug
  else match (List.finRange 4).find? (fun k => req k && cred k
      && decide (s.get (MEM.hWaitMax q h) ≤ s.get (MEM.hWait q h k))) with
    | some k => .forced k
    | none =>
      match arbLargest q h (fun k => req k && cred k) s with
      | some k => .client k
      | none =>
        match arbLargest q h (fun k => req k && !cred k) s with
        | some k => .client k
        | none => if s.get (MEM.hRefresh q h) ≠ 0 then .refresh else .idle

/-- A client wins a slot: one entry of its queue is served, and one credit debited if it has any (R549, R550). -/
def arbServe (q : Fin 4) (h : Fin 64) (k : Fin 4) (s : State) : State :=
  ((s.put (MEM.hFill q h k) (s.get (MEM.hFill q h k) - 1)).put (MEM.hCred q h k) (s.get (MEM.hCred q h k) - 1)).put
    (MEM.hWait q h k) 0

/-- A refresh command is issued: it occupies this slot and 63 more (R551). -/
def arbRefresh (q : Fin 4) (h : Fin 64) (s : State) : State :=
  (s.put (MEM.hRefresh q h) (s.get (MEM.hRefresh q h) - 1)).put (MEM.hRefSlots q h) 63

/-- The wait counters of a slot (R550): every client that requests, has credit left and does not win waits on. -/
def arbWaits (q : Fin 4) (h : Fin 64) (won : Option (Fin 4)) (s : State) : State :=
  forFin 4 (fun k s =>
    if won ≠ some k ∧ arbReq q h k s ∧ arbCred q h k s then s.put (MEM.hWait q h k) (min 255 (s.get (MEM.hWait q h k) + 1))
    else s) s

/-- ARBITER_SLOT (R549 to R551): a slot of channel h is granted. `arr` are the requests that arrived before it, by client,
as far as their queues of 16 have room; `dbg` — DEBUG requests. -/
def execArbiterSlot (q : Fin 4) (h : Fin 64) (arr : List Nat) (dbg : Bool) (s : State) : Out :=
  act s fun s =>
    if memAwake (Fin.ofNat 5 q.val) s then
      let s := forFin 4 (fun k s => s.put (MEM.hFill q h k) (min 16 (s.get (MEM.hFill q h k) + arr.getD k.val 0))) s
      if s.get (MEM.hRefSlots q h) ≠ 0 then arbWaits q h none (s.put (MEM.hRefSlots q h) (s.get (MEM.hRefSlots q h) - 1))
      else match arbDecide q h dbg s with
        | .forcedRefresh => arbRefresh q h ((arbWaits q h none s).incWrap (MEM.ARB_STAT_FORCED_REF q) 1)
        | .forced k => arbServe q h k ((arbWaits q h (some k) s).incWrap (MEM.ARB_STAT_FORCED q) 1)
        | .client k => arbServe q h k (arbWaits q h (some k) s)
        | .refresh => arbRefresh q h s
        | .debug | .idle => arbWaits q h none s
    else s

/-- REFRESH_DUE (R551): a refresh command falls due and is pending. -/
def execRefreshDue (q : Fin 4) (h : Fin 64) (s : State) : Out :=
  act s fun s => if memAwake (Fin.ofNat 5 q.val) s then s.incStick (MEM.hRefresh q h) 1 else s

/-- A write of ARB_CFG0 or ARB_CFG1 (R552): not applied where the four credits would exceed 1,012. -/
def arbCfgEff (q : Fin 4) (which : Fin 2) (v : Nat) (s : State) : State :=
  let t := if which = 0 then (s.put (MEM.ARB_CFG0_PKT_RD q) (bits v 16 10)).put (MEM.ARB_CFG0_PKT_WR q) (bits v 0 10)
    else ((s.put (MEM.ARB_CFG1_WAIT_MAX q) (bits v 24 8)).put (MEM.ARB_CFG1_DMA q) (bits v 8 8)).put
      (MEM.ARB_CFG1_SCRUB q) (bits v 0 8)
  if 1012 < (List.finRange 4).foldl (fun a k => a + arbCredit q k t) 0 then
    (s.putB (MEM.MEM_STAT_ARB_REJ q) true).raise (.mem q) 3
  else t.putB (MEM.MEM_STAT_ARB_REJ q) false

/-- ARB_CFG_WRITE (R552). -/
def execArbCfgWrite (m : Master) (q : Fin 4) (which : Fin 2) (v : Nat) (s : State) : Out :=
  act s fun s => writeCmd m (.mem q) (0x044 + 4 * which.val) v (arbCfgEff q which v) s

/-! ## Retention (R553 to R555) -/

/-- The memories of quadrant q on entry to retention (R553, R554): pending refreshes are issued, and the DRAM tier goes into
self-refresh or is lost; regions 3, 4 and 7 and the capture buffers are lost. -/
def memSleep (q : Fin 4) (s : State) : State :=
  let keep := s.flag (PWR.hRetain q)
  let s := scrubStop (Fin.ofNat 5 q.val) s
  let s := forFin 64 (fun h s => forFin 4 (fun k s => s.put (MEM.hFill q h k) 0)
    ((s.put (MEM.hRefresh q h) 0).put (MEM.hRefSlots q h) 0)) s
  let s := ((s.zeroRange (.quad q 3 0) 65536).zeroRange (.quad q 4 0) 131072).zeroRange (.quad q 7 0) 524288
  let s := forFin 4 (fun k s => s.zeroRange (captureWord (Fin.ofNat 16 (4 * q.val + k.val)) 0) 32768) s
  let s := { s with egress := s.egress.filter (fun f => f.q != q), segments := s.segments.filter (fun g => g.q != q),
                     segTags := s.segTags.filter (fun g => g.q != q) }
  if keep then s.putB (MEM.MEM_STAT_SELF_REFRESH q) true
  else (((s.zeroRange (.quad q 0 0) 8388608).zeroRange (.quad q 1 0) 4194304).putB (MEM.MEM_STAT_INIT_DONE q) false).putB
    (MEM.MEM_STAT_RETAINED q) false

/-- Word 5 of a context holds the level of its queue: emptied on wake (R555). -/
def queueLost (q : Fin 4) (x : Fin 4096) (s : State) : State :=
  let s := { s with queued := s.queued.filter (fun f => !(f.q == q && f.x == x)) }
  s.store (contextWord q x.val 5) 0

/-- The memories of quadrant q on wake (R554, R555): every channel leaves self-refresh and issues 8 refresh commands first;
the queues of Express contexts are empty, and those of the others too where the packet buffer was lost. -/
def memWake (q : Fin 4) (s : State) : State :=
  let kept := s.flag (MEM.MEM_STAT_SELF_REFRESH q)
  let lost (x : Fin 4096) : Bool := !kept || tcExpress (s.word (contextWord q x.val 0))
  let xs := (List.finRange 4096).filter (fun x => lost x && s.word (contextWord q x.val 5) != 0)
  let s := forL xs (fun x s => queueLost q x s) s
  let s := { s with queued := s.queued.filter (fun f => !(f.q == q && lost f.x)) }
  (s.putB (MEM.MEM_STAT_SELF_REFRESH q) false).putB (MEM.MEM_STAT_RETAINED q) kept

/-- A soft reset of the MEM page of quadrant q keeps what reports the memories themselves (R556): their keys. -/
def memKept (q : Fin 4) : List Fld :=
  [MEM.MEM_STAT_INIT_DONE q, MEM.MEM_STAT_SELF_REFRESH q, MEM.MEM_STAT_RETAINED q, MEM.REPAIR_DRAM_FULL q, MEM.REPAIR_DRAM_MOST q,
    MEM.REPAIR_DRAM_ROWS q, MEM.REPAIR_SRAM_FULL q, MEM.REPAIR_SRAM_COLS q]

end Sys2Proof.Machine
end

