-- ==== Sys2Proof/Machine/Power.lean ====
section
/-! DEFINITION. Power and reset (R664 to R683): the resets and what they keep, the requests, parking a carrier, the sleep
of a quadrant and STANDBY. -/
namespace Sys2Proof.Machine

/-! ## Resets -/

/-- What the fuses hold (R638, R547), and the pins and monitors that no reset touches. -/
def resetKept : List Fld :=
  [FUSE.FUSE_STAT_REVOKE, FUSE.FUSE_STAT_KEK_SEED_SET, FUSE.FUSE_STAT_OWNER_COSIGN, FUSE.FUSE_STAT_DEBUG_DISABLE,
      FUSE.FUSE_STAT_ARB, FUSE.hIdSeed, FUSE.hKekSeed, ID.SERIAL_LO, ID.SERIAL_HI, ID.REVISION_ORDER, ID.REVISION_SIREV,
      PWR.hStbyPin, PWR.hRstN, PWR.hPwrOk, PWR.hRails, PWR.RESET_CAUSE_COUNT, PWR.RESET_CAUSE_CAUSE]
    ++ (List.finRange 8).map FUSE.TAWELL_PK
    ++ (List.finRange 2).flatMap (fun k => FUSE.hOwnCrc k :: FUSE.hOwnProg k :: (List.finRange 8).map (FUSE.OWNER_PK k))
    ++ (List.finRange 4).flatMap (fun q => [MEM.REPAIR_DRAM_FULL q, MEM.REPAIR_DRAM_MOST q, MEM.REPAIR_DRAM_ROWS q,
        MEM.REPAIR_SRAM_FULL q, MEM.REPAIR_SRAM_COLS q])

/-- RESET_CAUSE codes (R683). -/
def rcPowerOn : Nat := 1
def rcResetN : Nat := 2
def rcBrownout : Nat := 3
def rcDevReset : Nat := 4

/-- The state that a reset leaves of s (R669): the fuses and the flash, RESET_CAUSE, the pins, what has been sent and the
commands that wait. -/
def resetState (s : State) : State :=
  let kept : State := { State.reset with
    inReset := true
    mem := s.mem.filter fun c => decide (flashKey 0 ≤ c.1)
    freeCtr := s.freeCtr
    sent := s.sent
    pending := s.pending }
  forL resetKept (fun f r => r.put f (s.get f)) kept

/-- The engine enters reset (R668, R669, R682), with the cause that RESET_CAUSE shows. COUNT counts the resets since
power-on; a second source during one reset is no further reset. -/
def enterReset (cause : Nat) (s : State) : State :=
  let s := if cause = rcPowerOn then s.put PWR.RESET_CAUSE_COUNT 0
    else if s.inReset then s else s.incStick PWR.RESET_CAUSE_COUNT 1
  resetState ((fuseCut s).put PWR.RESET_CAUSE_CAUSE cause)

/-- PWR_OK_RISE (R667): all nine rails are within range and PWR_OK is released. -/
def execPwrOkRise (s : State) : Out := .next (commit s.pending ((s.put PWR.hRails 0x1FF).putB PWR.hPwrOk true))

/-- PWR_OK_FALL (R667, R669): rails have left their range, `rails` being those still within it; a power-on reset where
VDD_AON is among those that left, otherwise a brown-out. -/
def execPwrOkFall (rails : Nat) (s : State) : Out :=
  if rails % 0x200 = 0x1FF then .next s
  else
    let s := (s.put PWR.hRails rails).putB PWR.hPwrOk false
    .next (enterReset (if bit rails 0 then rcBrownout else rcPowerOn) s)

/-- RESET_N_ASSERT (R668): RESET_N is low for 2 µs or more. -/
def execResetNAssert (s : State) : Out := .next (enterReset rcResetN (s.putB PWR.hRstN false))

/-- RESET_RELEASE (R610, R668): the combined reset ends and boot starts; I2C_ADDR[1:0] is sampled. -/
def execResetRelease (strap : Fin 4) (s : State) : Out :=
  if s.inReset && s.flag PWR.hPwrOk then
    .next (commit s.pending { (s.put PCIE.hStrap strap.val).putB PWR.hRstN true with inReset := false })
  else .next s

/-- A write of DEV_RESET (R670). -/
def devResetEff (m : Master) (v : Nat) (s : State) : State :=
  if bit v 0 && bits v 16 16 == 0xA55A && (m == .pcie || m == .ward 0) then enterReset rcDevReset s
  else logErr .pwr causeActiveWrite (masterId m) 0 false 0x050 s

/-- DEV_RESET (R670). -/
def execDevReset (m : Master) (key : Nat) (go : Bool) (s : State) : Out :=
  let v := 2 ^ 16 * (key % 2 ^ 16) + go.toNat
  act s fun s => writeCmd m .pwr 0x050 v (devResetEff m v) s

/-! ## Carriers -/

/-- States of a carrier's park (hPark). -/
def pkRun : Nat := 0
def pkEnter : Nat := 1
def pkParked : Nat := 2
def pkLeave : Nat := 3

def parkState (c : Fin 16) (s : State) : Nat := s.get (PWR.hPark c)

/-- Steps 1 and 2 of R676: the calibration is aborted, the carrier goes OFF, and the transmitter state is recorded before
the ramp down. -/
def parkEnter (c : Fin 16) (s : State) : State :=
  let s := goOff c (calAbortOff c ccPark s)
  txRampOff c ((s.put (PWR.hWas c) (txState c s)).put (PWR.hPark c) pkEnter)

/-- Carrier c leaves park (R677). -/
def unpark (c : Fin 16) (s : State) : State := s.put (PWR.hPark c) pkLeave

/-- Quadrant q is requested asleep (R672). An entry to STANDBY runs to its end, and an exit is decided by QSLEEP alone
(R673, R681). -/
def quadReq (q : Fin 4) (s : State) : Bool :=
  (s.get PWR.PWR_CTRL_QSLEEP).testBit q.val || s.get PWR.PWR_STAT_DEV_STATE == 1 || s.get PWR.PWR_STAT_DEV_STATE == 2

/-- Carrier c is requested parked (R672). -/
def parkReq (c : Fin 16) (s : State) : Bool :=
  (s.get PWR.PWR_CTRL_PARK).testBit c.val || quadReq (quadOf c) s || qState (quadOf c) s != 0

/-- Carrier k of an awake quadrant waits for its turn to leave park (R679). -/
def parkWaits (c : Fin 16) (s : State) : Bool := decide (s.get (PWR.hStagK (quadOf c)) ≤ c.val % 4)

/-- A carrier that is in no transition acts on its request (R672, R673). -/
def parkFollow (c : Fin 16) (s : State) : State :=
  if parkState c s = pkRun ∧ parkReq c s then parkEnter c s
  else if parkState c s = pkParked ∧ !parkReq c s ∧ !parkWaits c s then unpark c s
  else s

/-! ## Quadrants -/

/-- Q_STATE of quadrant q set. -/
def setQState (q : Fin 4) (v : Nat) (s : State) : State :=
  s.put PWR.PWR_STAT_Q_STATE (setBits (s.get PWR.PWR_STAT_Q_STATE) (2 * q.val) 2 v)

/-- The start of QUAD_SLEEP entry (R678, R675, R601): the lanes turn OFF and the heater targets become 0. -/
def quadSleepEnter (q : Fin 4) (s : State) : State :=
  let s := (setQState q 1 s).putB (PWR.hRetain q) (s.flag PWR.PWR_CTRL_RETAIN_PKTBUF)
  let s := forFin 8 (fun g s => laneStop (Fin.ofNat 32 (8 * q.val + g.val)) s) s
  tsiSyncAll (htrFollowAll q (s.put (PWR.hStagK q) 4))

/-- A quadrant that is in no transition acts on its request (R672, R673). -/
def quadFollow (q : Fin 4) (s : State) : State :=
  if qState q s = 0 ∧ quadReq q s then quadSleepEnter q s
  else if qState q s = 2 ∧ !quadReq q s then setQState q 3 s
  else s

/-! ## The device -/

/-- Standby is requested (R672). -/
def standbyReq (s : State) : Bool :=
  s.flag PWR.PWR_CTRL_STANDBY || (s.flag PWR.PWR_CTRL_STBY_PIN_EN && s.flag PWR.hStbyPin && s.flag PWR.hSeenReady)

/-- The start of STANDBY entry (R680): READY clears; KEYWAY_RETAIN is sampled. -/
def standbyEnter (s : State) : State :=
  (setReady false (s.put PWR.PWR_STAT_DEV_STATE 1)).putB PWR.hKeepKeys (s.flag PWR.PWR_CTRL_KEYWAY_RETAIN)

/-- The DPLL on exit from STANDBY (R491): HOLDOVER with HO_VALID, otherwise LOST, or FREE_RUN by the rows of R483. -/
def dpllResume (s : State) : State :=
  let s := setTimeValid false ((s.put PWR.hSynth 0).put PWR.hFreq 0)
  if s.flag TIMING0.DPLL_STAT_HO_VALID then
    if dpllState s = dpHold then s.put PWR.hSynth 2 else dpllHoldover s
  else if dpllState s = dpFree then s
  else dpllIdle (dpllLost s)

/-- The start of STANDBY exit (R681): the core synthesiser starts from XO_IN, and the Ward cores resume. -/
def standbyExit (s : State) : State :=
  let s := (s.put PWR.PWR_STAT_DEV_STATE 3).put PWR.hXo (s.get TIMING0.XO_CFG_XO_IN)
  ((dpllResume (s.putB PWR.hSynthRun true)).putB TIMING0.hAlign true).putB PWR.hWard true

/-- The device, where it is in no transition, acts on its request (R673). -/
def deviceFollow (s : State) : State :=
  let st := s.get PWR.PWR_STAT_DEV_STATE
  if st = 0 ∧ standbyReq s then standbyEnter s else if st = 2 ∧ !standbyReq s then standbyExit s else s

/-- The units act on the requests in force (R672, R673). -/
def powerFollow (s : State) : State := forFin 16 parkFollow (forFin 4 quadFollow (deviceFollow s))

/-! ## Requests -/

/-- A write of PWR_CTRL (R683). -/
def pwrCtrlEff (v : Nat) (s : State) : State :=
  let s := ((s.put PWR.PWR_CTRL_STANDBY (bits v 31 1)).put PWR.PWR_CTRL_RETAIN_PKTBUF (bits v 30 1)).put
    PWR.PWR_CTRL_KEYWAY_RETAIN (bits v 29 1)
  powerFollow (((s.put PWR.PWR_CTRL_STBY_PIN_EN (bits v 28 1)).put PWR.PWR_CTRL_QSLEEP (bits v 16 4)).put PWR.PWR_CTRL_PARK
    (bits v 0 16))

/-- PWR_CTRL_WRITE (R672). -/
def execPwrCtrlWrite (m : Master) (v : Nat) (s : State) : Out := act s fun s => writeCmd m .pwr 0x040 v (pwrCtrlEff v) s

/-- STANDBY_REQ_CHANGE (R672): the pin changes level. -/
def execStandbyReqChange (level : Bool) (s : State) : Out := act s fun s => powerFollow (s.putB PWR.hStbyPin level)

/-! ## Ends of the transitions -/

/-- PARK_DONE (R676): the output is dark, and the converters and DSP stop. -/
def execParkDone (c : Fin 16) (s : State) : Out :=
  act s fun s =>
    if parkState c s = pkEnter ∧ (txState c s = txDark ∨ txState c s = txShuttered) then
      let s := ((s.put (PWR.hPark c) pkParked).setBit PWR.PWR_STAT_PARKED c.val).raise .pwr 0
      powerFollow (streamsSync c ((framersHunt c (fecStop c s)).putB (OTU.hPartial c) true))
    else s

/-- UNPARK_DONE (R677): the converters have restarted; the carrier leaves OFF and relights, and its transmit multiframe is
present again (R77). -/
def execUnparkDone (c : Fin 16) (s : State) : Out :=
  act s fun s =>
    if parkState c s = pkLeave then
      let s := ((s.put (PWR.hPark c) pkRun).clrBit PWR.PWR_STAT_PARKED c.val).raise .pwr 0
      let was := s.get (PWR.hWas c)
      let s := leaveOff c (if txMfPresent c s then txMfReturn c (txMfn c s) s else s)
      powerFollow (if was = txRampUp ∨ was = txLit ∨ was = txBurst then txOn c s else s)
    else s

/-- QUAD_ASLEEP (R678): the carriers are parked and the heater current is 0; the Tumblers halt, the monitor stops, the
memories go to retention and the core clock stops. -/
def execQuadAsleep (q : Fin 4) (s : State) : Out :=
  act s fun s =>
    if qState q s = 1 ∧ (List.finRange 4).all (fun k => parkState (carOf q k) s == pkParked) ∧ htrTotal q s = 0 then
      let s := forFin 4 (fun k s => tumbSleep (Fin.ofNat 18 (carOf q k).val) s) s
      let s := memSleep q (monStop (Fin.ofNat 5 q.val) s)
      powerFollow (tsiSyncAll ((setQState q 2 s).raise .pwr 1))
    else s

/-- The places whose turn to leave park comes after a wake (R679): from k on, the next carrier of quadrant q that is parked
and not requested parked; 4 where there is none. -/
def nextLeaving (q : Fin 4) (k : Nat) (s : State) : Nat :=
  ((List.finRange 4).find? (fun j => decide (k ≤ j.val) && parkState (carOf q j) s == pkParked && !parkReq (carOf q j) s)).elim 4
    (·.val)

/-- QUAD_AWAKE (R679): memories, calibration records, Tumblers, monitor, heaters and lanes are restored. -/
def execQuadAwake (q : Fin 4) (s : State) : Out :=
  act s fun s =>
    if qState q s = 3 then
      let s := forFin 4 (fun k s => calLoad (carOf q k) true s) (memWake q s)
      let s := ((setQState q 0 s).raise .pwr 1).put (PWR.hStag q) 3
      let s := forFin 8 (fun g s => laneStart (Fin.ofNat 32 (8 * q.val + g.val)) s) (htrWake q s)
      powerFollow (tsiSyncAll (s.put (PWR.hStagK q) (nextLeaving q 0 s)))
    else s

/-- PARK_EXIT_STAGGER (R679): at the first tick after AWAKE, and then 4 ticks after the one before, the next carrier
leaves park. -/
def execParkExitStagger (q : Fin 4) (s : State) : Out :=
  act s fun s =>
    let k := nextLeaving q (s.get (PWR.hStagK q)) s
    if qState q s = 0 ∧ s.get (PWR.hStagK q) < 4 ∧ 4 ≤ s.get (PWR.hStag q) then
      if k < 4 then
        let s := (unpark (carOf q (Fin.ofNat 4 k)) s).put (PWR.hStag q) 0
        s.put (PWR.hStagK q) (nextLeaving q (k + 1) s)
      else s.put (PWR.hStagK q) 4
    else s

/-- A tick counts toward the next carrier's turn (R679). -/
def powerTick (s : State) : State := forFin 4 (fun q s => s.incStick (PWR.hStag q) 1) s

/-- STANDBY_REACHED (R680): every quadrant is asleep and no mailbox command, staging or calibration store runs; the hub
Tumblers halt, MON4 and the hub scrubbers stop, the Keyway is zeroised unless it is kept, the Ward cores halt and the core
synthesiser stops, and the timing outputs with it. -/
def execStandbyReached (s : State) : Out :=
  act s fun s =>
    if s.get PWR.PWR_STAT_DEV_STATE = 1 ∧ (List.finRange 4).all (fun q => qState q s == 2) ∧ !mbBusy s
        ∧ !(List.finRange 16).any (fun c => s.flag (CAL.NVM_STAT_STORE_BUSY c)) then
      let s := scrubStop 4 (monStop 4 (tumbSleep 17 (tumbSleep 16 s)))
      let s := if s.flag PWR.hKeepKeys then s else keywayZero false s
      let s := forFin 4 clockOut (((s.putB PWR.hWard false).putB PWR.hSynthRun false).putB PWR.hSynthLock false)
      powerFollow (s.put PWR.PWR_STAT_DEV_STATE 2)
    else s

/-- STANDBY_EXIT_DONE (R681): the waking quadrants are AWAKE; READY sets, FW_READY is sent and STBY_DUR records the time
`ms` spent in STANDBY. -/
def execStandbyExitDone (ms : Nat) (s : State) : Out :=
  act s fun s =>
    if s.get PWR.PWR_STAT_DEV_STATE = 3 ∧ s.flag PWR.hSynthLock
        ∧ (List.finRange 4).all (fun q => qState q s == 0 || quadReq q s) then
      let s := (readySets s).put PWR.STBY_DUR (min ms (2 ^ 32 - 1))
      powerFollow ((s.put PWR.PWR_STAT_DEV_STATE 0).raise .pwr 2)
    else s

end Sys2Proof.Machine
end

