-- ==== Sys2Proof/Machine/Clocks.lean ====
section
/-! DEFINITION. What the tick and the PM second do in each part of the engine (R21 to R24, R330) and the presence of recovered clocks (R30). -/
namespace Sys2Proof.Machine

/-! ## The tick -/

/-- The PM second latches the pages of quadrant q (R330). -/
def quadLatch (q : Fin 4) (sec ticks : Nat) (s : State) : State :=
  cpLatch q (tmLatch q (frmLatch q sec ticks s))

/-- The PM second latches the pages of carrier c (R330). -/
def carrierLatch (c : Fin 16) (sec ticks : Nat) (s : State) : State :=
  let s := s.cntLatch (TXDSP.hClip c) (TXDSP.CLIP_CNT_LO c) (TXDSP.CLIP_CNT_HI_SATURATED c) (TXDSP.CLIP_CNT_HI_COUNT c)
  hubLatch c (otuLatch c sec ticks (fecLatch c (rxLatch c s)))

/-- PM_SECOND (R23, R330, R333): every ROL register and latched table word takes the counts of the interval, whose length
is the ticks since the last one. -/
def pmSecond (s : State) : State :=
  let sec := s.time.sec
  let ticks := s.tickCount - s.get PWR.hPmTick
  let s := forFin 4 (fun q s => quadLatch q sec ticks s) (s.put PWR.hPmTick s.tickCount)
  forFin 32 laneLatch (forFin 16 (fun c s => carrierLatch c sec ticks s) s)

/-- A measurement of the line or client side. The timing engine takes its own in `timingTick`. -/
def lineMeas (m : Meas) (s : State) : State :=
  match m with
  | .clip c n => if txRuns c s then s.cntAdd (TXDSP.hClip c) n else s
  | .eye g r h v =>
    if laneOn g r s && s.flag (LANEGRP.LANE_STAT_CLK_PRESENT g r) then
      (s.put (LANEGRP.LANE_STAT_EYE_H g r) h).put (LANEGRP.LANE_STAT_EYE_V g r) v
    else s
  | .adapt g r vga ctle ffe dfe => if s.flag (LANEGRP.LANE_STAT_CLK_PRESENT g r) then laneAdapt g r vga ctle ffe dfe s else s
  | .prbs g r n => prbsCount g r n s
  | .port g n i k => portCount g n i k s
  | .tia c v => if s.flag (CONV.RX_STAT_AGC_HOLD c) then s else s.put (CONV.RX_STAT_TIA_GAIN c) (min 96 v)
  | .rplDisc q n => tmCount q cRplDisc n s
  | .heater q h o x => (s.putB (HTR.hOpen q h) o).putB (HTR.hShort q h) x
  | .tripEnds q => s.putB (HTR.HTR_STAT_TRIP q) false
  | .vddHtr q ok => htrVdd q ok s
  | m => rxMeas m s

/-- A tick in quadrant q (R22): heaters, memories, tributaries and lanes. -/
def quadTick (q : Fin 4) (s : State) : State :=
  tsiTick q (htrTick q (memTick (Fin.ofNat 5 q.val) (monTick (Fin.ofNat 5 q.val) s)))

/-- A tick in carrier c (R22). -/
def carrierTick (c : Fin 16) (s : State) : State :=
  leafTick c (hubTick c (fecTick c (rxTick c (convTick c (calTick c s)))))

/-! ## Recovered clocks -/

/-- CLK_PRESENT of a domain (R30): on a carrier's pages, or in the row of a lane, whose CDR_LOCK clears with it (R374, R390). -/
def clkSet (d : ClkDom) (on : Bool) (s : State) : State :=
  match d with
  | .line c => (s.putB (RXDSP.hLineClk c) on).putB (OTU.hClkGap c) (s.flag (OTU.hClkGap c) || !on)
  | .lane g r =>
    let s := s.putB (LANEGRP.LANE_STAT_CLK_PRESENT g r) on
    if on then s else cdrFall g r s

/-- CLK_PRESENT_CLEAR (R30): 256 beats without an edge of the clock. -/
def execClkPresentClear (d : ClkDom) (s : State) : Out := act s (clkSet d false)

/-- CLK_PRESENT_SET (R30): 4,096 consecutive beats with edges. -/
def execClkPresentSet (d : ClkDom) (s : State) : Out := act s (clkSet d true)

end Sys2Proof.Machine
end

