-- ==== Sys2Proof/Machine/Pcie.lean ====
section
/-! DEFINITION. The PCIe endpoint (R608, R609, R637), the I2C bus timeout and the TAP reset (R58), and what stopping a DMA
channel does (R609, R624). -/
namespace Sys2Proof.Machine

/-! ## DMA channels stop -/

/-- States of a channel (R624, R634). -/
def dsDisabled : Nat := 0
def dsRun : Nat := 1
def dsHalted : Nat := 2

/-- The descriptor of channel n moves no more: a PTP record it has begun to move is lost with it (R627; log entry 94). -/
def dmaForget (n : Fin 16) (s : State) : State :=
  { s with
    staged := s.staged.filter fun g => g.n != n
    ptpPart := s.ptpPart.filter fun g => g.n != n
    ptpRx := if s.get (DMA.hKind n) == 1 && s.get (DMA.hRead n) != 0 then s.ptpRx.drop 1 else s.ptpRx }

/-- Channel n becomes DISABLED: what it has read is dropped and its descriptor has no completion record (R624, R634). -/
def dmaStop (n : Fin 16) (s : State) : State :=
  let s := dmaForget n s
  let s := (((s.put (DMA.DMA_STAT_STATE n) dsDisabled).put (DMA.DMA_STAT_CAUSE n) 0).putB (DMA.DMA_STAT_OWN_WAIT n) false).putB
    (DMA.DMA_STAT_CQ_FULL n) false
  let s := ((s.putB (DMA.DMA_STAT_BUSY n) false).put (DMA.hRead n) 0).put (DMA.hMoved n) 0
  ((((s.put (DMA.hStatus n) 0).putB (DMA.hEnded n) false).putB (DMA.hAborting n) false).putB (DMA.hPause n) false)

/-- The block registers of channel n return to their reset values (R609). -/
def dmaClear (n : Fin 16) (s : State) : State :=
  let b := (Page.dma n).base
  (dmaStop n s).resetRange (8 * (b + 0x040)) (8 * (b + 0x1000)) (fun _ => false)

/-! ## PCIe resets and the link -/

/-- The link's state takes new values; LINK_CHG where one changes (R637). -/
def setLink (up : Bool) (speed width : Nat) (s : State) : State :=
  let changed := s.flag PCIE.LINK_STAT_DL_UP != up || s.get PCIE.LINK_STAT_SPEED != speed || s.get PCIE.LINK_STAT_WIDTH != width
  (((s.putB PCIE.LINK_STAT_DL_UP up).put PCIE.LINK_STAT_SPEED speed).put PCIE.LINK_STAT_WIDTH width).raiseIf .pcie 0 changed

/-- The MSI-X table, its pending bits and its function mask are reset (R609; log entry 12). -/
def msixReset (s : State) : State :=
  { s.resetRange (8 * (bar2Base + 0xF_0000)) (8 * (bar2Base + 0xF_A000)) (fun _ => false) with vecPend := 0 }

/-- The mailbox after a PCIe reset event: a command in execution goes on with its response discarded, MB_STAT is idle, and
the event queue is empty (R609). -/
def mbReset (s : State) : State :=
  let s := (if s.flag MBX.MB_STAT_BUSY then s.putB MBOX.hDiscard true else s).putB MBOX.hNext false
  let s := ((s.putB MBX.MB_STAT_BUSY false).putB MBX.MB_STAT_RESP_VALID false).putB MBX.MB_STAT_REJ false
  ((s.put MBX.MB_STAT_TAG 0).put MBX.EVT_HEAD 0).put MBX.EVT_TAIL 0

/-- What a PCIe reset event counts (R637): kind 0 a function-level reset, 1 a hot reset, 2 data-link down, after which the
link is down. -/
def pcieCount (kind : Fin 3) (s : State) : State :=
  if kind = 2 then setLink false 0 0 (s.incStick PCIE.LINK_EVT_DOWNS 1) else s.incStick PCIE.LINK_EVT_RESETS 1

/-- PCIE_FUNCTION_RESET (R58, R59, R609). -/
def execPcieFunctionReset (kind : Fin 3) (s : State) : Out :=
  act s fun s =>
    let s := forFin 16 dmaClear s
    masterFails .pcie (mbReset (msixReset (pcieCount kind s)))

/-- LINK_UP (R637): the link trains at a speed (1 to 5) and a width (1, 2, 4 or 8) and the data link comes up. -/
def execLinkUp (speed : Fin 5) (width : Fin 4) (s : State) : Out := act s (setLink true (speed.val + 1) (2 ^ width.val))

/-- AER_ERROR (R637). -/
def execAerError (uncorr : Bool) (s : State) : Out :=
  act s fun s =>
    if uncorr then (s.incStick PCIE.ERR_CNT_UNCORR 1).raiseIf .pcie 2 (s.get PCIE.ERR_CNT_UNCORR < 65535)
    else (s.incStick PCIE.ERR_CNT_CORR 1).raiseIf .pcie 1 (s.get PCIE.ERR_CNT_CORR < 65535)

/-! ## Other masters' failures -/

/-- I2C_BUS_TIMEOUT (R58, R59). -/
def execI2cBusTimeout (s : State) : Out := act s (masterFails .i2c)

/-- TEST_LOGIC_RESET (R58, R59): the debug master is reset; its hasps are released and its writes that have not yet taken
effect are discarded. -/
def execTestLogicReset (s : State) : Out := act s (masterFails .debug)

end Sys2Proof.Machine
end

