-- ==== Sys2Proof/Machine/Tabwrite.lean ====
section
/-! DEFINITION. The table windows as masters reach them (R85 to R89): what each table does with a word written to it, and
what a read returns. -/
namespace Sys2Proof.Machine

/-! ## Writes -/

/-- A standby loading table accepts no write while a PAIRED hinge of its page is pending (R166, R198). -/
def pairedPending (p : Page) (s : State) : Bool := s.flag (HDR.PENDING p) && s.get (HDR.HINGE_MODE p) == modePaired

/-- The masters that may write program memory (R565). -/
def loadsPrograms : Master → Bool
  | .ward _ | .debug => true
  | _ => false

/-- What its table does with a word that a master writes to it, once the checks of the arbiter have let it through. -/
def tabStore (m : Master) (h : Hit) (addr : Nat) (full : Bool) (d : Nat) (s : State) : State :=
  let plain := storeFor m full h.loc d s
  let deny (cause : Nat) := logWin h.page cause (masterId m) 0 addr s
  match h.tab, h.page with
  | .context, .tm q => ctxWritten m q (Fin.ofNat 4096 (h.idx / 16)) (h.idx % 16) full d s
  | .portMap, .tm q => orderSync q (pmWrite m q (h.idx / 2) (h.idx % 2) full d s)
  | .svc, .tm q => orderSync q plain
  | .assoc, .ciph q => assocWrite m q (Fin.ofNat 1024 (h.idx / 8)) (h.idx % 8) addr full d s
  | .leafCtx, .hub c => leafCtxWrite m c (Fin.ofNat 256 (h.idx / 4)) (h.idx % 4) addr full d s
  | .tap, .hub c => tapWrite m c h.idx addr full d s
  | .stream, .otu c =>
    if 12 ≤ h.idx % 32 then deny causeActiveWrite
    else if 8 ≤ h.idx % 32 then expTtiWritten c (Fin.ofNat 16 (h.idx / 32)) plain
    else plain
  | .txLoad, p | .rxLoad, p => if pairedPending p s then deny causeArmPending else plain
  | .prog, _ => if loadsPrograms m then plain else deny causeActiveWrite
  | .data, .tumb t => if 2048 ≤ h.idx || loadsPrograms m || m == .tumb t then plain else deny causeActiveWrite
  | .slotStat, _ | .tribStat, _ | .hist, _ | .codeDesc, _ => deny causeActiveWrite
  | _, _ => plain

/-- The tables that a hinge swaps (R87). -/
def Tab.hinged : Tab → Bool
  | .conn | .calendar | .xqsw | .txLoad | .rxLoad | .branch | .grant => true
  | _ => false

/-- An access to an unmapped BAR0 address (R40). -/
def unmapped (m : Master) (addr : Nat) (s : State) : State :=
  logAddr addr (logErr .devInt causeUnmapped (masterId m) 0 false 0 s)

/-- A write of a master at a table-window address (R85, R88). -/
def windowWrite (m : Master) (addr size data : Nat) (s : State) : State :=
  match hitAt addr with
  | none => if mayIssue m s then unmapped m addr s else s
  | some h => winCmd m h h.tab.hinged addr size data (fun d s => tabStore m h addr (size == 8) d s) s

/-! ## Reads -/

/-- Word n of the code-description table (R218). -/
def codeWord (n : Nat) : Nat := ofLe ((List.range 8).map fun k => codeEntry (n / 12) (8 * (n % 12) + k))

/-- What the words of a table hold beside what has been written or flipped in them: the code description of the part, kept
out of the memory cells (log entry 129); nothing for every other table. The check bits of R528 are linear in the data, so
that reading, correcting and scrubbing the cells alone comes to the same. -/
def tabBase (h : Hit) : Nat := if h.tab = .codeDesc then codeWord h.idx else 0

/-- A table word as it reads, of the data stored: with what the table holds by itself, and reserved fields as 0 (R4). -/
def tabData (h : Hit) (d : Nat) : Nat := (d ^^^ tabBase h) &&& tabBits h

/-- The bytes of a word that a read of `size` bytes at an address returns (R88). -/
def wordPart (addr size d : Nat) : Nat := if size = 8 then d else bits d (8 * (addr % 8)) 32

/-- A word as a master reads it: by the owner of the memory page's hasp in ECC test mode as it is stored (R534); otherwise
corrected, or all ones where it is uncorrectable (R88, R89). -/
def windowWord (m : Master) (h : Hit) (addr size : Nat) (s : State) : Nat × State :=
  if s.flag (eccRaw h.loc) && s.holds m (.page h.loc.page) then
    let chk := match h.loc with
      | .quad q _ _ => MEM.ECC_CHK_RD q
      | .hub _ _ => HUBCTL.ECC_CHK_RD
    (wordPart addr size (s.rawData h.loc ^^^ tabBase h), s.put chk (s.rawCheck h.loc ^^^ eccCheck (tabBase h)))
  else
    match s.readWord h.loc false with
    | (.ue, _, s') => (2 ^ (8 * size) - 1, logWin h.page causeUncorrRead (masterId m) 0 addr s')
    | (_, d, s') => (wordPart addr size (tabData h d), s')

/-- A read of a standby view stalls while the page copies forward (R83). -/
def readStalls (h : Hit) (s : State) : Bool := h.tab.hinged && !h.active && s.flag (HDR.COPYING h.page)

/-- A read at a table-window address that does not stall: the data returned and the state after (R85, R88, R89, R674). -/
def windowRead (m : Master) (addr size : Nat) (s : State) : Nat × State :=
  match hitAt addr with
  | none => (0, unmapped m addr s)
  | some h =>
    if !((size == 8 && addr % 8 == 0) || (size == 4 && addr % 4 == 0)) then
      (0, logWin h.page causeNarrow (masterId m) 0 addr s)
    else if windowsClosed h.page s then (0, logWin h.page causeResetBusy (masterId m) 0 addr s)
    else windowWord m h addr size s

end Sys2Proof.Machine
end

