-- ==== Sys2Proof/Machine/Dma.lean ====
section
/-! DEFINITION. The DMA channels (R613 to R627, R634): enabling, doorbells, descriptors, bursts and completions. -/
namespace Sys2Proof.Machine

/-! ## A channel -/

def dmaState (n : Fin 16) (s : State) : Nat := s.get (DMA.DMA_STAT_STATE n)

/-- KIND as sampled: PTP_RX and PTP_TX are the PTP streams (R627). -/
def dkPtpRx : Nat := 1
def dkPtpTx : Nat := 2

/-- STATUS codes of a completion record (R619), and CAUSE = CONFIG (R634). -/
def dcAborted : Nat := 1
def dcUncorr : Nat := 2
def dcAddrErr : Nat := 3
def dcHostErr : Nat := 4
def dcConfig : Nat := 5

/-- Slots of the ring and records of the completion queue. -/
def ringSize (n : Fin 16) (s : State) : Nat := 2 ^ s.get (DMA.hRing n)
def cqSize (n : Fin 16) (s : State) : Nat := 2 ^ s.get (DMA.hCq n)

/-- A slot up to SQ_TAIL is left to fetch (R617). -/
def slotsLeft (n : Fin 16) (s : State) : Bool :=
  s.get (DMA.DMA_STAT_HEAD n) % ringSize n s != s.get (DMA.DOORBELLS_SQ_TAIL n) % ringSize n s

/-- The completion queue has no free slot (R620). -/
def cqFull (n : Fin 16) (s : State) : Bool :=
  (s.get (DMA.DMA_STAT_CQ_TAIL n) + 1) % cqSize n s == s.get (DMA.DOORBELLS_CQ_HEAD n) % cqSize n s

/-- Bytes staged by a channel, and its pause and resume marks in bytes (R623, R634). -/
def dmaFill (n : Fin 16) (s : State) : Nat := (s.staged.filter (fun g => g.n == n)).foldl (fun a g => a + g.bytes.length) 0
def dmaHigh (n : Fin 16) (s : State) : Nat := 64 * max 1 (s.get (DMA.hHigh n))
def dmaLow (n : Fin 16) (s : State) : Nat := min (64 * s.get (DMA.hLow n)) (dmaHigh n s - 64)

/-- The channel goes to HALTED with a cause (R624). -/
def dmaHalt (n : Fin 16) (cause : Nat) (s : State) : State :=
  ((s.put (DMA.DMA_STAT_STATE n) dsHalted).put (DMA.DMA_STAT_CAUSE n) cause).raise (.dma n) 1

/-- CTRL.ENABLE rises: DMA_CFG and the bases are sampled, and the channel runs or is halted with CONFIG (R624). -/
def dmaStart (n : Fin 16) (s : State) : State :=
  let ring := s.get (DMA.DMA_CFG_RING_LOG2 n)
  let cq := s.get (DMA.DMA_CFG_CQ_LOG2 n)
  let lo := s.get (DMA.RING_BASE_LO n)
  let clo := s.get (DMA.CQ_BASE_LO n)
  let s := ((s.put (DMA.hKind n) (s.get (DMA.DMA_CFG_KIND n))).put (DMA.hRing n) ring).put (DMA.hCq n) cq
  let s := (s.put (DMA.hBurst n) (s.get (DMA.DMA_CFG_BURST n))).put (DMA.hHigh n) (s.get (DMA.DMA_CFG_HIGH n))
  let s := (s.put (DMA.hLow n) (s.get (DMA.DMA_CFG_LOW n))).put (DMA.hRingBase n) (s.get (DMA.RING_BASE_HI n) * 2 ^ 32 + lo)
  let s := (s.put (DMA.hCqBase n) (s.get (DMA.CQ_BASE_HI n) * 2 ^ 32 + clo)).put (DMA.hCtrl n) 0
  if lo % 4096 = 0 ∧ clo % 4096 = 0 ∧ 4 ≤ ring ∧ ring ≤ 12 ∧ 4 ≤ cq ∧ cq ≤ 12 ∧ s.get (DMA.hKind n) ≠ 3 then
    let s := ((s.put (DMA.DMA_STAT_HEAD n) 0).put (DMA.DMA_STAT_CQ_TAIL n) 0).put (DMA.hPhase n) 1
    (s.put (DMA.DMA_STAT_STATE n) dsRun).put (DMA.DMA_STAT_CAUSE n) 0
  else dmaHalt n dcConfig s

/-! ## Doorbells and commands -/

/-- SQ_TAIL is written (R617, R634). -/
def sqTailEff (n : Fin 16) (v : Nat) (s : State) : State :=
  if dmaState n s = dsDisabled then s
  else (s.put (DMA.DOORBELLS_SQ_TAIL n) (bits v 0 12)).putB (DMA.DMA_STAT_OWN_WAIT n) false

/-- CQ_HEAD is written (R620, R634). -/
def cqHeadEff (n : Fin 16) (v : Nat) (s : State) : State :=
  if dmaState n s = dsDisabled then s
  else
    let s := s.put (DMA.DOORBELLS_CQ_HEAD n) (bits v 0 12)
    if cqFull n s then s else s.putB (DMA.DMA_STAT_CQ_FULL n) false

/-- SQ_TAIL (R617): the host writes the doorbell in BAR2. -/
def execSqTail (n : Fin 16) (v : Nat) (s : State) : Out := act s (sqTailEff n v)

/-- CQ_HEAD (R620): the host writes the doorbell in BAR2. -/
def execCqHead (n : Fin 16) (v : Nat) (s : State) : Out := act s (cqHeadEff n v)

/-- DMA_CMD (R624, R625): an ABORT acts before a RESUME written with it. -/
def dmaCmdEff (n : Fin 16) (v : Nat) (s : State) : State :=
  if bit v 0 then
    if dmaState n s = dsRun then
      if s.flag (DMA.DMA_STAT_BUSY n) then s.putB (DMA.hAborting n) true else dmaHalt n dcAborted s
    else s
  else if bit v 1 ∧ dmaState n s = dsHalted then (s.put (DMA.DMA_STAT_STATE n) dsRun).put (DMA.DMA_STAT_CAUSE n) 0
  else s

/-- ABORT (R625): a write of DMA_CMD.ABORT. -/
def execAbort (m : Master) (n : Fin 16) (s : State) : Out := act s fun s => writeCmd m (.dma n) 0x054 1 (dmaCmdEff n 1) s

/-- RESUME (R624): a write of DMA_CMD.RESUME. -/
def execResume (m : Master) (n : Fin 16) (s : State) : Out := act s fun s => writeCmd m (.dma n) 0x054 2 (dmaCmdEff n 2) s

/-! ## Descriptors -/

/-- SPACE of a DEV_ADDR, and its address in that space (R613). -/
def devSpace (a : Nat) : Nat := bits a 62 2
def devQuad (a : Nat) : Fin 4 := Fin.ofNat 4 (bits a 60 2)

/-- The device range of a descriptor lies in its space (R613, R616). -/
def devRangeOk (a len : Nat) : Bool :=
  match devSpace a with
  | 0 => decide (0x0300_0000 ≤ bits a 0 26) && decide (bits a 0 26 + len ≤ 0x0400_0000)
  | 1 => decide (bits a 0 25 + len ≤ 33554432)
  | 2 => true
  | _ => false

/-- A descriptor is invalid on a channel of a kind (R616, R627). -/
def descInvalid (kind ctrl len host dev pad : Nat) : Bool :=
  len % 8 != 0 || decide (len < 8) || decide (16777216 < len) || host % 8 != 0 || dev % 8 != 0 || !devRangeOk dev len
    || decide (64 ≤ ctrl) || pad != 0 || (kind == 0 && devSpace dev == 2)
    || ((kind == dkPtpRx || kind == dkPtpTx) && devSpace dev != 2)
    || (kind == dkPtpRx && !bit ctrl 1) || (kind == dkPtpTx && bit ctrl 1)

/-- The value from which a descriptor's CRC runs (R622): afresh, or from the previous descriptor; where that one has no
CRC, a free value (log entry 95). -/
def crcStart (n : Fin 16) (cont : Bool) (s : State) : State :=
  if !cont then s.put (DMA.hCrc n) 0xFFFFFFFF
  else if bit (s.get (DMA.hCtrl n)) 4 then s
  else s.putFree (DMA.hCrc n)

/-- DMA_DESCRIPTOR_FETCH (R615 to R617, R627): channel n has fetched the slot at HEAD, whose 32 bytes are `desc`. -/
def execDmaDescriptorFetch (n : Fin 16) (desc : List Nat) (s : State) : Out :=
  act s fun s =>
    if dmaState n s = dsRun ∧ slotsLeft n s ∧ !s.flag (DMA.DMA_STAT_BUSY n) ∧ !s.flag (DMA.DMA_STAT_OWN_WAIT n) then
      let s := s.send (.hostRead n (s.get (DMA.hRingBase n) + 32 * s.get (DMA.DMA_STAT_HEAD n)) 32 false)
      let le (i k : Nat) : Nat := ofLe ((List.range k).map fun j => desc.getD (i + j) 0 % 256)
      let ctrl := le 0 4
      if !bit ctrl 0 then (s.putB (DMA.DMA_STAT_OWN_WAIT n) true).raise (.dma n) 3
      else
        let s := (crcStart n (bit ctrl 5) s).putB (DMA.DMA_STAT_BUSY n) true
        let s := ((s.put (DMA.hCtrl n) ctrl).put (DMA.hLen n) (le 4 4)).put (DMA.hHost n) (le 8 8)
        let s := ((s.put (DMA.hDev n) (le 16 8)).put (DMA.hCookie n) (le 24 4)).put (DMA.hSlot n) (s.get (DMA.DMA_STAT_HEAD n))
        let s := ((s.put (DMA.hRead n) 0).put (DMA.hMoved n) 0).putB (DMA.hAborting n) false
        let bad := descInvalid (s.get (DMA.hKind n)) ctrl (le 4 4) (le 8 8) (le 16 8) (le 28 4)
        ((s.putB (DMA.hPause n) false).putB (DMA.hEnded n) bad).put (DMA.hStatus n) (if bad then dcAddrErr else 0)
    else s

/-! ## Bursts -/

/-- The record that a PTP_RX channel moves (R517, R627). -/
def ptpSource (n : Fin 16) (s : State) : Option (List Nat) :=
  if s.get PTP.PTP_CFG_RX_CH = n.val then s.ptpRx.head? else none

/-- The bytes the descriptor moves: LEN, or the record's length if that is less; none while no record is there (R627). -/
def dmaLen (n : Fin 16) (s : State) : Option Nat :=
  if s.get (DMA.hKind n) = dkPtpRx then (ptpSource n s).map fun r => min (s.get (DMA.hLen n)) r.length
  else some (s.get (DMA.hLen n))

/-- The memory behind the descriptor's device side answers: a host region only while its quadrant is awake. -/
def devAnswers (n : Fin 16) (s : State) : Bool :=
  let a := s.get (DMA.hDev n)
  devSpace a != 1 || memAwake (Fin.ofNat 5 (devQuad a).val) s

/-- The 64-bit word of the device side at byte `o` of the descriptor, none where it is uncorrectable, and the state after
the read (R614, R626). -/
def devRead (n : Fin 16) (o : Nat) (s : State) : Option Nat × State :=
  let a := s.get (DMA.hDev n)
  let counted (l : Loc) : Option Nat × State :=
    match s.readWord l false with
    | (.ue, _, s') => (none, s')
    | (_, d, s') => (some d, s')
  if devSpace a = 1 then counted (.quad (devQuad a) 1 ((bits a 0 25 + o) / 8))
  else
    let b := bits a 0 26 + o
    match hitAt b with
    | none => (some 0, unmapped .pcie b s)
    | some h =>
      if windowsClosed h.page s then (some 0, logWin h.page causeResetBusy (masterId .pcie) 0 b s)
      else if s.flag (eccRaw h.loc) && s.holds .pcie (.page h.loc.page) then
        ((some (s.rawData h.loc ^^^ tabBase h)), (windowWord .pcie h b 8 s).2)
      else
        match counted h.loc with
        | (v, s') => (v.map (tabData h), s')

/-- The bytes of k words of the device side from byte `o` on: those before an uncorrectable word, whether there was one,
and the state after. -/
def devReads (n : Fin 16) (o : Nat) : Nat → State → List Nat × Bool × State
  | 0, s => ([], false, s)
  | k + 1, s =>
    match devRead n o s with
    | (none, s') => ([], true, s')
    | (some d, s') =>
      let r := devReads n (o + 8) k s'
      (leBytes 8 d ++ r.1, r.2)

/-- Device reads of the burst would stall: a standby view copies forward, or another transaction of the host waits (R83). -/
def devStalls (n : Fin 16) (o k : Nat) (s : State) : Bool :=
  let a := s.get (DMA.hDev n)
  devSpace a == 0 && (stalledBy .pcie s ||
    (List.range k).any fun i => (hitAt (bits a 0 26 + o + 8 * i)).any fun h => readStalls h s)

/-- The bytes of the next burst: BURST, the rest of the descriptor, or up to the next 4 KiB host boundary (R623). -/
def burstSize (n : Fin 16) (len : Nat) (s : State) : Nat :=
  let r := s.get (DMA.hRead n)
  min (min (512 * 2 ^ s.get (DMA.hBurst n)) (len - r)) (4096 - (s.get (DMA.hHost n) + r) % 4096)

/-- The source of a burst is read (R623, R626): for H2D `data` is what host memory returned. -/
def burstRead (n : Fin 16) (data : List Nat) (s : State) : State :=
  match dmaLen n s with
  | none => s
  | some len =>
    let o := s.get (DMA.hRead n)
    let k := burstSize n len s
    let stage (bytes : List Nat) (s : State) : State :=
      let s := if bytes = [] then s else { s with staged := s.staged ++ [⟨n, bytes⟩] }
      let s := s.put (DMA.hRead n) (o + bytes.length)
      s.putB (DMA.hPause n) (s.flag (DMA.hPause n) || decide (dmaHigh n s ≤ dmaFill n s))
    if s.flag (DMA.hEnded n) || s.flag (DMA.hAborting n) || s.flag (DMA.hPause n) || decide (len ≤ o) || !devAnswers n s then s
    else if !bit (s.get (DMA.hCtrl n)) 1 then
      stage ((List.range k).map fun i => data.getD i 0 % 256)
        (s.send (.hostRead n (s.get (DMA.hHost n) + o) k (bit (s.get (DMA.hCtrl n)) 2)))
    else if s.get (DMA.hKind n) = dkPtpRx then stage (slice ((ptpSource n s).getD []) o k) s
    else if devStalls n o (k / 8) s then s
    else
      match devReads n o (k / 8) s with
      | (bytes, ue, s) =>
        let s := stage bytes s
        if ue then (s.putB (DMA.hEnded n) true).put (DMA.hStatus n) dcUncorr else s

/-- The bytes of a burst are written to the device side from byte `o` of the descriptor on (R614, R627). -/
def devWrite (n : Fin 16) (o : Nat) (bytes : List Nat) (s : State) : State :=
  let a := s.get (DMA.hDev n)
  let word (i : Nat) : Nat := ofLe (slice bytes (8 * i) 8)
  match devSpace a with
  | 0 => forN (bytes.length / 8) (fun i s => windowWrite .pcie (bits a 0 26 + o + 8 * i) 8 (word i) s) s
  | 1 => forN (bytes.length / 8) (fun i s => s.store (.quad (devQuad a) 1 ((bits a 0 25 + o) / 8 + i)) (word i)) s
  | _ => { s with ptpPart := s.ptpPart ++ [⟨n, bytes⟩] }

/-- The oldest staged burst is written to its destination (R621 to R623). -/
def burstWrite (n : Fin 16) (s : State) : State :=
  match s.staged.find? (fun g => g.n == n) with
  | none => s
  | some g =>
    if !devAnswers n s then s
    else
      let o := s.get (DMA.hMoved n)
      let ctrl := s.get (DMA.hCtrl n)
      let s := { s with staged := s.staged.erase g }
      let s := if bit ctrl 1 then s.send (.hostWrite n (s.get (DMA.hHost n) + o) g.bytes (bit ctrl 2)) else devWrite n o g.bytes s
      let s := s.put (DMA.hMoved n) (o + g.bytes.length)
      let s := if bit ctrl 4 then s.put (DMA.hCrc n) (g.bytes.foldl crc32cByte (s.get (DMA.hCrc n))) else s
      s.putB (DMA.hPause n) (s.flag (DMA.hPause n) && decide (dmaLow n s < dmaFill n s))

/-- DMA_BURST (R623): channel n reads the source of its next burst, or, with `drain`, writes the oldest burst that it has
staged to its destination. -/
def execDmaBurst (n : Fin 16) (data : List Nat) (drain : Bool) (s : State) : Out :=
  act s fun s =>
    if s.flag (DMA.DMA_STAT_BUSY n) ∧ dmaState n s = dsRun then (if drain then burstWrite n s else burstRead n data s) else s

/-- CTRL.ENABLE is written 0, or the page is reset: bursts whose reads have been issued complete, and the channel is
DISABLED without a record (R623, R624). -/
def dmaOff (n : Fin 16) (s : State) : State := dmaStop n (forN (s.staged.countP fun g => g.n == n) (fun _ s => burstWrite n s) s)

/-! ## Completions -/

/-- The running descriptor has ended: its staging is empty, and its data is moved, or it moves no further data. -/
def dmaEnded (n : Fin 16) (s : State) : Bool :=
  s.flag (DMA.DMA_STAT_BUSY n) && dmaState n s == dsRun && dmaFill n s == 0
    && (s.flag (DMA.hEnded n) || s.flag (DMA.hAborting n) || dmaLen n s == some (s.get (DMA.hMoved n)))

/-- The status with which it completes (R619, R625). -/
def dmaStatus (n : Fin 16) (s : State) : Nat :=
  if s.flag (DMA.hEnded n) then s.get (DMA.hStatus n) else if s.flag (DMA.hAborting n) then dcAborted else 0

/-- The completion record (R619). -/
def dmaRecord (n : Fin 16) (s : State) : List Nat :=
  leBytes 4 (s.get (DMA.hCookie n)) ++ leBytes 4 (s.get (DMA.hMoved n))
    ++ leBytes 4 (if bit (s.get (DMA.hCtrl n)) 4 then s.get (DMA.hCrc n) ^^^ 0xFFFFFFFF else 0)
    ++ leBytes 2 (s.get (DMA.hSlot n)) ++ [dmaStatus n s, s.get (DMA.hPhase n)]

/-- The stream side of a completion (R627): a whole transmit record goes on, a received one leaves. -/
def dmaStreamEnd (n : Fin 16) (s : State) : State :=
  let part := (s.ptpPart.filter (fun g => g.n == n)).flatMap (·.bytes)
  let s := if s.get (DMA.hKind n) = dkPtpTx ∧ dmaStatus n s = 0 then { s with ptpTx := s.ptpTx ++ [part] } else s
  dmaForget n s

/-- The descriptor leaves the channel: HEAD moves on, and the channel halts unless its status is OK (R624). -/
def dmaRetire (n : Fin 16) (s : State) : State :=
  let st := dmaStatus n s
  let s := dmaStreamEnd n s
  let s := s.put (DMA.DMA_STAT_HEAD n) ((s.get (DMA.DMA_STAT_HEAD n) + 1) % ringSize n s)
  let s := (s.putB (DMA.DMA_STAT_BUSY n) false).putB (DMA.DMA_STAT_CQ_FULL n) false
  let s := ((s.putB (DMA.hAborting n) false).putB (DMA.hEnded n) false).putB (DMA.hPause n) false
  let s := ((s.put (DMA.hStatus n) 0).put (DMA.hRead n) 0).put (DMA.hMoved n) 0
  if st = 0 then s else dmaHalt n st s

/-- The writes of a completion, in order, and its interrupt (R617, R619, R621). -/
def dmaComplete (n : Fin 16) (s : State) : State :=
  let ctrl := s.get (DMA.hCtrl n)
  let tail := s.get (DMA.DMA_STAT_CQ_TAIL n)
  let next := (tail + 1) % cqSize n s
  let s := s.send (.hostWrite n (s.get (DMA.hRingBase n) + 32 * s.get (DMA.hSlot n)) (leBytes 4 (setBits ctrl 0 1 0)) false)
  let s := (s.send (.hostWrite n (s.get (DMA.hCqBase n) + 16 * tail) (dmaRecord n s) false)).raiseIf (.dma n) 0 (bit ctrl 3)
  let s := (s.put (DMA.DMA_STAT_CQ_TAIL n) next).put (DMA.hPhase n) (s.get (DMA.hPhase n) + (next == 0).toNat)
  dmaRetire n (s.incWrap (DMA.DESC_CNT n) 1)

/-- DMA_DESCRIPTOR_COMPLETE (R620, R621, R624 to R627): the descriptor that has ended completes, or stalls with CQ_FULL. -/
def execDmaDescriptorComplete (n : Fin 16) (s : State) : Out :=
  act s fun s =>
    if !dmaEnded n s then s
    else if cqFull n s then (s.raiseIf (.dma n) 2 (!s.flag (DMA.DMA_STAT_CQ_FULL n))).putB (DMA.DMA_STAT_CQ_FULL n) true
    else dmaComplete n s

/-- The fetch of the descriptor at HEAD has failed: nothing of it is known (log entry 96). -/
def dmaFetchFails (n : Fin 16) (s : State) : State :=
  let s := ((s.putFree (DMA.hCtrl n)).putFree (DMA.hCookie n)).put (DMA.hSlot n) (s.get (DMA.DMA_STAT_HEAD n))
  let s := s.put (DMA.hCtrl n) (bits (s.get (DMA.hCtrl n)) 6 26 * 64)
  ((s.putB (DMA.DMA_STAT_BUSY n) true).put (DMA.hRead n) 0).put (DMA.hMoved n) 0

/-- DMA_HOST_ERROR (R624): a host access of channel n fails: the fetch of a descriptor, an access to its data, or, with
`record`, the write of its completion. -/
def execDmaHostError (n : Fin 16) (record : Bool) (s : State) : Out :=
  act s fun s =>
    let fail (s : State) : State := (s.putB (DMA.hEnded n) true).put (DMA.hStatus n) dcHostErr
    if dmaState n s ≠ dsRun then s
    else if record then (if dmaEnded n s && !cqFull n s then dmaRetire n (fail s) else s)
    else if s.flag (DMA.DMA_STAT_BUSY n) then fail s
    else if slotsLeft n s ∧ !s.flag (DMA.DMA_STAT_OWN_WAIT n) then fail (dmaFetchFails n s)
    else s

end Sys2Proof.Machine
end

