-- ==== Sys2Proof/Machine/Ctrl.lean ====
section
/-! DEFINITION. CTRL of every page (R13, R45 to R47), INT_FORCE (R51), the commands of hasps (R54 to R62), and the MSI-X
vectors (R93). -/
namespace Sys2Proof.Machine

/-! ## Interrupts -/

/-- How many block causes INT_RAW of a page has, from bit 0 (R49 and the page chapters). -/
def blockCauses : Page → Nat
  | .conv _ => 8 | .cal _ => 6 | .txdsp _ => 6 | .rxdsp _ => 9 | .fec _ => 7 | .hub _ => 9 | .otu _ => 5
  | .frm _ => 2 | .tsi _ => 4 | .xqsw => 1 | .lanegrp _ => 7 | .tm _ => 6 | .ciph _ => 9 | .keyway => 2
  | .timing0 => 7 | .timing1 => 2 | .timing2 => 3 | .timing3 => 3 | .ptp => 3 | .mem _ => 5 | .hubctl => 3
  | .tumb _ => 6 | .mon _ => 4 | .htr _ => 4 | .dma _ => 4 | .mbox => 4 | .pcie => 3 | .boot => 2 | .fuse => 2 | .pwr => 4
  | .devId | .devInt | .qint _ | .cint _ | .timingX _ | .mbx => 0

/-- A write of INT_FORCE (R51): causes that the page has are latched; reserved bits are ignored. -/
def intForceEff (p : Page) (v : Nat) (s : State) : State :=
  forN 32 (fun b s => if v.testBit b && (decide (b < blockCauses p) || decide (28 ≤ b)) then s.raise p b else s) s

/-- INT_FORCE (R51). -/
def execIntForce (m : Master) (p : Page) (v : Nat) (s : State) : Out :=
  act s fun s => writeCmd m p 0x018 v (intForceEff p v) s

/-- A write of VEC_REARM0 (half 0) or VEC_REARM1 (half 1): vectors whose input is 1 send their message again (R93). -/
def vecRearmEff (half : Fin 2) (v : Nat) (s : State) : State :=
  let now := vecInputs s
  forFin 32 (fun b s =>
    let k := 32 * half.val + b.val
    if v.testBit b.val && now.testBit k then vecMessage (Fin.ofNat 64 k) s else s) s

/-- VEC_REARM (R93): the host writes the bit of vector v. -/
def execVecRearm (m : Master) (v : Fin 64) (s : State) : Out :=
  let half : Fin 2 := Fin.ofNat 2 (v.val / 32)
  let d := 2 ^ (v.val % 32)
  act s fun s => writeCmd m .devInt (0x060 + 4 * half.val) d (vecRearmEff half d) s

/-- Messages held pending are sent where neither the vector nor the function is masked any longer and the input is still
1 (R93). -/
def msixFlush (s : State) : State :=
  let now := vecInputs s
  forFin 64 (fun v s =>
    if s.vecPend.testBit v.val && !s.flag (MSIX.MASKED v) && !s.flag MSIX.FUNC_MASKED then
      let s := { s with vecPend := s.vecPend - 2 ^ v.val }
      if now.testBit v.val then s.send (.msix v) else s
    else s) s

/-- MSIX_UNMASK (R93): a vector, or the function, is unmasked. -/
def execMsixUnmask (v : Option (Fin 64)) (s : State) : Out :=
  act s fun s =>
    match v with
    | some v => msixFlush (s.putB (MSIX.MASKED v) false)
    | none => msixFlush (s.putB MSIX.FUNC_MASKED false)

/-! ## Hasps -/

/-- A write of a hasp register: its state is held at the arbiter (R66). The resource hasps are block registers of
DEV.HUBCTL, which its own hasp guards (R56, R62). -/
def haspCmd (m : Master) (h : HaspId) (data : Nat) (s : State) : State :=
  let p := HaspId.home h
  let off := HaspId.offset h
  if !mayIssue m s then s
  else if stalledBy m s then stall p ⟨m, .bar0, p.base + off, 4, false, data⟩ false s
  else
    match h with
    | .page _ => haspWrite m h data s
    | .res _ =>
      match arbiterDrops m p off s with
      | some s' => s'
      | none =>
        if s.flag (HDR.RESET_BUSY p) then logErr p causeResetBusy (masterId m) 0 false off s else haspWrite m h data s

/-- HASP_ACQUIRE (R55): a write with ACQUIRE = 1. -/
def execHaspAcquire (m : Master) (h : HaspId) (lease : Fin 65536) (s : State) : Out :=
  act s fun s => haspCmd m h (2 ^ 23 + lease.val) s

/-- HASP_RELEASE (R57): a write with RELEASE = 1. -/
def execHaspRelease (m : Master) (h : HaspId) (s : State) : Out := act s fun s => haspCmd m h (2 ^ 22) s

/-! ## CTRL.ENABLE -/

/-- The block of a page is enabled (R45): what its chapter has it do when ENABLE goes from 0 to 1. While the page is in soft
reset, what the end of the reset does waits for it. -/
def enableRise (p : Page) (s : State) : State :=
  let later (f : State → State) : State := if s.flag (HDR.RESET_BUSY p) then s else f s
  match p with
  | .conv c => later (leaveOff c)
  | .rxdsp c => later fun s => leaveOff c (rxSample c s)
  | .txdsp c => later (txStart c)
  | .fec c => later fun s => fecRestart c (fecStart c s)
  | .otu c => later (otuStart c)
  | .hub c => leafFollow c s
  | .tsi _ => tsiSyncAll s
  | .lanegrp g => later (laneStart g)
  | .tm q => orderSync q s
  | .timing1 => later timing1On
  | .timing2 => forFin 4 clockOut s
  | .mon d => monStart d s
  | .htr q => htrFollowAll q s
  | .dma n => dmaStart n s
  | _ => s

/-- The block of a page is disabled (R45): what its chapter has it do when ENABLE is written 0. -/
def enableFall (p : Page) (s : State) : State :=
  match p with
  | .conv c =>
    let s := calAbortOff c ccDisabled s
    txRampOff c (if carState c s = stOff then s else goOff c s)
  | .rxdsp c =>
    let s := calAbortOff c ccDisabled s
    if carState c s = stOff then s else goOff c s
  | .cal c => if s.flag (CAL.CAL_STAT_BUSY c) then leaveOff c (calAbortOff c ccDisabled s) else s
  | .txdsp c => txStop c s
  | .fec c => fecStop c s
  | .otu c => otuStop c s
  | .hub c => leafFollow c s
  | .frm q => s.putB (FRM.hPartial q) true
  | .tsi _ => tsiSyncAll s
  | .lanegrp g => laneStop g s
  | .timing0 => timing0Off s
  | .timing1 => timing1Off s
  | .timing2 => forFin 4 clockOut s
  | .mem q => scrubStop (Fin.ofNat 5 q.val) s
  | .hubctl => scrubStop 4 s
  | .tumb t => tumbOff t s
  | .mon d => monStop d s
  | .htr q => htrFollowAll q s
  | .dma n => dmaOff n s
  | _ => s

/-- ENABLE of a page takes a value. A value that it has already changes nothing, and aborts no calibration (R45, R130; log
entry 165). -/
def enableEff (p : Page) (on : Bool) (s : State) : State :=
  let was := s.flag (HDR.ENABLE p)
  let s := s.putB (HDR.ENABLE p) on
  if on && !was then enableRise p s else if was && !on then enableFall p s else s

/-! ## CTRL.FREEZE -/

/-- FREEZE takes effect in the block: not on the pages whose chapters say that it has none (chapter 04, the FEC page, R337,
R439, R470, R606, R634, R636, R660). -/
def freezes : Page → Bool
  | .devId | .txdsp _ | .fec _ | .otu _ | .tm _ | .ciph _ | .mon _ | .dma _ | .boot => false
  | _ => true

/-- FREEZE of a page takes a value (R45); STATUS.FROZEN follows it where it takes effect (R48). -/
def freezeEff (p : Page) (on : Bool) (s : State) : State :=
  let was := s.flag (HDR.FREEZE p)
  let s := (s.putB (HDR.FREEZE p) on).putB (HDR.FROZEN p) (on && freezes p)
  if on = was then s
  else
    match p with
    | .conv c => agcFollow c s
    | .tsi q => if on then s else tsiThaw q s
    | .htr q => htrFollowAll q s
    | _ => s

/-! ## CTRL.SOFT_RESET -/

/-- The pages whose chapters have a soft reset keep every block register (R636, R637, R660, R683). -/
def resetsNothing : Page → Bool
  | .devId | .pwr | .pcie | .boot => true
  | _ => false

/-- A key lies from one field to another, both included. -/
def keyIn (a b : Fld) (k : Nat) : Bool := decide (a.key ≤ k) && decide (k ≤ b.key)

/-- A key is that of one of the fields. -/
def keyOf (l : List Fld) (k : Nat) : Bool := l.any fun f => f.key == k

/-- What a page keeps through a soft reset beyond the list of R46, by key: what its chapter names, what reports conditions
outside the block, and the engine's own counts that no register shows (log entry 97). -/
def softKeeps (p : Page) : Nat → Bool :=
  match p with
  | .conv c => fun k =>
    keyIn (CONV.hCorr c 0 0 0) (CONV.hForegnd c 3 63 3) k || keyIn (CONV.LASER_STAT_PWR c) (CONV.LASER_STAT_LASER_EN c) k
      || keyIn (CONV.RX_STAT_PWR c) (CONV.RX_STAT_SIG_ABSENT c) k || keyOf [CONV.TX_STAT_PWR c] k
  | .cal c => keyOf [CAL.CAL_STAT_DEFAULTS c, CAL.CAL_STAT_FULL_RUN c, CAL.NVM_STAT_STORE_BUSY c, CAL.NVM_STAT_LAST c,
      CAL.NVM_STAT_COPY c, CAL.NVM_STAT_SEQ c, CAL.hVals c, CAL.hStoreNext c, CAL.hResetAbort c, CAL.hRecValid c]
  | .rxdsp c => keyOf [RXDSP.hLineClk c]
  | .xqsw => keyIn (XQSW.hBad 0 0) (XQSW.hBad 3 19)
  | .tm q => fun k => keyIn (TM.hFault q 0) (TM.hFault q 4095) k || keyOf (TM.hCredit q :: (List.finRange 4).map (TM.hBeat q)) k
  | .ciph q => fun k => keyIn (CIPH.hCur q 0) (CIPH.hSaving q 1023) k || keyIn (CIPH.hBad q 0) (CIPH.hBad q 1023) k
  | .keyway => fun k => keyIn (KEYWAY.hKek 0) (KEYWAY.hKek 15) k
      || keyIn (KEYWAY.hSvValid 0) (KEYWAY.hSvFloor 16383) k
  | .timing1 => keyIn (TIMING1.hPhase 0) (TIMING1.hPhase 7)
  | .mbox => keyIn MBOX.hSeq MBOX.hDiscard
  | .fuse => fun k => !(keyIn (FUSE.KEY_BUF 0) (FUSE.KEY_BUF 7) k
      || keyOf [FUSE.FUSE_STAT_BUSY, FUSE.FUSE_STAT_RESULT, FUSE.FUSE_STAT_CAUSE, FUSE.hOp, FUSE.hArg] k)
  | .mem q => fun k => keyOf (memKept q) k || keyIn (MEM.hCred q 0 0) (MEM.hRefSlots q 63) k
  | .hubctl => keyIn (HUBCTL.RES_HASP_LEASE_TICKS 0) (HUBCTL.RES_HASP_HELD 31)
  | .mon d => fun k => keyIn (MON.SEQ_DWELL d 0) (MON.SEQ_INPUT d 15) k || keyOf [MON.GRP_DELAY_D d, MON.hLp d, MON.hDec d] k
  | .htr q => keyOf (htrKept q)
  | .tumb t => keyOf (TUMB.hInTick t :: tumbKept t)
  | p => fun _ => resetsNothing p

/-- The extent of a page's implied state. -/
def Page.hidSpan : Page → Nat
  | .tm _ | .ciph _ | .otu _ | .keyway => 0x10_0000
  | _ => 0x1_0000

/-- The block registers of a page, their active copies and the state they imply return to their reset values (R46). -/
def regsClear (p : Page) (s : State) : State :=
  (s.resetRange (8 * (p.base + 0x040)) (8 * (p.base + 0x1000)) (softKeeps p)).resetRange (8 * Page.hidBase p)
    (8 * (Page.hidBase p + Page.hidSpan p)) (softKeeps p)

/-- The header fields that a soft reset returns to their reset values, a pending hinge with them (R46). -/
def hdrClear (p : Page) (s : State) : State :=
  forL [HDR.FREEZE p, HDR.FROZEN p, HDR.INT_RAW p, HDR.INT_EN p, HDR.hShadow p, HDR.HINGE_MODE p, HDR.MF_SRC p, HDR.HINGE_MF p,
    HDR.PENDING p, HDR.COPYING p, HDR.DONE p, HDR.LATE_WRITE p, HDR.REFUSED p, HDR.REFUSE_CAUSE p, HDR.ACTIVE_SEL p, HDR.LAST_MF p,
    HDR.hArm p, HDR.hArmTick p] (fun f s => s.clear f) s

/-- Both pages of a hinged table are cleared: n words of each view from the standby view on. -/
def zeroViews (row : Bool → Loc) (n : Nat) (s : State) : State := (s.zeroRange (row false) n).zeroRange (row true) n

/-- What a block does as its soft reset begins, before its registers are reset. -/
def softBegin (p : Page) (s : State) : State :=
  match p with
  | .cal c => if s.flag (CAL.CAL_STAT_BUSY c) then (calLeave c (calIdle c s)).putB (CAL.hResetAbort c) true else s
  | .txdsp c =>
    zeroViews (fun a => txLoadRow c a 0) 16
      (if s.get (HDR.HINGE_MODE (.rxdsp c)) = modePaired then refuseRx c 4 s else s)
  | .rxdsp c =>
    let s := calAbortOff c ccReset s
    pathsClear c (zeroViews (fun a => rxLoadRow c a 0) 16 (if carState c s = stOff then s else goOff c s))
  | .fec c => fecStop c s
  | .otu c => otuStop c s
  | .tsi q => tsiTake q (s.zeroRange (connEntry q false 0) 4096)
  | .xqsw => xqswSwap (s.zeroRange (xqswEntry false 0) 5120)
  | .tm q => zeroViews (fun a => calWord q a 0) 1024 (tmClear q s)
  | .ciph q => ciphClear q s
  | .lanegrp g => laneStop g s
  | .mem q => scrubStop (Fin.ofNat 5 q.val) s
  | .hubctl => scrubStop 4 s
  | .mon d => monStop d s
  | .dma n => dmaClear n (dmaOff n s)
  | .fuse => fuseCut s
  | .ptp => { s with txts := [], ptpRx := [], ptpTx := [] }
  | _ => s

/-- What a block does once its registers are reset; `old` is the state before. -/
def softEnd (p : Page) (old s : State) : State :=
  match p with
  | .conv c => agcFollow c (convReset c s)
  | .otu c => framersHunt c (otuClearRows c s)
  | .hub c =>
    hubTaken c (carMode c old) (activeBranches c old) (streamsRx c old)
      (zeroViews (fun a => grantRow c a 0) 1024 (zeroViews (fun a => branchRow c a 0) 16 s))
  | .tsi _ | .xqsw | .ciph _ => tsiSyncAll s
  | .timing0 => timing0Reset s
  | .timing2 => forFin 4 clockOut s
  | .htr q => htrReset q s
  | .tumb t => tumbReset t s
  | _ => s

/-- Accesses that wait for the page's copy-forward find the page in reset: writes are dropped and logged, reads return
what the table now holds (R47, R83; log entry 98). -/
def softDrops (p : Page) (s : State) : State :=
  let drop (w : HeldWrite) (s : State) : State :=
    if w.req.isRead then
      let r := windowRead w.req.m w.req.addr w.req.size s
      r.2.send (.readData w.req.m w.req.addr r.1)
    else logWin p causeResetBusy (masterId w.req.m) 0 w.req.addr s
  let mine (w : HeldWrite) : Bool := w.page == p && w.passed
  let l := s.late.filter mine ++ s.stalled.filter mine
  forL l drop { s with
    late := s.late.filter fun w => !mine w
    stalled := s.stalled.filter fun w => !mine w
    engineWrites := s.engineWrites.filter fun w => w.page != p
    snap := s.snap.filter fun x => !(decide (p.base ≤ x.1) && decide (x.1 < p.base + 0x1000)) }

/-- SOFT_RESET is written 1 (R13, R46): the block is reset, and RESET_BUSY stays 1 until the reset completes. On DEV.ID it
has no effect (R636). -/
def softReset (p : Page) (s : State) : State :=
  if p = .devId then s
  else
    let s1 := hdrClear p (regsClear p (softBegin p s))
    let s2 := softEnd p s s1
    let s3 := match p with
      | .tumb _ => s2
      | p => s2.clear (HDR.INT_RAW p)
    softDrops p (s3.putB (HDR.RESET_BUSY p) true)

/-- What a block does as its soft reset completes (R46 and the page chapters). -/
def softDone (p : Page) (s : State) : State :=
  let on (f : State → State) : State := if s.flag (HDR.ENABLE p) then f s else s
  match p with
  | .conv c => leaveOff c (laserFollow c s)
  | .cal c =>
    let s := calShowRecord c s
    if s.flag (CAL.hResetAbort c) then
      (((s.putB (CAL.hResetAbort c) false).put (CAL.CAL_STAT_RESULT c) 3).put (CAL.CAL_STAT_CAUSE c) ccReset).raise (.cal c) 1
    else s
  | .txdsp c => on (txStart c)
  | .rxdsp c => on fun s => leaveOff c (rxSample c s)
  | .fec c => on fun s => fecRestart c (fecStart c s)
  | .otu c => on (otuStart c)
  | .hub c => leafFollow c s
  | .lanegrp g => on (laneStart g)
  | .tm q => orderSync q s
  | .ciph q => ciphStart q s
  | .timing1 => on timing1On
  | .htr q => htrFollowAll q s
  | _ => s

/-! ## CTRL -/

/-- A write of CTRL (R45): ENABLE and FREEZE take their values, and then a soft reset starts if SOFT_RESET is written 1. -/
def ctrlEff (p : Page) (v : Nat) (s : State) : State :=
  let s := freezeEff p (bit v 2) (enableEff p (bit v 0) s)
  if bit v 1 then softReset p s else s

/-- The value of CTRL with some of its bits as they stand. -/
def ctrlNow (p : Page) (s : State) : Nat := s.get (HDR.ENABLE p) + 4 * s.get (HDR.FREEZE p)

/-- A write of CTRL by a master. -/
def ctrlCmd (m : Master) (p : Page) (v : Nat) (s : State) : State := writeCmd m p 0x008 v (ctrlEff p v) s

/-- ENABLE_WRITE (R45): CTRL is written with a value of ENABLE, FREEZE as it stands. -/
def execEnableWrite (m : Master) (p : Page) (on : Bool) (s : State) : Out :=
  act s fun s => ctrlCmd m p (on.toNat + 4 * s.get (HDR.FREEZE p)) s

/-- FREEZE_WRITE (R45): CTRL is written with a value of FREEZE, ENABLE as it stands. -/
def execFreezeWrite (m : Master) (p : Page) (on : Bool) (s : State) : Out :=
  act s fun s => ctrlCmd m p (s.get (HDR.ENABLE p) + 4 * on.toNat) s

/-- SOFT_RESET (R13, R46): CTRL is written with SOFT_RESET = 1, the rest as it stands. -/
def execSoftReset (m : Master) (p : Page) (s : State) : Out := act s fun s => ctrlCmd m p (ctrlNow p s + 2) s

end Sys2Proof.Machine
end

