-- ==== Sys2Proof/Machine/Bus.lean ====
section
/-! DEFINITION. The register bus (R36 to R42, R52, R65 to R68): what a read of a register returns, what a write does under
the access codes, snapshot groups (R29), BAR2 (R41), and the transactions of one or more masters cycle by cycle. -/
namespace Sys2Proof.Machine

/-! ## Registers by offset -/

/-- A register of a list of descriptors that lies at an offset. -/
def findReg (off : Nat) : List RegD → Option RegD
  | [] => none
  | r :: rs =>
    let hit := (List.range r.count2).any fun j =>
      decide (r.off + j * r.stride2 ≤ off)
        && (if r.count = 1 then off == r.off + j * r.stride2
            else decide ((off - (r.off + j * r.stride2)) % r.stride = 0)
              && decide ((off - (r.off + j * r.stride2)) / r.stride < r.count))
    if hit then some r else findReg off rs

/-- The block register of a page at an offset. -/
def regAt (p : Page) (off : Nat) : Option RegD := findReg off (Page.regs p)

/-- A field of the register at an offset. VECTOR of VEC_MAP[i] resets to i (R92). -/
def regFld (p : Page) (off : Nat) (f : FieldD) : Fld :=
  ⟨p.base + off, f.lsb, f.width, f.acc,
    if p = .devInt ∧ 0x100 ≤ off ∧ f.lsb = 0 then (off - 0x100) / 4 else f.reset⟩

/-- The register at an offset is RWH (R52). -/
def isRwh (p : Page) (off : Nat) : Bool :=
  match regAt p off with
  | some r => r.fields.any fun f => f.acc == .rwh
  | none => false

/-! ## Reads -/

/-- Block type of PAGE_ID (R43). -/
def pageCode : Page → Nat
  | .devId => 0x01 | .hubctl => 0x02 | .devInt => 0x03 | .pwr => 0x04
  | .timing0 | .timing1 | .timing2 | .timing3 | .timingX _ => 0x05
  | .ptp => 0x06 | .keyway => 0x07 | .boot => 0x08 | .dma _ => 0x09 | .pcie => 0x0A | .mon _ => 0x0B | .xqsw => 0x0C
  | .tumb _ => 0x0D | .mbox => 0x0E | .fuse => 0x0F | .frm _ => 0x20 | .tsi _ => 0x21 | .tm _ => 0x22 | .ciph _ => 0x23
  | .mem _ => 0x24 | .lanegrp _ => 0x25 | .htr _ => 0x27 | .qint _ => 0x28 | .conv _ => 0x40 | .txdsp _ => 0x41
  | .rxdsp _ => 0x42 | .fec _ => 0x43 | .otu _ => 0x44 | .hub _ => 0x45 | .cal _ => 0x47 | .cint _ => 0x48 | .mbx => 0

/-- INSTANCE of PAGE_ID (R43). -/
def pageInstance : Page → Nat
  | .dma n => n.val
  | .mon d => if d.val < 4 then d.val else 0
  | .frm q | .tsi q | .tm q | .ciph q | .mem q | .htr q | .qint q => q.val
  | .lanegrp g => g.val
  | .conv c | .txdsp c | .rxdsp c | .fec c | .otu c | .hub c | .cal c | .cint c => c.val
  | .tumb t => t.val
  | _ => 0

/-- LEVEL of PAGE_ID (R36, R37, R43). -/
def pageLevel : Page → Nat
  | .frm _ | .tsi _ | .tm _ | .ciph _ | .mem _ | .htr _ | .qint _ => 3
  | .mon d => if d.val < 4 then 3 else 4
  | .lanegrp _ | .conv _ | .txdsp _ | .rxdsp _ | .fec _ | .otu _ | .hub _ | .cal _ | .cint _ => 2
  | .tumb t => if t.val < 16 then 2 else 4
  | _ => 4

/-- SUBPAGE of PAGE_ID (R43). -/
def pageSub : Page → Nat
  | .timing1 => 1 | .timing2 => 2 | .timing3 => 3 | .timingX n => 4 + n.val
  | _ => 0

/-- PAGE_ID (R43). -/
def pageId (p : Page) : Nat := pageCode p * 2 ^ 24 + pageInstance p * 2 ^ 16 + pageLevel p * 2 ^ 12 + pageSub p * 2 ^ 8

/-- STATUS.CLK_PRESENT (R30, R48). -/
def clkPresent (p : Page) (s : State) : Bool :=
  match p with
  | .conv c | .rxdsp c | .fec c | .otu c | .hub c => s.flag (RXDSP.hLineClk c)
  | .lanegrp g => (List.finRange 8).all fun r => !laneOn g r s || s.flag (LANEGRP.LANE_STAT_CLK_PRESENT g r)
  | _ => true

/-- STATUS.BLOCK_STATE, as each page's chapter gives it. -/
def blockState (p : Page) (s : State) : Nat :=
  match p with
  | .conv c => s.get (CONV.TX_STAT_STATE c)
  | .cal c => s.get (CAL.CAL_STAT_PHASE c)
  | .txdsp c => s.get (TXDSP.hState c)
  | .rxdsp c =>
    s.get (RXDSP.CARRIER_STAT_STATE c) + 8 * s.get (RXDSP.CARRIER_STAT_CFG_ERROR c) + 16 * s.get (RXDSP.CARRIER_STAT_ACQ_STAGE c)
  | .fec c => s.get (FEC.FEC_STAT_CW_LOCK c) + 2 * s.get (FEC.FEC_STAT_OUTER_LOCK c) + 4 * s.get (FEC.FEC_STAT_DEG c)
  | .otu c => s.get (OTU.hFrmState c 0)
  | .hub c => carMode c s + 4 * s.get (HUB.LEAF_STAT_STATE c)
  | .tsi q => s.get (TSI.hEn q)
  | .lanegrp g => mask 8 fun n => portState g (Fin.ofNat 8 n) s == ptUp
  | .tm q => ((List.finRange 4096).any fun x => s.flag (TM.hFault q x)).toNat
  | .ciph q => (anyStopped q s).toNat
  | .mem q => overBits (Fin.ofNat 5 q.val) s
  | .htr q => (htrFaults q s != 0).toNat
  | .mon d => s.get (MON.MON_STAT_RUNNING d)
  | .keyway => s.get KEYWAY.KW_STAT_BUSY
  | .timing0 =>
    s.get TIMING0.DPLL_STAT_STATE * 2 ^ 13 + s.get TIMING0.DPLL_STAT_TIME_VALID * 2 ^ 12
      + s.get TIMING0.DPLL_STAT_HO_VALID * 2 ^ 11 + s.get TIMING0.DPLL_STAT_XO_PRESENT * 2 ^ 10
      + s.get TIMING0.DPLL_STAT_BW_STEP * 2 ^ 8 + s.get TIMING0.DPLL_STAT_SEL_VALID * 2 ^ 7 + s.get TIMING0.DPLL_STAT_SEL * 2 ^ 4
      + s.get TIMING0.DPLL_STAT_FAST_HOLD * 2 ^ 3
  | .tumb t => tumbState t 0 s + 16 * tumbState t 1 s
  | .dma n => dmaState n s
  | .mbox => s.get MBX.MB_STAT_READY
  | .boot => s.get BOOT.BOOT_STAT_STAGE
  | .fuse => s.get FUSE.FUSE_STAT_BUSY
  | .pwr => s.get PWR.PWR_STAT_DEV_STATE
  | .pcie => s.get PCIE.LINK_STAT_SPEED
  | _ => 0

/-- STATUS (R48). -/
def statusWord (p : Page) (s : State) : Nat :=
  (clkPresent p s).toNat * 2 ^ 31 + s.get (HDR.RESET_BUSY p) * 2 ^ 30 + s.get (HDR.FROZEN p) * 2 ^ 29 + blockState p s % 2 ^ 16

/-- A header register as it reads (R42 to R51, R54, R69, R72, R73). -/
def readHdr (p : Page) (off : Nat) (s : State) : Nat :=
  if off = 0x000 then pageId p
  else if off = 0x004 then Config.pageRev p.base % 2 ^ 32
  else if off = 0x008 then s.get (HDR.ENABLE p) + 2 * s.get (HDR.RESET_BUSY p) + 4 * s.get (HDR.FREEZE p)
  else if off = 0x00C then statusWord p s
  else if off = 0x010 then s.get (HDR.INT_RAW p)
  else if off = 0x014 then s.get (HDR.INT_EN p)
  else if off = 0x01C then s.masked p
  else if off = 0x020 then
    s.get (HDR.HASP_HELD p) * 2 ^ 31 + s.get (HDR.HASP_BROKEN p) * 2 ^ 30 + s.get (HDR.HASP_OWNER p) * 2 ^ 24 + s.get (HDR.HASP_LEASE p)
  else if off = 0x024 then s.get (HDR.hShadow p)
  else if off = 0x028 then
    s.get (HDR.PENDING p) * 2 ^ 31 + s.get (HDR.COPYING p) * 2 ^ 30 + s.get (HDR.DONE p) * 2 ^ 29 + s.get (HDR.LATE_WRITE p) * 2 ^ 28
      + s.get (HDR.REFUSED p) * 2 ^ 27 + s.get (HDR.REFUSE_CAUSE p) * 2 ^ 24 + s.get (HDR.ACTIVE_SEL p) * 2 ^ 23 + s.get (HDR.LAST_MF p)
  else if off = 0x02C then
    s.get (HDR.ERR_VALID p) * 2 ^ 31 + s.get (HDR.ERR_OVERRUN p) * 2 ^ 30 + s.get (HDR.ERR_CAUSE p) * 2 ^ 26
      + s.get (HDR.ERR_MASTER_A p) * 2 ^ 20 + s.get (HDR.ERR_MASTER_B p) * 2 ^ 14 + s.get (HDR.ERR_WIN p) * 2 ^ 13
      + s.get (HDR.ERR_OFFSET p) * 2 ^ 2
  else if off = 0x030 then s.get (HDR.SCRATCH p)
  else if off = 0x034 then
    match p with
    | .tumb _ => s.get (HDR.CNT_USER p)
    | _ => 0
  else 0

/-- MB_STAT (R628). -/
def mbStat (s : State) : Nat :=
  s.get MBX.MB_STAT_READY * 2 ^ 31 + s.get MBX.MB_STAT_BUSY * 2 ^ 30 + s.get MBX.MB_STAT_RESP_VALID * 2 ^ 29
    + s.get MBX.MB_STAT_REJ * 2 ^ 28 + s.get MBX.MB_STAT_TAG

/-- LAP_STAT.ACTIVE of a region (R546). -/
def lapActive (d : Fin 5) (r : Nat) (s : State) : Nat :=
  (scrubRuns d s && decide (regionWords d (Fin.ofNat 16 r) ≠ 0)).toNat * 2 ^ 30

/-- The converters of a hub carrier run (R253): its quadrant is awake, the synthesiser is locked and the carrier not
parked. -/
def convertersRun (c : Fin 16) (s : State) : Bool :=
  s.flag PWR.hSynthLock && qState (quadOf c) s == 0 && s.get (PWR.hPark c) == 0

/-- The bits of a block register that follow the state of the block rather than a stored value. -/
def calcBits (p : Page) (off : Nat) (s : State) : Nat :=
  match p with
  | .devInt =>
    if off = 0x040 then summary0 s else if off = 0x044 then summary1 s
    else if off = 0x068 then vecInputs s % 2 ^ 32 else if off = 0x06C then vecInputs s / 2 ^ 32 else 0
  | .pwr => if off = 0x048 then s.get PWR.hPwrOk * 2 ^ 31 + s.get PWR.hRails else 0
  | .timing0 =>
    if off = 0x050 then freqOfs s else if off = 0x080 then s.time.sec / 2 ^ 32 else if off = 0x084 then s.time.sec % 2 ^ 32
    else if off = 0x088 then s.time.ns else if off = 0x08C then s.time.frac else 0
  | .timing1 => if off = 0x040 then refSum s else 0
  | .timing2 =>
    if 0x110 ≤ off ∧ off < 0x210 then
      let o : Fin 8 := Fin.ofNat 8 ((off - 0x110) / 0x20)
      if off % 0x20 = 0x10 then (outputWords o s).1 else if off % 0x20 = 0x14 then (outputWords o s).2 else 0
    else 0
  | .boot => if off = 0x050 then s.get FUSE.FUSE_STAT_DEBUG_DISABLE * 2 ^ 31 else 0
  | .mbox =>
    if off = 0x040 then mbStat s else if off = 0x044 then s.get MBX.EVT_TAIL else if off = 0x048 then s.get MBX.EVT_HEAD
    else if off = 0x04C then s.get MBX.EVT_LOST else 0
  | .fuse =>
    if off = 0x040 then (mask 2 fun k => ownerValid (Fin.ofNat 2 k) s) * 2 ^ 22 + (mask 2 fun k => ownerDamaged (Fin.ofNat 2 k) s) * 2 ^ 20
    else if off = 0x048 then s.get ID.SERIAL_LO else if off = 0x04C then s.get ID.SERIAL_HI else 0
  | .tsi q => if off = 0x048 then tsiStat q s else 0
  | .tm q => if off = 0x044 then tmStat q s else if off = 0x048 then sramStat q s else 0
  | .ciph q => if off = 0x044 then ciphStat q s else 0
  | .mem q =>
    if off = 0x040 then overBits (Fin.ofNat 5 q.val) s
    else if 0x110 ≤ off ∧ off < 0x310 ∧ off % 0x20 = 0x10 then lapActive (Fin.ofNat 5 q.val) ((off - 0x110) / 0x20) s else 0
  | .hubctl => if 0x210 ≤ off ∧ off < 0x2D0 ∧ off % 0x20 = 0x10 then lapActive 4 ((off - 0x210) / 0x20) s else 0
  | .lanegrp g => if off = 0x040 then grpStat g s else 0
  | .htr q => if off = 0x048 then htrFaults q s else if off = 0x044 then htrTotMa q s else 0
  | .qint q => if off = 0x040 then qintSummary s q else 0
  | .cint c => if off = 0x040 then cintSummary s c else 0
  | .txdsp c => if off = 0x044 then ofInt 32 (capMargin c s) else 0
  | .otu c => if off = 0x044 then otuStat c s else 0
  | .conv c => if 0x070 ≤ off ∧ off < 0x090 ∧ off % 8 = 0 then (misRuns c s).toNat * 2 ^ 30 else 0
  | .rxdsp c =>
    if 0x200 ≤ off ∧ off < 0x300 ∧ off % 16 = 0 then
      let i : Fin 16 := Fin.ofNat 16 ((off - 0x200) / 16)
      ((List.finRange 4).any fun n => !s.flag (CONV.MIS_STAT0_CONVERGED c n)).toNat * 2 ^ 29
        + (eqFrozen c i s).toNat * 2 ^ 28
        + (rxRowOn c i s).toNat * 2 ^ 27
    else 0
  | .tumb t =>
    if off = 0x048 then
      tumbState t 0 s * 2 ^ 29 + tumbState t 1 s * 2 ^ 26 + tumbPending t 1 s * 2 ^ 8 + tumbPending t 0 s
    else if off = 0x0C8 then s.get (TUMB.hCycle t) % 2 ^ 32 else if off = 0x0CC then s.get (TUMB.hCycle t) / 2 ^ 32
    else if 0x100 ≤ off ∧ off < 0x140 then
      let v := evcValue t (Fin.ofNat 8 ((off - 0x100) / 8)) s
      if off % 8 = 0 then v % 2 ^ 32 else v / 2 ^ 32
    else 0
  | _ => 0

/-- The stored fields of a register as they read: WO fields read 0 (R52). -/
def storedBits (p : Page) (off : Nat) (r : RegD) (s : State) : Nat :=
  r.fields.foldl (fun a f => if f.acc == .wo then a else a + s.get (regFld p off f) * 2 ^ f.lsb) 0

/-- A block register as it reads (R52); reserved offsets read 0, and an RWH register's active value is read at its offset
plus 0x800 (R53). The base addresses of a DMA channel's rings read bits [11:0] as 0 (R634), and on a hub carrier TR_STAT
reads LOCK = 1 and PPM = 0 while its converters run (R253). In OpenZR+ mode rows 1 to 15 of SC_STAT read 0 (R213). -/
def readBlock (p : Page) (off : Nat) (s : State) : Nat :=
  match regAt p off with
  | some r =>
    let v := storedBits p off r s + calcBits p off s
    match p with
    | .dma _ => if off = 0x044 ∨ off = 0x04C then v / 4096 * 4096 else v
    | .rxdsp c =>
      if off = 0x080 ∧ isHub c s then (convertersRun c s).toNat * 2 ^ 31
      else if 0x200 ≤ off ∧ off < 0x300 ∧ !scRow c (Fin.ofNat 16 ((off - 0x200) / 16)) s then 0
      else v
    | _ => v
  | none =>
    if 0x840 ≤ off ∧ off < 0x1000 then
      match regAt p (off - 0x800) with
      | some r =>
        r.fields.foldl (fun a f =>
          if f.acc == .rwh then a + s.get (regFld p (off - 0x800) f).active * 2 ^ f.lsb else a) 0
      | none => 0
    else 0

/-- A register as it reads; the mailbox registers of BAR2 have no header. -/
def readReg (p : Page) (off : Nat) (s : State) : Nat :=
  if off < 0x040 ∧ p ≠ .mbx then readHdr p off s else readBlock p off s

/-! ### Snapshot groups (R29) -/

/-- The snapshot groups of a page: offset of the first word of the first group, distance of the next, how many groups,
and the words of each. -/
def snapGroups : Page → List (Nat × Nat × Nat × Nat)
  | .conv _ => [(0x070, 8, 4, 2)]
  | .cal _ => [(0x048, 0, 1, 4)]
  | .txdsp _ => [(0x084, 0, 1, 2)]
  | .rxdsp _ => [(0x054, 0, 1, 2), (0x200, 16, 16, 3)]
  | .fec _ => [(0x060, 0, 1, 13)]
  | .hub _ => [(0x100, 0, 1, 16)]
  | .otu _ => [(0x04C, 0, 1, 2)]
  | .frm _ => [(0x048, 0, 1, 2)]
  | .lanegrp _ => [(0x118, 64, 8, 2), (0x410, 64, 8, 8)]
  | .tm _ => [(0x050, 0, 1, 16)]
  | .ciph _ => [(0x060, 0, 1, 20)]
  | .timing0 => [(0x048, 0, 1, 3), (0x080, 0, 1, 4)]
  | .timing1 => [(0x108, 32, 8, 5)]
  | .timing2 => [(0x110, 32, 4, 2), (0x190, 32, 2, 2), (0x1D0, 32, 2, 2)]
  | .timing3 => [(0x044, 0, 1, 4), (0x088, 32, 2, 3)]
  | .ptp => [(0x048, 0, 1, 5)]
  | .mem _ => [(0x080, 0, 1, 4)]
  | .hubctl => [(0x180, 0, 1, 4)]
  | .tumb _ => [(0x050, 0, 1, 2), (0x058, 0, 1, 2), (0x0C8, 0, 1, 2), (0x100, 8, 8, 2)]
  | .mon _ => [(0x104, 32, 16, 6)]
  | .dma _ => [(0x058, 0, 1, 3)]
  | .boot => [(0x054, 0, 1, 2)]
  | _ => []

/-- The group an offset belongs to: its first offset and its words. -/
def snapGroup (p : Page) (off : Nat) : Option (Nat × Nat) :=
  (snapGroups p).findSome? fun (f, st, n, w) =>
    (List.range n).findSome? fun i =>
      if f + i * st ≤ off ∧ off < f + i * st + 4 * w then some (f + i * st, w) else none

/-- The head of the TXTS queue is shown in TXTS0 to TXTS_FRAC and leaves the queue; OVF clears when it has been shown
(R519). -/
def txtsPop (s : State) : State :=
  let words (v port tag : Nat) (t : DevTime) : List Nat :=
    [v * 2 ^ 31 + s.get PTP.TXTS0_OVF * 2 ^ 30 + port * 2 ^ 16 + tag, t.sec / 2 ^ 32 % 2 ^ 16, t.sec % 2 ^ 32, t.ns, t.frac]
  let l := match s.txts with
    | [] => words 0 0 0 ⟨0, 0, 0⟩
    | e :: _ => words 1 e.port e.tag e.time
  let snap := forN 5 (fun i a => Assoc.ins (Page.ptp.base + 0x048 + 4 * i) (l.getD i 0) a) s.snap
  { s with snap := snap, txts := s.txts.drop 1 }.putB PTP.TXTS0_OVF false

/-- The register's value before any capture: its reset value (log entry 103). -/
def resetBits (p : Page) (off : Nat) : Nat :=
  match regAt p off with
  | some r => r.fields.foldl (fun a f => a + f.reset * 2 ^ f.lsb) 0
  | none => 0

/-- A read of the 32-bit register of a page at an offset: the value and the state after (R28, R29). -/
def readWord32 (p : Page) (off : Nat) (s : State) : Nat × State :=
  match snapGroup p off with
  | none => (readReg p off s, s)
  | some (first, w) =>
    if off = first then
      let s := if p = .ptp then txtsPop s
        else { s with snap := forN w (fun i l => Assoc.ins (p.base + first + 4 * i) (readReg p (first + 4 * i) s) l) s.snap }
      ((Assoc.find (p.base + off) s.snap).getD 0, s)
    else ((Assoc.find (p.base + off) s.snap).getD (resetBits p off), s)

/-! ## Writes -/

/-- A write of one field under its access code (R52). W1S fields act in the registers' own meanings; KEY_BUF, the one WO
field without one, keeps what is written. -/
def writeFld (p : Page) (off v : Nat) (f : FieldD) (s : State) : State :=
  let k := regFld p off f
  let x := bits v f.lsb f.width
  match f.acc with
  | .rw | .rwh => s.put k (f.clamp.apply f.width x)
  | .w1c => s.put k (s.get k - (s.get k &&& x))
  | .wo => s.put k x
  | _ => s

/-- Every field of a register is RO or ROL (R52). -/
def readOnly (r : RegD) : Bool := r.fields.all fun f => f.acc == .ro || f.acc == .rol

/-- A write to a block register that has no meaning of its own: its fields under their access codes (R52); logged where
every field is RO or ROL, and at the read-only view of an RWH register (R53, R71); ignored at a reserved offset. -/
def genericWrite (m : Master) (p : Page) (off v : Nat) (s : State) : State :=
  match regAt p off with
  | some r =>
    if readOnly r then logErr p causeRoWrite (masterId m) 0 false off s
    else r.fields.foldl (fun s f => writeFld p off v f s) s
  | none =>
    if 0x840 ≤ off ∧ isRwh p (off - 0x800) then logErr p causeActiveWrite (masterId m) 0 false off s else s

/-- A write of VALID = 1 clears a whole record: the register's fields return to 0 (R69, R92, R439, R470). -/
def clearRecord (p : Page) (off v : Nat) (s : State) : State :=
  if bit v 31 then
    match regAt p off with
    | some r => r.fields.foldl (fun s f => s.put (regFld p off f) 0) s
    | none => s
  else s

/-- A write of 1 bits to SHADOW_STAT or ERR_CAPTURE, and the other header registers (R42, R50 to R52, R69). REFUSE_CAUSE
keeps its value when REFUSED is cleared (R73; log entry 132). -/
def headerEff (m : Master) (p : Page) (off v : Nat) (s : State) : State :=
  let w1c (f : Fld) (b : Nat) (s : State) : State := if bit v b then s.putB f false else s
  if off = 0x008 then ctrlEff p v s
  else if off = 0x010 then s.put (HDR.INT_RAW p) (s.get (HDR.INT_RAW p) - (s.get (HDR.INT_RAW p) &&& v))
  else if off = 0x014 then s.put (HDR.INT_EN p) v
  else if off = 0x018 then intForceEff p v s
  else if off = 0x024 then shadowCtrlEff m p v s
  else if off = 0x028 then w1c (HDR.REFUSED p) 27 (w1c (HDR.LATE_WRITE p) 28 (w1c (HDR.DONE p) 29 s))
  else if off = 0x02C then
    if bit v 31 then
      forL [HDR.ERR_VALID p, HDR.ERR_OVERRUN p, HDR.ERR_CAUSE p, HDR.ERR_MASTER_A p, HDR.ERR_MASTER_B p, HDR.ERR_WIN p,
        HDR.ERR_OFFSET p] (fun f s => s.put f 0) s
    else s
  else if off = 0x030 then s.put (HDR.SCRATCH p) v
  else if off = 0x034 then
    match p with
    | .tumb _ => s.put (HDR.CNT_USER p) v
    | _ => s
  else if off < 0x010 ∨ off = 0x01C then logErr p causeRoWrite (masterId m) 0 false off s
  else s

/-- What a running capture has taken when a raw write of CAP_CTRL aborts it: free values, at most what its words hold. -/
def captureFree (c : Fin 16) (s : State) : List Int × State :=
  let n := Config.freeValue s.freeCtr % (8 * captureLen c s + 1)
  ((List.range n).map fun i => (Config.freeValue (s.freeCtr + 1 + i) : Int), { s with freeCtr := s.freeCtr + 1 + n })

/-- What a write does at a block register, once accepted. `core` marks a write of the carrier Tumbler's CORE context, which
writes the power readings of CONV (R109). The verdict on a recovery image that a raw write of RCV_CMD starts is a free
value. -/
def blockEff (m : Master) (core : Bool) (p : Page) (off v : Nat) (s : State) : State :=
  let other := genericWrite m p off v s
  match p with
  | .conv c =>
    if off = 0x040 then laserCtrlEff c v s else if off = 0x048 then txTargetEff c v s else if off = 0x050 then txCmdEff c v s
    else if off = 0x060 then misCtrlEff c v s
    else if core && m == .tumb (Fin.ofNat 18 c.val) && (off == 0x044 || off == 0x054 || off == 0x05C) then
      powerWrite c (if off = 0x044 then 0 else if off = 0x054 then 1 else 2) (v % 2 ^ 16) s
    else other
  | .cal c => if off = 0x040 then calCtrlEff c v s else other
  | .txdsp c => if off = 0x050 then freqShiftEff c v s else if off = 0x080 then loadCtrlEff c v s else other
  | .rxdsp c =>
    if off = 0x048 then rxCmdEff c v s else if off = 0x074 then eqCmdEff c v s
    else if off = 0x0A0 then
      let f := if s.flag (RXDSP.CAP_STAT_RUNNING c) && bit v 30 then captureFree c s else ([], s)
      capCtrlEff c v f.1 f.2
    else if off = 0x05C then freqFollow c other
    else if off = 0x084 then degradeAll c other
    else other
  | .fec c => if off = 0x058 then excUpdate c other else other
  | .hub c => if off = 0x048 then capCfgEff c v s else other
  | .otu c => if off = 0x040 then otuCtrlEff c v s else other
  | .tsi q => if off = 0x044 then protCmdEff q v s else other
  | .tm _ => if off = 0x04C then clearRecord p off v s else other
  | .ciph q => if off = 0x048 then clearRecord p off v s else if off = 0x040 then wearFollow q s other else other
  | .lanegrp g =>
    if 0x400 ≤ off ∧ off < 0x600 ∧ off % 0x40 = 0 then portCfgEff g (Fin.ofNat 8 ((off - 0x400) / 0x40)) v s
    else if 0x100 ≤ off ∧ off < 0x300 then
      let r : Fin 8 := Fin.ofNat 8 ((off - 0x100) / 0x40)
      if off % 0x40 = 0 then laneCtrlEff g r v s else if off % 0x40 = 4 then txEqEff g r v s
      else if off % 0x40 = 0xC then laneCmdEff g r v s else if off % 0x40 = 0x14 then prbsCtrlEff g r v s else other
    else other
  | .mem q =>
    let d : Fin 5 := Fin.ofNat 5 q.val
    if off = 0x044 then arbCfgEff q 0 v s else if off = 0x048 then arbCfgEff q 1 v s else if off = 0x050 then scrubCfgEff d v s
    else if off = 0x054 then eccTestEff m d v s else if off = 0x060 then drCmdEff m q v s else if off = 0x080 then ueLogEff d v s
    else if 0x100 ≤ off ∧ off < 0x300 ∧ off % 0x20 = 0 then bktCfgEff d (Fin.ofNat 16 ((off - 0x100) / 0x20)) v s
    else other
  | .hubctl =>
    if off = 0x180 then ueLogEff 4 v s else if off = 0x190 then scrubCfgEff 4 v s else if off = 0x194 then eccTestEff m 4 v s
    else if 0x200 ≤ off ∧ off < 0x2C0 ∧ off % 0x20 = 0 then bktCfgEff 4 (Fin.ofNat 16 ((off - 0x200) / 0x20)) v s
    else other
  | .devInt =>
    if off = 0x050 then clearRecord p off v s else if off = 0x060 then vecRearmEff 0 v s else if off = 0x064 then vecRearmEff 1 v s
    else other
  | .pwr => if off = 0x040 then pwrCtrlEff v s else if off = 0x050 then devResetEff m v s else other
  | .timing0 => if off = 0x040 then dpllCtrlEff v s else if off = 0x0A0 then timeCmdEff v s else other
  | .timing1 =>
    if off = 0x04C then ref6Eff v s
    else if 0x100 ≤ off ∧ off < 0x200 ∧ off % 0x20 = 0 then refCfgEff (Fin.ofNat 8 ((off - 0x100) / 0x20)) v s else other
  | .timing2 =>
    if 0x100 ≤ off ∧ off < 0x200 then
      let o : Fin 8 := Fin.ofNat 8 ((off - 0x100) / 0x20)
      if off % 0x20 = 0 then outCfgEff o v s
      else if off % 0x20 = 0xC then
        if o.val < 4 then clkoCmdEff (Fin.ofNat 4 o.val) v s else realignEff (Fin.ofNat 4 (o.val - 4)) v s
      else if o.val < 4 && (off % 0x20 == 4 || off % 0x20 == 8) then clockOut (Fin.ofNat 4 o.val) other
      else other
    else other
  | .keyway => if off = 0x040 then kwCmdEff v s else other
  | .boot =>
    if off = 0x05C then dbgCmdEff v s else if off = 0x060 then rcvAddrEff m v s else if off = 0x064 then rcvDataEff m v s
    else if off = 0x068 then
      let n := Config.freeValue s.freeCtr
      rcvCmdEff m v (fun j => n.testBit j) { s with freeCtr := s.freeCtr + 1 }
    else other
  | .dma n => if off = 0x054 then dmaCmdEff n v s else other
  | .mon d => if off = 0x04C then accClrEff d v s else other
  | .fuse => if off = 0x044 then fuseCmdEff m v s else other
  | .htr q =>
    if 0x100 ≤ off ∧ off < 0x300 then
      let h : Fin 32 := Fin.ofNat 32 ((off - 0x100) / 16)
      if off % 16 < 12 then htrWriteEff m q h (Fin.ofNat 3 (off % 16 / 4)) v s else chStatEff q h v s
    else other
  | .tumb t =>
    if off = 0x044 then tumbCmdEff t v s else if off = 0x068 then doorbellEff t v s else if off = 0x0C0 then cntCtrlEff t v s
    else if 0x180 ≤ off ∧ off < 0x1C0 then permEff m t (Fin.ofNat 8 ((off - 0x180) / 8)) (Fin.ofNat 2 (off % 8 / 4)) v s
    else other
  | .mbx => if off = 0x000 then submitEff v s else if off = 0x008 then ackEff v s else other
  | _ => other

/-- What an accepted write does at its register. -/
def regEff (m : Master) (core : Bool) (p : Page) (off v : Nat) (s : State) : State :=
  if off < 0x040 then headerEff m p off v s else blockEff m core p off v s

/-- A write that the arbiter has let through: a standby write stalls while the page copies forward (R83); otherwise it
goes to its page. -/
def passedWrite (r : BusReq) (core : Bool) (p : Page) (s : State) : State :=
  let off := r.addr - p.base
  let d := r.data % 2 ^ 32
  if isRwh p off && s.flag (HDR.COPYING p) && !stopped p s then stall p r true s
  else atPage r.m p off d (regEff r.m core p off d) s

/-- The hasp whose register lies at an offset of a page (R54, R62). -/
def haspAt (p : Page) (off : Nat) : Option HaspId :=
  if off = 0x020 then some (.page p)
  else if p = .hubctl ∧ 0x100 ≤ off ∧ off < 0x180 then some (.res (Fin.ofNat 32 ((off - 0x100) / 4)))
  else none

/-- A 32-bit write to a register page: the arbiter's checks, then the page (R56, R63, R66). -/
def pageWrite (r : BusReq) (core : Bool) (p : Page) (s : State) : State :=
  let off := r.addr - p.base
  match haspAt p off with
  | some h => haspCmd r.m h (r.data % 2 ^ 32) s
  | none =>
    match arbiterDrops r.m p off s with
    | some s' => s'
    | none => passedWrite r core p s

/-! ## BAR2 (R41) -/

/-- Bytes of a value written at a place of a buffer. -/
def bar2Buffer (a : Nat) : Bool := decide (0x2_0000 ≤ a) && decide (a < 0x5_0000)

/-- The word of the MSI-X table or of the pending-bit array at an offset. -/
def msixRead (a : Nat) (s : State) : Nat :=
  if a < 0xF_0400 then
    let v : Fin 64 := Fin.ofNat 64 ((a - 0xF_0000) / 16)
    match a % 16 / 4 with
    | 0 => s.get (MSIX.ADDR_LO v)
    | 1 => s.get (MSIX.ADDR_HI v)
    | 2 => s.get (MSIX.DATA v)
    | _ => s.get (MSIX.MASKED v)
  else if a = 0xF_8000 then s.vecPend % 2 ^ 32
  else if a = 0xF_8004 then s.vecPend / 2 ^ 32 % 2 ^ 32
  else 0

/-- One aligned 32-bit word of BAR2 as it reads. -/
def bar2Word (a : Nat) (s : State) : Nat :=
  if 0x1_0000 ≤ a ∧ a < 0x1_1000 then readReg .mbx (a - 0x1_0000) s
  else if bar2Buffer a then ofLe (s.getList (bar2Key a) 4)
  else if 0xF_0000 ≤ a then msixRead a s
  else 0

/-- A read of BAR2: register areas answer 32-bit words, buffers any bytes (R41). -/
def bar2Read (a size : Nat) (s : State) : Nat :=
  if bar2Buffer a then ofLe (s.getList (bar2Key a) size)
  else if size = 8 then bar2Word a s + 2 ^ 32 * bar2Word (a + 4) s
  else bits (bar2Word (a / 4 * 4) s) (8 * (a % 4)) (8 * size)

/-- A write of one aligned 32-bit word of BAR2. -/
def bar2Write32 (a v : Nat) (s : State) : State :=
  if a < 0x1_0000 then
    let n : Fin 16 := Fin.ofNat 16 (a / 0x1000)
    if a % 0x1000 = 0 then sqTailEff n v s else if a % 0x1000 = 4 then cqHeadEff n v s else s
  else if a < 0x1_1000 then
    let off := a - 0x1_0000
    match regAt .mbx off with
    | some r => if readOnly r then s else blockEff .pcie false .mbx off v s
    | none => s
  else if 0xF_0000 ≤ a ∧ a < 0xF_0400 then
    let k : Fin 64 := Fin.ofNat 64 ((a - 0xF_0000) / 16)
    match a % 16 / 4 with
    | 0 => s.put (MSIX.ADDR_LO k) v
    | 1 => s.put (MSIX.ADDR_HI k) v
    | 2 => s.put (MSIX.DATA k) v
    | _ => msixFlush (s.putB (MSIX.MASKED k) (bit v 0))
  else s

/-- A write of BAR2: register areas take whole 32-bit words, buffers any bytes (R41). -/
def bar2Write (a size v : Nat) (s : State) : State :=
  if bar2Buffer a then s.putList (bar2Key a) (leBytes size v)
  else if size = 4 then bar2Write32 a (v % 2 ^ 32) s
  else if size = 8 then bar2Write32 (a + 4) (v / 2 ^ 32 % 2 ^ 32) (bar2Write32 a (v % 2 ^ 32) s)
  else s

/-! ## One transaction -/

/-- An address of the table-window region (R36). -/
def inWindows (a : Nat) : Bool := decide (0x0300_0000 ≤ a) && decide (a < 0x0400_0000)

/-- A BAR0 access that is aligned to its own width, of a width the bus knows (R39). -/
def aligned (addr size : Nat) : Bool := (size == 1 || size == 2 || size == 4 || size == 8) && addr % size == 0

/-- The page a transaction waits with: that of its window or register; DEV.INT where nothing is mapped. -/
def pageOf (addr : Nat) : Page :=
  if inWindows addr then (match hitAt addr with | some h => h.page | none => .devInt)
  else (Page.ofAddr addr).getD .devInt

/-- Writes of a master to a page have been held and have not taken effect though its clock has returned: its reads of the page
wait for them (R26). -/
def readWaits (m : Master) (p : Page) (s : State) : Bool :=
  !stopped p s && s.held.any fun w => w.page == p && w.req.m == m

/-- A BAR0 read of a master: none where it waits (R26, R83), else the value and the state after (R39, R40, R52, R88). A read
of a stopped domain never waits (R28). -/
def readAt (m : Master) (addr size : Nat) (s : State) : Option (Nat × State) :=
  if inWindows addr then
    match hitAt addr with
    | some h => if aligned addr size && decide (4 ≤ size) && readStalls h s then none else some (windowRead m addr size s)
    | none => some (windowRead m addr size s)
  else
    match Page.ofAddr addr with
    | none => some (0, unmapped m addr s)
    | some p =>
      let off := addr - p.base
      if !aligned addr size then some (0, logErr p causeNarrow (masterId m) 0 false off s)
      else if readWaits m p s || (isRwh p (off / 4 * 4) && s.flag (HDR.COPYING p) && !stopped p s) then none
      else
        let r := readWord32 p (off / 4 * 4) s
        some (if size < 4 then bits r.1 (8 * (addr % 4)) (8 * size) else r.1, r.2)

/-- A BAR0 write of a master (R39, R40, R52, R88). -/
def writeAt (r : BusReq) (core : Bool) (s : State) : State :=
  if inWindows r.addr then windowWrite r.m r.addr r.size r.data s
  else
    match Page.ofAddr r.addr with
    | none => unmapped r.m r.addr s
    | some p =>
      if !aligned r.addr r.size || decide (r.size < 4) then
        logErr p causeNarrow (masterId r.m) 0 false (r.addr - p.base) s
      else pageWrite r core p s

/-- A page write of a Tumbler that was dropped at its page is counted for the context that issued it (R570, R582): `old` is the
state before. -/
def countPageDrop (m : Master) (core : Bool) (old s : State) : State :=
  match m with
  | .tumb t =>
    let d := ID.hDrop (Fin.ofNat 64 (masterId m))
    if s.get d = old.get d then s else evcOnce t (if core then 0 else 1) 0x0A s
  | _ => s

/-- The data of a read goes to its master; that of an indirect access of the I2C target to IA_DATA (R612). -/
def deliver (r : BusReq) (v : Nat) (s : State) : State :=
  let s := s.send (.readData r.m r.addr v)
  if r.m = .i2c ∧ s.flag PCIE.hIaBusy then s.put PCIE.hIaData v else s

/-- One transaction at its turn (R65): it waits behind a stalled one of its master (R83). BAR2 is the PCIe host's alone, and
no arbiter stands before it. -/
def busTx (core : Bool) (r : BusReq) (s : State) : State :=
  if !mayIssue r.m s then s
  else if r.bar = .bar2 then
    if r.m ≠ .pcie then s
    else if r.isRead then s.send (.readData r.m (bar2Base + r.addr) (bar2Read r.addr r.size s))
    else bar2Write r.addr r.size r.data s
  else if stalledBy r.m s then stall (pageOf r.addr) r false s
  else if r.isRead then
    match readAt r.m r.addr r.size s with
    | none => stall (pageOf r.addr) r true s
    | some (v, s') => deliver r v s'
  else countPageDrop r.m core s (writeAt r core s)

/-! ## Arbiter cycles -/

/-- The transactions of a request: an aligned 64-bit access to a register page is two, lower address first (R39, R65). -/
def txsOf (r : BusReq) : List BusReq :=
  if r.bar = .bar0 ∧ r.size = 8 ∧ r.addr % 8 = 0 ∧ !inWindows r.addr ∧ (Page.ofAddr r.addr).isSome then
    [{ r with size := 4, data := r.data % 2 ^ 32 }, { r with size := 4, addr := r.addr + 4, data := r.data / 2 ^ 32 % 2 ^ 32 }]
  else [r]

/-- Every master, in the order of R65. -/
def Master.all : List Master :=
  [.pcie, .i2c, .ward 0, .ward 1] ++ (List.finRange 18).map Master.tumb ++ [.debug]

/-- The transactions of cycle k: the k-th of every master, in the order of R65. -/
def cycleTxs (reqs : List BusReq) (k : Nat) : List BusReq :=
  Master.all.filterMap fun m => ((reqs.filter fun r => r.m == m).flatMap txsOf)[k]?

/-- The register that a transaction writes: its page and offset; none for windows and BAR2. -/
def txReg (r : BusReq) : Option (Page × Nat) :=
  if r.isRead || r.bar == .bar2 || inWindows r.addr then none
  else (Page.ofAddr r.addr).map fun p => (p, r.addr - p.base)

/-- Writes of one cycle, in order, and the accepted ones by register: those that the engine has not dropped (R68). -/
def cycleWrites (l : List BusReq) (s : State) : List ((Page × Nat) × Master) × State :=
  l.foldl (fun a r =>
    let d := ID.hDrop (Fin.ofNat 64 (masterId r.m))
    let s' := busTx true r a.2
    match txReg r with
    | some x =>
      if s'.get d = a.2.get d ∧ mayIssue r.m a.2 ∧ !stalledBy r.m a.2 then (a.1 ++ [(x, r.m)], s') else (a.1, s')
    | none => (a.1, s')) ([], s)

/-- COLLISION is recorded for every register that two or more accepted writes of the cycle reached (R68). -/
def collisions (acc : List ((Page × Nat) × Master)) (s : State) : State :=
  forL (acc.map (·.1)).dedup (fun x s =>
    match (acc.filter fun y => y.1 == x).reverse with
    | a :: b :: _ => logErr x.1 causeCollision (masterId a.2) (masterId b.2) false x.2 s
    | _ => s) s

/-- A write to INT_RAW, SHADOW_STAT or ERR_CAPTURE of a page. -/
def clearsEvents (r : BusReq) : Bool :=
  match txReg r with
  | some (p, off) => p != .mbx && (off == 0x010 || off == 0x028 || off == 0x02C)
  | none => false

/-- One arbiter cycle: its reads return the values before any of its writes (R67); then the writes, one after another
(R65). Those that clear events come before those that may raise them, because an event of the same cycle stays (R50). -/
def busCycle (l : List BusReq) (s : State) : State :=
  let s := forL (l.filter (·.isRead)) (fun r s => busTx true r s) s
  let ws := l.filter fun r => !r.isRead
  let w := cycleWrites (ws.filter clearsEvents ++ ws.filter fun r => !clearsEvents r) s
  collisions w.1 w.2

/-- Requests that masters present from the same cycle on: each master one transaction in a cycle (R65). -/
def busRun (reqs : List BusReq) (s : State) : State :=
  forN (2 * reqs.length) (fun k s => busCycle (cycleTxs reqs k) s) s

/-- A write falls under a hasp: the page's own, or the registers of its resource; the hasp's own register with it (R56, R62,
R63). -/
def haspCovers (h : HaspId) (r : BusReq) : Bool :=
  if inWindows r.addr then (hitAt r.addr).any fun x => HaspId.page x.page == h
  else
    match h, Page.ofAddr r.addr with
    | .page p, some x => x == p && (haspGuards (r.addr - p.base) || r.addr - p.base == 0x020)
    | .res n, some x => resourceOf x (r.addr - x.base) == some n || (x == .hubctl && r.addr == x.base + 0x100 + 4 * n.val)
    | _, none => false

/-- A write in the cycle in which a lease expires (R61): that of the owner is dropped and logged. -/
def expiryWrite (h : HaspId) (owner : Nat) (r : BusReq) (s : State) : State :=
  if masterId r.m = owner ∧ r.bar = .bar0 ∧ haspCovers h r ∧ mayIssue r.m s ∧ !stalledBy r.m s then
    if inWindows r.addr then logWin (pageOf r.addr) causeHaspDrop owner owner r.addr s
    else logErr (pageOf r.addr) causeHaspDrop owner owner false (r.addr - (pageOf r.addr).base) s
  else busTx true r s

/-- HASP_LEASE_EXPIRY (R60, R61): the tick that ends the lease of a hasp reaches it, and then the writes of the same
arbiter cycle come, that of the owner being dropped. No tick is issued without the core synthesiser (R24). -/
def execHaspLeaseExpiry (h : LeaseEnd) (s : State) : Out :=
  act s fun s =>
    if s.flag PWR.hSynthLock ∧ s.flag (HaspId.held h.hasp) ∧ s.get (HaspId.lease h.hasp) = 1 then
      let owner := s.get (HaspId.owner h.hasp)
      forL ((cycleTxs h.writes 0).filter fun r => !r.isRead) (expiryWrite h.hasp owner) (haspTick h.hasp s)
    else s

/-- REGISTER_WRITE (R52, R65 to R68): register-bus transactions of one or more masters, those of one cycle together. -/
def execRegisterWrite (reqs : List BusReq) (s : State) : Out := act s (busRun reqs)

/-- SNAPSHOT_READ (R29): a master reads the register at a BAR0 address. -/
def execSnapshotRead (m : Master) (addr : Nat) (s : State) : Out := act s (busTx true ⟨m, .bar0, addr, 4, true, 0⟩)

/-- TXTS_READ (R519): a master reads TXTS0. -/
def execTxtsRead (m : Master) (s : State) : Out := act s (busTx true ⟨m, .bar0, Page.ptp.base + 0x048, 4, true, 0⟩)

/-- TABLE_WINDOW_WRITE (R88): a master writes at a table-window address. -/
def execTableWindowWrite (m : Master) (addr size data : Nat) (s : State) : Out :=
  act s (busTx true ⟨m, .bar0, addr, size, false, data⟩)

/-- TABLE_WINDOW_READ (R88, R89): a master reads at a table-window address. -/
def execTableWindowRead (m : Master) (addr size : Nat) (s : State) : Out := act s (busTx true ⟨m, .bar0, addr, size, true, 0⟩)

end Sys2Proof.Machine
end

