-- ==== Sys2Proof/Machine/Beats.lean ====
section
/-! DEFINITION. Beats that release what waits: the hinge beat and the writes that land in it (R80, R81, R84), the end of a
copy-forward (R82, R83), the return of a stopped clock (R27), and the end of a soft reset (R46). -/
namespace Sys2Proof.Machine

/-! ## Waiting transactions -/

/-- A write of a master to a table word, when it comes to its page again: it waits on while the page copies forward, and is
dropped while the page is in soft reset or its windows are closed (R47, R83, R674). -/
def windowPassed (h : Hit) (r : BusReq) (s : State) : State :=
  if windowsClosed h.page s || s.flag (HDR.RESET_BUSY h.page) then
    logWin h.page causeResetBusy (masterId r.m) 0 r.addr s
  else if h.tab.hinged && s.flag (HDR.COPYING h.page) then stall h.page r true s
  else winApply r.m h r.addr r.size r.data (fun d s => tabStore r.m h r.addr (r.size == 8) d s) s

/-- A transaction that the arbiter has let through takes effect. -/
def passedTx (w : HeldWrite) (s : State) : State :=
  if w.req.isRead then
    match readAt w.req.m w.req.addr w.req.size s with
    | none => stall w.page w.req true s
    | some (v, s') => deliver w.req v s'
  else
    countPageDrop w.req.m w.core s
      (if inWindows w.req.addr then
        match hitAt w.req.addr with
        | some h => windowPassed h w.req s
        | none => s
      else passedWrite w.req w.core w.page s)

/-- A transaction that waited comes to its turn; it waits on behind one of its master that still does (R83). ERR of the I2C
target will tell whether its access was dropped (R612). -/
def resumeTx (w : HeldWrite) (s : State) : State :=
  if stalledBy w.req.m s then { s with stalled := s.stalled ++ [w] }
  else
    let s' := if w.passed then passedTx w s else busTx w.core w.req s
    let d := ID.hDrop (Fin.ofNat 64 (masterId .i2c))
    if s'.get d = s.get d then s' else s'.putB PCIE.hIaFail (s.flag PCIE.hIaBusy)

/-- The stalled transactions, in the order in which they were issued (R83). -/
def drainStalled (s : State) : State := forL s.stalled resumeTx { s with stalled := [] }

/-! ## The hinge beat -/

/-- A write that lands in the hinge beat: where it stalls at a page whose hinge was taken in this beat, it is a late write
(R84). -/
def beatWrite (taken : List Page) (r : BusReq) (s : State) : State :=
  let s' := busTx true r s
  match s'.stalled.getLast? with
  | some e =>
    if s.stalled.length < s'.stalled.length ∧ e.passed ∧ e.page ∈ taken then
      { s' with stalled := s'.stalled.dropLast, late := s'.late ++ [e] }.putB (HDR.LATE_WRITE e.page) true
    else s'
  | none => s'

/-- HINGE_TAKE (R74, R80, R81, R84): the hinge beat of the pages `ps`, and the writes that land in it. -/
def execHingeTake (ps : List Page) (ws : List BusReq) (s : State) : Out :=
  act s fun s =>
    let due := hingesDue ps s
    let s' := forL due hingeAct s
    let taken := (due.filter fun x => x.2.isNone && s.flag (HDR.PENDING x.1) && s'.flag (HDR.COPYING x.1)).map (·.1)
    forL ws (beatWrite taken) s'

/-- COPY_FORWARD_DONE (R82 to R84): the copy completes; then the engine's own rows, the late writes and the stalled
transactions follow. -/
def execCopyForwardDone (p : Page) (s : State) : Out :=
  act s fun s =>
    if s.flag (HDR.COPYING p) then
      let s := copyDone p s
      let own := s.engineWrites.filter fun w => w.page == p
      let late := s.late.filter fun w => w.page == p
      let s := { s with
        engineWrites := s.engineWrites.filter (fun w => w.page != p), late := s.late.filter (fun w => w.page != p) }
      drainStalled (forL late passedTx (forL own engineWrite s))
    else s

/-! ## Stopped clocks and soft resets -/

/-- HELD_WRITE_APPLY (R27): the clock of the page has returned, and the writes held for it take effect in the order in
which they were issued; reads that waited for them follow (R26). -/
def execHeldWriteApply (p : Page) (s : State) : Out :=
  act s fun s =>
    if stopped p s then s
    else
      let mine := s.held.filter fun w => w.page == p
      drainStalled (forL mine (fun w s => countPageDrop w.req.m w.core s (passedWrite w.req w.core p s))
        { s with held := s.held.filter fun w => w.page != p })

/-- SOFT_RESET_DONE (R46): the soft reset of a page completes. -/
def execSoftResetDone (p : Page) (s : State) : Out :=
  act s fun s =>
    if s.flag (HDR.RESET_BUSY p) then drainStalled (softDone p (s.putB (HDR.RESET_BUSY p) false)) else s

end Sys2Proof.Machine
end

