-- ==== Sys2Proof/Machine/Tumbus.lean ====
section
/-! DEFINITION. The page-space accesses of the Tumblers at the register bus (R567, R570) and the indirect accesses of the I2C
target (R611, R612). -/
namespace Sys2Proof.Machine

/-! ## Tumblers -/

/-- A page write that context x has posted to the page of an address waits to be issued (R570). -/
def postedTo (t : Fin 18) (x : Fin 2) (addr : Nat) (s : State) : Bool :=
  s.posted.any fun p => p.t == t && p.x == x && pageOf p.addr == pageOf addr

/-- A page read of a Tumbler ends: the data goes to its register, and the context takes its next instruction or halts
(R560, R567, R569). -/
def ldpEnd (t : Fin 18) (x : Fin 2) (v : Nat) (s : State) : State :=
  let rd := s.get (TUMB.hStRd t x)
  let s := if s.get (TUMB.hStall t x) = 1 then tPut t x rd (v % 2 ^ 32) s else aPut t x (rd % 2) (toInt 64 v) s
  let s := (s.put (TUMB.hStall t x) 0).put (TUMB.hPc t x) (tumbPc t x s + 1)
  if s.flag (TUMB.hStop t x) then (tumbForget t x s).put (TUMB.hState t x) tsHalted else s

/-- LDP_DATA_RETURN (R567, R570): the data of the page read for which a context stalls returns after n cycles. It follows the
context's earlier writes to the page, and a copy-forward may hold it (R83). -/
def execLdpDataReturn (t : Fin 18) (x : Fin 2) (n : Nat) (s : State) : Out :=
  act s fun s =>
    let a := s.get (TUMB.hStAddr t x)
    if s.get (TUMB.hStall t x) = 0 ∨ tumbState t x s ≠ tsRunning ∨ postedTo t x a s ∨ stalledBy (.tumb t) s then s
    else
      match readAt (.tumb t) a (if s.get (TUMB.hStall t x) = 1 then 4 else 8) s with
      | none => s
      | some (v, s') => ldpEnd t x v (tumbCycles t n s')

/-- The transactions that wait are marked as a USER write's from the first n on. -/
def markUser (n : Nat) (l : List HeldWrite) : List HeldWrite := l.take n ++ (l.drop n).map fun w => { w with core := false }

/-- A page write of context x is issued to the arbiter. Data words 0 to 2,047 take writes of the CORE context alone
(R565). -/
def issuePost (p : PostedWrite) (s : State) : State :=
  let r : BusReq := ⟨.tumb p.t, .bar0, p.addr, p.size, false, p.data⟩
  let core := p.x == 0
  let own := match hitAt p.addr with
    | some h => h.tab == .data && h.page == .tumb p.t && decide (h.idx < 2048)
    | none => false
  if own && !core then
    countPageDrop r.m core s (logWin (.tumb p.t) causeActiveWrite (masterId r.m) 0 p.addr s)
  else
    let s1 := busTx core r s
    if core then s1
    else
      let old := s.held
      { s1 with stalled := markUser s.stalled.length s1.stalled
                held := s1.held.map fun w => if old.contains w then w else { w with core := false } }

/-- STP_ISSUE (R570): the oldest page write that context x has posted is issued; CORE goes before USER, and a stalled
transaction of the Tumbler holds both. -/
def execStpIssue (t : Fin 18) (x : Fin 2) (s : State) : Out :=
  act s fun s =>
    let mine (y : Fin 2) : List PostedWrite := s.posted.filter fun p => p.t == t && p.x == y
    if stalledBy (.tumb t) s || (x == 1 && mine 0 != []) then s
    else
      match mine x with
      | [] => s
      | p :: _ => issuePost p { s with posted := s.posted.erase p }

/-! ## The I2C target (R611, R612) -/

/-- The registers of the I2C target: address, size in bytes and content (R611). The identity is that of DEV.ID (R3, R636);
ALARM, ALM0 and ALM1 report what drives ALARM_N (R94). -/
def i2cRegs (s : State) : List (Nat × Nat × Nat) :=
  [(0x00, 2, 0x1632), (0x02, 1, s.get ID.REVISION_SIREV), (0x03, 1, s.get ID.REVISION_ORDER),
    (0x04, 8, s.get ID.SERIAL_LO + 2 ^ 32 * s.get ID.SERIAL_HI),
    (0x0C, 1, s.get MBX.MB_STAT_READY + 2 * (decide (0xE ≤ s.get BOOT.BOOT_STAT_STAGE)).toNat),
    (0x10, 1, s.alarm.toNat), (0x11, 3, (summary0 s &&& s.get INT.ALARM_EN0) % 2 ^ 18),
    (0x14, 2, (summary1 s &&& s.get INT.ALARM_EN1) % 2 ^ 16), (0x20, 4, s.get PCIE.hIaAddr), (0x24, 4, s.get PCIE.hIaData),
    (0x28, 1, 128 * s.get PCIE.hIaBusy + s.get PCIE.hIaErr)]

/-- The byte that the I2C target answers at a register address: multi-byte registers are little-endian, and an address of
no register reads 0 (R4, R610, R611). -/
def i2cByte (a : Nat) (s : State) : Nat :=
  match (i2cRegs s).find? fun r => decide (r.1 ≤ a ∧ a < r.1 + r.2.1) with
  | some r => bits r.2.2 (8 * (a - r.1)) 8
  | none => 0

/-- The n bytes of an I2C read that starts at a register address, the address incrementing after each (R610). -/
def i2cRead (a n : Nat) (s : State) : List Nat := (List.range n).map fun k => i2cByte ((a + k) % 256) s

/-- An indirect access starts: IA_ADDR is taken, BUSY sets, and ERR will tell whether the access was dropped. `go` performs
it. A table-window address is not issued. -/
def iaStart (addr : Nat) (go : State → State) (s : State) : State :=
  if s.flag PCIE.hIaBusy then s
  else
    let s := ((s.put PCIE.hIaAddr addr).putB PCIE.hIaBusy true).putB PCIE.hIaErr false
    if inWindows addr then s.putB PCIE.hIaFail true
    else
      let d := ID.hDrop (Fin.ofNat 64 (masterId .i2c))
      let s' := go s
      s'.putB PCIE.hIaFail (s'.get d != s.get d)

/-- I2C_IA_READ (R612): IA_ADDR is written, and IA_CMD with READ. -/
def execI2cIaRead (addr : Nat) (s : State) : Out :=
  act s (iaStart addr (busTx true ⟨.i2c, .bar0, addr, 4, true, 0⟩))

/-- I2C_IA_WRITE (R612): IA_ADDR and IA_DATA are written, and IA_CMD with WRITE. -/
def execI2cIaWrite (addr data : Nat) (s : State) : Out :=
  act s fun s => iaStart addr (fun s => busTx true ⟨.i2c, .bar0, addr, 4, false, data % 2 ^ 32⟩ (s.put PCIE.hIaData data)) s

/-- I2C_IA_DONE (R612): the indirect access completes: BUSY clears, and ERR sets where it was dropped, unmapped or not
issued. A stalled access is not yet complete. -/
def execI2cIaDone (s : State) : Out :=
  act s fun s =>
    if s.flag PCIE.hIaBusy && !stalledBy .i2c s then
      ((s.putB PCIE.hIaBusy false).putB PCIE.hIaErr (s.flag PCIE.hIaFail)).putB PCIE.hIaFail false
    else s

end Sys2Proof.Machine
end

