-- ==== Sys2Proof/Machine/Coreprog.lean ====
section
/-! DEFINITION. What Tawell's CORE programs do at a tick: the loading program of a carrier Tumbler (R201, R579, R580) and the
substrate loop of Tumbler 16 (R602 to R605); and the tick itself (R21 to R24). The spec gives the effect of the programs and
not their code: each iteration is taken whole at the tick that paces it (log entry 176). -/
namespace Sys2Proof.Machine

/-! ## Shared -/

/-- A verified CORE image runs: its context is RUNNING or WAITING and not frozen, and the Tumbler is awake (R559 to R561). -/
def coreRuns (t : Fin 18) (s : State) : Bool :=
  s.flag (TUMB.TUMB_STAT_VALID_C t) && (tumbState t 0 s == tsRunning || tumbState t 0 s == tsWaiting)
    && !s.flag (HDR.FREEZE (.tumb t)) && !s.flag (HDR.RESET_BUSY (.tumb t)) && tumbAwake t s

/-- PARAM[p] as the program takes it: 0 selects the default (R579). -/
def param (t : Fin 18) (p : Fin 16) (dflt : Nat) (s : State) : Nat :=
  if s.get (TUMB.PARAM t p) = 0 then dflt else s.get (TUMB.PARAM t p)

/-- A page write of the program, by its Tumbler as master. -/
def coreWrite (t : Fin 18) (addr size v : Nat) (s : State) : State := busTx true ⟨.tumb t, .bar0, addr, size, false, v⟩ s

/-! ## The loading program (R579, R580) -/

/-- The b low bits of the largest number whose k-th power is at most n, added to v. -/
def rootBits (n k : Nat) : Nat → Nat → Nat
  | 0, v => v
  | b + 1, v => rootBits n k b (if (v + 2 ^ b) ^ k ≤ n then v + 2 ^ b else v)

/-- An SNR in 0.01 dB as a ratio, in units of 2⁻²⁰, rounded down. -/
def snrRatio (snr : Nat) : Nat := rootBits (10 ^ snr * 2 ^ (20 * 1000)) 1000 240 0

/-- ⌊8 × log₂(1 + SNR) − margin / 8⌋ eighths, the margin being in 1/64 bit, within 16 to 48 (R579). -/
def loadFor (snr margin : Nat) : Nat :=
  let one := 2 ^ 20
  let fits (e : Nat) : Bool :=
    decide (8 * e + margin < 16384) && decide (2 ^ (8 * e + margin) * one ^ 64 ≤ (one + snrRatio snr) ^ 64)
  (List.range 33).foldl (fun a i => if fits (16 + i) then 16 + i else a) 16

/-- Rows that the program computes: for a P2P carrier every row, for a hub those of its enabled CONT branches (R580). -/
def programRows (c : Fin 16) (s : State) : List (Fin 16) :=
  (List.finRange 16).filter fun i => (unitsOf c s).any fun b => (unitRows c b s).contains i

/-- A row allows a proposal: VALID = 1 and CONV_UNCONV = 0 (R201). -/
def snrUsable (c i : Fin 16) (s : State) : Bool :=
  s.flag (RXDSP.SC_STAT0_VALID c i) && (List.finRange 4).all fun n => s.flag (CONV.MIS_STAT0_CONVERGED c n)

/-- The table that the measured SNR rows give: PWR_OFS 0 and the rounded loading in every enabled row computed, every other
row as it is in the active table (R579, R580). -/
def measuredTable (c : Fin 16) (t : Fin 18) (s : State) : List Nat :=
  (List.finRange 16).map fun i =>
    let w := s.word (rxLoadRow c true i.val)
    if rowEn w && (programRows c s).contains i then
      2 ^ 63 + loadFor (s.get (RXDSP.SC_STAT0_SNR c i)) (param t 0 32 s) * 2 ^ 48
    else w

/-- Every enabled row that the program computes has a usable SNR. -/
def snrsUsable (c : Fin 16) (s : State) : Bool :=
  (programRows c s).all fun i => !rowEn (s.word (rxLoadRow c true i.val)) || snrUsable c i s

/-- The program has a table to propose: one that differs from the active one and meets R158, on a carrier in service whose
received multiframe is present, while no hinge of the RXDSP page pends or copies forward. -/
def mayPropose (c : Fin 16) (rows : List Nat) (s : State) : Bool :=
  !isLeaf c s && !isZr (s.get (RXDSP.hMode c)) && inTraffic (carState c s) && hingePresent (.rxdsp c) s
    && !s.flag (HDR.PENDING (.rxdsp c)) && !s.flag (HDR.COPYING (.rxdsp c))
    && snrsUsable c s && rows != tableRows (rxLoadRow c true) s && rxTableOk c rows s

/-- BAR0 address of row i of the receive standby table of carrier c (R85, R196). -/
def rxStandbyAddr (c : Fin 16) (i : Nat) : Nat :=
  0x0340_0000 + c.val / 4 * 0x30_0000 + 0x10_0000 + c.val % 4 * 0x8_0000 + 0x200 + 8 * i

/-- The rows are written to the receive standby table, and the RXDSP page is armed PARAM[3] received multiframes ahead:
PAIRED on a P2P carrier, AT_MF on a hub (R580). The program arms no sooner than PARAM[2] ticks later. -/
def propose (c : Fin 16) (t : Fin 18) (rows : List Nat) (s : State) : State :=
  let s := forL (List.range 16) (fun i s => coreWrite t (rxStandbyAddr c i) 8 (rows.getD i 0) s) s
  let m := (hingeMfn (.rxdsp c) s + param t 3 64 s) % 65536
  let mode := if isHub c s then modeAtMf else modePaired
  (coreWrite t ((Page.rxdsp c).base + 0x024) 4 (2 ^ 31 + mode * 2 ^ 27 + m) s).put (TUMB.hArmWait t) (param t 2 1250 s)

/-- The loading program at a tick (R579, R580); a LEAF carrier's proposes nothing. -/
def loadingProgram (t : Fin 18) (s : State) : State :=
  let c : Fin 16 := Fin.ofNat 16 t.val
  let s := s.put (TUMB.hArmWait t) (s.get (TUMB.hArmWait t) - 1)
  let rows := measuredTable c t s
  if bit (param t 1 1 s) 0 && s.get (TUMB.hArmWait t) == 0 && mayPropose c rows s then propose c t rows s else s

/-! ## The substrate loop (R602 to R605) -/

def tSub : Fin 18 := 16

/-- The substrate channels of a quadrant (R602, R603). -/
def subChannels : List (Fin 32) := (List.finRange 8).map fun i => Fin.ofNat 32 (24 + i.val)

/-- The entry of MONq that converts the substrate sensor. -/
def subEntry (s : State) : Fin 16 := Fin.ofNat 16 (param tSub 4 15 s)

/-- The reading of a quadrant's substrate in 0.01 °C, rounded down: MEAN at 65,536 codes per °C above 25.00 °C and the gain of
the entry (R590, R603). -/
def subReading (q : Fin 4) (s : State) : Int :=
  let d : Fin 5 := Fin.ofNat 5 q.val
  let e := subEntry s
  2500 + s.geti (MON.MEAN d e) * 100 / (65536 * 2 ^ min 4 (s.get (MON.SEQ_GAIN d e)))

/-- A reading is credible (R604). -/
def subCredible (q : Fin 4) (s : State) : Bool :=
  let r := subReading q s
  let d : Fin 5 := Fin.ofNat 5 q.val
  s.get (MON.PASS d (subEntry s)) != 0xFFFF && decide (500 ≤ r) && decide (r ≤ 12000)
    && (!s.flag (HTR.hHasRead q) || decide ((r - s.geti (HTR.hRead q)).natAbs ≤ param tSub 5 50 s))

/-- A tick's move of the working target toward PARAM 0 (R603). -/
def subRamp (q : Fin 4) (s : State) : State :=
  let goal := param tSub 0 7500 s * 1250
  let step := param tSub 7 100 s
  let now := s.get (HTR.hWork q)
  s.put (HTR.hWork q) (if now ≤ goal then min goal (now + step) else max goal (now - step))

/-- The working target in 0.01 °C, rounded down. -/
def subTarget (q : Fin 4) (s : State) : Nat := s.get (HTR.hWork q) / 1250

/-- Proportional and integral term together, in 10 µA, rounded down and at least 0 (R602, R603). -/
def subCurrent (q : Fin 4) (accu : Int) (s : State) : Nat :=
  let err : Int := (subTarget q s : Int) - subReading q s
  ((1250 * (param tSub 1 200 s : Int) * err + accu) / 125000).toNat

/-- A current limited to one step of a channel's slew from its output (R603). -/
def subLimit (q : Fin 4) (h : Fin 32) (cur : Nat) (s : State) : Nat :=
  let out := s.get (HTR.CH_STAT_OUT q h)
  let slew := s.get (HTR.CH_CFG_SLEW q h)
  max (out - slew) (min (out + slew) cur)

def htrReg (q : Fin 4) (h : Fin 32) (n : Nat) : Nat := (Page.htr q).base + 0x100 + 16 * h.val + 4 * n

/-- The program names itself owner of a channel, sets WD_TICKS to 8, and SLEW to its default of 2 where the integrator has set
none (R603; log entry 177). -/
def subOwn (q : Fin 4) (h : Fin 32) (s : State) : State :=
  let slew := s.get (HTR.CH_CFG_SLEW q h)
  if s.get (HTR.CH_CFG_OWNER q h) = masterId (.tumb tSub) ∧ s.get (HTR.CH_CFG_WD_TICKS q h) = 8 ∧ slew ≠ 0 then s
  else
    coreWrite tSub (htrReg q h 1) 4
      (s.get (HTR.CH_CFG_EN q h) * 2 ^ 31 + masterId (.tumb tSub) * 2 ^ 24 + 8 * 2 ^ 16 + if slew = 0 then 2 else slew) s

/-- The currents of an iteration are written (R603). The integral takes the error only where the current it leads to is written
whole to the channels, so that it does not wind against the limit. -/
def subDrive (q : Fin 4) (s : State) : State :=
  let err : Int := (subTarget q s : Int) - subReading q s
  let accu := s.geti (HTR.hAccu q) + (param tSub 2 20 s : Int) * err
  let cur := subCurrent q accu s
  let free := subChannels.all fun h => subLimit q h cur s == cur
  let s := if free then s.puti (HTR.hAccu q) accu else s
  let s := s.put (HTR.hCur q) (subLimit q 24 cur s)
  forL subChannels (fun h s => coreWrite tSub (htrReg q h 0) 4 (subLimit q h cur s) s) s

/-- FORCE_SAFE (bit 30) or a write of 1 to FAULTED (bit 31) on every substrate channel (R604). -/
def subChStat (q : Fin 4) (b : Nat) (s : State) : State :=
  forL subChannels (fun h s => coreWrite tSub (htrReg q h 3) 4 (2 ^ b) s) s

/-- A credible reading (R603, R604): it is acted on, or counted toward the end of the suspension; the alarm is raised once
when the reading has been outside its band for 1,250 ticks. -/
def subGood (q : Fin 4) (s : State) : State :=
  let r := subReading q s
  let s := ((s.put (HTR.hCred q) r.toNat).put (HTR.hBadRead q) 0).put (HTR.hGoodRead q) (min 1250 (s.get (HTR.hGoodRead q) + 1))
  let s :=
    if s.flag (HTR.hSuspend q) && s.get (HTR.hGoodRead q) == 1250 then subChStat q 31 (s.putB (HTR.hSuspend q) false) else s
  let far := decide (param tSub 6 200 s < (r - (subTarget q s : Int)).natAbs)
  let n := s.get (HTR.hOutBand q)
  let s := s.put (HTR.hOutBand q) (if far then min 1250 (n + 1) else 0)
  let s :=
    if far && n == 1249 then postEvent evcSubstrateAlarm ([q.val, 0] ++ leBytes 2 r.toNat ++ leBytes 2 (subTarget q s)) s else s
  if s.flag (HTR.hSuspend q) then s else subDrive q s

/-- A reading that is not credible is not acted on; the second in a row suspends the sensor and takes the channels to their
safe currents (R604). -/
def subBad (q : Fin 4) (s : State) : State :=
  let n := s.get (HTR.hBadRead q)
  let s := ((s.put (HTR.hBadRead q) (min 2 (n + 1))).put (HTR.hGoodRead q) 0).put (HTR.hOutBand q) 0
  if n = 1 ∧ !s.flag (HTR.hSuspend q) then subChStat q 30 (s.putB (HTR.hSuspend q) true) else s

/-- The report word of quadrant q (R605). -/
def subWord (q : Fin 4) (on : Bool) (s : State) : Nat :=
  s.get (HTR.hCred q) * 2 ^ 48 + subTarget q s % 2 ^ 16 * 2 ^ 32 + on.toNat * 2 ^ 31 + s.get (HTR.hSuspend q) * 2 ^ 30
    + (s.get (HTR.hOutBand q) == 1250).toNat * 2 ^ 29 + s.get (HTR.hCur q)

/-- One iteration for a controlled quadrant (R603 to R605); the reading becomes that of the previous tick. -/
def subControl (q : Fin 4) (s : State) : State :=
  let s := subRamp q (forL subChannels (subOwn q) s)
  let good := subCredible q s
  let s := if good then subGood q s else subBad q s
  if s.get (MON.PASS (Fin.ofNat 5 q.val) (subEntry s)) = 0xFFFF then s
  else (s.puti (HTR.hRead q) (subReading q s)).putB (HTR.hHasRead q) true

/-- What the program remembers of a quadrant when it begins: nothing; its working target starts at a value that the spec does
not give. -/
def subBegin (q : Fin 4) (s : State) : State :=
  (forL [HTR.hRead q, HTR.hHasRead q, HTR.hCred q, HTR.hAccu q, HTR.hCur q, HTR.hBadRead q, HTR.hGoodRead q, HTR.hSuspend q,
    HTR.hOutBand q] (fun f s => s.put f 0) s).putFree (HTR.hWork q)

/-- The program of Tumbler 16 at a tick (R602 to R605): every awake quadrant that PARAM 3 enables is controlled, and every
quadrant is reported. -/
def substrateProgram (s : State) : State :=
  forFin 4 (fun q s =>
    let on := bit (param tSub 3 0xF s) q.val && qState q s == 0
    let s := if on then subControl q s else s
    s.store (tumbData tSub (16 + q.val)) (subWord q on s)) s

/-! ## Programs and the tick -/

/-- The program begins at its first instruction: it remembers nothing of an earlier run. -/
def programBegin (t : Fin 18) (s : State) : State :=
  let s := (s.putB (TUMB.hFresh t) false).put (TUMB.hArmWait t) 0
  if t = tSub then forFin 4 subBegin s else s

/-- The CORE program of Tumbler t at a tick: loading on the carrier Tumblers, the substrate loop on Tumbler 16, none on
Tumbler 17 (R579). -/
def coreProgram (t : Fin 18) (s : State) : State :=
  if !coreRuns t s then s
  else
    let s := if s.flag (TUMB.hFresh t) then programBegin t s else s
    if t.val < 16 then loadingProgram t s else if t = tSub then substrateProgram s else s

/-- TICK (R21 to R23): device time is sampled, a PM second latches what was counted before the tick (R17), and the tick
reaches every page and Tumbler; then the CORE programs that it paces run (R579, R603). `ms` are the readings of the front ends. No tick is issued until the core synthesiser has
reported lock. -/
def execTick (ms : List Meas) (s : State) : Out :=
  act s fun s =>
    if !s.flag PWR.hSynthLock then s
    else
      let s := forL ms lineMeas s
      let s := timingSample { s with tickCount := s.tickCount + 1 }
      let pm := decide (s.maxSec < s.time.sec)
      let s := if pm then pmSecond { s with maxSec := s.time.sec } else s
      let s := forL HaspId.all haspTick (timingTick ms s)
      let s := forFin 16 carrierTick (forFin 4 quadTick (memTick 4 (monTick 4 s)))
      forFin 18 coreProgram (powerTick (forFin 18 (fun t s => tumbTick t pm s) s))

end Sys2Proof.Machine
end

