-- ==== Sys2Proof/Machine/Ptp.lean ====
section
/-! DEFINITION. PTP on client ports (R394, R515 to R519): recognition, receive records, transmit records and timestamps; and
the classification of client frames, which a terminated PTP frame does not reach (R401, R516). -/
namespace Sys2Proof.Machine

/-! ## Recognition (R515, R516) -/

/-- Where the PTP header of a frame starts, and its transport: 0 Ethernet, 1 UDP over IPv4, 2 UDP over IPv6. `o` is the
offset of the ethertype, behind the VLAN tags. -/
def ptpPayload (b : List Nat) (o : Nat) : Option (Nat × Nat) :=
  let et := ofBe (slice b o 2)
  let ip := o + 2
  let port (u : Nat) : Bool := let p := ofBe (slice b (u + 2) 2); p == 319 || p == 320
  if et = 0x88F7 then some (ip, 0)
  else if et = 0x0800 then
    let u := ip + 4 * (b.getD ip 0 % 16)
    if b.getD ip 0 / 16 = 4 ∧ b.getD (ip + 9) 0 = 17 ∧ ofBe (slice b (ip + 6) 2) % 0x2000 = 0 ∧ port u then some (u + 8, 1)
    else none
  else if et = 0x86DD then
    if b.getD ip 0 / 16 = 6 ∧ b.getD (ip + 6) 0 = 17 ∧ port (ip + 40) then some (ip + 48, 2) else none
  else none

/-- The offset of the ethertype behind up to two VLAN tags. -/
def etherOffset (b : List Nat) : Nat :=
  let tag (o : Nat) : Bool := let t := ofBe (slice b o 2); t == 0x8100 || t == 0x88A8
  if tag 12 then (if tag 16 then 20 else 16) else 12

/-- A frame is a PTP frame under PTP_CFG (R516). -/
def isPtp (b : List Nat) (s : State) : Bool :=
  match ptpPayload b (etherOffset b) with
  | none => false
  | some (h, tr) =>
    let prof := s.get PTP.PTP_CFG_PROFILE
    let on := if tr = 0 then s.flag PTP.PTP_CFG_L2_EN else if tr = 1 then s.flag PTP.PTP_CFG_UDP4_EN else s.flag PTP.PTP_CFG_UDP6_EN
    let dst := ofBe (slice b 0 6)
    on && b.getD (h + 1) 0 % 16 == 2
      && (if prof = 2 then tr == 0 && (dst == 0x011B19000000 || dst == 0x0180C200000E) else if prof = 1 then tr != 0 else true)
      && (!s.flag PTP.PTP_CFG_DOMAIN_CHK || b.getD (h + 4) 0 == s.get PTP.PTP_CFG_DOMAIN)

/-- l of the port whose first lane is lane n of group g. -/
def portLane (g : Fin 32) (n : Fin 8) : Nat := 8 * g.val + n.val

/-- MODE of a port: 0 OFF, 1 TERMINATE, 2 COPY; 3 acts as OFF (R525). -/
def ptpMode (g : Fin 32) (n : Fin 8) (s : State) : Nat := s.get (PTP.PORT_PTP_MODE (Fin.ofNat 256 (portLane g n))) % 3

/-- A frame received on a port is a PTP frame for the host (R515, R516, R525). -/
def ptpTaken (g : Fin 32) (n : Fin 8) (fr : EthFrame) (s : State) : Bool :=
  pageOn .ptp s && portState g n s == ptUp && portUse g n s == usePkt && portTs g n s && !frameBad fr
    && ptpMode g n s != 0 && isPtp fr.bytes s

/-! ## Receive records (R517) -/

/-- A record's bytes: header and frame, padded with zeros to a multiple of 8. -/
def ptpPad (l : List Nat) : List Nat := l ++ List.replicate ((8 - l.length % 8) % 8) 0

/-- The receive record of a frame without its FCS. -/
def rxRecord (lane : Nat) (b : List Nat) (t : DevTime) : List Nat :=
  ptpPad (leBytes 2 b.length ++ [lane, 1] ++ leBytes 6 t.sec ++ leBytes 4 t.ns ++ leBytes 2 t.frac ++ b)

/-- A timestamp with an adjustment of TS_ADJ_TX or TS_ADJ_RX, 1/16 ns (R394, R397). -/
def stampAdj (t : DevTime) (adj : Int) : DevTime := timePlus t (adj * 4096)

/-- The receive ring has a descriptor for one record more (R517, R627). -/
def ptpRoom (s : State) : Bool :=
  let n : Fin 16 := Fin.ofNat 16 (s.get PTP.PTP_CFG_RX_CH)
  let left := (s.get (DMA.DOORBELLS_SQ_TAIL n) + ringSize n s - s.get (DMA.DMA_STAT_HEAD n) % ringSize n s) % ringSize n s
  dmaState n s == dsRun && s.get (DMA.hKind n) == dkPtpRx && !s.flag (DMA.DMA_STAT_OWN_WAIT n) && decide (s.ptpRx.length < left)

/-- PTP_FRAME_RECEIVE (R394, R516, R517): a frame on a port, received at `ts`; what it is as traffic is the business of
CLIENT_FRAME_CLASSIFY. -/
def execPtpFrameReceive (g : Fin 32) (n : Fin 8) (fr : EthFrame) (ts : DevTime) (s : State) : Out :=
  act s fun s =>
    if ptpTaken g n fr s then
      if ptpRoom s then
        let b := fr.bytes.take (fr.bytes.length - 4)
        { s with ptpRx := s.ptpRx ++ [rxRecord (portLane g n) b (stampAdj ts (s.geti (LANEGRP.TS_ADJ_RX g n)))] }
      else (s.incWrap PTP.PTP_STAT_RX_DROP 1).raise .ptp 2
    else s

/-- CLIENT_FRAME_CLASSIFY (R401, R516): a frame from a packet port is classified, unless it is a PTP frame under
TERMINATE. -/
def execClientFrameClassify (g : Fin 32) (n : Fin 8) (fr : EthFrame) (s : State) : Out :=
  act s fun s => if ptpTaken g n fr s && ptpMode g n s == 1 then s else classifyFrame g n fr s

/-! ## Transmit records (R518, R519) -/

/-- One bit step of the Ethernet CRC-32, reflected. PRESUMED from IEEE 802.3 (log entry 99). -/
def crc32Bit (c : Nat) : Nat := if c % 2 = 1 then (c / 2) ^^^ 0xEDB88320 else c / 2

/-- One byte of the Ethernet CRC-32. -/
def crc32Byte (c b : Nat) : Nat := (List.range 8).foldl (fun c _ => crc32Bit c) (c ^^^ b % 256)

/-- The FCS of a frame, in the order its bytes are sent. -/
def fcs (b : List Nat) : List Nat := leBytes 4 (b.foldl crc32Byte 0xFFFFFFFF ^^^ 0xFFFFFFFF)

/-- Bytes of a frame replaced from an offset on; what would lie past its end is dropped. -/
def patch (b : List Nat) (o : Nat) (x : List Nat) : List Nat := ((b.take o ++ x) ++ b.drop (o + x.length)).take b.length

/-- A sum of 16-bit words in ones' complement. -/
def fold16 (v : Nat) : Nat :=
  let w := v % 65536 + v / 65536
  w % 65536 + w / 65536

/-- The sum of the 16-bit words of bytes, most significant byte first. -/
def sum16 : List Nat → Nat
  | a :: b :: l => a * 256 + b + sum16 l
  | [a] => a * 256
  | [] => 0

/-- The UDP checksum after the bytes at an even offset have changed from `old` to `new`. -/
def udpUpdate (hc : Nat) (old new : List Nat) : Nat :=
  let comp (l : List Nat) : List Nat := l.map fun b => 255 - b % 256
  let v := 65535 - fold16 (fold16 (65535 - hc + sum16 (comp old) + sum16 new))
  if v = 0 then 65535 else v

/-- A frame with its one-step fields written (R518): `o` is the offset of the PTP header. -/
def oneStep (b : List Nat) (o : Nat) (csum : Bool) (t : DevTime) : List Nat :=
  let corr := beBytes 8 ((ofBe (slice b (o + 8) 8) + t.frac) % 2 ^ 64)
  let time := beBytes 6 t.sec ++ beBytes 4 t.ns
  let b1 := patch (patch b (o + 8) corr) (o + 34) time
  let hc := ofBe (slice b (o - 2) 2)
  let ipv4 := ofBe (slice b (etherOffset b) 2) == 0x0800
  if csum && decide (2 ≤ o) && !(ipv4 && hc == 0) then
    patch b1 (o - 2) (beBytes 2 (udpUpdate hc (slice b (o + 8) 8 ++ slice b (o + 34) 10) (corr ++ time)))
  else b1

/-- A timestamp enters the TXTS queue (R519). -/
def txtsPush (e : TxStamp) (s : State) : State :=
  if 64 ≤ s.txts.length then (s.putB PTP.TXTS0_OVF true).raise .ptp 1
  else { s with txts := s.txts ++ [e] }.raiseIf .ptp 0 s.txts.isEmpty

/-- The normal egress FIFO of a port has room for a frame of n bytes (R429). -/
def normalRoom (q : Fin 4) (i : Fin 64) (n : Nat) (s : State) : Bool :=
  decide (fifoCells q i false s + cellsOf false n ≤ pmEgrNrm (portMap q i.val 1 s))

/-- A frame is queued in the normal egress FIFO of a port (R429, R518). -/
def toNormalFifo (q : Fin 4) (i : Fin 64) (b : List Nat) (s : State) : State :=
  if !normalRoom q i b.length s then tmCount q cEgrDrop 1 s
  else { s with egress := s.egress ++ [⟨q, i, false, b⟩] }

/-- PTP_TX_RECORD (R394, R518, R519): the oldest record from the host is queued to its port; `ts` is the device time at
which its first bit crosses the transmit lands. Without TS_EN there is no timestamp (log entry 100). -/
def execPtpTxRecord (ts : DevTime) (s : State) : Out :=
  act s fun s =>
    match s.ptpTx with
    | [] => s
    | r :: rest =>
      if !pageOn .ptp s then s
      else
        let s := { s with ptpTx := rest }
        let lane := r.getD 2 0
        let g : Fin 32 := Fin.ofNat 32 (lane / 8)
        let n : Fin 8 := Fin.ofNat 8 lane
        if portState g n s ≠ ptUp ∨ portUse g n s ≠ usePkt then s.incWrap PTP.PTP_STAT_TX_DROP 1
        else
          let flags := r.getD 3 0
          let b := slice r 16 (ofLe (slice r 0 2))
          let t := stampAdj ts (s.geti (LANEGRP.TS_ADJ_TX g n))
          let stamped := portTs g n s
          let b := if bit flags 0 && stamped then oneStep b (ofLe (slice r 6 2)) (bit flags 2) t else b
          let i : Fin 64 := Fin.ofNat 64 (portIndex g n)
          let sent := normalRoom (groupQuad g) i (b.length + 4) s
          let s := toNormalFifo (groupQuad g) i (b ++ fcs b) s
          if bit flags 1 && stamped && sent then txtsPush ⟨lane, ofLe (slice r 4 2), t⟩ s else s

end Sys2Proof.Machine
end

