-- ==== Sys2Proof/Machine/Dispatch.lean ====
section
/-! DEFINITION. The meaning of every command: one call for each constructor of `Instr`. -/
namespace Sys2Proof.Machine

def exec (i : Instr) (s : State) : Host.Outcome State Fault Refusal :=
  match i with
  | .registerWrite reqs => Sys2Proof.Machine.execRegisterWrite reqs s
  | .snapshotRead m addr => Sys2Proof.Machine.execSnapshotRead m addr s
  | .tableWindowWrite m addr size data => Sys2Proof.Machine.execTableWindowWrite m addr size data s
  | .tableWindowRead m addr size => Sys2Proof.Machine.execTableWindowRead m addr size s
  | .heldWriteApply p => Sys2Proof.Machine.execHeldWriteApply p s
  | .coreSynthLock ns => Sys2Proof.Machine.execCoreSynthLock ns s
  | .synthReachesXo => Sys2Proof.Machine.execSynthReachesXo s
  | .tick ms => Sys2Proof.Machine.execTick ms s
  | .clkPresentClear d => Sys2Proof.Machine.execClkPresentClear d s
  | .clkPresentSet d => Sys2Proof.Machine.execClkPresentSet d s
  | .queueSlip x => Sys2Proof.Machine.execQueueSlip x s
  | .intForce m p v => Sys2Proof.Machine.execIntForce m p v s
  | .softReset m p => Sys2Proof.Machine.execSoftReset m p s
  | .softResetDone p => Sys2Proof.Machine.execSoftResetDone p s
  | .enableWrite m p on => Sys2Proof.Machine.execEnableWrite m p on s
  | .freezeWrite m p on => Sys2Proof.Machine.execFreezeWrite m p on s
  | .haspAcquire m h lease => Sys2Proof.Machine.execHaspAcquire m h lease s
  | .haspRelease m h => Sys2Proof.Machine.execHaspRelease m h s
  | .haspLeaseExpiry h => Sys2Proof.Machine.execHaspLeaseExpiry h s
  | .hingeArm m p mode mfSrc mf => Sys2Proof.Machine.execHingeArm m p mode mfSrc mf s
  | .hingeCancel m p => Sys2Proof.Machine.execHingeCancel m p s
  | .hingeTake ps ws => Sys2Proof.Machine.execHingeTake ps ws s
  | .copyForwardDone p => Sys2Proof.Machine.execCopyForwardDone p s
  | .vecRearm m v => Sys2Proof.Machine.execVecRearm m v s
  | .msixUnmask v => Sys2Proof.Machine.execMsixUnmask v s
  | .misUpdate c n errs low residual => Sys2Proof.Machine.execMisUpdate c n errs low residual s
  | .misRestore m c v => Sys2Proof.Machine.execMisRestore m c v s
  | .laserEnWrite m c en relight => Sys2Proof.Machine.execLaserEnWrite m c en relight s
  | .laserLightChange c light => Sys2Proof.Machine.execLaserLightChange c light s
  | .rxOverloadChange c => Sys2Proof.Machine.execRxOverloadChange c s
  | .sigAbsentSet c => Sys2Proof.Machine.execSigAbsentSet c s
  | .sigAbsentClear c => Sys2Proof.Machine.execSigAbsentClear c s
  | .txOn m c => Sys2Proof.Machine.execTxOn m c s
  | .txOff m c => Sys2Proof.Machine.execTxOff m c s
  | .rampUpDone c => Sys2Proof.Machine.execRampUpDone c s
  | .rampDownDone c => Sys2Proof.Machine.execRampDownDone c s
  | .txTargetWrite m c v => Sys2Proof.Machine.execTxTargetWrite m c v s
  | .pwrDevSet c => Sys2Proof.Machine.execPwrDevSet c s
  | .pwrDevClear c => Sys2Proof.Machine.execPwrDevClear c s
  | .autoRelight c => Sys2Proof.Machine.execAutoRelight c s
  | .calStart m c force full => Sys2Proof.Machine.execCalStart m c force full s
  | .calAbort m c => Sys2Proof.Machine.execCalAbort m c s
  | .calAutoStart c => Sys2Proof.Machine.execCalAutoStart c s
  | .calPhaseAdvance c => Sys2Proof.Machine.execCalPhaseAdvance c s
  | .calCommit c result => Sys2Proof.Machine.execCalCommit c result s
  | .nvmStoreDone c ok => Sys2Proof.Machine.execNvmStoreDone c ok s
  | .freqShiftWrite m c v => Sys2Proof.Machine.execFreqShiftWrite m c v s
  | .txMultiframeStart c t => Sys2Proof.Machine.execTxMultiframeStart c t s
  | .branchFrameSend c b => Sys2Proof.Machine.execBranchFrameSend c b s
  | .propose c m => Sys2Proof.Machine.execPropose c m s
  | .accept c m => Sys2Proof.Machine.execAccept c m s
  | .reject c m => Sys2Proof.Machine.execReject c m s
  | .state c _m => Sys2Proof.Machine.execState c _m s
  | .fallbackReq c => Sys2Proof.Machine.execFallbackReq c s
  | .orderRx c m => Sys2Proof.Machine.execOrderRx c m s
  | .orderTx c m => Sys2Proof.Machine.execOrderTx c m s
  | .invalidLoadingMsg c raw => Sys2Proof.Machine.execInvalidLoadingMsg c raw s
  | .pairedNoAccept c => Sys2Proof.Machine.execPairedNoAccept c s
  | .fbAutoTimeout c => Sys2Proof.Machine.execFbAutoTimeout c s
  | .fallbackNow m c v => Sys2Proof.Machine.execFallbackNow m c v s
  | .txFallback c => Sys2Proof.Machine.execTxFallback c s
  | .acqStageComplete c b v => Sys2Proof.Machine.execAcqStageComplete c b v s
  | .acqStageLimit c b => Sys2Proof.Machine.execAcqStageLimit c b s
  | .acqTimeout c b => Sys2Proof.Machine.execAcqTimeout c b s
  | .degradeClear c b => Sys2Proof.Machine.execDegradeClear c b s
  | .reacq m c => Sys2Proof.Machine.execReacq m c s
  | .oos m c => Sys2Proof.Machine.execOos m c s
  | .restoreCarrier m c => Sys2Proof.Machine.execRestoreCarrier m c s
  | .eqReset m c v => Sys2Proof.Machine.execEqReset m c v s
  | .scUnlock c ix => Sys2Proof.Machine.execScUnlock c ix s
  | .sing c ix => Sys2Proof.Machine.execSing c ix s
  | .cycleSlip c ix => Sys2Proof.Machine.execCycleSlip c ix s
  | .trUnlock c => Sys2Proof.Machine.execTrUnlock c s
  | .freqRange c ofs => Sys2Proof.Machine.execFreqRange c ofs s
  | .snrValid c ix => Sys2Proof.Machine.execSnrValid c ix s
  | .captureArm m c v => Sys2Proof.Machine.execCaptureArm m c v s
  | .captureTrigger c => Sys2Proof.Machine.execCaptureTrigger c s
  | .captureDone c ws => Sys2Proof.Machine.execCaptureDone c ws s
  | .captureAbort m c v ws => Sys2Proof.Machine.execCaptureAbort m c v ws s
  | .codewordDecode c b w => Sys2Proof.Machine.execCodewordDecode c b w s
  | .cwLockAcquired c => Sys2Proof.Machine.execCwLockAcquired c s
  | .cwLockLost c => Sys2Proof.Machine.execCwLockLost c s
  | .outerLockAcquired c => Sys2Proof.Machine.execOuterLockAcquired c s
  | .outerLockLost c => Sys2Proof.Machine.execOuterLockLost c s
  | .fecDegSet c => Sys2Proof.Machine.execFecDegSet c s
  | .fecDegClr c => Sys2Proof.Machine.execFecDegClr c s
  | .grantCycleStart c => Sys2Proof.Machine.execGrantCycleStart c s
  | .grants c raw => Sys2Proof.Machine.execGrants c raw s
  | .range c raw k => Sys2Proof.Machine.execRange c raw k s
  | .activate c raw k => Sys2Proof.Machine.execActivate c raw k s
  | .deactivate c raw k => Sys2Proof.Machine.execDeactivate c raw k s
  | .burstTransmit c g index backlog guard => Sys2Proof.Machine.execBurstTransmit c g index backlog guard s
  | .burstCaptureStart c b g ix head pow => Sys2Proof.Machine.execBurstCaptureStart c b g ix head pow s
  | .burstCaptureAbandon c b => Sys2Proof.Machine.execBurstCaptureAbandon c b s
  | .burstRecapture c b head pow => Sys2Proof.Machine.execBurstRecapture c b head pow s
  | .burstHeader c b h => Sys2Proof.Machine.execBurstHeader c b h s
  | .burstEnd c b tphase taps lr => Sys2Proof.Machine.execBurstEnd c b tphase taps lr s
  | .burstMissing c b g ix => Sys2Proof.Machine.execBurstMissing c b g ix s
  | .leafCtxEnable m c r v => Sys2Proof.Machine.execLeafCtxEnable m c r v s
  | .leafCtxDisable m c r v => Sys2Proof.Machine.execLeafCtxDisable m c r v s
  | .deact m c r v => Sys2Proof.Machine.execDeact m c r v s
  | .clrFlags m c r v => Sys2Proof.Machine.execClrFlags m c r v s
  | .leafCtxStale c r => Sys2Proof.Machine.execLeafCtxStale c r s
  | .noDs c => Sys2Proof.Machine.execNoDs c s
  | .leafDsReturn c => Sys2Proof.Machine.execLeafDsReturn c s
  | .frameCandidate c ix pos fas oh => Sys2Proof.Machine.execFrameCandidate c ix pos fas oh s
  | .frameConfirm c ix obs => Sys2Proof.Machine.execFrameConfirm c ix obs s
  | .framerAligned c ix => Sys2Proof.Machine.execFramerAligned c ix s
  | .framerLoss c ix => Sys2Proof.Machine.execFramerLoss c ix s
  | .framerMfnMismatch c ix => Sys2Proof.Machine.execFramerMfnMismatch c ix s
  | .frameReceived c ix fr => Sys2Proof.Machine.execFrameReceived c ix fr s
  | .ttiAccepted c ix => Sys2Proof.Machine.execTtiAccepted c ix s
  | .lof c ix => Sys2Proof.Machine.execLof c ix s
  | .lom c ix => Sys2Proof.Machine.execLom c ix s
  | .statDefectChange c ix => Sys2Proof.Machine.execStatDefectChange c ix s
  | .bdiDefectChange c ix => Sys2Proof.Machine.execBdiDefectChange c ix s
  | .protSwitch q t => Sys2Proof.Machine.execProtSwitch q t s
  | .protRevert q t => Sys2Proof.Machine.execProtRevert q t s
  | .protSwitchApply q t => Sys2Proof.Machine.execProtSwitchApply q t s
  | .forceA m q t => Sys2Proof.Machine.execForceA m q t s
  | .forceB m q t => Sys2Proof.Machine.execForceB m q t s
  | .clear m q t => Sys2Proof.Machine.execClear m q t s
  | .msimChange q t x cycles => Sys2Proof.Machine.execMsimChange q t x cycles s
  | .oduflexAligned q t x => Sys2Proof.Machine.execOduflexAligned q t x s
  | .oduflexLoss q t x => Sys2Proof.Machine.execOduflexLoss q t x s
  | .laneCtrlWrite m g r v => Sys2Proof.Machine.execLaneCtrlWrite m g r v s
  | .laneRestart m g r => Sys2Proof.Machine.execLaneRestart m g r s
  | .laneSlip m g r => Sys2Proof.Machine.execLaneSlip m g r s
  | .txEqWrite m g r v => Sys2Proof.Machine.execTxEqWrite m g r v s
  | .cdrLockAcquired g r => Sys2Proof.Machine.execCdrLockAcquired g r s
  | .cdrLockLost g r => Sys2Proof.Machine.execCdrLockLost g r s
  | .eqConv g r => Sys2Proof.Machine.execEqConv g r s
  | .portEnable m g n v => Sys2Proof.Machine.execPortEnable m g n v s
  | .portDisable m g n v => Sys2Proof.Machine.execPortDisable m g n v s
  | .portUp g n => Sys2Proof.Machine.execPortUp g n s
  | .portAlignLoss g n => Sys2Proof.Machine.execPortAlignLoss g n s
  | .prbsLock g r => Sys2Proof.Machine.execPrbsLock g r s
  | .prbsUnlock g r => Sys2Proof.Machine.execPrbsUnlock g r s
  | .prbsClr m g r v => Sys2Proof.Machine.execPrbsClr m g r v s
  | .clientFrameClassify g n fr => Sys2Proof.Machine.execClientFrameClassify g n fr s
  | .contextEnable m q x v => Sys2Proof.Machine.execContextEnable m q x v s
  | .flush m q x v => Sys2Proof.Machine.execFlush m q x v s
  | .bucketCredit q => Sys2Proof.Machine.execBucketCredit q s
  | .schedulerBeat c taken ue => Sys2Proof.Machine.execSchedulerBeat c taken ue s
  | .wheelSlotReached c coarse => Sys2Proof.Machine.execWheelSlotReached c coarse s
  | .egressFrameReceive q fr => Sys2Proof.Machine.execEgressFrameReceive q fr s
  | .egressFrameSend g n ue => Sys2Proof.Machine.execEgressFrameSend g n ue s
  | .txSegmentSend q a data ue => Sys2Proof.Machine.execTxSegmentSend q a data ue s
  | .rxSegmentReceive q a rcd data n ue => Sys2Proof.Machine.execRxSegmentReceive q a rcd data n ue s
  | .rxTagResult q a rcd n ue => Sys2Proof.Machine.execRxTagResult q a rcd n ue s
  | .assocEnable m q a v => Sys2Proof.Machine.execAssocEnable m q a v s
  | .assocDisable m q a v => Sys2Proof.Machine.execAssocDisable m q a v s
  | .importKek m => Sys2Proof.Machine.execImportKek m s
  | .eraseKek m => Sys2Proof.Machine.execEraseKek m s
  | .importKey m => Sys2Proof.Machine.execImportKey m s
  | .eraseKey m => Sys2Proof.Machine.execEraseKey m s
  | .retirePrev m => Sys2Proof.Machine.execRetirePrev m s
  | .save m => Sys2Proof.Machine.execSave m s
  | .restore m => Sys2Proof.Machine.execRestore m s
  | .discard m => Sys2Proof.Machine.execDiscard m s
  | .keyImportCommit => Sys2Proof.Machine.execKeyImportCommit s
  | .keyEraseCommit => Sys2Proof.Machine.execKeyEraseCommit s
  | .saveComplete => Sys2Proof.Machine.execSaveComplete s
  | .refFault n k => Sys2Proof.Machine.execRefFault n k s
  | .refQualified n => Sys2Proof.Machine.execRefQualified n s
  | .dpllLocked => Sys2Proof.Machine.execDpllLocked s
  | .dpllBwStep => Sys2Proof.Machine.execDpllBwStep s
  | .holdoverExpiry => Sys2Proof.Machine.execHoldoverExpiry s
  | .hoValidSet => Sys2Proof.Machine.execHoValidSet s
  | .dpllModeWrite m v => Sys2Proof.Machine.execDpllModeWrite m v s
  | .stepGo m => Sys2Proof.Machine.execStepGo m s
  | .stepApply => Sys2Proof.Machine.execStepApply s
  | .secGo m => Sys2Proof.Machine.execSecGo m s
  | .secLabelApply => Sys2Proof.Machine.execSecLabelApply s
  | .boApply m => Sys2Proof.Machine.execBoApply m s
  | .invalidate m => Sys2Proof.Machine.execInvalidate m s
  | .update m => Sys2Proof.Machine.execUpdate m s
  | .invalid m => Sys2Proof.Machine.execInvalid m s
  | .ref6Timeout => Sys2Proof.Machine.execRef6Timeout s
  | .refCfgWrite m n v => Sys2Proof.Machine.execRefCfgWrite m n v s
  | .outputEnable m o v => Sys2Proof.Machine.execOutputEnable m o v s
  | .pull m n => Sys2Proof.Machine.execPull m n s
  | .stopPull m n => Sys2Proof.Machine.execStopPull m n s
  | .pullDone n => Sys2Proof.Machine.execPullDone n s
  | .realign m p => Sys2Proof.Machine.execRealign m p s
  | .timeMessage c ix => Sys2Proof.Machine.execTimeMessage c ix s
  | .todMessage l us => Sys2Proof.Machine.execTodMessage l us s
  | .ptpFrameReceive g n fr ts => Sys2Proof.Machine.execPtpFrameReceive g n fr ts s
  | .ptpTxRecord ts => Sys2Proof.Machine.execPtpTxRecord ts s
  | .txtsRead m => Sys2Proof.Machine.execTxtsRead m s
  | .memoryInitDone q => Sys2Proof.Machine.execMemoryInitDone q s
  | .bucketLeak d r => Sys2Proof.Machine.execBucketLeak d r s
  | .eccTestWrite m d v => Sys2Proof.Machine.execEccTestWrite m d v s
  | .read m q => Sys2Proof.Machine.execRead m q s
  | .write m q => Sys2Proof.Machine.execWrite m q s
  | .writeRaw m q => Sys2Proof.Machine.execWriteRaw m q s
  | .drDone q => Sys2Proof.Machine.execDrDone q s
  | .scrubRead d r => Sys2Proof.Machine.execScrubRead d r s
  | .arbiterWindow q h => Sys2Proof.Machine.execArbiterWindow q h s
  | .arbiterSlot q h arr dbg => Sys2Proof.Machine.execArbiterSlot q h arr dbg s
  | .refreshDue q h => Sys2Proof.Machine.execRefreshDue q h s
  | .arbCfgWrite m q which v => Sys2Proof.Machine.execArbCfgWrite m q which v s
  | .tumbStart m t x => Sys2Proof.Machine.execTumbStart m t x s
  | .tumbStop m t x => Sys2Proof.Machine.execTumbStop m t x s
  | .tumbRestart m t x => Sys2Proof.Machine.execTumbRestart m t x s
  | .tumbAutoStart t x => Sys2Proof.Machine.execTumbAutoStart t x s
  | .tumbWatchdog t x => Sys2Proof.Machine.execTumbWatchdog t x s
  | .tumbDoorbell m t x => Sys2Proof.Machine.execTumbDoorbell m t x s
  | .tumbWake t x n => Sys2Proof.Machine.execTumbWake t x n s
  | .ldpDataReturn t x n => Sys2Proof.Machine.execLdpDataReturn t x n s
  | .stpIssue t x => Sys2Proof.Machine.execStpIssue t x s
  | .permWindowWrite m t w which v => Sys2Proof.Machine.execPermWindowWrite m t w which v s
  | .counterFreezeWrite m t on => Sys2Proof.Machine.execCounterFreezeWrite m t on s
  | .counterClr m t v => Sys2Proof.Machine.execCounterClr m t v s
  | .evcOvf t n => Sys2Proof.Machine.execEvcOvf t n s
  | .add t x => Sys2Proof.Machine.execAdd t x s
  | .sub t x => Sys2Proof.Machine.execSub t x s
  | .and t x => Sys2Proof.Machine.execAnd t x s
  | .or t x => Sys2Proof.Machine.execOr t x s
  | .xor t x => Sys2Proof.Machine.execXor t x s
  | .sll t x => Sys2Proof.Machine.execSll t x s
  | .srl t x => Sys2Proof.Machine.execSrl t x s
  | .sra t x => Sys2Proof.Machine.execSra t x s
  | .slt t x => Sys2Proof.Machine.execSlt t x s
  | .sltu t x => Sys2Proof.Machine.execSltu t x s
  | .min t x => Sys2Proof.Machine.execMin t x s
  | .max t x => Sys2Proof.Machine.execMax t x s
  | .adds t x => Sys2Proof.Machine.execAdds t x s
  | .addi t x => Sys2Proof.Machine.execAddi t x s
  | .andi t x => Sys2Proof.Machine.execAndi t x s
  | .ori t x => Sys2Proof.Machine.execOri t x s
  | .xori t x => Sys2Proof.Machine.execXori t x s
  | .slli t x => Sys2Proof.Machine.execSlli t x s
  | .srli t x => Sys2Proof.Machine.execSrli t x s
  | .srai t x => Sys2Proof.Machine.execSrai t x s
  | .slti t x => Sys2Proof.Machine.execSlti t x s
  | .lui t x => Sys2Proof.Machine.execLui t x s
  | .movt t x => Sys2Proof.Machine.execMovt t x s
  | .mul t x => Sys2Proof.Machine.execMul t x s
  | .mac t x => Sys2Proof.Machine.execMac t x s
  | .msu t x => Sys2Proof.Machine.execMsu t x s
  | .mova t x => Sys2Proof.Machine.execMova t x s
  | .ld t x => Sys2Proof.Machine.execLd t x s
  | .st t x => Sys2Proof.Machine.execSt t x s
  | .lda t x => Sys2Proof.Machine.execLda t x s
  | .sta t x => Sys2Proof.Machine.execSta t x s
  | .ldp t x => Sys2Proof.Machine.execLdp t x s
  | .stp t x => Sys2Proof.Machine.execStp t x s
  | .ldpw t x => Sys2Proof.Machine.execLdpw t x s
  | .stpw t x => Sys2Proof.Machine.execStpw t x s
  | .beq t x => Sys2Proof.Machine.execBeq t x s
  | .bne t x => Sys2Proof.Machine.execBne t x s
  | .blt t x => Sys2Proof.Machine.execBlt t x s
  | .bge t x => Sys2Proof.Machine.execBge t x s
  | .bltu t x => Sys2Proof.Machine.execBltu t x s
  | .bgeu t x => Sys2Proof.Machine.execBgeu t x s
  | .jal t x => Sys2Proof.Machine.execJal t x s
  | .jr t x => Sys2Proof.Machine.execJr t x s
  | .waitt t x => Sys2Proof.Machine.execWaitt t x s
  | .waite t x => Sys2Proof.Machine.execWaite t x s
  | .halt t x => Sys2Proof.Machine.execHalt t x s
  | .trap t x => Sys2Proof.Machine.execTrap t x s
  | .rdc t x => Sys2Proof.Machine.execRdc t x s
  | .frzc t x => Sys2Proof.Machine.execFrzc t x s
  | .runc t x => Sys2Proof.Machine.execRunc t x s
  | .rdtk t x => Sys2Proof.Machine.execRdtk t x s
  | .illegal t x => Sys2Proof.Machine.execIllegal t x s
  | .monPassStart d => Sys2Proof.Machine.execMonPassStart d s
  | .monDwellEnd d outs => Sys2Proof.Machine.execMonDwellEnd d outs s
  | .monPassEnd d => Sys2Proof.Machine.execMonPassEnd d s
  | .accClr m d v => Sys2Proof.Machine.execAccClr m d v s
  | .heaterSetptWrite m q h which v => Sys2Proof.Machine.execHeaterSetptWrite m q h which v s
  | .stale q h => Sys2Proof.Machine.execStale q h s
  | .htrOpen q h => Sys2Proof.Machine.execOpen q h s
  | .short q h => Sys2Proof.Machine.execShort q h s
  | .trip q => Sys2Proof.Machine.execTrip q s
  | .supply q => Sys2Proof.Machine.execSupply q s
  | .forceSafe m q h => Sys2Proof.Machine.execForceSafe m q h s
  | .faultedClear m q h => Sys2Proof.Machine.execFaultedClear m q h s
  | .pcieFunctionReset kind => Sys2Proof.Machine.execPcieFunctionReset kind s
  | .i2cBusTimeout => Sys2Proof.Machine.execI2cBusTimeout s
  | .i2cIaRead addr => Sys2Proof.Machine.execI2cIaRead addr s
  | .i2cIaWrite addr data => Sys2Proof.Machine.execI2cIaWrite addr data s
  | .i2cIaDone => Sys2Proof.Machine.execI2cIaDone s
  | .sqTail n v => Sys2Proof.Machine.execSqTail n v s
  | .cqHead n v => Sys2Proof.Machine.execCqHead n v s
  | .dmaDescriptorFetch n desc => Sys2Proof.Machine.execDmaDescriptorFetch n desc s
  | .dmaBurst n data drain => Sys2Proof.Machine.execDmaBurst n data drain s
  | .dmaDescriptorComplete n => Sys2Proof.Machine.execDmaDescriptorComplete n s
  | .dmaHostError n record => Sys2Proof.Machine.execDmaHostError n record s
  | .abort m n => Sys2Proof.Machine.execAbort m n s
  | .resume m n => Sys2Proof.Machine.execResume m n s
  | .submit => Sys2Proof.Machine.execSubmit s
  | .ack => Sys2Proof.Machine.execAck s
  | .getInfo => Sys2Proof.Machine.execGetInfo s
  | .getLog => Sys2Proof.Machine.execGetLog s
  | .loadImage sigs => Sys2Proof.Machine.execLoadImage sigs s
  | .stageFirmware sigs ok => Sys2Proof.Machine.execStageFirmware sigs ok s
  | .attest => Sys2Proof.Machine.execAttest s
  | .getCert => Sys2Proof.Machine.execGetCert s
  | .debugUnlock sig => Sys2Proof.Machine.execDebugUnlock sig s
  | .mbEventPost code data => Sys2Proof.Machine.execMbEventPost code data s
  | .wardCoreReset n cause addr => Sys2Proof.Machine.execWardCoreReset n cause addr s
  | .bootStageComplete sigs flash ms => Sys2Proof.Machine.execBootStageComplete sigs flash ms s
  | .rcvData m v => Sys2Proof.Machine.execRcvData m v s
  | .go m sigs => Sys2Proof.Machine.execGo m sigs s
  | .lock m => Sys2Proof.Machine.execLock m s
  | .programOwner m arg => Sys2Proof.Machine.execProgramOwner m arg s
  | .revokeOwner m arg => Sys2Proof.Machine.execRevokeOwner m arg s
  | .advanceArb m arg => Sys2Proof.Machine.execAdvanceArb m arg s
  | .programKekSeed m => Sys2Proof.Machine.execProgramKekSeed m s
  | .setCosign m => Sys2Proof.Machine.execSetCosign m s
  | .disableDebug m => Sys2Proof.Machine.execDisableDebug m s
  | .fuseCmdDone => Sys2Proof.Machine.execFuseCmdDone s
  | .pwrOkRise => Sys2Proof.Machine.execPwrOkRise s
  | .pwrOkFall rails => Sys2Proof.Machine.execPwrOkFall rails s
  | .resetNAssert => Sys2Proof.Machine.execResetNAssert s
  | .resetRelease strap => Sys2Proof.Machine.execResetRelease strap s
  | .devReset m key go => Sys2Proof.Machine.execDevReset m key go s
  | .pwrCtrlWrite m v => Sys2Proof.Machine.execPwrCtrlWrite m v s
  | .standbyReqChange level => Sys2Proof.Machine.execStandbyReqChange level s
  | .parkDone c => Sys2Proof.Machine.execParkDone c s
  | .unparkDone c => Sys2Proof.Machine.execUnparkDone c s
  | .quadAsleep q => Sys2Proof.Machine.execQuadAsleep q s
  | .quadAwake q => Sys2Proof.Machine.execQuadAwake q s
  | .parkExitStagger q => Sys2Proof.Machine.execParkExitStagger q s
  | .standbyReached => Sys2Proof.Machine.execStandbyReached s
  | .standbyExitDone ms => Sys2Proof.Machine.execStandbyExitDone ms s
  | .scLock c ix => Sys2Proof.Machine.execScLock c ix s
  | .outputEdge p k => Sys2Proof.Machine.execOutputEdge p k s
  | .refFaultClear n k => Sys2Proof.Machine.execRefFaultClear n k s
  | .linkUp speed width => Sys2Proof.Machine.execLinkUp speed width s
  | .aerError uncorr => Sys2Proof.Machine.execAerError uncorr s
  | .remoteFault g n on => Sys2Proof.Machine.execRemoteFault g n on s
  | .hiSer g n on => Sys2Proof.Machine.execHiSer g n on s
  | .oduflexStatChange q t x stat => Sys2Proof.Machine.execOduflexStatChange q t x stat s
  | .keywayCmdDone => Sys2Proof.Machine.execKeywayCmdDone s
  | .mbResponse => Sys2Proof.Machine.execMbResponse s
  | .testLogicReset => Sys2Proof.Machine.execTestLogicReset s
  | .burstGuardStart c b g ix => Sys2Proof.Machine.execBurstGuardStart c b g ix s

end Sys2Proof.Machine
end

