-- ==== Sys2Proof/Machine/Idle.lean ====
section
/-! DEFINITION. What the engine does while no command waits. -/
namespace Sys2Proof.Machine

/-- Time passes without a command (log entry 57): every carrier sends the next frame of the transmit multiframe that its
last TX_MULTIFRAME_START began, while frames of it are left (R303). -/
def idle (s : State) : Out := act s (forFin 16 txFrame)

end Sys2Proof.Machine
end

