-- ==== Sys2Proof/Safety.lean ====
section
/-! DEFINITION. The terms in which statements about a step are made: when a register write has its effect at once, what a
step leaves alone, and the invariants of the interrupt chain and of the memories. -/
namespace Sys2Proof.Machine

/-- A register write of master m at offset off of page p is issued, waits for nothing, is dropped by no hasp (R56, R63),
and finds its page running (R27) and, at a block register, in no soft reset (R47). -/
abbrev Accepts (m : Master) (p : Page) (off : Nat) (s : State) : Prop :=
  mayIssue m s = true ∧ stalledBy m s = false ∧ (haspGuards off && s.heldByOther m (.page p)) = false
    ∧ ((resourceOf p off).elim false fun n => s.heldByOther m (.res n)) = false ∧ stopped p s = false
    ∧ (s.held.any fun w => w.page == p) = false ∧ (s.flag (HDR.RESET_BUSY p) && decide (0x040 ≤ off)) = false

/-- A write of master m to a table window of page p is issued, waits for nothing, is dropped by no hasp (R56), and finds the
windows of the page open and the page in no soft reset (R47, R674). -/
abbrev AcceptsWindow (m : Master) (p : Page) (s : State) : Prop :=
  mayIssue m s = true ∧ stalledBy m s = false ∧ s.heldByOther m (.page p) = false ∧ windowsClosed p s = false
    ∧ s.flag (HDR.RESET_BUSY p) = false

/-- KW_CMD has taken operation op: BUSY is set, the result and its cause are cleared, and KW_ARG0 is sampled (R465, R471,
R472). -/
def kwBegun (op : Nat) (s : State) : State :=
  let s1 := (((s.put KEYWAY.KW_STAT_BUSY 1).put KEYWAY.KW_STAT_RESULT 0).put KEYWAY.KW_STAT_CAUSE 0).put KEYWAY.hOp op
  ((s1.put KEYWAY.hArg (kwArg0 s1)).put KEYWAY.hRes 0).put KEYWAY.hCause 0

/-- The instruction word that context x of Tumbler t fetches, and the state once its fetch and its cycle are accounted for
(R561, R567, R582). -/
def tumbInstr (t : Fin 18) (x : Fin 2) (s : State) : Nat := (tumbFetch t x s).2.1
def tumbRan (t : Fin 18) (x : Fin 2) (s : State) : State := evcOnce t x 1 (tumbCycles t 1 (tumbFetch t x s).2.2)

/-- Context x of Tumbler t issues, and its fetch reads a legal instruction of opcode op (R559, R561, R569, R573). -/
abbrev TumbRuns (t : Fin 18) (x : Fin 2) (op : Nat) (s : State) : Prop :=
  tumbIssues t x s = true ∧ (tumbFetch t x s).1 ≠ .ue ∧ fOp (tumbInstr t x s) = op ∧ tumbLegal (tumbInstr t x s) = true

/-- The PC of context x can move to the next instruction (R571). -/
abbrev TumbSeq (t : Fin 18) (x : Fin 2) (s : State) : Prop := (tumbPc t x s + 1) / 4096 = x.val

/-- The sequential end of an instruction (R567). -/
def tumbNext (t : Fin 18) (x : Fin 2) (pc : Nat) (s : State) : State := s.put (TUMB.hPc t x) (pc + 1)

/-- How many keys the implied state of a page may take. -/
def Page.hidSize : Page → Nat
  | .keyway | .tm _ | .ciph _ | .otu _ => 0x10_0000
  | _ => 0x1_0000

/-- A field belongs to page p: its key lies in the 4 KiB of the page or among the keys of what the rules imply for it. -/
abbrev Fld.onPage (f : Fld) (p : Page) : Prop :=
  (8 * p.base ≤ f.key ∧ f.key < 8 * (p.base + 0x1000)) ∨ (8 * p.hidBase ≤ f.key ∧ f.key < 8 * (p.hidBase + Page.hidSize p))

/-- Every register field that belongs to none of the pages `ps` reads the same in both states. -/
def OnlyPages (ps : List Page) (s t : State) : Prop :=
  ∀ f : Fld, (∀ p ∈ ps, ¬ f.onPage p) → t.get f = s.get f

/-- The second state differs from the first in registers and in what the interrupt chain follows, and in nothing else: the
memories, device time, every queue and buffer, the waiting transactions and commands are the same. -/
def RegistersOnly (s t : State) : Prop :=
  t = { s with cells := t.cells, vecIn := t.vecIn, vecPend := t.vecPend, sumPrev := t.sumPrev, sumPend := t.sumPend, alarm := t.alarm, sent := t.sent }

/-- As RegistersOnly, but the words of the memories may differ too. -/
def RegistersAndMemory (s t : State) : Prop :=
  t = { s with cells := t.cells, mem := t.mem, vecIn := t.vecIn, vecPend := t.vecPend, sumPrev := t.sumPrev, sumPend := t.sumPend, alarm := t.alarm, sent := t.sent }

/-- The outputs of the interrupt chain agree with the pages they summarise (R90 to R94): the inputs of the vectors, the
summary outputs that Tumblers watch, and ALARM_N. While the engine is in reset nothing is claimed. -/
def ChainSettled (s : State) : Prop :=
  s.inReset = false →
    s.vecIn = vecInputs s ∧ s.sumPrev = sumOutputs s
      ∧ (s.alarm = true ↔ summary0 s &&& s.get INT.ALARM_EN0 ≠ 0 ∨ summary1 s &&& s.get INT.ALARM_EN1 ≠ 0)

end Sys2Proof.Machine
end

