-- ==== Sys2Proof/Certificates/Slice0/Obligations.lean ====
section
/-! DEFINITION. The statements for the provers. A clause of a command holds for every state and every operand that meet its
hypotheses, and gives the whole next state or what the step leaves alone; `commit` is what the interrupt chain adds to the
effect (R90 to R94). Where the spec leaves a point open the clauses follow the log entries that a docstring names, which are
the model's choices and no rules of the spec. -/
open Sys2Proof Sys2Proof.Machine

/-- The transmitter of a carrier lights, ramps and darkens. It rests on rules R110, R119 and R122, of which it states
what its clauses say. The model's choices in it: log entry 93. -/
def Obligations.TransmitterCommands : Prop :=
  (∀ (m : Master) (c : Fin 16) (s : State),
      s.inReset = false →
      Accepts m (.conv c) 0x050 s →
      s.flag (CONV.LASER_CTRL_EN c) = true →
      s.flag (HDR.ENABLE (.conv c)) = true →
      s.get (PWR.hPark c) = 0 →
      s.get (CONV.TX_STAT_STATE c) = txDark →
      s.flag (CONV.LASER_STAT_LIGHT c) = true →
      exec (.txOn m c) s = .next (commit s.pending (rampTimes c (((s.put (CONV.TX_STAT_STATE c) txRampUp).put (CONV.hRelight c) 0).puti (CONV.hLevel c) (s.geti (CONV.TX_TARGET_TARGET c) * 100000 - 30000000)))))
    ∧ (∀ (m : Master) (c : Fin 16) (s : State),
      s.inReset = false →
      Accepts m (.conv c) 0x050 s →
      ((s.get (CONV.TX_STAT_STATE c) = txRampUp ∨ s.get (CONV.TX_STAT_STATE c) = txLit ∨ s.get (CONV.TX_STAT_STATE c) = txBurst)) →
      exec (.txOff m c) s = .next (commit s.pending (rampTimes c (setTx c txRampDown s))))
    ∧ (∀ (c : Fin 16) (s : State),
      s.inReset = false →
      s.get (CONV.TX_STAT_STATE c) = txRampUp →
      s.flag (HDR.FREEZE (.conv c)) = false →
      levelUp c s = s.geti (CONV.TX_TARGET_TARGET c) * 100000 →
      exec (.rampUpDone c) s = .next (commit s.pending ((((s.put (CONV.TX_STAT_STATE c) (if isLeaf c s && leafBurst c s then txBurst else txLit)).put (CONV.hRelight c) 0).puti (CONV.hLevel c) (s.geti (CONV.TX_TARGET_TARGET c) * 100000)).raise (.conv c) 6)))
    ∧ (∀ (c : Fin 16) (s : State),
      s.inReset = false →
      s.get (CONV.TX_STAT_STATE c) = txRampDown →
      s.flag (HDR.FREEZE (.conv c)) = false →
      levelDown c s ≤ s.geti (CONV.TX_TARGET_TARGET c) * 100000 - 30000000 →
      exec (.rampDownDone c) s = .next (commit s.pending (laserFollow c ((((s.put (CONV.TX_STAT_STATE c) txDark).put (CONV.hRelight c) 0).puti (CONV.hLevel c) (levelDown c s)).raise (.conv c) 6))))
    ∧ (∀ (c : Fin 16) (s : State),
      s.inReset = false →
      s.get (CONV.TX_STAT_STATE c) = txShuttered →
      s.flag (CONV.LASER_CTRL_AUTO_RELIGHT c) = true →
      s.flag (CONV.LASER_CTRL_EN c) = true →
      s.flag (HDR.ENABLE (.conv c)) = true →
      s.get (PWR.hPark c) = 0 →
      s.flag (CONV.LASER_STAT_LIGHT c) = true →
      125 ≤ s.get (CONV.hRelight c) →
      exec (.autoRelight c) s = .next (commit s.pending (rampTimes c (((s.put (CONV.TX_STAT_STATE c) txRampUp).put (CONV.hRelight c) 0).puti (CONV.hLevel c) (s.geti (CONV.TX_TARGET_TARGET c) * 100000 - 30000000)))))
    ∧ (∀ (m : Master) (c : Fin 16) (v : Nat) (s : State),
      s.inReset = false →
      Accepts m (.conv c) 0x048 s →
      s.get (CONV.TX_STAT_STATE c) ≠ txLit →
      s.get (CONV.TX_STAT_STATE c) ≠ txBurst →
      exec (.txTargetWrite m c v) s = .next (commit s.pending (s.put (CONV.TX_TARGET_TARGET c) ((Clamp.i (-100) 10).apply 8 (v % 256)))))
    ∧ (∀ (m : Master) (c : Fin 16) (relight : Bool) (s : State),
      s.inReset = false →
      Accepts m (.conv c) 0x040 s →
      exec (.laserEnWrite m c true relight) s = .next (commit s.pending (laserFollow c ((s.put (CONV.LASER_CTRL_AUTO_RELIGHT c) relight.toNat).put (CONV.LASER_CTRL_EN c) 1))))

/-- The detectors of the laser input and of the receiver report. It rests on rules R111, R113, R114 and R120, of which
it states what its clauses say. -/
def Obligations.LaserAndReceiverDetectors : Prop :=
  (∀ (c : Fin 16) (s : State),
      s.inReset = false →
      (s.get (CONV.TX_STAT_STATE c) = txLit ∨ s.get (CONV.TX_STAT_STATE c) = txBurst) →
      125 ≤ s.get (CONV.hLitTicks c) →
      125 ≤ s.get (CONV.hDevCnt c) →
      s.flag (CONV.TX_STAT_PWR_DEV c) = false →
      exec (.pwrDevSet c) s = .next (commit s.pending ((s.put (CONV.TX_STAT_PWR_DEV c) 1).raise (.conv c) 7)))
    ∧ (∀ (c : Fin 16) (s : State),
      s.inReset = false →
      125 ≤ s.get (CONV.hOkCnt c) →
      exec (.pwrDevClear c) s = .next (commit s.pending (s.put (CONV.TX_STAT_PWR_DEV c) 0)))
    ∧ (∀ (c : Fin 16) (s : State),
      s.inReset = false →
      s.flag (CONV.LASER_STAT_LIGHT c) = false →
      exec (.laserLightChange c true) s = .next (commit s.pending (inRangeUpdate c ((s.put (CONV.LASER_STAT_LIGHT c) 1).put (CONV.LASER_STAT_MEAS_VALID c) 0))))
    ∧ (∀ (c : Fin 16) (s : State),
      s.inReset = false →
      s.flag (CONV.LASER_STAT_LIGHT c) = true →
      (s.get (CONV.TX_STAT_STATE c) = txDark ∨ s.get (CONV.TX_STAT_STATE c) = txShuttered) →
      exec (.laserLightChange c false) s = .next (commit s.pending (calAbort c ccLightLost (inRangeUpdate c ((s.put (CONV.LASER_STAT_LIGHT c) 0).raise (.conv c) 0)))))
    ∧ (∀ (c : Fin 16) (s : State),
      s.inReset = false →
      400 < s.geti (CONV.RX_STAT_PWR c) →
      s.flag (CONV.RX_STAT_OVERLOAD c) = false →
      exec (.rxOverloadChange c) s = .next (commit s.pending ((s.put (CONV.RX_STAT_OVERLOAD c) 1).raise (.conv c) 3)))
    ∧ (∀ (c : Fin 16) (s : State),
      s.inReset = false →
      s.flag (CONV.RX_STAT_SIG_ABSENT c) = false →
      exec (.sigAbsentSet c) s = .next (commit s.pending (losChange c (lossAll c lcSigAbsent ((s.put (CONV.RX_STAT_SIG_ABSENT c) 1).raise (.conv c) 2)))))
    ∧ (∀ (c : Fin 16) (s : State),
      s.inReset = false →
      s.flag (CONV.RX_STAT_SIG_ABSENT c) = true →
      exec (.sigAbsentClear c) s = .next (commit s.pending (losChange c (((forFin 4 (fun n s => s.put (CONV.hMisAbsent c n) 1) s).put (CONV.RX_STAT_SIG_ABSENT c) 0).raise (.conv c) 2))))

/-- Background correction and foreground calibration proceed. It rests on rules R102 to R107, R123 to R126, R130,
R134, R137 and R138, of which it states what its clauses say. The model's choices in it: log entries 134, 164, 165,
168. -/
def Obligations.CorrectionAndCalibration : Prop :=
  (∀ (c : Fin 16) (n : Fin 4) (errs : List Int) (low : Bool) (residual : Int) (s : State),
      s.inReset = false →
      misRuns c s = true →
      max 1 (s.get (CONV.MIS_CTRL_INTERVAL c)) ≤ s.get (CONV.hMisTicks c n) →
      misComplete c n s = true →
      (low || s.flag (CONV.hMisAbsent c n) || s.flag (CONV.RX_STAT_SIG_ABSENT c)) = true →
      exec (.misUpdate c n errs low residual) s = .next (commit s.pending (((s.put (CONV.hMisAbsent c n) 0).put (CONV.hMisAcc c n) 0).put (CONV.MIS_STAT0_SKIPPED c n) 1)))
    ∧ (∀ (c : Fin 16) (n : Fin 4) (errs : List Int) (residual : Int) (s : State),
      s.inReset = false →
      misRuns c s = true →
      max 1 (s.get (CONV.MIS_CTRL_INTERVAL c)) ≤ s.get (CONV.hMisTicks c n) →
      misComplete c n s = true →
      s.flag (CONV.hMisAbsent c n) = false →
      s.flag (CONV.RX_STAT_SIG_ABSENT c) = false →
      ∃ t, exec (.misUpdate c n errs false residual) s = .next t ∧ t.flag (CONV.MIS_STAT0_SKIPPED c n) = false ∧ t.get (CONV.hMisTicks c n) = 0 ∧ t.get (CONV.hMisAcc c n) = 0 ∧ t.get (CONV.MIS_STAT0_UPDATES c n) = (s.get (CONV.MIS_STAT0_UPDATES c n) + 1) % 65536 ∧ (∀ (i : Fin 64) (k : Fin 4), t.geti (CONV.hCorr c n i k) = clampI (-corrLimit k.val) (corrLimit k.val) (s.geti (CONV.hCorr c n i k) + errs.getD (4 * i.val + k.val) 0)) ∧ t.get (CONV.MIS_STAT0_SLICES_AT_LIMIT c n) = slicesAtLimit c n t ∧ t.geti (CONV.MIS_STAT1_RESIDUAL c n) = clampI (-32768) 32767 residual ∧ t.flag (CONV.MIS_STAT0_CONVERGED c n) = (if -370 < residual then false else s.flag (CONV.MIS_STAT0_CONVERGED c n) || (decide (residual ≤ -400) && decide (3 ≤ s.get (CONV.hMisGood c n)))) ∧ OnlyPages [.conv c] s t ∧ RegistersOnly s t)
    ∧ (∀ (m : Master) (c : Fin 16) (v : Nat) (s : State),
      s.inReset = false →
      Accepts m (.conv c) 0x060 s →
      exec (.misRestore m c v) s = .next (commit s.pending ((((s.put (CONV.MIS_CTRL_BG_EN c) (bits v 16 1)).put (CONV.MIS_CTRL_THR c) (bits v 8 8)).put (CONV.MIS_CTRL_INTERVAL c) (bits v 0 8)).put (CONV.hRestore c) 1)))
    ∧ (∀ (m : Master) (c : Fin 16) (force : Bool) (full : Bool) (s : State),
      s.inReset = false →
      Accepts m (.cal c) 0x040 s →
      calRefusal c force s = none →
      exec (.calStart m c force full) s = .next (commit s.pending (calBegin c full ((s.put (CAL.CAL_CTRL_FULL c) full.toNat).put (CAL.CAL_CTRL_FORCE c) force.toNat))))
    ∧ (∀ (m : Master) (c : Fin 16) (s : State),
      s.inReset = false →
      Accepts m (.cal c) 0x040 s →
      exec (.calAbort m c) s = .next (commit s.pending (calAbort c ccHostAbort ((s.put (CAL.CAL_CTRL_FULL c) 0).put (CAL.CAL_CTRL_FORCE c) 0))))
    ∧ (∀ (c : Fin 16) (s : State),
      s.inReset = false →
      s.get (RXDSP.CARRIER_STAT_STATE c) = stOff →
      s.flag (CAL.hVals c) = false →
      s.flag (HDR.ENABLE (.cal c)) = true →
      mayRun c s = true →
      s.flag (CONV.LASER_STAT_LIGHT c) = true →
      s.flag (CAL.CAL_STAT_BUSY c) = false →
      s.flag (HDR.RESET_BUSY (.rxdsp c)) = false →
      s.flag (HDR.RESET_BUSY (.cal c)) = false →
      exec (.calAutoStart c) s = .next (commit s.pending (calBegin c true ((s.put (CAL.CAL_CTRL_FULL c) 1).put (CAL.CAL_CTRL_FORCE c) 0))))
    ∧ (∀ (c : Fin 16) (s : State),
      s.inReset = false →
      s.flag (CAL.CAL_STAT_BUSY c) = true →
      s.get (CAL.CAL_STAT_PHASE c) < 7 →
      phaseDue c s = true →
      exec (.calPhaseAdvance c) s = .next (commit s.pending (s.put (CAL.CAL_STAT_PHASE c) (s.get (CAL.CAL_STAT_PHASE c) + 1))))
    ∧ (∀ (c : Fin 16) (v : CalValues) (s : State),
      s.inReset = false →
      s.flag (CAL.CAL_STAT_BUSY c) = true →
      s.get (CAL.CAL_STAT_PHASE c) = 7 →
      phaseDue c s = true →
      exec (.calCommit c (some v)) s = .next (commit s.pending (calPass c v s)))
    ∧ (∀ (c : Fin 16) (s : State),
      s.inReset = false →
      s.flag (CAL.CAL_STAT_BUSY c) = true →
      s.get (CAL.CAL_STAT_PHASE c) = 7 →
      phaseDue c s = true →
      exec (.calCommit c none) s = .next (commit s.pending (calLeave c (((((calIdle c s).put (CAL.CAL_STAT_PHASE c) 0).put (CAL.CAL_STAT_RESULT c) 2).put (CAL.CAL_STAT_CAUSE c) ccLimit).raise (.cal c) 1))))
    ∧ (∀ (c : Fin 16) (r : CalRecord) (s : State),
      s.inReset = false →
      s.storing.find? (fun (x : CalRecord) => x.carrier == c) = some r →
      exec (.nvmStoreDone c false) s = .next (commit s.pending (storeNext c r ((s.put (CAL.NVM_STAT_LAST c) 2).raise (.cal c) 4))))
    ∧ (∀ (c : Fin 16) (r : CalRecord) (s : State),
      s.inReset = false →
      s.storing.find? (fun (x : CalRecord) => x.carrier == c) = some r →
      ∃ t, exec (.nvmStoreDone c true) s = .next t ∧ t.getList (flashKey (calAddr c (nextCopy c s))) (calBytes { r with seq := nextSeq c s, copyB := nextCopy c s }).length = calBytes { r with seq := nextSeq c s, copyB := nextCopy c s } ∧ t.flag (CAL.NVM_STAT_COPY c) = nextCopy c s ∧ t.get (CAL.NVM_STAT_SEQ c) = nextSeq c s ∧ t.get (CAL.NVM_STAT_LAST c) = 1 ∧ t.storing = s.storing.erase r ∧ t.flag (CAL.NVM_STAT_STORE_BUSY c) = (s.storing.erase r).any (fun (x : CalRecord) => x.carrier == c) ∧ OnlyPages [.cal c] s t)

/-- The paired exchange of loading tables, falling back, and the orders of a hub. It rests on rules R154, R164 to
R166, R168, R169 and R295, of which it states what its clauses say. The model's choices in it: log entries 21, 76,
145. -/
def Obligations.LoadingExchange : Prop :=
  (∀ (c : Fin 16) (m : LoadMsg) (s : State),
      s.inReset = false →
      msgsAct c s = true →
      txMfPresent c ((s.put (TXDSP.hFbCnt c) 0).put (TXDSP.LOAD_STAT_LAST_RX_TYPE c) ltPropose) = true →
      s.flag (TXDSP.hAnsValid c) = false →
      proposeReason c m ((s.put (TXDSP.hFbCnt c) 0).put (TXDSP.LOAD_STAT_LAST_RX_TYPE c) ltPropose) = 0 →
      exec (.propose c m) s = .next (commit s.pending (((((engineArm ⟨.txdsp c, (List.range 16).map (fun i => rowOfEntry (m.rows.getD i 0)), modePaired, m.target⟩ (startAnswer c ltAccept 0 m ((s.put (TXDSP.hFbCnt c) 0).put (TXDSP.LOAD_STAT_LAST_RX_TYPE c) ltPropose))).put (TXDSP.LOAD_STAT_SERVE_PENDING c) 1).put (TXDSP.LOAD_MFN_RX c) m.target).raise (.txdsp c) 1))))
    ∧ (∀ (c : Fin 16) (m : LoadMsg) (s : State),
      s.inReset = false →
      msgsAct c s = true →
      1 ≤ mfLead m.target (s.get (OTU.MFN_RX c)) →
      mfLead m.target (s.get (OTU.MFN_RX c)) ≤ 32767 →
      s.flag (TXDSP.LOAD_STAT_REQ_PENDING c) = true →
      m.seq % 65536 = s.get (TXDSP.hSeq c) →
      m.target % 65536 = s.get (HDR.HINGE_MF (.rxdsp c)) →
      exec (.accept c m) s = .next (commit s.pending (((s.put (TXDSP.hFbCnt c) 0).put (TXDSP.LOAD_STAT_LAST_RX_TYPE c) ltAccept).put (TXDSP.hAcc c) 1)))
    ∧ (∀ (c : Fin 16) (m : LoadMsg) (s : State),
      s.inReset = false →
      msgsAct c s = true →
      s.flag (TXDSP.LOAD_STAT_REQ_PENDING c) = true →
      m.seq % 65536 = s.get (TXDSP.hSeq c) →
      m.target % 65536 = s.get (HDR.HINGE_MF (.rxdsp c)) →
      exec (.reject c m) s = .next (commit s.pending (refuseRx c 4 (((s.put (TXDSP.hFbCnt c) 0).put (TXDSP.LOAD_STAT_LAST_RX_TYPE c) ltReject).put (TXDSP.LOAD_STAT_RCVD_REASON c) m.reason))))
    ∧ (∀ (c : Fin 16) (m : LoadMsg) (s : State),
      s.inReset = false →
      msgsAct c s = true →
      exec (.state c m) s = .next (commit s.pending ((s.put (TXDSP.hFbCnt c) 0).put (TXDSP.LOAD_STAT_LAST_RX_TYPE c) ltState)))
    ∧ (∀ (c : Fin 16) (s : State),
      s.inReset = false →
      s.flag (HDR.PENDING (.rxdsp c)) = true →
      s.get (HDR.HINGE_MODE (.rxdsp c)) = modePaired →
      s.flag (TXDSP.hAcc c) = false →
      mfLead (s.get (HDR.HINGE_MF (.rxdsp c))) (s.get (OTU.MFN_RX c)) ≤ 1 →
      exec (.pairedNoAccept c) s = .next (commit s.pending (refuseRx c 4 s)))
    ∧ (∀ (c : Fin 16) (raw : List Nat) (s : State),
      s.inReset = false →
      msgsAct c s = true →
      loadMsgValid raw = false →
      exec (.invalidLoadingMsg c raw) s = .next (commit s.pending ((s.incStick (TXDSP.LDMSG_ERR c) 1).raise (.txdsp c) 5)))
    ∧ (∀ (c : Fin 16) (s : State),
      s.inReset = false →
      msgsAct c s = true →
      isHub c s = false →
      s.get (TXDSP.hFbAge c) < 8 →
      ∃ t, exec (.fallbackReq c) s = .next t ∧ t.flag (TXDSP.hFbPend c) = true ∧ t.get (TXDSP.hFbAge c) = 0 ∧ t.get (TXDSP.hFbCnt c) = 0 ∧ t.get (TXDSP.LOAD_STAT_LAST_RX_TYPE c) = ltFallbackReq ∧ OnlyPages [.txdsp c] s t ∧ RegistersOnly s t)
    ∧ (∀ (c : Fin 16) (s : State),
      s.inReset = false →
      msgsAct c s = true →
      isHub c s = false →
      s.get (TXDSP.LOAD_CTRL_FB_AUTO c) ≠ 0 →
      s.get (TXDSP.LOAD_CTRL_FB_AUTO c) ≤ s.get (TXDSP.hFbCnt c) →
      exec (.fbAutoTimeout c) s = .next (commit s.pending ((s.put (TXDSP.hFbPend c) 1).put (TXDSP.hFbCnt c) 0)))
    ∧ (∀ (c : Fin 16) (s : State),
      s.inReset = false →
      msgsAct c s = true →
      isHub c s = true →
      exec (.fallbackReq c) s = .next (commit s.pending (((s.put (TXDSP.hFbCnt c) 0).put (TXDSP.LOAD_STAT_LAST_RX_TYPE c) ltFallbackReq).put (TXDSP.hFbReqs c) (s.get (TXDSP.hFbReqs c) + 1))))
    ∧ (∀ (m : Master) (c : Fin 16) (v : Nat) (s : State),
      s.inReset = false →
      msgsAct c s = true →
      Accepts m (.txdsp c) 0x080 s →
      ∃ t, exec (.fallbackNow m c v) s = .next t ∧ t.flag (TXDSP.hFbPend c) = true ∧ t.get (TXDSP.hFbCnt c) = 0 ∧ t.get (TXDSP.LOAD_CTRL_AUTO_ACCEPT c) = bits v 31 1 ∧ t.get (TXDSP.LOAD_CTRL_MIN_LEAD c) = bits v 16 8 ∧ t.get (TXDSP.LOAD_CTRL_FB_AUTO c) = bits v 0 16 ∧ OnlyPages [.txdsp c] s t ∧ RegistersOnly s t)
    ∧ (∀ (c : Fin 16) (s : State),
      s.inReset = false →
      s.flag (TXDSP.hFbPend c) = true →
      txRuns c s = true →
      exec (.txFallback c) s = .next (commit s.pending (lineSend c (((((refuseTx c 4 (loadTx c s)).put (TXDSP.hState c) 3).put (TXDSP.LOAD_STAT_FALLBACK_ACTIVE c) 1).put (TXDSP.hFbPend c) 0).raise (.txdsp c) 4))))
    ∧ (∀ (c : Fin 16) (m : LoadMsg) (s : State),
      s.inReset = false →
      msgsAct c s = true →
      orderOk c m.target (s.get (OTU.MFN_RX c)) ((List.range 16).map fun i => rowOfEntry (m.rows.getD i 0)) (msgSeen c ltOrderRx s) = true →
      samePending (.rxdsp c) m.target ((List.range 16).map fun i => rowOfEntry (m.rows.getD i 0)) (rxLoadRow c false) (msgSeen c ltOrderRx s) = false →
      exec (.orderRx c m) s = .next (commit s.pending ((engineArm ⟨.rxdsp c, (List.range 16).map (fun i => rowOfEntry (m.rows.getD i 0)), modeAtMf, m.target⟩ (msgSeen c ltOrderRx s)).put (RXDSP.hOrder c) 1)))
    ∧ (∀ (c : Fin 16) (m : LoadMsg) (s : State),
      s.inReset = false →
      msgsAct c s = true →
      isLeaf c s = false →
      exec (.orderRx c m) s = .next (commit s.pending ((msgSeen c ltOrderRx s).incStick (TXDSP.LDMSG_ERR c) 1)))
    ∧ (∀ (c : Fin 16) (m : LoadMsg) (s : State),
      s.inReset = false →
      msgsAct c s = true →
      (orderOk c m.target (txMfn c s) ((List.range 16).map fun i => if leafLo c s ≤ i ∧ i ≤ leafHi c s then rowOfEntry (m.rows.getD i 0) else 0) (msgSeen c ltOrderTx s) = true) →
      (samePending (.txdsp c) m.target ((List.range 16).map fun i => if leafLo c s ≤ i ∧ i ≤ leafHi c s then rowOfEntry (m.rows.getD i 0) else 0) (txLoadRow c false) (msgSeen c ltOrderTx s) = false) →
      exec (.orderTx c m) s = .next (commit s.pending ((engineArm ⟨.txdsp c, (List.range 16).map (fun i => if leafLo c s ≤ i ∧ i ≤ leafHi c s then rowOfEntry (m.rows.getD i 0) else 0), modeAtMf, m.target⟩ (msgSeen c ltOrderTx s)).put (TXDSP.hOrder c) 1)))
    ∧ (∀ (m : Master) (c : Fin 16) (v : Nat) (s : State),
      s.inReset = false →
      Accepts m (.txdsp c) 0x050 s →
      exec (.freqShiftWrite m c v) s = .next (commit s.pending (s.put (TXDSP.FREQ_SHIFT c) ((Clamp.i (-5000) 5000).apply 16 (v % 2 ^ 16)))))

/-- Codewords and decoder locks, and how the framer finds, aligns and loses a stream. It rests on rules R225, R231 to
R233, R238, R242, R310 and R314 to R319, of which it states what its clauses say. The model's choices in it: log
entries 30, 31, 73, 78, 149, 150, 151, 169, 171. -/
def Obligations.FramingAndCodewords : Prop :=
  (∀ (c : Fin 16) (i : Fin 16) (pos : Nat) (fas : List Nat) (oh : List Nat) (s : State),
      s.inReset = false →
      s.flag (RXDSP.hLineClk c) = true →
      otuRuns c s = true →
      s.flag (FEC.FEC_STAT_CW_LOCK c) = true →
      rxZr c s = false →
      i ∈ streamsRx c s →
      s.get (OTU.hFrmState c i) ≤ 1 →
      opensCandidate c i pos (scramble (fas ++ oh)) s = true →
      (candidates c i s).length < 4 →
      exec (.frameCandidate c i pos fas oh) s = .next (commit s.pending (let oh := scramble (fas ++ oh); streamsSync c ((setCandidates c i (candidates c i s ++ [ohSize oh * 2 ^ 48 + ohMfas oh * 2 ^ 40 + pos % 2 ^ 40]) s).put (OTU.hFrmState c i) 1))))
    ∧ (∀ (c : Fin 16) (i : Fin 16) (pos : Nat) (fas : List Nat) (oh : List Nat) (s : State),
      s.inReset = false →
      s.flag (RXDSP.hLineClk c) = true →
      otuRuns c s = true →
      s.flag (FEC.FEC_STAT_CW_LOCK c) = true →
      rxZr c s = false →
      i ∈ streamsRx c s →
      s.get (OTU.hFrmState c i) ≤ 1 →
      opensCandidate c i pos (scramble (fas ++ oh)) s = true →
      (candidates c i s).length = 4 →
      exec (.frameCandidate c i pos fas oh) s = .next (commit s.pending (s.cntAdd (OTU.hCnt c i 6) 1)))
    ∧ (∀ (c : Fin 16) (i : Fin 16) (v : Nat) (fs : List (List Nat)) (s : State),
      s.inReset = false →
      s.flag (RXDSP.hLineClk c) = true →
      s.get (OTU.hFrmState c i) = 1 →
      candidates c i s = [v] →
      confirms v fs = true →
      exec (.frameConfirm c i [(candPos v, fs)]) s = .next (commit s.pending (streamsSync c ((((((((((setCandidates c i [] s).put (OTU.hFrmState c i) 2).put (OTU.hOof c i) 0).put (OTU.hMfas c i) (bits v 40 8 + 4)).put (OTU.hSize c i) (bits v 48 10)).put (OTU.hErr c i) 0).put (OTU.hRun c i) 0).put (OTU.hThree c i) 0).put (OTU.hMet c i) 0)))))
    ∧ (∀ (c : Fin 16) (i : Fin 16) (v : Nat) (fs : List (List Nat)) (s : State),
      s.inReset = false →
      s.flag (RXDSP.hLineClk c) = true →
      s.get (OTU.hFrmState c i) = 1 →
      candidates c i s = [v] →
      confirms v fs = false →
      exec (.frameConfirm c i [(candPos v, fs)]) s = .next (commit s.pending (streamsSync c ((setCandidates c i [] s).put (OTU.hFrmState c i) 0))))
    ∧ (∀ (c : Fin 16) (i : Fin 16) (s : State),
      s.inReset = false →
      s.flag (RXDSP.hLineClk c) = true →
      otuRuns c s = true →
      s.flag (FEC.FEC_STAT_CW_LOCK c) = true →
      rxZr c s = false →
      s.get (OTU.hFrmState c i) = 2 →
      s.flag (OTU.hMet c i) = true →
      exec (.framerAligned c i) s = .next (commit s.pending (framerAlign c i (s.get (OTU.hV c i) + 1) s)))
    ∧ (∀ (c : Fin 16) (s : State),
      s.inReset = false →
      s.flag (RXDSP.hLineClk c) = true →
      otuRuns c s = true →
      s.flag (FEC.FEC_STAT_CW_LOCK c) = true →
      rxZr c s = true →
      s.get (OTU.hFrmState c 0) = 0 →
      exec (.framerAligned c 0) s = .next (commit s.pending (framerAlign c 0 0 ((s.put (OTU.hSize c 0) 80).put (OTU.hMfas c 0) 1))))
    ∧ (∀ (c : Fin 16) (i : Fin 16) (s : State),
      s.inReset = false →
      s.flag (RXDSP.hLineClk c) = true →
      2 ≤ s.get (OTU.hFrmState c i) →
      (rxZr c s = true ∨ s.get (OTU.hErr c i) = 5) →
      exec (.framerLoss c i) s = .next (commit s.pending (streamsSync c (framerHunt c i s))))
    ∧ (∀ (c : Fin 16) (i : Fin 16) (s : State),
      s.inReset = false →
      s.flag (RXDSP.hLineClk c) = true →
      s.get (OTU.hFrmState c i) = 3 →
      s.get (OTU.hMis c i) = 4 →
      exec (.framerMfnMismatch c i) s = .next (commit s.pending (streamsSync c (((((((leaveAligned c i s).put (OTU.hFrmState c i) 2).put (OTU.hFromAl c i) 1).put (OTU.hLomMf c i) 0).put (OTU.hRun c i) 0).put (OTU.hThree c i) 0).put (OTU.hMet c i) 0))))
    ∧ (∀ (c : Fin 16) (b : Fin 16) (llr : List Int) (s : State),
      s.inReset = false →
      fecRuns c s = true →
      rxZr c s = false →
      s.flag (FEC.FEC_STAT_CW_LOCK c) = true →
      ((llr.length = innerN ∧ innerN ≤ capPayload c b s) ∨ (llr.length = shortLen (s.get (RXDSP.hMode c)) (capPayload c b s) ∧ llr ≠ [])) →
      exec (.codewordDecode c b (.burst llr)) s = .next (commit s.pending (let d := decodeLlr c llr s; countUncorr c (if d.iter.isNone then 1 else 0) (countNative c llr d (if d.iter.isSome then s.put (HUB.hCapCws c b) (s.get (HUB.hCapCws c b) + 1) else s)))))
    ∧ (∀ (c : Fin 16) (b : Fin 16) (cand : Nat) (llr : List Int) (blocks : List (Nat × List Nat)) (s : State),
      s.inReset = false →
      fecRuns c s = true →
      rxZr c s = false →
      s.flag (FEC.FEC_STAT_CW_LOCK c) = true →
      (isHub c s = true ∨ s.get (FEC.hCand c b) = cand) →
      exec (.codewordDecode c b (.native cand llr blocks)) s = .next (commit s.pending (let d := decodeLlr c llr s; forL blocks (fun x s => blockArrives c b x s) ((countNative c llr d s).put (FEC.hNconv c) (if d.iter.isNone then min 64 (s.get (FEC.hNconv c) + 1) else 0)))))
    ∧ (∀ (c : Fin 16) (b : Fin 16) (cand : Nat) (llr : List Int) (blocks : List (Nat × List Nat)) (s : State),
      s.inReset = false →
      fecRuns c s = true →
      rxZr c s = false →
      s.flag (FEC.FEC_STAT_CW_LOCK c) = false →
      exec (.codewordDecode c b (.native cand llr blocks)) s = .next (commit s.pending ((s.put (FEC.hCand c b) cand).put (FEC.hConv c b) (if (decodeLlr c llr s).iter.isNone then 0 else min 4 ((if s.get (FEC.hCand c b) = cand then s.get (FEC.hConv c b) else 0) + 1)))))
    ∧ (∀ (c : Fin 16) (b : Fin 16) (len : Nat) (corr : Nat) (n : Nat) (s : State),
      s.inReset = false →
      fecRuns c s = true →
      rxZr c s = true →
      s.flag (FEC.FEC_STAT_CW_LOCK c) = true →
      exec (.codewordDecode c b (.ofec len corr (some n))) s = .next (commit s.pending (countCodeword c len corr (some n) s)))
    ∧ (∀ (c : Fin 16) (s : State),
      s.inReset = false →
      fecRuns c s = true →
      s.flag (FEC.FEC_STAT_CW_LOCK c) = false →
      rxZr c s = false →
      (unitsOf c s).any (fun b => decide (7 ≤ s.get (unitOf c b s).stage) && s.get (FEC.hConv c b) == 4) = true →
      exec (.cwLockAcquired c) s = .next (commit s.pending ((s.put (FEC.FEC_STAT_CW_LOCK c) 1).put (FEC.hNconv c) 0)))
    ∧ (∀ (c : Fin 16) (s : State),
      s.inReset = false →
      fecRuns c s = true →
      s.flag (FEC.FEC_STAT_CW_LOCK c) = false →
      rxZr c s = true →
      (unitsOf c s).any (fun b => decide (7 ≤ s.get (unitOf c b s).stage)) = true →
      exec (.cwLockAcquired c) s = .next (commit s.pending (((s.put (FEC.FEC_STAT_CW_LOCK c) 1).put (FEC.hNconv c) 0).put (FEC.FEC_STAT_OUTER_LOCK c) 1)))
    ∧ (∀ (c : Fin 16) (s : State),
      s.inReset = false →
      s.flag (RXDSP.hLineClk c) = true →
      s.flag (FEC.FEC_STAT_CW_LOCK c) = true →
      (rxZr c s = true ∨ s.get (FEC.hNconv c) = 64) →
      exec (.cwLockLost c) s = .next (commit s.pending (dropLocks c (innerHunt c (s.raise (.fec c) 0)))))
    ∧ (∀ (c : Fin 16) (s : State),
      s.inReset = false →
      s.flag (RXDSP.hLineClk c) = true →
      s.flag (FEC.FEC_STAT_CW_LOCK c) = true →
      s.flag (FEC.FEC_STAT_OUTER_LOCK c) = false →
      s.get (FEC.hGoodBlk c) = 2 →
      (streamsRx c s).any (fun i => streamAligned c i s) = true →
      exec (.outerLockAcquired c) s = .next (commit s.pending ((s.put (FEC.FEC_STAT_OUTER_LOCK c) 1).put (FEC.hBadBlk c) 0)))
    ∧ (∀ (c : Fin 16) (s : State),
      s.inReset = false →
      s.flag (RXDSP.hLineClk c) = true →
      s.flag (FEC.FEC_STAT_OUTER_LOCK c) = true →
      s.get (FEC.hBadBlk c) = 16 →
      exec (.outerLockLost c) s = .next (commit s.pending (outerHunt c ((s.put (FEC.FEC_STAT_OUTER_LOCK c) 0).raise (.fec c) 1))))
    ∧ (∀ (c : Fin 16) (s : State),
      s.inReset = false →
      degEvaluated c s = true →
      s.flag (FEC.FEC_STAT_DEG c) = false →
      max 1 (s.get (FEC.DEG_TIME_SET_TICKS c)) ≤ s.get (FEC.hSetCnt c) →
      exec (.fecDegSet c) s = .next (commit s.pending (degradeAll c ((((s.put (FEC.FEC_STAT_DEG c) 1).put (FEC.hSetCnt c) 0).put (FEC.hClrCnt c) 0).raise (.fec c) 2))))
    ∧ (∀ (c : Fin 16) (s : State),
      s.inReset = false →
      degEvaluated c s = true →
      s.flag (FEC.FEC_STAT_DEG c) = true →
      max 1 (s.get (FEC.DEG_TIME_CLR_TICKS c)) ≤ s.get (FEC.hClrCnt c) →
      exec (.fecDegClr c) s = .next (commit s.pending (degradeAll c ((((s.put (FEC.FEC_STAT_DEG c) 0).put (FEC.hSetCnt c) 0).put (FEC.hClrCnt c) 0).raise (.fec c) 3))))

/-- Received frames, the TTI and the defects of a stream. It rests on rules R310, R317, R321, R323, R326 and R340, of
which it states what its clauses say. -/
def Obligations.ReceivedOverhead : Prop :=
  (∀ (c : Fin 16) (i : Fin 16) (octets : List Nat) (arr : DevTime) (s : State),
      s.inReset = false →
      s.flag (RXDSP.hLineClk c) = true →
      s.get (OTU.hFrmState c i) = 2 →
      s.get (OTU.hMfas c i) ≠ 0 →
      rxZr c s = false →
      exec (.frameReceived c i (.native octets arr)) s = .next (commit s.pending (let v := frameView c i (.native octets arr) s; takePayload c i (s.get (OTU.hMfas c i)) (.native octets arr) (streamsSync c (frameMfn c i (s.get (OTU.hMfas c i)) v.oh ((((s.put (OTU.hMfas c i) (s.get (OTU.hMfas c i) + 1)).put (OTU.hErr c i) (if ohFas v.oh && ohMfas v.oh == s.get (OTU.hMfas c i) then 0 else min 5 (s.get (OTU.hErr c i) + 1))).put (OTU.hRxStat c i) (sliceByte v.oh 0 5))))))))
    ∧ (∀ (c : Fin 16) (i : Fin 16) (octets : List Nat) (arr : DevTime) (s : State),
      s.inReset = false →
      s.flag (RXDSP.hLineClk c) = true →
      s.get (OTU.hFrmState c i) = 3 →
      s.get (OTU.hMfas c i) ≠ 0 →
      rxZr c s = false →
      exec (.frameReceived c i (.native octets arr)) s = .next (commit s.pending (let v := frameView c i (.native octets arr) s; let f := s.get (OTU.hMfas c i); takePayload c i f (.native octets arr) (streamsSync c (alignedOverhead c i f v (ltReceive c i f arr v (frameMfn c i f v.oh ((((s.put (OTU.hMfas c i) (s.get (OTU.hMfas c i) + 1)).put (OTU.hErr c i) (if ohFas v.oh && ohMfas v.oh == s.get (OTU.hMfas c i) then 0 else min 5 (s.get (OTU.hErr c i) + 1))).put (OTU.hRxStat c i) (sliceByte v.oh 0 5))))))))))
    ∧ (∀ (c : Fin 16) (i : Fin 16) (octets : List Nat) (arr : DevTime) (s : State),
      s.inReset = false →
      s.flag (RXDSP.hLineClk c) = true →
      s.get (OTU.hFrmState c i) = 3 →
      s.get (OTU.hMfas c i) = 0 →
      rxZr c s = false →
      exec (.frameReceived c i (.native octets arr)) s = .next (commit s.pending (let v := frameView c i (.native octets arr) s; let s1 := ((((s.put (OTU.hMfas c i) (s.get (OTU.hMfas c i) + 1)).put (OTU.hErr c i) (if ohFas v.oh && ohMfas v.oh == s.get (OTU.hMfas c i) then 0 else min 5 (s.get (OTU.hErr c i) + 1))).put (OTU.hRxStat c i) (sliceByte v.oh 0 5))); takePayload c i 0 (.native octets arr) (streamsSync c (alignedOverhead c i 0 v (ltReceive c i 0 arr v (frameMfn c i 0 v.oh (rxMultiframe c i (setRxMfn c i (s1.get (OTU.hRxMfn c i) + 1) s1)))))))))
    ∧ (∀ (c : Fin 16) (i : Fin 16) (oh : List Nat) (sm : List Nat) (pm : List Nat) (s : State),
      s.inReset = false →
      s.flag (RXDSP.hLineClk c) = true →
      s.get (OTU.hFrmState c i) = 3 →
      s.get (OTU.hMfas c i) ≠ 0 →
      rxZr c s = true →
      exec (.frameReceived c i (.msa oh sm pm)) s = .next (commit s.pending (let v := frameView c i (.msa oh sm pm) s; streamsSync c (alignedOverhead c i (s.get (OTU.hMfas c i)) v (((s.put (OTU.hMfas c i) (s.get (OTU.hMfas c i) + 1)).put (OTU.hErr c i) 0).put (OTU.hRxStat c i) (sliceByte v.oh 0 5))))))
    ∧ (∀ (c : Fin 16) (i : Fin 16) (s : State),
      s.inReset = false →
      s.flag (RXDSP.hLineClk c) = true →
      s.get (OTU.hFrmState c i) = 3 →
      s.get (OTU.hTtiRun c i) = 3 →
      exec (.ttiAccepted c i) s = .next (commit s.pending (streamsSync c (timUpdate c i (((forFin 8 (fun w s => s.store (streamWord c i.val (12 + w.val)) (s.get (OTU.hTtiLast c i w))) s).put (OTU.hAcc c i) 1).raiseIf (.otu c) 2 ((List.finRange 8).any fun w => s.word (streamWord c i.val (12 + w.val)) != s.get (OTU.hTtiLast c i w)))))))
    ∧ (∀ (c : Fin 16) (i : Fin 16) (s : State),
      s.inReset = false →
      s.flag (RXDSP.hLineClk c) = true →
      otuRuns c s = true →
      s.flag (OTU.hOof c i) = true →
      s.flag (OTU.hLof c i) = false →
      i ∈ streamsRx c s →
      (streamsSync c (s.put (OTU.hLof c i) 1)).get (RXDSP.CARRIER_STAT_STATE c) = stCal →
      exec (.lof c i) s = .next (commit s.pending (streamsSync c (s.put (OTU.hLof c i) 1))))
    ∧ (∀ (c : Fin 16) (i : Fin 16) (s : State),
      s.inReset = false →
      s.flag (RXDSP.hLineClk c) = true →
      otuRuns c s = true →
      s.flag (OTU.hOof c i) = true →
      s.flag (OTU.hLof c i) = false →
      i ∈ streamsRx c s →
      (streamsSync c (s.put (OTU.hLof c i) 1)).get (RXDSP.CARRIER_STAT_STATE c) ≠ stCal →
      exec (.lof c i) s = .next (commit s.pending (framerLossEvent c i lcLof (streamsSync c (s.put (OTU.hLof c i) 1)))))
    ∧ (∀ (c : Fin 16) (i : Fin 16) (s : State),
      s.inReset = false →
      s.flag (RXDSP.hLineClk c) = true →
      s.get (OTU.hFrmState c i) = 2 →
      s.flag (OTU.hFromAl c i) = true →
      s.flag (OTU.hLom c i) = false →
      max 1 (s.get (FRM.FRM_CFG_LOM_MF (quadOf c))) ≤ s.get (OTU.hLomMf c i) →
      (streamsSync c (s.put (OTU.hLom c i) 1)).get (RXDSP.CARRIER_STAT_STATE c) ≠ stCal →
      exec (.lom c i) s = .next (commit s.pending (framerLossEvent c i lcLom (streamsSync c (s.put (OTU.hLom c i) 1)))))
    ∧ (∀ (c : Fin 16) (i : Fin 16) (s : State),
      s.inReset = false →
      s.flag (RXDSP.hLineClk c) = true →
      s.get (OTU.hFrmState c i) = 3 →
      exec (.statDefectChange c i) s = .next (commit s.pending (streamsSync c (detFollow c i 0 3 (detFollow c i 1 3 (detFollow c i 2 3 s))))))
    ∧ (∀ (c : Fin 16) (i : Fin 16) (s : State),
      s.inReset = false →
      s.flag (RXDSP.hLineClk c) = true →
      s.get (OTU.hFrmState c i) = 3 →
      exec (.bdiDefectChange c i) s = .next (commit s.pending (streamsSync c (detFollow c i 3 5 s))))

/-- Acquisition advances and fails, and the carrier state follows commands. It rests on rules R177, R179, R181, R202,
R203 and R205, of which it states what its clauses say. The model's choices in it: log entries 24, 25, 160. -/
def Obligations.AcquisitionAndCarrierState : Prop :=
  (∀ (c : Fin 16) (b : Fin 16) (v : Int) (s : State),
      s.inReset = false →
      s.flag (RXDSP.hLineClk c) = true →
      s.get (unitOf c b s).stage = 1 →
      s.flag (CONV.RX_STAT_SIG_ABSENT c) = false →
      s.flag (CONV.LASER_STAT_IN_RANGE c) = true →
      exec (.acqStageComplete c b v) s = .next (commit s.pending (nextStage c b 2 s)))
    ∧ (∀ (c : Fin 16) (b : Fin 16) (v : Int) (s : State),
      s.inReset = false →
      s.flag (RXDSP.hLineClk c) = true →
      s.flag (HDR.FREEZE (.rxdsp c)) = false →
      s.get (unitOf c b s).stage = 2 →
      |v| ≤ 5000 →
      exec (.acqStageComplete c b v) s = .next (commit s.pending (nextStage c b 3 (freqFollow c ((s.puti (RXDSP.FREQ_STAT_OFS c) v).put (RXDSP.FREQ_STAT_VALID c) 1)))))
    ∧ (∀ (c : Fin 16) (b : Fin 16) (v : Int) (s : State),
      s.inReset = false →
      s.flag (RXDSP.hLineClk c) = true →
      s.flag (HDR.FREEZE (.rxdsp c)) = false →
      s.get (unitOf c b s).stage = 3 →
      exec (.acqStageComplete c b v) s = .next (commit s.pending (nextStage c b 4 ((s.put (RXDSP.CD_STAT_VALID c) 1).puti (RXDSP.CD_STAT_CD c) (cdResult c v s)))))
    ∧ (∀ (c : Fin 16) (b : Fin 16) (v : Int) (s : State),
      s.inReset = false →
      s.flag (RXDSP.hLineClk c) = true →
      s.get (unitOf c b s).stage = 4 →
      isHub c s = false →
      |v| < 20000 →
      exec (.acqStageComplete c b v) s = .next (commit s.pending (nextStage c b 5 (syncUpdate c ((s.put (RXDSP.TR_STAT_LOCK c) 1).puti (RXDSP.TR_STAT_PPM c) v)))))
    ∧ (∀ (c : Fin 16) (b : Fin 16) (v : Int) (s : State),
      s.inReset = false →
      s.flag (RXDSP.hLineClk c) = true →
      s.get (unitOf c b s).stage = 4 →
      isHub c s = true →
      exec (.acqStageComplete c b v) s = .next (commit s.pending (nextStage c b 5 s)))
    ∧ (∀ (c : Fin 16) (b : Fin 16) (v : Int) (s : State),
      s.inReset = false →
      s.flag (RXDSP.hLineClk c) = true →
      s.get (unitOf c b s).stage = 5 →
      ((unitRows c b s).filter (fun i => rxRowOn c i s)).all (fun i => scLock c i s) = true →
      exec (.acqStageComplete c b v) s = .next (commit s.pending (nextStage c b 6 s)))
    ∧ (∀ (c : Fin 16) (b : Fin 16) (v : Int) (s : State),
      s.inReset = false →
      s.flag (RXDSP.hLineClk c) = true →
      s.get (unitOf c b s).stage = 6 →
      exec (.acqStageComplete c b v) s = .next (commit s.pending (nextStage c b 7 s)))
    ∧ (∀ (c : Fin 16) (b : Fin 16) (v : Int) (s : State),
      s.inReset = false →
      s.flag (RXDSP.hLineClk c) = true →
      s.get (unitOf c b s).stage = 7 →
      s.get (OTU.hFrmState c b) = 3 →
      exec (.acqStageComplete c b v) s = .next (commit s.pending (nextStage c b 8 s)))
    ∧ (∀ (c : Fin 16) (b : Fin 16) (v : Int) (s : State),
      s.inReset = false →
      s.flag (RXDSP.hLineClk c) = true →
      s.get (unitOf c b s).stage = 8 →
      max 1 (s.get (RXDSP.ACQ_CTRL_VERIFY_MF c)) ≤ s.get (unitOf c b s).verify →
      exec (.acqStageComplete c b v) s = .next (commit s.pending (acqDone c b s)))
    ∧ (∀ (c : Fin 16) (b : Fin 16) (s : State),
      s.inReset = false →
      2 ≤ s.get (unitOf c b s).stage →
      s.get (unitOf c b s).stage ≤ 6 →
      (isZr (s.get (RXDSP.hMode c)) = false ∨ s.get (unitOf c b s).stage ≠ 6) →
      exec (.acqStageLimit c b) s = .next (commit s.pending (acqFail c b (s.get (unitOf c b s).stage) s)))
    ∧ (∀ (c : Fin 16) (b : Fin 16) (s : State),
      s.inReset = false →
      2 ≤ s.get (unitOf c b s).stage →
      s.get (unitOf c b s).stage ≤ 8 →
      max 1 (s.get (RXDSP.ACQ_CTRL_ACQ_TIMEOUT c)) ≤ s.get (unitOf c b s).ticks →
      exec (.acqTimeout c b) s = .next (commit s.pending (acqFail c b lcTimeout s)))
    ∧ (∀ (c : Fin 16) (b : Fin 16) (s : State),
      s.inReset = false →
      s.get (unitOf c b s).state = stDeg →
      125 ≤ s.get (unitOf c b s).degClr →
      degradeCause c b s = 0 →
      exec (.degradeClear c b) s = .next (commit s.pending (((setState c b stIn s).put (unitOf c b s).degCause 0).raise (.rxdsp c) 1)))
    ∧ (∀ (m : Master) (c : Fin 16) (s : State),
      s.inReset = false →
      Accepts m (.rxdsp c) 0x048 s →
      exec (.reacq m c) s = .next (commit s.pending (forL (unitsOf c s) (doReacq c) s)))
    ∧ (∀ (m : Master) (c : Fin 16) (s : State),
      s.inReset = false →
      Accepts m (.rxdsp c) 0x048 s →
      exec (.oos m c) s = .next (commit s.pending (forL (unitsOf c s) (doOos c) s)))
    ∧ (∀ (m : Master) (c : Fin 16) (s : State),
      s.inReset = false →
      Accepts m (.rxdsp c) 0x048 s →
      exec (.restoreCarrier m c) s = .next (commit s.pending (forL (unitsOf c s) (doRestore c) s)))

/-- Subcarriers lock, slip and lose lock, and captures run. It rests on rules R177, R179, R185 to R189, R192, R194,
R201, R210 and R211, of which it states what its clauses say. The model's choices in it: log entries 26, 156, 157,
158, 159, 161, 163. -/
def Obligations.SubcarrierLocksAndCaptures : Prop :=
  (∀ (c : Fin 16) (i : Fin 16) (s : State),
      s.inReset = false →
      s.flag (RXDSP.hLineClk c) = true →
      s.flag (RXDSP.SC_STAT0_SC_LOCK c i) = true →
      rxRowOn c i s = false →
      exec (.scUnlock c i) s = .next (commit s.pending (trigger c 2 i.val ((onPath c i (fun p => { p with snr := none }) (((s.put (RXDSP.SC_STAT0_SC_LOCK c i) 0).put (RXDSP.SC_STAT0_VALID c i) 0).put (RXDSP.hSnrTicks c i) 0)).put (RXDSP.hSinceLock c i) 0))))
    ∧ (∀ (c : Fin 16) (i : Fin 16) (s : State),
      s.inReset = false →
      s.flag (RXDSP.hLineClk c) = true →
      s.flag (RXDSP.SC_STAT0_SC_LOCK c i) = true →
      rxRowOn c i s = true →
      exec (.scUnlock c i) s = .next (commit s.pending (let s1 := trigger c 2 i.val ((onPath c i (fun p => { p with snr := none }) (((s.put (RXDSP.SC_STAT0_SC_LOCK c i) 0).put (RXDSP.SC_STAT0_VALID c i) 0).put (RXDSP.hSnrTicks c i) 0)).put (RXDSP.hSinceLock c i) 0); forL (unitsOfSc c i s1) (fun b s => scCheck c b s) (s1.raise (.rxdsp c) 6))))
    ∧ (∀ (c : Fin 16) (i : Fin 16) (s : State),
      s.inReset = false →
      s.flag (RXDSP.hLineClk c) = true →
      s.flag (RXDSP.SC_STAT0_SC_LOCK c i) = false →
      (isZr (s.get (RXDSP.hMode c)) = false ∨ i = 0) →
      exec (.scLock c i) s = .next (commit s.pending (scDegrade c i (onPath c i (fun p => { p with age := none, mute := false }) ((s.put (RXDSP.SC_STAT0_SC_LOCK c i) 1).put (RXDSP.hSnrTicks c i) 0)))))
    ∧ (∀ (m : Master) (c : Fin 16) (s : State),
      s.inReset = false →
      Accepts m (.rxdsp c) 0x074 s →
      exec (.eqReset m c 1) s = .next (commit s.pending (scFall c 0 (onPath c 0 (fun p => { p with taps := EqTaps.id (tapCount c s), mute := true }) s))))
    ∧ (∀ (m : Master) (c : Fin 16) (v : Nat) (s : State),
      s.inReset = false →
      Accepts m (.rxdsp c) 0x074 s →
      exec (.eqReset m c v) s = .next (commit s.pending (forFin 16 (fun i s => if v.testBit i.val then eqReset c i s else s) s)))
    ∧ (∀ (c : Fin 16) (i : Fin 16) (s : State),
      s.inReset = false →
      s.flag (RXDSP.hLineClk c) = true →
      (isZr (s.get (RXDSP.hMode c)) = false ∨ i = 0) →
      eqFrozen c i s = false →
      rxRowOn c i s = true →
      exec (.sing c i) s = .next (commit s.pending (((onPath c i (fun p => { p with taps := reloadY p.taps }) s).incWrap (RXDSP.SC_STAT2_SING c i) 1).raise (.rxdsp c) 7)))
    ∧ (∀ (c : Fin 16) (i : Fin 16) (s : State),
      s.inReset = false →
      s.flag (RXDSP.hLineClk c) = true →
      (isZr (s.get (RXDSP.hMode c)) = false ∨ i = 0) →
      (eqFrozen c i s = true ∨ rxRowOn c i s = false) →
      exec (.sing c i) s = .next (commit s.pending ((s.incWrap (RXDSP.SC_STAT2_SING c i) 1).raise (.rxdsp c) 7)))
    ∧ (∀ (c : Fin 16) (i : Fin 16) (k : Fin 4) (s : State),
      s.inReset = false →
      s.flag (RXDSP.hLineClk c) = true →
      (isZr (s.get (RXDSP.hMode c)) = false ∨ i = 0) →
      k ≠ 0 →
      exec (.cycleSlip c ⟨i, k⟩) s = .next (commit s.pending (trigger c 1 i.val ((((onPath c i (fun p => { p with phase := wrapTurn (p.phase - (k.val : ℚ) / 4) }) s).incWrap (RXDSP.SC_STAT1_SLIPS c i) 1).cntAdd (RXDSP.hSlipCnt c) 1).raise (.rxdsp c) 5))))
    ∧ (∀ (c : Fin 16) (s : State),
      s.inReset = false →
      s.flag (RXDSP.hLineClk c) = true →
      isHub c s = false →
      s.flag (RXDSP.TR_STAT_LOCK c) = true →
      exec (.trUnlock c) s = .next (commit s.pending (lossAll c lcTrUnlock (syncUpdate c (s.put (RXDSP.TR_STAT_LOCK c) 0)))))
    ∧ (∀ (c : Fin 16) (ofs : Int) (s : State),
      s.inReset = false →
      s.flag (RXDSP.hLineClk c) = true →
      s.flag (HDR.FREEZE (.rxdsp c)) = false →
      |ofs| ≤ 8000 →
      5000 < |ofs| →
      exec (.freqRange c ofs) s = .next (commit s.pending (lossAll c lcFreqRange (freqFollow c ((s.puti (RXDSP.FREQ_STAT_OFS c) ofs).put (RXDSP.FREQ_STAT_VALID c) 1)))))
    ∧ (∀ (c : Fin 16) (ofs : Int) (s : State),
      s.inReset = false →
      s.flag (RXDSP.hLineClk c) = true →
      s.flag (HDR.FREEZE (.rxdsp c)) = false →
      |ofs| ≤ 5000 →
      exec (.freqRange c ofs) s = .next (commit s.pending (freqFollow c ((s.puti (RXDSP.FREQ_STAT_OFS c) ofs).put (RXDSP.FREQ_STAT_VALID c) 1))))
    ∧ (∀ (c : Fin 16) (ofs : Int) (s : State),
      s.inReset = false →
      s.flag (RXDSP.hLineClk c) = true →
      s.flag (HDR.FREEZE (.rxdsp c)) = false →
      8000 < |ofs| →
      s.flag (RXDSP.FREQ_STAT_OOR c) = false →
      exec (.freqRange c ofs) s = .next (commit s.pending (s.put (RXDSP.FREQ_STAT_VALID c) 0)))
    ∧ (∀ (c : Fin 16) (i : Fin 16) (s : State),
      s.inReset = false →
      s.flag (RXDSP.hLineClk c) = true →
      s.flag (RXDSP.SC_STAT0_SC_LOCK c i) = true →
      2 ^ s.get (RXDSP.SNR_CTRL_AVG c) ≤ s.get (RXDSP.hSnrTicks c i) →
      exec (.snrValid c i) s = .next (commit s.pending (scDegrade c i (s.put (RXDSP.SC_STAT0_VALID c i) 1))))
    ∧ (∀ (m : Master) (c : Fin 16) (v : Nat) (s : State),
      s.inReset = false →
      Accepts m (.rxdsp c) 0x0A0 s →
      s.flag (RXDSP.CAP_STAT_ARMED c) = false →
      bits v 25 3 < 5 →
      ∃ t, exec (.captureArm m c v) s = .next t ∧ t.flag (RXDSP.CAP_STAT_ARMED c) = true ∧ t.flag (RXDSP.CAP_STAT_DONE c) = false ∧ t.flag (RXDSP.CAP_STAT_ABORTED c) = false ∧ t.get (RXDSP.CAP_CTRL_SRC c) = bits v 28 2 ∧ t.get (RXDSP.CAP_CTRL_TRIG c) = bits v 25 3 ∧ t.get (RXDSP.CAP_CTRL_SEL c) = bits v 16 4 ∧ t.get (RXDSP.CAP_CTRL_LEN c) = bits v 0 16 ∧ OnlyPages [.rxdsp c] s t ∧ RegistersOnly s t)
    ∧ (∀ (m : Master) (c : Fin 16) (v : Nat) (xs : List Int) (s : State),
      s.inReset = false →
      Accepts m (.rxdsp c) 0x0A0 s →
      s.flag (RXDSP.CAP_STAT_ARMED c) = true →
      s.flag (RXDSP.CAP_STAT_RUNNING c) = false →
      ∃ t, exec (.captureAbort m c v xs) s = .next t ∧ t.flag (RXDSP.CAP_STAT_ARMED c) = false ∧ t.flag (RXDSP.CAP_STAT_ABORTED c) = true ∧ t.get (RXDSP.CAP_STAT_WORDS c) = 0 ∧ OnlyPages [.rxdsp c] s t ∧ RegistersOnly s t)
    ∧ (∀ (m : Master) (c : Fin 16) (v : Nat) (xs : List Int) (n : Nat) (s : State),
      s.inReset = false →
      Accepts m (.rxdsp c) 0x0A0 s →
      s.flag (RXDSP.CAP_STAT_RUNNING c) = true →
      n = min (captureLen c s) (wholeWords (s.get (RXDSP.CAP_CTRL_SRC c)) xs) →
      ∃ t, exec (.captureAbort m c v xs) s = .next t ∧ t.flag (RXDSP.CAP_STAT_RUNNING c) = false ∧ t.flag (RXDSP.CAP_STAT_ABORTED c) = true ∧ t.get (RXDSP.CAP_STAT_WORDS c) = n ∧ (∀ k : Nat, k < n → t.word (captureWord c k) = captureWordOf c k xs s) ∧ OnlyPages [.rxdsp c] s t ∧ RegistersAndMemory s t)
    ∧ (∀ (c : Fin 16) (s : State),
      s.inReset = false →
      s.flag (RXDSP.hLineClk c) = true →
      s.flag (RXDSP.CAP_STAT_ARMED c) = true →
      s.flag (RXDSP.hTrig c) = true →
      exec (.captureTrigger c) s = .next (commit s.pending (((s.put (RXDSP.CAP_STAT_ARMED c) 0).put (RXDSP.hTrig c) 0).put (RXDSP.CAP_STAT_RUNNING c) 1)))
    ∧ (∀ (c : Fin 16) (xs : List Int) (s : State),
      s.inReset = false →
      s.flag (RXDSP.hLineClk c) = true →
      s.flag (RXDSP.CAP_STAT_RUNNING c) = true →
      ∃ t, exec (.captureDone c xs) s = .next t ∧ t.flag (RXDSP.CAP_STAT_RUNNING c) = false ∧ t.flag (RXDSP.CAP_STAT_DONE c) = true ∧ t.get (RXDSP.CAP_STAT_WORDS c) = captureLen c s ∧ (∀ k : Nat, k < captureLen c s → t.word (captureWord c k) = captureWordOf c k xs s) ∧ (t.get (HDR.INT_RAW (.rxdsp c))).testBit 8 = true ∧ OnlyPages [.rxdsp c] s t ∧ RegistersAndMemory s t)

/-- A leaf follows its hub, and a host configures the leaf contexts of a hub. It rests on rules R255, R262, R263, R265
to R269, R276 to R278 and R282, of which it states what its clauses say. The model's choices in it: log entries 36,
49, 87. -/
def Obligations.LeafMessagesAndContexts : Prop :=
  (∀ (c : Fin 16) (raw : List Nat) (s : State),
      s.inReset = false →
      leafHears c s = true →
      hubMsgOk 0x10 raw = true →
      raw.getD 13 0 = 0 →
      ∃ t, exec (.grants c raw) s = .next t ∧ t.leafGrants = s.leafGrants.filter (fun x => x.c != c || decide (mfLead (ofBe (slice raw 2 2)) x.gcn ≤ 64)) ∧ t.mem = s.mem ∧ OnlyPages [.hub c] s t)
    ∧ (∀ (c : Fin 16) (raw : List Nat) (g : Nat) (s : State),
      s.inReset = false →
      leafHears c s = true →
      hubMsgOk 0x10 raw = true →
      g = ofBe (slice raw 2 2) →
      exec (.grants c raw) s = .next (commit s.pending (let s1 := leafCycle c g s; let new := ((List.range (min 5 (raw.getD 13 0))).filterMap fun n => leafGrantOf c raw n s1).filter fun x => !s1.leafGrants.any (sameGrant x); let s2 := forL new (fun x s => leafFixed c x s) s1; { s2 with leafGrants := s2.leafGrants.filter (fun x => x.c != c || decide (mfLead g x.gcn ≤ 64)) ++ new })))
    ∧ (∀ (c : Fin 16) (raw : List Nat) (k : Fin 4) (eqd : Nat) (q : Nat) (s : State),
      s.inReset = false →
      leafCmdOf c raw k lcRange s = some (eqd, q) →
      s.get (HUB.LEAF_STAT_STATE c) = lfUnranged →
      exec (.range c raw k) s = .next (commit s.pending (((((s.put (HUB.LEAF_STAT_CSEQ c) q).put (HUB.hEqdNew c) eqd).put (HUB.hEqdDue c) 1).put (HUB.LEAF_STAT_STATE c) lfRanged).raise (.hub c) 7)))
    ∧ (∀ (c : Fin 16) (raw : List Nat) (k : Fin 4) (eqd : Nat) (q : Nat) (s : State),
      s.inReset = false →
      leafCmdOf c raw k lcActivate s = some (eqd, q) →
      s.get (HUB.LEAF_STAT_STATE c) = lfRanged →
      exec (.activate c raw k) s = .next (commit s.pending (((s.put (HUB.LEAF_STAT_CSEQ c) q).put (HUB.LEAF_STAT_STATE c) lfActive).raise (.hub c) 7)))
    ∧ (∀ (c : Fin 16) (raw : List Nat) (k : Fin 4) (eqd : Nat) (q : Nat) (s : State),
      s.inReset = false →
      leafCmdOf c raw k lcDeactivate s = some (eqd, q) →
      s.get (HUB.LEAF_STAT_STATE c) = lfActive →
      exec (.deactivate c raw k) s = .next (commit s.pending (((((s.put (HUB.LEAF_STAT_CSEQ c) q).put (HUB.LEAF_EQD c) 0).put (HUB.hEqdDue c) 0).put (HUB.LEAF_STAT_STATE c) lfUnranged).raise (.hub c) 7)))
    ∧ (∀ (c : Fin 16) (s : State),
      s.inReset = false →
      isLeaf c (syncUpdate c s) = true →
      lfUnranged ≤ (syncUpdate c s).get (HUB.LEAF_STAT_STATE c) →
      leafDsOk c (syncUpdate c s) = false →
      exec (.noDs c) s = .next (commit s.pending (leafMove c lfNoDs (((syncUpdate c s).put (HUB.hPrev c) ((syncUpdate c s).get (HUB.LEAF_STAT_STATE c))).put (HUB.hNoDsTicks c) 0))))
    ∧ (∀ (c : Fin 16) (s : State),
      s.inReset = false →
      (syncUpdate c s).get (HUB.LEAF_STAT_STATE c) = lfNoDs →
      leafDsOk c (syncUpdate c s) = true →
      (syncUpdate c s).get (HUB.hPrev c) = lfActive →
      (syncUpdate c s).get (HUB.hNoDsTicks c) ≤ (syncUpdate c s).get (HUB.LEAF_HOLD c) →
      exec (.leafDsReturn c) s = .next (commit s.pending (leafMove c lfActive (syncUpdate c s))))
    ∧ (∀ (c : Fin 16) (x : LeafGrant) (backlog : Nat) (guard : Nat) (s : State),
      s.inReset = false →
      s.leafGrants = [x] →
      x.c = c →
      x.gcn < 65536 →
      x.kind = 0 →
      leafBurst c s = true →
      s.flag (HUB.LEAF_STAT_SYNC c) = true →
      s.get (HUB.LEAF_STAT_STATE c) = lfActive →
      s.get (CONV.TX_STAT_STATE c) = txBurst →
      lineSends c s = true →
      exec (.burstTransmit c x.gcn x.index backlog guard) s = .next (commit s.pending ((fun r : State => { r with sent := r.sent ++ [Output.burst c x.gcn x.index (burstOf c x backlog guard 0 r)] }) (({ s with leafGrants := [] }.draw 16).2.put (HUB.hAns c) (min 255 (s.get (HUB.hAns c) + 1))))))
    ∧ (∀ (m : Master) (c : Fin 16) (r : Fin 256) (v : Nat) (s : State),
      s.inReset = false →
      AcceptsWindow m (.hub c) s →
      ctxState c r s = cxEmpty →
      exec (.leafCtxEnable m c r v) s = .next (commit s.pending (ctxMove c r cxUnranged true (ctxPut c r 1 56 1 0 (storeFor m true (leafWord c r.val 0) (setBits (setBits (2 ^ 63 + v % 2 ^ 61) 62 1 0) 61 1 0) s)))))
    ∧ (∀ (m : Master) (c : Fin 16) (r : Fin 256) (v : Nat) (s : State),
      s.inReset = false →
      AcceptsWindow m (.hub c) s →
      ctxState c r s ≠ cxEmpty →
      exec (.leafCtxDisable m c r v) s = .next (commit s.pending (ctxMove c r cxEmpty true (sendLeafCmd c r lcDeactivate 0 (storeFor m true (leafWord c r.val 0) (setBits (setBits (v % 2 ^ 61) 62 1 0) 61 1 0) s)))))
    ∧ (∀ (m : Master) (c : Fin 16) (r : Fin 256) (v : Nat) (s : State),
      s.inReset = false →
      AcceptsWindow m (.hub c) s →
      ctxState c r s ≠ cxEmpty →
      exec (.deact m c r v) s = .next (commit s.pending (ctxMove c r cxUnranged true (sendLeafCmd c r lcDeactivate 0 (storeFor m true (leafWord c r.val 0) (setBits (setBits (2 ^ 63 + 2 ^ 61 + v % 2 ^ 61) 62 1 0) 61 1 0) s)))))
    ∧ (∀ (m : Master) (c : Fin 16) (r : Fin 256) (v : Nat) (s : State),
      s.inReset = false →
      AcceptsWindow m (.hub c) s →
      ctxState c r s ≠ cxEmpty →
      exec (.clrFlags m c r v) s = .next (commit s.pending (ctxPut c r 1 58 3 0 (storeFor m true (leafWord c r.val 0) (setBits (setBits (2 ^ 63 + 2 ^ 62 + v % 2 ^ 61) 62 1 0) 61 1 0) s))))
    ∧ (∀ (c : Fin 16) (r : Fin 256) (s : State),
      s.inReset = false →
      ctxState c r s = cxActive →
      s.get (HUB.LEAF_POL_CTX_AGE c) ≠ 0 →
      s.get (HUB.LEAF_POL_CTX_AGE c) ≤ bits (ctxW c r 3 s) 0 16 →
      exec (.leafCtxStale c r) s = .next (commit s.pending (ctxPut c r 1 57 1 1 s)))
    ∧ (∀ (c : Fin 16) (s : State),
      s.inReset = false →
      isHub c s = true →
      s.flag (HUB.hCycFirst c) = true →
      s.get (HUB.hMf c) ≠ 2 ^ 64 - 1 →
      s.get (RXDSP.CARRIER_STAT_STATE c) ≠ stCal →
      exec (.grantCycleStart c) s = .next (commit s.pending (let n := 0; let s1 : State := { forFin 16 (fun b s => s.put (HUB.hRot c b) 0) (((s.put (HUB.hCycFirst c) 0).put (HUB.hCyc c) n).put (HUB.HUB_STAT_GCN c) n) with grants := s.grants.filter (fun x => x.c != c || decide (mfLead (n + 1) x.gcn ≤ 64)) }; { s1 with grants := s1.grants ++ assignCycle c 1 s1 })))
    ∧ (∀ (c : Fin 16) (n : Nat) (s : State),
      s.inReset = false →
      isHub c s = true →
      s.flag (HUB.hCycFirst c) = false →
      n = s.get (HUB.hCyc c) + 1 →
      s.get (RXDSP.CARRIER_STAT_STATE c) ≠ stCal →
      exec (.grantCycleStart c) s = .next (commit s.pending (let s1 : State := { forFin 16 (fun b s => s.put (HUB.hRot c b) 0) (((s.put (HUB.hCycFirst c) 0).put (HUB.hCyc c) n).put (HUB.HUB_STAT_GCN c) n) with grants := s.grants.filter (fun x => x.c != c || decide (mfLead (n + 1) x.gcn ≤ 64)) }; { s1 with grants := s1.grants ++ assignCycle c (n + 1) s1 })))
    ∧ (∀ (c : Fin 16) (s : State),
      s.inReset = false →
      isHub c s = true →
      s.flag (HUB.hCycFirst c) = false →
      s.get (RXDSP.CARRIER_STAT_STATE c) = stCal →
      ∃ t, exec (.grantCycleStart c) s = .next t ∧ t.get (HUB.HUB_STAT_GCN c) = (s.get (HUB.hCyc c) + 1) % 65536 ∧ t.grants = s.grants.filter (fun x => x.c != c || decide (mfLead (s.get (HUB.hCyc c) + 2) x.gcn ≤ 64)) ∧ t.mem = s.mem ∧ OnlyPages [.hub c] s t)

/-- Bursts are captured, judged and end. It rests on rules R285 to R292, of which it states what its clauses say. The
model's choices in it: log entry 154. -/
def Obligations.BurstReception : Prop :=
  (∀ (c : Fin 16) (b : Fin 16) (g : Nat) (i : Fin 64) (x : Grant) (s : State),
      s.inReset = false →
      findGrant c b g i s = some x →
      x.kind ≠ 2 →
      ∃ t, exec (.burstGuardStart c b g i) s = .next t ∧ t.get (CONV.RX_STAT_TIA_GAIN c) = (if s.flag (HDR.FREEZE (.conv c)) then s.get (CONV.RX_STAT_TIA_GAIN c) else min 96 (bits (ctxW c (ctxRow b x.slot) 2 s) 8 8)) ∧ t.get (HUB.hRxTia c b) = bits (ctxW c (ctxRow b x.slot) 2 s) 8 8 ∧ t.get (HUB.hRxFreq c b) = (if ctxValid c (ctxRow b x.slot) s then bits (ctxW c (ctxRow b x.slot) 3 s) 48 16 else 0) ∧ t.get (HUB.hRxHead c b) = expHead x s % 2 ^ (HUB.hRxHead c b).width ∧ t.get (HUB.hRxCd c b) = bits (ctxW c (ctxRow b x.slot) 2 s) 16 16 ∧ t.flag (CONV.RX_STAT_AGC_HOLD c) = true ∧ OnlyPages [.hub c, .conv c] s t ∧ RegistersOnly s t)
    ∧ (∀ (c : Fin 16) (b : Fin 16) (g : Nat) (i : Fin 64) (x : Grant) (head : Int) (pow : Int) (s : State),
      s.inReset = false →
      s.flag (RXDSP.hLineClk c) = true →
      s.get (HUB.hCap c b) = 0 →
      findGrant c b g i s = some x →
      inWindow x head s = true →
      exec (.burstCaptureStart c b g i head pow) s = .next (commit s.pending (capBegin c b (some x) head pow false s)))
    ∧ (∀ (c : Fin 16) (b : Fin 16) (s : State),
      s.inReset = false →
      s.flag (RXDSP.hLineClk c) = true →
      s.get (HUB.hCap c b) = 1 →
      exec (.burstCaptureAbandon c b) s = .next (commit s.pending (capAbandon c b s)))
    ∧ (∀ (c : Fin 16) (b : Fin 16) (head : Int) (pow : Int) (x : Grant) (s : State),
      s.inReset = false →
      s.flag (RXDSP.hLineClk c) = true →
      s.get (HUB.hCap c b) = 1 →
      s.geti (HUB.hCapPos c b) + 32 ≤ head →
      capGrant c b s = some x →
      head ≤ s.geti (HUB.hCapPos c b) + gePre x.entry + 32 →
      s.geti (HUB.hCapPow c b) + 100 * max 1 (s.get (HUB.CAP_CFG_RECAP_DB c)) ≤ pow →
      exec (.burstRecapture c b head pow) s = .next (commit s.pending (capBegin c b (s.grants.find? fun y => y.c == c && y.b == b && y.gcn == (s.get (HUB.hCapG c b) - 1) / 64 && inWindow y head s) head pow false (capAbandon c b s))))
    ∧ (∀ (c : Fin 16) (b : Fin 16) (head : Int) (pow : Int) (x : Grant) (s : State),
      s.inReset = false →
      s.flag (RXDSP.hLineClk c) = true →
      s.get (HUB.hCap c b) = 2 →
      s.geti (HUB.hCapPos c b) + 32 ≤ head →
      capGrant c b s = some x →
      s.geti (HUB.hCapPow c b) + 100 * max 1 (s.get (HUB.CAP_CFG_RECAP_DB c)) ≤ pow →
      exec (.burstRecapture c b head pow) s = .next (commit s.pending (capBegin c b ((s.cntAdd (HUB.hCnt c 2) 1).grants.find? fun y => y.c == c && y.b == b && y.gcn == (s.get (HUB.hCapG c b) - 1) / 64 && inWindow y head s) head pow true (dropGrant x ((ctxPut c (ctxRow b x.slot) 1 60 1 1 (s.cntAdd (HUB.hCnt c 2) 1)).raise (.hub c) 3)))))
    ∧ (∀ (c : Fin 16) (b : Fin 16) (head : Int) (pow : Int) (s : State),
      s.inReset = false →
      s.flag (RXDSP.hLineClk c) = true →
      s.get (HUB.hCap c b) = 2 →
      s.geti (HUB.hCapPos c b) + 32 ≤ head →
      pow < s.geti (HUB.hCapPow c b) + 100 * max 1 (s.get (HUB.CAP_CFG_RECAP_DB c)) →
      exec (.burstRecapture c b head pow) s = .next (commit s.pending (s.cntAdd (HUB.hCnt c 5) 1)))
    ∧ (∀ (c : Fin 16) (b : Fin 16) (h : List Nat) (s : State),
      s.inReset = false →
      s.flag (RXDSP.hLineClk c) = true →
      s.get (HUB.hCap c b) = 1 →
      hdrOk h = false →
      exec (.burstHeader c b h) s = .next (commit s.pending (capAbandon c b (s.cntAdd (HUB.hCnt c 6) 1))))
    ∧ (∀ (c : Fin 16) (b : Fin 16) (h : List Nat) (s : State),
      s.inReset = false →
      s.flag (RXDSP.hLineClk c) = true →
      s.get (HUB.hCap c b) = 1 →
      hdrOk h = true →
      exec (.burstHeader c b h) s = .next (commit s.pending (burstBranchFollow c b (headerPass c b h s))))
    ∧ (∀ (c : Fin 16) (b : Fin 16) (tphase : Int) (taps : List Nat) (lr : BurstLearn) (s : State),
      s.inReset = false →
      s.flag (RXDSP.hLineClk c) = true →
      s.get (HUB.hCap c b) = 2 →
      capGrant c b s = none →
      exec (.burstEnd c b tphase taps lr) s = .next (commit s.pending (s.put (HUB.hCap c b) 0)))
    ∧ (∀ (c : Fin 16) (b : Fin 16) (tphase : Int) (taps : List Nat) (lr : BurstLearn) (x : Grant) (r : Fin 256) (cws : Nat) (s : State),
      s.inReset = false →
      s.flag (RXDSP.hLineClk c) = true →
      s.get (HUB.hCap c b) = 2 →
      capGrant c b s = some x →
      x.kind ≠ 2 →
      r = ctxRow b x.slot →
      cws = burstWords (s.get (RXDSP.hMode c)) (capPayload c b s) →
      cws ≤ s.get (HUB.hCapCws c b) →
      s.flag (HDR.FREEZE (.hub c)) = false →
      exec (.burstEnd c b tphase taps lr) s = .next (commit s.pending (burstBranchFollow c b (let s1 := writeBack c b r tphase taps lr ((dropGrant x s).put (HUB.hCap c b) 0); if ctxState c r s1 = cxActive then driftAdjust c r (pushOfs c r tphase s1) else s1))))
    ∧ (∀ (c : Fin 16) (b : Fin 16) (tphase : Int) (taps : List Nat) (lr : BurstLearn) (x : Grant) (r : Fin 256) (cws : Nat) (s : State),
      s.inReset = false →
      s.flag (RXDSP.hLineClk c) = true →
      s.get (HUB.hCap c b) = 2 →
      capGrant c b s = some x →
      x.kind ≠ 2 →
      r = ctxRow b x.slot →
      cws = burstWords (s.get (RXDSP.hMode c)) (capPayload c b s) →
      100 * s.get (HUB.hCapCws c b) < 90 * cws →
      s.flag (HDR.FREEZE (.hub c)) = false →
      exec (.burstEnd c b tphase taps lr) s = .next (commit s.pending (burstBranchFollow c b (let s1 := burstBad c b r ((dropGrant x s).put (HUB.hCap c b) 0); if ctxState c r s1 = cxActive then driftAdjust c r (pushOfs c r tphase s1) else s1))))
    ∧ (∀ (c : Fin 16) (b : Fin 16) (g : Nat) (i : Fin 64) (x : Grant) (r : Fin 256) (s : State),
      s.inReset = false →
      findGrant c b g i s = some x →
      x.kind ≠ 2 →
      x.excused = false →
      s.get (RXDSP.CARRIER_STAT_STATE c) ≠ stCal →
      r = ctxRow b x.slot →
      exec (.burstMissing c b g i) s = .next (commit s.pending (burstBranchFollow c b (let s1 := ((burstBad c b r (dropGrant x s)).cntAdd (HUB.hCnt c 1) 1).modify (leafWord c r.val 1) fun v => setBits v 16 16 (bits v 16 16 + 1)
        let s2 := s1.put (HUB.hConsec c r) (min 255 (s.get (HUB.hConsec c r) + 1))
        let s3 := if x.kind = 3 then s2.put (HUB.hRangeMiss c r) (min 3 (s.get (HUB.hRangeMiss c r) + 1)) else s2
        if (ctxState c r s3 = cxActive ∧ max 1 (s3.get (HUB.LEAF_POL_LOS_GRANTS c)) ≤ s3.get (HUB.hConsec c r)) ∨ (ctxState c r s3 = cxRanging ∧ s3.get (HUB.hRangeMiss c r) = 3) then ctxLost c r s3 else s3))))
    ∧ (∀ (c : Fin 16) (b : Fin 16) (g : Nat) (i : Fin 64) (x : Grant) (s : State),
      s.inReset = false →
      findGrant c b g i s = some x →
      x.kind = 2 →
      exec (.burstMissing c b g i) s = .next (commit s.pending (dropGrant x s)))

/-- Client ports and lanes enter and leave service. It rests on rules R374, R375, R378, R382, R383, R385, R387 and
R389 to R392, of which it states what its clauses say. The model's choices in it: log entries 71, 174, 175. -/
def Obligations.ClientPortsAndLanes : Prop :=
  (∀ (m : Master) (g : Fin 32) (n : Fin 8) (v : Nat) (s : State),
      s.inReset = false →
      Accepts m (.lanegrp g) (portCfgOff n) s →
      s.flag (LANEGRP.PORT_CFG_EN g n) = false →
      s.flag (HDR.ENABLE (.lanegrp g)) = true →
      exec (.portEnable m g n v) s = .next (commit s.pending (portStart g n ((((s.put (LANEGRP.PORT_CFG_EN g n) 1).put (LANEGRP.PORT_CFG_USE g n) (bits v 29 2)).put (LANEGRP.PORT_CFG_RATE g n) (bits v 27 2)).put (LANEGRP.PORT_CFG_TS_EN g n) (bits v 26 1)))))
    ∧ (∀ (m : Master) (g : Fin 32) (n : Fin 8) (v : Nat) (s : State),
      s.inReset = false →
      Accepts m (.lanegrp g) (portCfgOff n) s →
      exec (.portDisable m g n v) s = .next (commit s.pending (portMove g n ptDisabled ((((s.put (LANEGRP.PORT_CFG_EN g n) 0).put (LANEGRP.PORT_CFG_USE g n) (bits v 29 2)).put (LANEGRP.PORT_CFG_RATE g n) (bits v 27 2)).put (LANEGRP.PORT_CFG_TS_EN g n) (bits v 26 1)))))
    ∧ (∀ (g : Fin 32) (n : Fin 8) (s : State),
      s.inReset = false →
      s.get (LANEGRP.PORT_STAT_STATE g n) = ptAligning →
      (∀ r ∈ portLanes g n s, s.flag (LANEGRP.LANE_CTRL_EN g r) = true ∧ s.flag (LANEGRP.LANE_STAT_CDR_LOCK g r) = true ∧ s.flag (LANEGRP.LANE_STAT_EQ_CONV g r) = true) →
      s.flag (HDR.ENABLE (.lanegrp g)) = true →
      exec (.portUp g n) s = .next (commit s.pending (((s.put (LANEGRP.PORT_STAT_STATE g n) ptUp).raise (.lanegrp g) 0).put (LANEGRP.PORT_STAT_LANES_ALIGNED g n) ((portLanes g n s).foldl (fun a r => a + 2 ^ r.val) 0))))
    ∧ (∀ (g : Fin 32) (n : Fin 8) (s : State),
      s.inReset = false →
      s.flag (LANEGRP.LANE_STAT_CLK_PRESENT g n) = true →
      s.get (LANEGRP.PORT_STAT_STATE g n) = ptUp →
      exec (.portAlignLoss g n) s = .next (commit s.pending ((portLoss g n (s.draw 8).2).put (LANEGRP.PORT_STAT_LANES_ALIGNED g n) (s.get (LANEGRP.PORT_STAT_LANES_ALIGNED g n) &&& (s.draw 8).1))))
    ∧ (∀ (g : Fin 32) (n : Fin 8) (s : State),
      s.inReset = false →
      s.flag (LANEGRP.LANE_STAT_CLK_PRESENT g n) = true →
      s.get (LANEGRP.PORT_STAT_STATE g n) = ptUp →
      ∃ t, exec (.portAlignLoss g n) s = .next t ∧ t.get (LANEGRP.PORT_STAT_STATE g n) = ptAligning ∧ t.flag (LANEGRP.PORT_STAT_HI_SER g n) = false ∧ t.get (LANEGRP.PORT_STAT_LANES_ALIGNED g n) &&& s.get (LANEGRP.PORT_STAT_LANES_ALIGNED g n) = t.get (LANEGRP.PORT_STAT_LANES_ALIGNED g n) ∧ (t.get (HDR.INT_RAW (.lanegrp g))).testBit 0 = true)
    ∧ (∀ (g : Fin 32) (n : Fin 8) (s : State),
      s.inReset = false →
      s.flag (LANEGRP.LANE_STAT_CLK_PRESENT g n) = true →
      portOn g n s = true →
      s.flag (LANEGRP.PORT_STAT_HI_SER g n) = false →
      exec (.hiSer g n true) s = .next (commit s.pending ((s.raise (.lanegrp g) 3).put (LANEGRP.PORT_STAT_HI_SER g n) 1)))
    ∧ (∀ (g : Fin 32) (n : Fin 8) (s : State),
      s.inReset = false →
      s.flag (LANEGRP.LANE_STAT_CLK_PRESENT g n) = true →
      portOn g n s = true →
      exec (.hiSer g n false) s = .next (commit s.pending (s.put (LANEGRP.PORT_STAT_HI_SER g n) 0)))
    ∧ (∀ (g : Fin 32) (n : Fin 8) (on : Bool) (s : State),
      s.inReset = false →
      s.flag (LANEGRP.LANE_STAT_CLK_PRESENT g n) = true →
      s.get (LANEGRP.PORT_STAT_STATE g n) = ptUp →
      exec (.remoteFault g n on) s = .next (commit s.pending (s.put (LANEGRP.PORT_STAT_RF_RX g n) on.toNat)))
    ∧ (∀ (m : Master) (g : Fin 32) (r : Fin 8) (v : Nat) (s : State),
      s.inReset = false →
      Accepts m (.lanegrp g) (0x100 + 0x40 * r.val) s →
      s.flag (LANEGRP.LANE_CTRL_EN g r) = false →
      s.flag (HDR.ENABLE (.lanegrp g)) = true →
      (((((s.put (LANEGRP.LANE_CTRL_RX_INV g r) (bits v 3 1)).put (LANEGRP.LANE_CTRL_TX_INV g r) (bits v 2 1)).put (LANEGRP.LANE_CTRL_LPBK g r) (bits v 1 1)).put (LANEGRP.LANE_CTRL_EN g r) (bits v 0 1))).flag (HDR.ENABLE (.lanegrp g)) = true →
      bits v 0 1 = 1 →
      exec (.laneCtrlWrite m g r v) s = .next (commit s.pending (laneRestart g r ((((s.put (LANEGRP.LANE_CTRL_RX_INV g r) (bits v 3 1)).put (LANEGRP.LANE_CTRL_TX_INV g r) (bits v 2 1)).put (LANEGRP.LANE_CTRL_LPBK g r) (bits v 1 1)).put (LANEGRP.LANE_CTRL_EN g r) 1))))
    ∧ (∀ (m : Master) (g : Fin 32) (r : Fin 8) (s : State),
      s.inReset = false →
      Accepts m (.lanegrp g) (0x10C + 0x40 * r.val) s →
      exec (.laneRestart m g r) s = .next (commit s.pending (laneRestart g r s)))
    ∧ (∀ (m : Master) (g : Fin 32) (r : Fin 8) (s : State),
      s.inReset = false →
      Accepts m (.lanegrp g) (0x10C + 0x40 * r.val) s →
      s.flag (LANEGRP.LANE_CTRL_EN g r) = true →
      s.flag (HDR.ENABLE (.lanegrp g)) = true →
      portOfLane g r s = none →
      exec (.laneSlip m g r) s = .next (commit s.pending (s.put (LANEGRP.LANE_STAT_SLIP_POS g r) ((s.get (LANEGRP.LANE_STAT_SLIP_POS g r) + 1) % 80))))
    ∧ (∀ (m : Master) (g : Fin 32) (r : Fin 8) (v : Nat) (s : State),
      s.inReset = false →
      Accepts m (.lanegrp g) (0x104 + 0x40 * r.val) s →
      txEqOk v = false →
      exec (.txEqWrite m g r v) s = .next (commit s.pending ((s.put (LANEGRP.LANE_STAT_TXEQ_REJ g r) 1).raise (.lanegrp g) 6)))
    ∧ (∀ (m : Master) (g : Fin 32) (r : Fin 8) (v : Nat) (s : State),
      s.inReset = false →
      Accepts m (.lanegrp g) (0x104 + 0x40 * r.val) s →
      txEqOk v = true →
      exec (.txEqWrite m g r v) s = .next (commit s.pending ((((((s.put (LANEGRP.TX_EQ_SWING g r) (bits v 24 8)).put (LANEGRP.TX_EQ_PRE3 g r) (bits v 18 6)).put (LANEGRP.TX_EQ_PRE2 g r) (bits v 12 6)).put (LANEGRP.TX_EQ_PRE1 g r) (bits v 6 6)).put (LANEGRP.TX_EQ_POST1 g r) (bits v 0 6)).put (LANEGRP.LANE_STAT_TXEQ_REJ g r) 0)))
    ∧ (∀ (g : Fin 32) (r : Fin 8) (s : State),
      s.inReset = false →
      s.flag (LANEGRP.LANE_STAT_CLK_PRESENT g r) = true →
      s.flag (LANEGRP.LANE_CTRL_EN g r) = true →
      s.flag (HDR.ENABLE (.lanegrp g)) = true →
      exec (.cdrLockAcquired g r) s = .next (commit s.pending (s.put (LANEGRP.LANE_STAT_CDR_LOCK g r) 1)))
    ∧ (∀ (g : Fin 32) (r : Fin 8) (s : State),
      s.inReset = false →
      s.flag (LANEGRP.LANE_STAT_CLK_PRESENT g r) = true →
      s.flag (LANEGRP.LANE_STAT_CDR_LOCK g r) = true →
      laneOn g r (s.put (LANEGRP.LANE_STAT_CDR_LOCK g r) 0) = true →
      exec (.cdrLockLost g r) s = .next (commit s.pending (laneLoss g r ((s.put (LANEGRP.LANE_STAT_CDR_LOCK g r) 0).raise (.lanegrp g) 1))))
    ∧ (∀ (g : Fin 32) (r : Fin 8) (s : State),
      s.inReset = false →
      s.flag (LANEGRP.LANE_STAT_CLK_PRESENT g r) = true →
      laneOn g r s = true →
      s.flag (LANEGRP.LANE_STAT_CDR_LOCK g r) = true →
      (laneFrozen g r s = false ∨ bit (s.get (LANEGRP.hMode g r)) 6 = true) →
      exec (.eqConv g r) s = .next (commit s.pending (s.put (LANEGRP.LANE_STAT_EQ_CONV g r) 1)))
    ∧ (∀ (m : Master) (g : Fin 32) (r : Fin 8) (v : Nat) (s : State),
      s.inReset = false →
      Accepts m (.lanegrp g) (0x114 + 0x40 * r.val) s →
      ∃ t, exec (.prbsClr m g r v) s = .next t ∧ t.get (LANEGRP.PRBS_ERR_LO g r) = 0 ∧ t.get (LANEGRP.PRBS_ERR_HI_COUNT g r) = 0 ∧ t.flag (LANEGRP.PRBS_ERR_HI_SATURATED g r) = false ∧ t.get (LANEGRP.PRBS_CTRL_PATTERN g r) = bits v 28 2 ∧ OnlyPages [.lanegrp g] s t ∧ RegistersOnly s t)
    ∧ (∀ (g : Fin 32) (r : Fin 8) (s : State),
      s.inReset = false →
      s.flag (LANEGRP.LANE_STAT_CLK_PRESENT g r) = true →
      prbsRuns g r s = true →
      s.flag (LANEGRP.PRBS_ERR_HI_LOCKED g r) = false →
      exec (.prbsLock g r) s = .next (commit s.pending ((s.raise (.lanegrp g) 4).put (LANEGRP.PRBS_ERR_HI_LOCKED g r) 1)))
    ∧ (∀ (g : Fin 32) (r : Fin 8) (s : State),
      s.inReset = false →
      s.flag (LANEGRP.LANE_STAT_CLK_PRESENT g r) = true →
      s.flag (LANEGRP.PRBS_ERR_HI_LOCKED g r) = true →
      exec (.prbsUnlock g r) s = .next (commit s.pending ((s.raise (.lanegrp g) 4).put (LANEGRP.PRBS_ERR_HI_LOCKED g r) 0)))

/-- The protection selector of a tributary and the conditions of its sides. It rests on rules R33, R355, R357, R360 to
R363 and R369, of which it states what its clauses say. The model's choices in it: log entries 32, 88, 89, 172. -/
def Obligations.TributarySelectionAndConditions : Prop :=
  (∀ (q : Fin 4) (t : Fin 256) (s : State),
      s.inReset = false →
      selFree q t s = true →
      s.get (TSI.hForce q t) = 0 →
      (s.get (TSI.hSf q t)).testBit (selSide q t s) = true →
      (s.get (TSI.hSf q t)).testBit (1 - selSide q t s) = false →
      s.get (TSI.TSI_CFG_HOLDOFF q) ≤ s.get (TSI.hSfTicks q t) →
      exec (.protSwitch q t) s = .next (commit s.pending (tribSync q t ((((s.put (TSI.hNext q t) (1 - selSide q t s + 1)).incWrap (TSI.hSwitches q t) 1)).raise (.tsi q) 0))))
    ∧ (∀ (q : Fin 4) (t : Fin 256) (s : State),
      s.inReset = false →
      selFree q t s = true →
      s.get (TSI.hForce q t) = 0 →
      s.flag (TSI.TSI_CFG_REVERT q) = true →
      selSide q t s = 1 →
      (s.get (TSI.hSf q t)).testBit 0 = false →
      wtrTicks q s ≤ s.get (TSI.hFree q t) →
      exec (.protRevert q t) s = .next (commit s.pending (tribSync q t ((s.put (TSI.hNext q t) 1).incWrap (TSI.hSwitches q t) 1))))
    ∧ (∀ (q : Fin 4) (t : Fin 256) (s : State),
      s.inReset = false →
      selFree q t s = true →
      s.get (TSI.hNext q t) ≠ 0 →
      exec (.protSwitchApply q t) s = .next (commit s.pending (tribSync q t (((s.put (TSI.hSel q t) (s.get (TSI.hNext q t) - 1)).put (TSI.hNext q t) 0).put (TSI.hSfTicks q t) 0))))
    ∧ (∀ (m : Master) (q : Fin 4) (t : Fin 256) (s : State),
      s.inReset = false →
      Accepts m (.tsi q) 0x044 s →
      tdEn (tribDesc q true t s) = true →
      tdProt (tribDesc q true t s) = true →
      exec (.forceA m q t) s = .next (commit s.pending (tribSync q t (selForce q t (s.put (TSI.hForce q t) 1)))))
    ∧ (∀ (m : Master) (q : Fin 4) (t : Fin 256) (s : State),
      s.inReset = false →
      Accepts m (.tsi q) 0x044 s →
      tdEn (tribDesc q true t s) = true →
      tdProt (tribDesc q true t s) = true →
      exec (.forceB m q t) s = .next (commit s.pending (tribSync q t (selForce q t (s.put (TSI.hForce q t) 2)))))
    ∧ (∀ (m : Master) (q : Fin 4) (t : Fin 256) (s : State),
      s.inReset = false →
      Accepts m (.tsi q) 0x044 s →
      tdEn (tribDesc q true t s) = true →
      tdProt (tribDesc q true t s) = true →
      exec (.clear m q t) s = .next (commit s.pending (tribSync q t (s.put (TSI.hForce q t) 0))))
    ∧ (∀ (q : Fin 4) (t : Fin 256) (x : Fin 2) (cycles : List (List Nat)) (s : State),
      s.inReset = false →
      cycles.length = 3 →
      tdEn (tribDesc q true t s) = true →
      cycles.all (msiDiffers ((sideEntries q t x s).filter fun e => decide (e.1 < 2560))) = true →
      s.flag (TSI.hMsim q t x) = false →
      exec (.msimChange q t x cycles) s = .next (commit s.pending (tribSync q t ((s.put (TSI.hMsim q t x) 1).raise (.tsi q) 2))))
    ∧ (∀ (q : Fin 4) (t : Fin 256) (x : Fin 2) (s : State),
      s.inReset = false →
      tdEn (tribDesc q true t s) = true →
      sideEntries q t x s ≠ [] →
      exec (.oduflexAligned q t x) s = .next (commit s.pending (tribSync q t (s.put (TSI.hOdu q t x) 1))))
    ∧ (∀ (q : Fin 4) (t : Fin 256) (x : Fin 2) (s : State),
      s.inReset = false →
      tdEn (tribDesc q true t s) = true →
      exec (.oduflexLoss q t x) s = .next (commit s.pending (asLost q t x (tribSync q t (s.put (TSI.hOdu q t x) 0)))))
    ∧ (∀ (q : Fin 4) (t : Fin 256) (x : Fin 2) (n : Nat) (s : State),
      s.inReset = false →
      tdEn (tribDesc q true t s) = true →
      (n % 8 = 5 ∨ n % 8 = 6 ∨ n % 8 = 7) →
      exec (.oduflexStatChange q t x n) s = .next (commit s.pending (tribSync q t (s.put (TSI.hStat q t x) (n % 8)))))
    ∧ (∀ (q : Fin 4) (t : Fin 256) (x : Fin 2) (n : Nat) (s : State),
      s.inReset = false →
      tdEn (tribDesc q true t s) = true →
      n % 8 < 5 →
      exec (.oduflexStatChange q t x n) s = .next (commit s.pending (tribSync q t (s.put (TSI.hStat q t x) 0))))
    ∧ (∀ (q : Fin 4) (words : Nat) (s : State),
      s.inReset = false →
      exec (.queueSlip ⟨.tsi q, words⟩) s = .next (commit s.pending (((s.send (.slipFill (.tsi q) words)).incStick (TSI.SLIP_CNT q) 1).raise (.tsi q) 3)))
    ∧ (∀ (words : Nat) (s : State),
      s.inReset = false →
      exec (.queueSlip ⟨.xqsw, words⟩) s = .next (commit s.pending (((s.send (.slipFill .xqsw words)).incStick XQSW.SLIP_CNT 1).raise .xqsw 0)))

/-- Transmit multiframes and branch frames are sent. It rests on rules R264, R303, R311 and R313, of which it states
what its clauses say. -/
def Obligations.TransmitFrames : Prop :=
  (∀ (c : Fin 16) (d : DevTime) (pay : TxPayload) (s : State),
      s.inReset = false →
      otuRuns c s = true →
      exec (.txMultiframeStart c ⟨d, pay⟩) s = .next (commit s.pending (let s1 := txMultiframe c d { s with txPay := s.txPay.filter (fun x => x.1 != c) ++ [(c, clearSegs pay s)] }
        let s2 := forL (streamsTx c s1) (fun i s => placeOsmc c i s) s1
        let s3 := if isHub c s2 then forL (streamsTx c s2) (fun b s => s.put (OTU.hBrFrame c b) 0) (s2.incWrap (HUB.hMf c) 1) else s2
        txFrame c (s3.put (OTU.hFrame c) 0))))
    ∧ (∀ (c : Fin 16) (b : Fin 16) (s : State),
      s.inReset = false →
      otuRuns c s = true →
      isHub c s = true →
      b ∈ streamsTx c s →
      s.get (OTU.hBrFrame c b) < 256 →
      exec (.branchFrameSend c b) s = .next (commit s.pending ((sendBranchFrame c b (s.get (OTU.hBrFrame c b)) s).put (OTU.hBrFrame c b) (s.get (OTU.hBrFrame c b) + 1))))

/-- Contexts of a traffic manager, its classifier, scheduler, buckets and wheel. It rests on rules R399, R401, R403 to
R407, R409, R413 and R419 to R425, of which it states what its clauses say. The model's choices in it: log entries 37,
39, 40, 41, 42, 43, 180, 182. -/
def Obligations.ContextsAndScheduler : Prop :=
  (∀ (m : Master) (q : Fin 4) (x : Fin 4096) (v : Nat) (s : State),
      s.inReset = false →
      AcceptsWindow m (.tm q) s →
      exec (.contextEnable m q x v) s = .next (commit s.pending (ctxWritten m q x 0 true (setBits (2 ^ 63 + v % 2 ^ 63) 57 1 0) s)))
    ∧ (∀ (m : Master) (q : Fin 4) (x : Fin 4096) (v : Nat) (s : State),
      s.inReset = false →
      AcceptsWindow m (.tm q) s →
      exec (.flush m q x v) s = .next (commit s.pending (ctxWritten m q x 0 true (setBits (v % 2 ^ 64) 57 1 1) s)))
    ∧ (∀ (g : Fin 32) (n : Fin 8) (fr : EthFrame) (x : Fin 4096) (s : State),
      s.inReset = false →
      (ptpTaken g n fr s = false ∨ ptpMode g n s ≠ 1) →
      portState g n s = ptUp →
      portUse g n s = usePkt →
      pageOn (.tm (groupQuad g)) s = true →
      frameBad fr = false →
      classify (groupQuad g) (portIndex g n) fr.bytes (blockReads [portMapWord (groupQuad g) (2 * portIndex g n), portMapWord (groupQuad g) (2 * portIndex g n + 1)] s) = some x →
      exec (.clientFrameClassify g n fr) s = .next (commit s.pending (orderSync (groupQuad g) (toContext (groupQuad g) x fr (blockReads [portMapWord (groupQuad g) (2 * portIndex g n), portMapWord (groupQuad g) (2 * portIndex g n + 1)] s)))))
    ∧ (∀ (g : Fin 32) (n : Fin 8) (fr : EthFrame) (s : State),
      s.inReset = false →
      (ptpTaken g n fr s = false ∨ ptpMode g n s ≠ 1) →
      portState g n s = ptUp →
      portUse g n s = usePkt →
      pageOn (.tm (groupQuad g)) s = true →
      frameBad fr = true →
      exec (.clientFrameClassify g n fr) s = .next (commit s.pending (s.cntAdd (TM.hCnt (groupQuad g) 7) 1)))
    ∧ (∀ (g : Fin 32) (n : Fin 8) (fr : EthFrame) (s : State),
      s.inReset = false →
      (ptpTaken g n fr s = false ∨ ptpMode g n s ≠ 1) →
      portState g n s = ptUp →
      portUse g n s = usePkt →
      pageOn (.tm (groupQuad g)) s = true →
      frameBad fr = false →
      classify (groupQuad g) (portIndex g n) fr.bytes (blockReads [portMapWord (groupQuad g) (2 * portIndex g n), portMapWord (groupQuad g) (2 * portIndex g n + 1)] s) = none →
      exec (.clientFrameClassify g n fr) s = .next (commit s.pending ((blockReads [portMapWord (groupQuad g) (2 * portIndex g n), portMapWord (groupQuad g) (2 * portIndex g n + 1)] s).cntAdd (TM.hCnt (groupQuad g) 7) 1)))
    ∧ (∀ (c : Fin 16) (taken : List Nat) (ue : Bool) (s : State),
      s.inReset = false →
      pageOn (.tm (quadOf c)) ((portsSend c taken s).incWrap (TM.hBeat (quadOf c) (kOf c)) 1) = false →
      exec (.schedulerBeat c taken ue) s = .next (commit s.pending ((portsSend c taken s).incWrap (TM.hBeat (quadOf c) (kOf c)) 1)))
    ∧ (∀ (c : Fin 16) (taken : List Nat) (ue : Bool) (i : Nat) (n : Fin 16) (s : State),
      s.inReset = false →
      pageOn (.tm (quadOf c)) ((portsSend c taken s).incWrap (TM.hBeat (quadOf c) (kOf c)) 1) = true →
      calLen (quadOf c) (kOf c) true (orderSync (quadOf c) (schedReads (quadOf c) ((portsSend c taken s).incWrap (TM.hBeat (quadOf c) (kOf c)) 1))) ≠ 0 →
      scanCalendar c (calLen (quadOf c) (kOf c) true (orderSync (quadOf c) (schedReads (quadOf c) ((portsSend c taken s).incWrap (TM.hBeat (quadOf c) (kOf c)) 1)))) (orderSync (quadOf c) (schedReads (quadOf c) ((portsSend c taken s).incWrap (TM.hBeat (quadOf c) (kOf c)) 1))) ((orderSync (quadOf c) (schedReads (quadOf c) ((portsSend c taken s).incWrap (TM.hBeat (quadOf c) (kOf c)) 1))).get (TM.hPtr (quadOf c) (kOf c))) (min 8 (calLen (quadOf c) (kOf c) true (orderSync (quadOf c) (schedReads (quadOf c) ((portsSend c taken s).incWrap (TM.hBeat (quadOf c) (kOf c)) 1))))) = some (i, n, none) →
      exec (.schedulerBeat c taken ue) s = .next (commit s.pending (orderSync (quadOf c) (forFin 16 (fun n s => s.putB (TM.hHold (quadOf c) (kOf c) n) false) ((releaseQuantum c n ue (entryReads (quadOf c) (kOf c) i n (orderSync (quadOf c) (schedReads (quadOf c) ((portsSend c taken s).incWrap (TM.hBeat (quadOf c) (kOf c)) 1))))).put (TM.hPtr (quadOf c) (kOf c)) ((i + 1) % calLen (quadOf c) (kOf c) true (orderSync (quadOf c) (schedReads (quadOf c) ((portsSend c taken s).incWrap (TM.hBeat (quadOf c) (kOf c)) 1)))))))))
    ∧ (∀ (c : Fin 16) (taken : List Nat) (ue : Bool) (i : Nat) (n : Fin 16) (x : Next) (s : State),
      s.inReset = false →
      pageOn (.tm (quadOf c)) ((portsSend c taken s).incWrap (TM.hBeat (quadOf c) (kOf c)) 1) = true →
      calLen (quadOf c) (kOf c) true (orderSync (quadOf c) (schedReads (quadOf c) ((portsSend c taken s).incWrap (TM.hBeat (quadOf c) (kOf c)) 1))) ≠ 0 →
      scanCalendar c (calLen (quadOf c) (kOf c) true (orderSync (quadOf c) (schedReads (quadOf c) ((portsSend c taken s).incWrap (TM.hBeat (quadOf c) (kOf c)) 1)))) (orderSync (quadOf c) (schedReads (quadOf c) ((portsSend c taken s).incWrap (TM.hBeat (quadOf c) (kOf c)) 1))) ((orderSync (quadOf c) (schedReads (quadOf c) ((portsSend c taken s).incWrap (TM.hBeat (quadOf c) (kOf c)) 1))).get (TM.hPtr (quadOf c) (kOf c))) (min 8 (calLen (quadOf c) (kOf c) true (orderSync (quadOf c) (schedReads (quadOf c) ((portsSend c taken s).incWrap (TM.hBeat (quadOf c) (kOf c)) 1))))) = some (i, n, some x) →
      exec (.schedulerBeat c taken ue) s = .next (commit s.pending (orderSync (quadOf c) (forFin 16 (fun n s => s.putB (TM.hHold (quadOf c) (kOf c) n) false) ((startFrame c n x ue (entryReads (quadOf c) (kOf c) i n (orderSync (quadOf c) (schedReads (quadOf c) ((portsSend c taken s).incWrap (TM.hBeat (quadOf c) (kOf c)) 1))))).put (TM.hPtr (quadOf c) (kOf c)) ((i + 1) % calLen (quadOf c) (kOf c) true (orderSync (quadOf c) (schedReads (quadOf c) ((portsSend c taken s).incWrap (TM.hBeat (quadOf c) (kOf c)) 1)))))))))
    ∧ (∀ (c : Fin 16) (taken : List Nat) (ue : Bool) (s : State),
      s.inReset = false →
      pageOn (.tm (quadOf c)) ((portsSend c taken s).incWrap (TM.hBeat (quadOf c) (kOf c)) 1) = true →
      calLen (quadOf c) (kOf c) true (orderSync (quadOf c) (schedReads (quadOf c) ((portsSend c taken s).incWrap (TM.hBeat (quadOf c) (kOf c)) 1))) ≠ 0 →
      scanCalendar c (calLen (quadOf c) (kOf c) true (orderSync (quadOf c) (schedReads (quadOf c) ((portsSend c taken s).incWrap (TM.hBeat (quadOf c) (kOf c)) 1)))) (orderSync (quadOf c) (schedReads (quadOf c) ((portsSend c taken s).incWrap (TM.hBeat (quadOf c) (kOf c)) 1))) ((orderSync (quadOf c) (schedReads (quadOf c) ((portsSend c taken s).incWrap (TM.hBeat (quadOf c) (kOf c)) 1))).get (TM.hPtr (quadOf c) (kOf c))) (min 8 (calLen (quadOf c) (kOf c) true (orderSync (quadOf c) (schedReads (quadOf c) ((portsSend c taken s).incWrap (TM.hBeat (quadOf c) (kOf c)) 1))))) = none →
      exec (.schedulerBeat c taken ue) s = .next (commit s.pending (orderSync (quadOf c) (forFin 16 (fun n s => s.putB (TM.hHold (quadOf c) (kOf c) n) false) ((orderSync (quadOf c) (schedReads (quadOf c) ((portsSend c taken s).incWrap (TM.hBeat (quadOf c) (kOf c)) 1))).put (TM.hPtr (quadOf c) (kOf c)) (((orderSync (quadOf c) (schedReads (quadOf c) ((portsSend c taken s).incWrap (TM.hBeat (quadOf c) (kOf c)) 1))).get (TM.hPtr (quadOf c) (kOf c)) + 8) % calLen (quadOf c) (kOf c) true (orderSync (quadOf c) (schedReads (quadOf c) ((portsSend c taken s).incWrap (TM.hBeat (quadOf c) (kOf c)) 1)))))))))
    ∧ (∀ (q : Fin 4) (now : Nat) (s : State),
      s.inReset = false →
      now = s.get (TM.hCredit q) →
      exec (.bucketCredit q) s = .next (commit s.pending (let s1 := s.incWrap (TM.hCredit q) 1
        let s2 := forL (ctxLive q s1) (fun x s => if s.flag (TM.hFault q x.1) then s else ctxReads q x.1 (List.range 5) s) s1
        let s3 := forL (ctxLive q s2) (fun x s =>
          let s := if (tcPol x.2 = 1 ∨ tcPol x.2 = 2) ∧ !s.flag (TM.hFault q x.1) then polCredit q x.1 (tcPol x.2) now s else s
          if !tcExpress x.2 && subRate q x.1 s != 0 then (subShaper q x.1 s).credit now s else s) s2
        forFin 4 (fun k s =>
          forFin 16 (fun n' s => if prEn (portRow (carOf q k) n' s) then (expShaper (carOf q k) n' s).credit now s else s)
            (forL (svcLive (carOf q k) s) (fun v s => if snRate (svc (carOf q k) v s) = 0 then s else (svcShaper (carOf q k) v s).credit now s) s)) s3)))
    ∧ (∀ (c : Fin 16) (coarse : Bool) (now : Nat) (s : State),
      s.inReset = false →
      now = beatOf c s →
      exec (.wheelSlotReached c coarse) s = .next (commit s.pending (let s1 := forFin 16 (fun n s => (expShaper c n s).slot coarse now s) s
        let s2 := forL ((ctxLive (quadOf c) s1).filter fun x => tcK x.2 == kOf c && !tcExpress x.2) (fun x s =>
          if s.get (TM.hSubE (quadOf c) x.1) = 0 then s else wheelShow (quadOf c) x.1 ((subShaper (quadOf c) x.1 s).slot coarse now s)) s1
        orderSync (quadOf c) (forL (svcLive c s2) (fun v s => (svcShaper c v s).slot coarse now s) s2))))

/-- Frames are queued toward a client port and sent to it. It rests on rules R391, R428 to R430, R439 and R539, of
which it states what its clauses say. The model's choices in it: log entry 45. -/
def Obligations.EgressFrames : Prop :=
  (∀ (q : Fin 4) (fr : EthFrame) (e : Nat) (s : State),
      s.inReset = false →
      pageOn (.tm q) s = true →
      frameBad fr = false →
      e = s.word (egressWord q (outerTag fr.bytes).1) →
      bit e 63 = true →
      portState (portGroup q (bits e 57 6)) (portFirst (bits e 57 6)) s ≠ ptDisabled →
      portUse (portGroup q (bits e 57 6)) (portFirst (bits e 57 6)) s = usePkt →
      bit (portMap q (bits e 57 6) 0 s) 63 = true →
      portShut q (Fin.ofNat 64 (bits e 57 6)) s = false →
      exec (.egressFrameReceive q fr) s = .next (commit s.pending (toFifo q (Fin.ofNat 64 (bits e 57 6)) fr.bytes (blockReads [egressWord q (outerTag fr.bytes).1, portMapWord q (2 * (bits e 57 6)), portMapWord q (2 * (bits e 57 6) + 1)] s))))
    ∧ (∀ (q : Fin 4) (fr : EthFrame) (s : State),
      s.inReset = false →
      pageOn (.tm q) s = true →
      frameBad fr = true →
      exec (.egressFrameReceive q fr) s = .next (commit s.pending (s.cntAdd (TM.hCnt q 7) 1)))
    ∧ (∀ (q : Fin 4) (fr : EthFrame) (e : Nat) (s : State),
      s.inReset = false →
      pageOn (.tm q) s = true →
      frameBad fr = false →
      e = s.word (egressWord q (outerTag fr.bytes).1) →
      bit e 63 = false →
      exec (.egressFrameReceive q fr) s = .next (commit s.pending ((blockReads [egressWord q (outerTag fr.bytes).1, portMapWord q (2 * (bits e 57 6)), portMapWord q (2 * (bits e 57 6) + 1)] s).cntAdd (TM.hCnt q 7) 1)))
    ∧ (∀ (q : Fin 4) (fr : EthFrame) (e : Nat) (s : State),
      s.inReset = false →
      pageOn (.tm q) s = true →
      frameBad fr = false →
      e = s.word (egressWord q (outerTag fr.bytes).1) →
      bit e 63 = true →
      portState (portGroup q (bits e 57 6)) (portFirst (bits e 57 6)) s ≠ ptDisabled →
      portUse (portGroup q (bits e 57 6)) (portFirst (bits e 57 6)) s = usePkt →
      bit (portMap q (bits e 57 6) 0 s) 63 = true →
      portShut q (Fin.ofNat 64 (bits e 57 6)) s = true →
      exec (.egressFrameReceive q fr) s = .next (commit s.pending ((blockReads [egressWord q (outerTag fr.bytes).1, portMapWord q (2 * (bits e 57 6)), portMapWord q (2 * (bits e 57 6) + 1)] s).cntAdd (TM.hCnt q 4) 1)))
    ∧ (∀ (q : Fin 4) (fr : EthFrame) (s : State),
      s.inReset = false →
      pageOn (.tm q) s = false →
      exec (.egressFrameReceive q fr) s = .next (commit s.pending (s.cntAdd (TM.hCnt q 4) 1)))
    ∧ (∀ (g : Fin 32) (n : Fin 8) (f : EgrFrame) (ue : Bool) (s : State),
      s.inReset = false →
      (fifo (groupQuad g) (Fin.ofNat 64 (portIndex g n)) true s ++ fifo (groupQuad g) (Fin.ofNat 64 (portIndex g n)) false s).head? = some f →
      pageOn (.tm (groupQuad g)) s = true →
      portShut (groupQuad g) (Fin.ofNat 64 (portIndex g n)) s = false →
      exec (.egressFrameSend g n ue) s = .next (commit s.pending (if ue then ({ s with egress := s.egress.erase f }.send (.clientFrame (groupQuad g) (Fin.ofNat 64 (portIndex g n)) f.bytes true)).cntAdd (TM.hCnt (groupQuad g) 2) 1
        else { s with egress := s.egress.erase f }.send (.clientFrame (groupQuad g) (Fin.ofNat 64 (portIndex g n)) f.bytes false))))
    ∧ (∀ (g : Fin 32) (n : Fin 8) (f : EgrFrame) (ue : Bool) (s : State),
      s.inReset = false →
      (fifo (groupQuad g) (Fin.ofNat 64 (portIndex g n)) true s ++ fifo (groupQuad g) (Fin.ofNat 64 (portIndex g n)) false s).head? = some f →
      pageOn (.tm (groupQuad g)) s = true →
      portShut (groupQuad g) (Fin.ofNat 64 (portIndex g n)) s = true →
      exec (.egressFrameSend g n ue) s = .next (commit s.pending ({ s with egress := s.egress.erase f }.cntAdd (TM.hCnt (groupQuad g) 4) 1)))

/-- Associations are enabled and disabled, send segments, and hunt, judge and authenticate those received. It rests on
rules R442 to R444, R449 to R453 and R455 to R459, of which it states what its clauses say. The model's choices in it:
log entries 47, 51, 53, 121, 181, 184. -/
def Obligations.SegmentsSentAndReceived : Prop :=
  (∀ (q : Fin 4) (a : Fin 1024) (j : Fin 119) (data : List Nat) (ue : Bool) (w : Nat) (gen : Nat) (key : Nat) (s : State),
      s.inReset = false →
      (asRead q a s).flag (CIPH.hBad q a) = false →
      w = asWord q a 0 (asRead q a s) →
      adEn w = true →
      adRx w = false →
      tdEn (tribDesc q true (adTrib w) (asRead q a s)) = true →
      asState q a (asBoundary q (a, w) (txStops q (a, w) (slotUe q w ue (asRead q a s)))) = asRun →
      pageOn (.ciph q) (asBoundary q (a, w) (txStops q (a, w) (slotUe q w ue (asRead q a s)))) = true →
      keyNow q a (adSlot w) (asBoundary q (a, w) (txStops q (a, w) (slotUe q w ue (asRead q a s)))) = some (gen, key) →
      exec (.txSegmentSend q a ⟨j, data⟩ ue) s = .next (commit s.pending (sendSegment q (a, w) j gen key data (asBoundary q (a, w) (txStops q (a, w) (slotUe q w ue (asRead q a s)))))))
    ∧ (∀ (q : Fin 4) (a : Fin 1024) (j : Fin 119) (data : List Nat) (ue : Bool) (w : Nat) (s : State),
      s.inReset = false →
      (asRead q a s).flag (CIPH.hBad q a) = false →
      w = asWord q a 0 (asRead q a s) →
      adEn w = true →
      adRx w = false →
      tdEn (tribDesc q true (adTrib w) (asRead q a s)) = true →
      (asState q a (asBoundary q (a, w) (txStops q (a, w) (slotUe q w ue (asRead q a s)))) ≠ asRun ∨ pageOn (.ciph q) (asBoundary q (a, w) (txStops q (a, w) (slotUe q w ue (asRead q a s)))) = false ∨ keyNow q a (adSlot w) (asBoundary q (a, w) (txStops q (a, w) (slotUe q w ue (asRead q a s)))) = none) →
      exec (.txSegmentSend q a ⟨j, data⟩ ue) s = .next (commit s.pending (sendAbsent q a j (adSaId w) data.length (asBoundary q (a, w) (txStops q (a, w) (slotUe q w ue (asRead q a s)))))))
    ∧ (∀ (q : Fin 4) (a : Fin 1024) (j : Fin 119) (data : List Nat) (ue : Bool) (w : Nat) (s : State),
      s.inReset = false →
      (asRead q a s).flag (CIPH.hBad q a) = true →
      w = asWord q a 0 (asRead q a s) →
      adRx w = false →
      exec (.txSegmentSend q a ⟨j, data⟩ ue) s = .next (commit s.pending (sendAbsent q a j (adSaId w) data.length (asRead q a s))))
    ∧ (∀ (q : Fin 4) (a : Fin 1024) (rcd : List Nat) (data : List Nat) (n : Nat) (ue : Bool) (w : Nat) (s : State),
      s.inReset = false →
      (asRead q a s).flag (CIPH.hBad q a) = false →
      w = asWord q a 0 (asRead q a s) →
      adEn w = true →
      adRx w = true →
      sideDead q (adTrib w) (adSide w) (asRead q a s) = true →
      exec (.rxSegmentReceive q a rcd data n ue) s = .next (commit s.pending (asLost q (adTrib w) (adSide w) (asRead q a s))))
    ∧ (∀ (q : Fin 4) (a : Fin 1024) (rcd : List Nat) (data : List Nat) (n : Nat) (ue : Bool) (w : Nat) (s : State),
      s.inReset = false →
      (asRead q a s).flag (CIPH.hBad q a) = false →
      w = asWord q a 0 (asRead q a s) →
      adEn w = true →
      adRx w = true →
      sideDead q (adTrib w) (adSide w) (asRead q a s) = false →
      pageOn (.ciph q) (asBoundary q (a, w) (slotUe q w ue (asRead q a s))) = true →
      asState q a (asBoundary q (a, w) (slotUe q w ue (asRead q a s))) = asHunt →
      crc16 ((recordHeader rcd).take 14) = ofBe (slice (recordHeader rcd) 14 2) →
      bit ((recordHeader rcd).headD 0) 7 = false →
      exec (.rxSegmentReceive q a rcd data n ue) s = .next (commit s.pending (segJudge q (a, w) (recordHeader rcd) data n (asMove q a (if adMode w = 1 then asRun else asVerify) 0 (asBoundary q (a, w) (slotUe q w ue (asRead q a s)))))))
    ∧ (∀ (q : Fin 4) (a : Fin 1024) (rcd : List Nat) (data : List Nat) (n : Nat) (ue : Bool) (w : Nat) (s : State),
      s.inReset = false →
      (asRead q a s).flag (CIPH.hBad q a) = false →
      w = asWord q a 0 (asRead q a s) →
      adEn w = true →
      adRx w = true →
      sideDead q (adTrib w) (adSide w) (asRead q a s) = false →
      pageOn (.ciph q) (asBoundary q (a, w) (slotUe q w ue (asRead q a s))) = true →
      (asState q a (asBoundary q (a, w) (slotUe q w ue (asRead q a s))) = asVerify ∨ asState q a (asBoundary q (a, w) (slotUe q w ue (asRead q a s))) = asRun) →
      exec (.rxSegmentReceive q a rcd data n ue) s = .next (commit s.pending (segJudge q (a, w) (recordHeader rcd) data n (asBoundary q (a, w) (slotUe q w ue (asRead q a s))))))
    ∧ (∀ (q : Fin 4) (a : Fin 1024) (rcd : List Nat) (data : List Nat) (n : Nat) (ue : Bool) (w : Nat) (s : State),
      s.inReset = false →
      (asRead q a s).flag (CIPH.hBad q a) = false →
      w = asWord q a 0 (asRead q a s) →
      adEn w = true →
      adRx w = true →
      sideDead q (adTrib w) (adSide w) (asRead q a s) = false →
      (pageOn (.ciph q) (asBoundary q (a, w) (slotUe q w ue (asRead q a s))) = false ∨ asState q a (asBoundary q (a, w) (slotUe q w ue (asRead q a s))) = asStopped) →
      exec (.rxSegmentReceive q a rcd data n ue) s = .next (commit s.pending (segReplaced q (a, w) n (asBoundary q (a, w) (slotUe q w ue (asRead q a s))))))
    ∧ (∀ (q : Fin 4) (a : Fin 1024) (rcd : List Nat) (data : List Nat) (n : Nat) (ue : Bool) (w : Nat) (s : State),
      s.inReset = false →
      (asRead q a s).flag (CIPH.hBad q a) = false →
      w = asWord q a 0 (asRead q a s) →
      adEn w = true →
      adRx w = true →
      sideDead q (adTrib w) (adSide w) (asRead q a s) = false →
      asState q a (asBoundary q (a, w) (slotUe q w ue (asRead q a s))) = asHunt →
      (crc16 ((recordHeader rcd).take 14) ≠ ofBe (slice (recordHeader rcd) 14 2) ∨ bit ((recordHeader rcd).headD 0) 7 = true) →
      exec (.rxSegmentReceive q a rcd data n ue) s = .next (commit s.pending (segReplaced q (a, w) n (asBoundary q (a, w) (slotUe q w ue (asRead q a s))))))
    ∧ (∀ (q : Fin 4) (a : Fin 1024) (rcd : List Nat) (data : List Nat) (n : Nat) (ue : Bool) (w : Nat) (s : State),
      s.inReset = false →
      (asRead q a s).flag (CIPH.hBad q a) = true →
      w = asWord q a 0 (asRead q a s) →
      exec (.rxSegmentReceive q a rcd data n ue) s = .next (commit s.pending (segReplaced q (a, w) n (asRead q a s))))
    ∧ (∀ (q : Fin 4) (a : Fin 1024) (rcd : List Nat) (n : Nat) (g : RxSegment) (k : Nat) (ue : Bool) (s : State),
      s.inReset = false →
      s.segments.find? (fun g => g.q == q && g.a == a) = some g →
      g.key = some k →
      (ue = false ∨ asState q a s ≠ asVerify) →
      exec (.rxTagResult q a rcd n ue) s = .next (commit s.pending (let s1 : State := { s with segments := s.segments.erase g }
        if gcmTag k (segIv (asSalt q a s) g.seq) g.aad g.data = recordTag rcd then
          segPassed q (a, asWord q a 0 s) g (gcmCrypt k (segIv (asSalt q a s) g.seq) g.data) s1
        else segFailed q (a, asWord q a 0 s) n (cpCount q 2 s1))))
    ∧ (∀ (q : Fin 4) (a : Fin 1024) (rcd : List Nat) (n : Nat) (g : RxSegment) (s : State),
      s.inReset = false →
      s.segments.find? (fun g => g.q == q && g.a == a) = some g →
      asState q a s = asVerify →
      exec (.rxTagResult q a rcd n true) s = .next (commit s.pending (segFailed q (a, asWord q a 0 s) n { s with segments := s.segments.erase g })))
    ∧ (∀ (m : Master) (q : Fin 4) (a : Fin 1024) (v : Nat) (s : State),
      s.inReset = false →
      AcceptsWindow m (.ciph q) s →
      adEn (asWord q a 0 s) = false →
      asReject q a (2 ^ 63 + v % 2 ^ 63) s = 0 →
      exec (.assocEnable m q a v) s = .next (commit s.pending (asStart q a (storeFor m true (assocWord q a.val 0) (2 ^ 63 + v % 2 ^ 63) (asForget q a s)))))
    ∧ (∀ (m : Master) (q : Fin 4) (a : Fin 1024) (v : Nat) (s : State),
      s.inReset = false →
      AcceptsWindow m (.ciph q) s →
      adEn (asWord q a 0 s) = false →
      asReject q a (2 ^ 63 + v % 2 ^ 63) s ≠ 0 →
      exec (.assocEnable m q a v) s = .next (commit s.pending (cpReject q (asReject q a (2 ^ 63 + v % 2 ^ 63) s) a (storeFor m true (assocWord q a.val 0) (v % 2 ^ 63) s))))
    ∧ (∀ (m : Master) (q : Fin 4) (a : Fin 1024) (v : Nat) (s : State),
      s.inReset = false →
      AcceptsWindow m (.ciph q) s →
      adEn (asWord q a 0 s) = true →
      bits (v % 2 ^ 63) 25 38 = bits (asWord q a 0 s) 25 38 →
      exec (.assocDisable m q a v) s = .next (commit s.pending (asMove q a asOff 0 (asForget q a (storeFor m true (assocWord q a.val 0) (v % 2 ^ 63) (s.put (CIPH.hBad q a) 0))))))

/-- The Keyway runs its commands, commits what is staged and reports. It rests on rules R460 to R469, R471 and R472,
of which it states what its clauses say. The model's choices in it: log entries 46, 48, 50, 121. -/
def Obligations.KeywayOperations : Prop :=
  (∀ (m : Master) (s : State),
      s.inReset = false →
      Accepts m .keyway 0x040 s →
      pageOn .keyway s = true →
      s.flag KEYWAY.KW_STAT_BUSY = false →
      1 ≤ kwIndex (kwBegun 1 s) →
      kwIndex (kwBegun 1 s) ≤ 15 →
      kwKek (kwBegun 1 s) = 0 →
      kekLoaded 0 (kwBegun 1 s) = true →
      exec (.importKek m) s = .next (commit s.pending (match keyUnwrap (kekOf 0 (kwBegun 1 s)) kwDefault ((kwBuf (kwBegun 1 s)).take 40) with
        | some k => kwEnds krOk 0 (((kwBegun 1 s).put (KEYWAY.hKek (Fin.ofNat 16 (kwIndex (kwBegun 1 s)))) k).setBit KEYWAY.KEK_STAT (kwIndex (kwBegun 1 s)))
        | none => kwEnds krIntegrity 0 (kwBegun 1 s))))
    ∧ (∀ (m : Master) (s : State),
      s.inReset = false →
      Accepts m .keyway 0x040 s →
      pageOn .keyway s = true →
      s.flag KEYWAY.KW_STAT_BUSY = false →
      1 ≤ kwIndex (kwBegun 2 s) →
      kwIndex (kwBegun 2 s) ≤ 15 →
      exec (.eraseKek m) s = .next (commit s.pending (kwEnds krOk 0 (((kwBegun 2 s).put (KEYWAY.hKek (Fin.ofNat 16 (kwIndex (kwBegun 2 s)))) 0).clrBit KEYWAY.KEK_STAT (kwIndex (kwBegun 2 s))))))
    ∧ (∀ (m : Master) (s : State),
      s.inReset = false →
      Accepts m .keyway 0x040 s →
      pageOn .keyway s = true →
      s.flag KEYWAY.KW_STAT_BUSY = false →
      kekLoaded (kwKek (kwBegun 3 s)) (kwBegun 3 s) = true →
      slotUsers (kwQuad (kwBegun 3 s)) (kwPlace (kwBegun 3 s)) s ≠ [] →
      exec (.importKey m) s = .next (commit s.pending (match keyUnwrap (kekOf (kwKek (kwBegun 3 s)) (kwBegun 3 s)) kwDefault ((kwBuf (kwBegun 3 s)).take 40) with
        | some k => ((kwBegun 3 s).put (CIPH.hNew (kwQuad (kwBegun 3 s)) (kwPlace (kwBegun 3 s))) k).put (CIPH.hStage (kwQuad (kwBegun 3 s)) (kwPlace (kwBegun 3 s))) 1
        | none => kwEnds krIntegrity 0 (kwBegun 3 s))))
    ∧ (∀ (m : Master) (s : State),
      s.inReset = false →
      Accepts m .keyway 0x040 s →
      pageOn .keyway s = true →
      s.flag KEYWAY.KW_STAT_BUSY = false →
      slotUsers (kwQuad (kwBegun 4 s)) (kwPlace (kwBegun 4 s)) s ≠ [] →
      exec (.eraseKey m) s = .next (commit s.pending ((kwBegun 4 s).put (CIPH.hStage (kwQuad (kwBegun 4 s)) (kwPlace (kwBegun 4 s))) 2)))
    ∧ (∀ (m : Master) (s : State),
      s.inReset = false →
      Accepts m .keyway 0x040 s →
      pageOn .keyway s = true →
      s.flag KEYWAY.KW_STAT_BUSY = false →
      slotUsers (kwQuad (kwBegun 4 s)) (kwPlace (kwBegun 4 s)) s = [] →
      exec (.eraseKey m) s = .next (commit s.pending (kwEnds krOk 0 (slotErase (kwQuad (kwBegun 4 s)) (kwPlace (kwBegun 4 s)) ((kwBegun 4 s).put (CIPH.hStage (kwQuad (kwBegun 4 s)) (kwPlace (kwBegun 4 s))) 2)))))
    ∧ (∀ (m : Master) (q : Fin 4) (k : Fin 1024) (s : State),
      s.inReset = false →
      Accepts m .keyway 0x040 s →
      pageOn .keyway s = true →
      s.flag KEYWAY.KW_STAT_BUSY = false →
      q = kwQuad (kwBegun 5 s) →
      k = kwPlace (kwBegun 5 s) →
      exec (.retirePrev m) s = .next (commit s.pending (kwEnds krOk 0 (slotSet q k (slotLoaded q k s) false (slotGen q k s) (slotWear q k s) ((kwBegun 5 s).put (CIPH.hPrev q k) 0)))))
    ∧ (∀ (m : Master) (q : Fin 4) (k : Fin 1024) (s : State),
      s.inReset = false →
      Accepts m .keyway 0x040 s →
      pageOn .keyway s = true →
      s.flag KEYWAY.KW_STAT_BUSY = false →
      q = kwQuad (kwBegun 6 s) →
      k = kwPlace (kwBegun 6 s) →
      adEn (asWord q k 0 s) = true →
      exec (.save m) s = .next (commit s.pending ((kwBegun 6 s).put (CIPH.hSaving q k) 1)))
    ∧ (∀ (m : Master) (q : Fin 4) (a : Fin 1024) (b : List Nat) (r : Fin 16384) (s : State),
      s.inReset = false →
      Accepts m .keyway 0x040 s →
      pageOn .keyway s = true →
      s.flag KEYWAY.KW_STAT_BUSY = false →
      q = kwQuad (kwBegun 7 s) →
      a = kwPlace (kwBegun 7 s) →
      b = (kwBuf s).take 64 →
      s.get KEYWAY.KW_STAT_LEN = 64 →
      b.take 4 = [0x54, 0x53, 0x41, 0x43] →
      ofLe (slice b 4 2) = 1 →
      ofLe (slice b 60 4) = crc32c (b.take 60) →
      adEn (asWord q a 0 s) = false →
      adRx (asWord q a 0 s) = bit (b.getD 6 0) 0 →
      ofLe (slice b 8 2) = r.val →
      s.flag (KEYWAY.hSvValid r) = true →
      ofLe (slice b 12 4) = s.get (KEYWAY.hSvSerial r) →
      (adRx (asWord q a 0 s) = true ∨ s.get (KEYWAY.hSvFloor r) ≤ ofLe (slice b 24 8)) →
      slotLoaded q (adSlot (asWord q a 0 s)) s = true →
      exec (.restore m) s = .next (commit s.pending (restoreApply q a b none (kwBegun 7 s))))
    ∧ (∀ (m : Master) (s : State),
      s.inReset = false →
      Accepts m .keyway 0x040 s →
      pageOn .keyway s = true →
      s.flag KEYWAY.KW_STAT_BUSY = false →
      exec (.discard m) s = .next (commit s.pending (kwEnds krOk 0 ((kwBegun 8 s).put (KEYWAY.hSvValid (kwRecord (kwBegun 8 s))) 0))))
    ∧ (∀ (q : Fin 4) (k : Fin 1024) (s : State),
      s.inReset = false →
      s.flag KEYWAY.KW_STAT_BUSY = true →
      s.get KEYWAY.hOp = 3 →
      q = kwQuad s →
      k = kwPlace s →
      s.get (CIPH.hStage q k) = 1 →
      allTook q k s = true →
      exec (.keyImportCommit) s = .next (commit s.pending (kwEnds krOk 0 (slotImport q k s))))
    ∧ (∀ (q : Fin 4) (k : Fin 1024) (s : State),
      s.inReset = false →
      s.flag KEYWAY.KW_STAT_BUSY = true →
      s.get KEYWAY.hOp = 4 →
      q = kwQuad s →
      k = kwPlace s →
      s.get (CIPH.hStage q k) = 2 →
      allTook q k s = true →
      exec (.keyEraseCommit) s = .next (commit s.pending (kwEnds krOk 0 (slotErase q k s))))
    ∧ (∀ (q : Fin 4) (a : Fin 1024) (r : Fin 16384) (s1 : State) (b : List Nat) (s : State),
      s.inReset = false →
      s.flag KEYWAY.KW_STAT_BUSY = true →
      s.get KEYWAY.hOp = 6 →
      s.get KEYWAY.hRes = 0 →
      q = kwQuad s →
      a = kwPlace s →
      r = kwRecord s →
      s.flag (CIPH.hSaving q a) = false →
      s1 = ((s.incWrap (KEYWAY.hSvSerial r) 1).put (KEYWAY.hSvValid r) 1).put (KEYWAY.hSvFloor r) (asSeq q a s) →
      b = recordOf q a (kwWrap s) r (s1.get (KEYWAY.hSvSerial r)) s1 →
      exec (.saveComplete) s = .next (commit s.pending (kwEnds krOk 0 ((kwFill b s1).put KEYWAY.KW_STAT_LEN b.length))))
    ∧ (∀ (res : Nat) (s : State),
      s.inReset = false →
      s.flag KEYWAY.KW_STAT_BUSY = true →
      s.get KEYWAY.hRes = res →
      res ≠ 0 →
      exec (.keywayCmdDone) s = .next (commit s.pending ((((((s.put KEYWAY.KW_STAT_BUSY 0).put KEYWAY.KW_STAT_RESULT res).put KEYWAY.KW_STAT_CAUSE (s.get KEYWAY.hCause)).put KEYWAY.hRes 0).put KEYWAY.hOp 0).raise .keyway
          (if res = krOk then 0 else 1))))

/-- References fail, return and qualify. It rests on rules R478, R479, R482 and R522, of which it states what its
clauses say. The model's choices in it: log entries 60, 61. -/
def Obligations.ReferenceConditions : Prop :=
  (∀ (n : Fin 8) (k : RefFault) (s : State),
      s.inReset = false →
      faultApplies n k s = true →
      faultSeen n k s ≠ some false →
      exec (.refFault n k) s = .next (commit s.pending (faultEnter n k s)))
    ∧ (∀ (n : Fin 8) (k : RefFault) (s : State),
      s.inReset = false →
      n ≠ 6 →
      faultOver n k s = true →
      refNoClk n (s.putB (faultFlag n k).1 (!(faultFlag n k).2)) = some true →
      exec (.refFaultClear n k) s = .next (commit s.pending (refReturns n (s.putB (faultFlag n k).1 (!(faultFlag n k).2)))))
    ∧ (∀ (n : Fin 8) (k : RefFault) (s : State),
      s.inReset = false →
      n ≠ 6 →
      faultOver n k s = true →
      refNoClk n (s.putB (faultFlag n k).1 (!(faultFlag n k).2)) ≠ some true →
      exec (.refFaultClear n k) s = .next (commit s.pending (refReturns n ((s.putB (faultFlag n k).1 (!(faultFlag n k).2)).put (TIMING1.REF_STAT_ACTIVE n) 1))))
    ∧ (∀ (n : Fin 8) (s : State),
      s.inReset = false →
      refFaulty n s = false →
      s.flag (TIMING1.REF_STAT_QUALIFIED n) = false →
      s.get (TIMING1.WTR_LEFT n) = 0 →
      exec (.refQualified n) s = .next (commit s.pending (((s.put (TIMING1.REF_STAT_QUALIFIED n) 1).put (TIMING1.REF_STAT_WTR_RUN n) 0).raise .timing1 0)))
    ∧ (∀ (m : Master) (n : Fin 8) (v : Nat) (s : State),
      s.inReset = false →
      Accepts m .timing1 (0x100 + 0x20 * n.val) s →
      exec (.refCfgWrite m n v) s = .next (commit s.pending (refCfgEff n v s)))
    ∧ (∀ (m : Master) (n : Nat) (s : State),
      s.inReset = false →
      Accepts m .timing1 0x04C s →
      n = s.get TIMING1.hUpdN →
      exec (.update m) s = .next (commit s.pending (refReturns 6 ((((((forFin 64 (fun k s' => s'.put (TIMING1.hUpd k) ((s.tickCount :: (List.finRange 64).map (fun k => (s.puti TIMING1.hRef6Ofs (toInt 48 (s.get TIMING1.REF6_OFS_HI * 2 ^ 32 + s.get TIMING1.REF6_OFS_LO))).get (TIMING1.hUpd k))).getD k.val 0))
          (s.puti TIMING1.hRef6Ofs (toInt 48 (s.get TIMING1.REF6_OFS_HI * 2 ^ 32 + s.get TIMING1.REF6_OFS_LO)))).put TIMING1.hUpdN (min 64 (n + 1))).put TIMING1.hRef6Ticks 0).put TIMING1.hRef6New 1).put (TIMING1.REF_STAT_ACTIVE 6) 1)))))
    ∧ (∀ (m : Master) (s : State),
      s.inReset = false →
      Accepts m .timing1 0x04C s →
      exec (.invalid m) s = .next (commit s.pending (refFails 6 (s.put (TIMING1.REF_STAT_ACTIVE 6) 0))))
    ∧ (∀ (s : State),
      s.inReset = false →
      s.flag (TIMING1.REF_STAT_ACTIVE 6) = true →
      max 1 (s.get TIMING1.REF6_CFG_REF6_TIMEOUT) ≤ s.get TIMING1.hRef6Ticks →
      exec (.ref6Timeout) s = .next (commit s.pending ((refFails 6 (s.put (TIMING1.REF_STAT_ACTIVE 6) 0)).raise .timing1 1)))

/-- Device time is stepped and labelled, ticks run the engine, and clocks come and go. It rests on rules R485, R494 to
R497 and R521, of which it states what its clauses say. The model's choices in it: log entries 17, 18, 56, 59, 63. -/
def Obligations.TimeCommandsAndTicks : Prop :=
  (∀ (m : Master) (s : State),
      s.inReset = false →
      Accepts m .timing0 0x0A0 s →
      s.flag TIMING0.TIME_STAT_STEP_PEND = false →
      exec (.stepGo m) s = .next (commit s.pending (((s.put TIMING0.TIME_STAT_REJ 0).puti TIMING0.hStep (toInt 48 (s.get TIMING0.STEP_HI * 2 ^ 32 + s.get TIMING0.STEP_LO))).put TIMING0.TIME_STAT_STEP_PEND 1)))
    ∧ (∀ (m : Master) (s : State),
      s.inReset = false →
      Accepts m .timing0 0x0A0 s →
      s.flag TIMING0.TIME_STAT_STEP_PEND = true →
      exec (.stepGo m) s = .next (commit s.pending ((s.put TIMING0.TIME_STAT_REJ 1).raise .timing0 6)))
    ∧ (∀ (m : Master) (s : State),
      s.inReset = false →
      Accepts m .timing0 0x0A0 s →
      s.flag TIMING0.TIME_STAT_SEC_PEND = false →
      exec (.secGo m) s = .next (commit s.pending (((s.put TIMING0.TIME_STAT_REJ 0).put TIMING0.hSec ((s.put TIMING0.TIME_STAT_REJ 0).get TIMING0.SEC_SET_HI * 2 ^ 32 + (s.put TIMING0.TIME_STAT_REJ 0).get TIMING0.SEC_SET_LO)).put TIMING0.TIME_STAT_SEC_PEND 1)))
    ∧ (∀ (m : Master) (n : Fin 8) (s : State),
      s.inReset = false →
      Accepts m .timing0 0x0A0 s →
      selectedRef s = some n →
      refKind n s ≠ 0 →
      s.flag TIMING0.TIME_STAT_STEP_PEND = false →
      exec (.boApply m) s = .next (commit s.pending (((s.put TIMING0.TIME_STAT_REJ 0).puti TIMING0.hStep (s.geti TIMING0.hBo)).put TIMING0.TIME_STAT_STEP_PEND 1)))
    ∧ (∀ (m : Master) (s : State),
      s.inReset = false →
      Accepts m .timing0 0x0A0 s →
      exec (.invalidate m) s = .next (commit s.pending (setTimeValid false (s.put TIMING0.TIME_STAT_REJ 0))))
    ∧ (∀ (s : State),
      s.inReset = false →
      s.flag PWR.hSynthLock = true →
      s.flag TIMING0.TIME_STAT_STEP_PEND = true →
      exec (.stepApply) s = .next (commit s.pending (Sys2Proof.Machine.stepApply (toTick s))))
    ∧ (∀ (u : Nat) (s : State),
      s.inReset = false →
      s.flag PWR.hSynthLock = true →
      s.flag TIMING0.TIME_STAT_SEC_PEND = true →
      u = secU - timeUnits s.time % secU →
      s.get PWR.hPart + u ≤ tickU →
      exec (.secLabelApply) s = .next (commit s.pending ((timeCounts u s).put PWR.hPart (s.get PWR.hPart + u))))
    ∧ (∀ (ms : List Meas) (s : State),
      s.inReset = false →
      s.flag PWR.hSynthLock = true →
      exec (.tick ms) s = .next (commit s.pending (let s0 := forL ms lineMeas s;
        let s1 := timingSample { s0 with tickCount := s0.tickCount + 1 };
        let pm := decide (s1.maxSec < s1.time.sec);
        forFin 18 coreProgram (powerTick (forFin 18 (fun t s => tumbTick t pm s)
          (forFin 16 carrierTick (forFin 4 quadTick (memTick 4 (monTick 4 (forL HaspId.all haspTick
            (timingTick ms (if pm then pmSecond { s1 with maxSec := s1.time.sec } else s1))))))))))))
    ∧ (∀ (ms : List Meas) (s : State),
      s.inReset = false →
      s.flag PWR.hSynthLock = false →
      exec (.tick ms) s = .next (commit s.pending (s)))
    ∧ (∀ (c : Fin 16) (s : State),
      s.inReset = false →
      exec (.clkPresentClear (.line c)) s = .next (commit s.pending ((s.put (RXDSP.hLineClk c) 0).put (OTU.hClkGap c) 1)))
    ∧ (∀ (c : Fin 16) (s : State),
      s.inReset = false →
      exec (.clkPresentSet (.line c)) s = .next (commit s.pending (s.put (RXDSP.hLineClk c) 1)))
    ∧ (∀ (g : Fin 32) (r : Fin 8) (s : State),
      s.inReset = false →
      exec (.clkPresentSet (.lane g r)) s = .next (commit s.pending (s.put (LANEGRP.LANE_STAT_CLK_PRESENT g r) 1)))
    ∧ (∀ (g : Fin 32) (r : Fin 8) (s : State),
      s.inReset = false →
      exec (.clkPresentClear (.lane g r)) s = .next (commit s.pending (cdrFall g r (s.put (LANEGRP.LANE_STAT_CLK_PRESENT g r) 0))))

/-- The DPLL moves between its states. It rests on rules R20, R483 and R487 to R490, of which it states what its
clauses say. The model's choices in it: log entries 58, 62, 66, 67. -/
def Obligations.DpllStates : Prop :=
  (∀ (m : Master) (v : Nat) (s1 : State) (s : State),
      s.inReset = false →
      Accepts m .timing0 0x040 s →
      s1 = (((s.put TIMING0.DPLL_CTRL_MODE (bits v 30 2)).put TIMING0.DPLL_CTRL_REVERTIVE (bits v 29 1)).put TIMING0.DPLL_CTRL_FORCE_SEL_EN (bits v 28 1)).put TIMING0.DPLL_CTRL_FORCE_SEL (bits v 24 3) →
      pageOn .timing0 s1 = true →
      bits v 30 2 = 1 →
      exec (.dpllModeWrite m v) s = .next (commit s.pending (dpllFree s1)))
    ∧ (∀ (m : Master) (v : Nat) (s1 : State) (s : State),
      s.inReset = false →
      Accepts m .timing0 0x040 s →
      s1 = (((s.put TIMING0.DPLL_CTRL_MODE (bits v 30 2)).put TIMING0.DPLL_CTRL_REVERTIVE (bits v 29 1)).put TIMING0.DPLL_CTRL_FORCE_SEL_EN (bits v 28 1)).put TIMING0.DPLL_CTRL_FORCE_SEL (bits v 24 3) →
      pageOn .timing0 s1 = true →
      bits v 30 2 = 2 →
      s1.flag TIMING0.DPLL_STAT_HO_VALID = true →
      dpllState s1 = dpLocked →
      exec (.dpllModeWrite m v) s = .next (commit s.pending (dpllHoldover s1)))
    ∧ (∀ (k : Nat) (s : State),
      s.inReset = false →
      dpllState s = dpAcq →
      s.get TIMING0.DPLL_STAT_BW_STEP = k →
      k < 3 →
      dwellTicks k s ≤ s.get TIMING0.hDwell →
      phaseOk ((s.put TIMING0.hDwell 0).put TIMING0.hLockCnt 0) = true →
      exec (.dpllBwStep) s = .next (commit s.pending (((s.put TIMING0.hDwell 0).put TIMING0.hLockCnt 0).put TIMING0.DPLL_STAT_BW_STEP (k + 1))))
    ∧ (∀ (s : State),
      s.inReset = false →
      dpllState s = dpAcq →
      s.get TIMING0.DPLL_STAT_BW_STEP = 3 →
      max 1 (s.get TIMING0.QUAL_LOCK_TICKS) ≤ s.get TIMING0.hLockCnt →
      exec (.dpllLocked) s = .next (commit s.pending (dpllGo dpLocked s)))
    ∧ (∀ (s : State),
      s.inReset = false →
      dpllState s = dpLocked →
      s.flag TIMING0.DPLL_STAT_HO_VALID = false →
      max (1250 * s.get TIMING0.HO_CFG_HO_MIN) (1250 * 2 ^ s.get TIMING0.HO_AVG_HO_AVG + s.get TIMING0.HO_AVG_HO_DELAY) ≤ s.get TIMING0.hLockTicks →
      exec (.hoValidSet) s = .next (commit s.pending ((s.raise .timing0 3).put TIMING0.DPLL_STAT_HO_VALID 1)))
    ∧ (∀ (s : State),
      s.inReset = false →
      dpllState s = dpHold →
      s.get TIMING0.HO_CFG_HO_MAX ≠ 0 →
      10 * s.get TIMING0.HO_CFG_HO_MAX ≤ s.get TIMING0.HO_ELAPSED →
      exec (.holdoverExpiry) s = .next (commit s.pending (dpllLost (setHoValid false s))))
    ∧ (∀ (s : State),
      s.inReset = false →
      s.get PWR.hSynth = 1 →
      (s.geti PWR.hFreq).natAbs ≤ 800000 →
      exec (.synthReachesXo) s = .next (commit s.pending ((s.put PWR.hSynth 0).put PWR.hFreq 0)))
    ∧ (∀ (ns : Nat) (s : State),
      s.inReset = false →
      s.flag PWR.hSynthRun = true →
      s.flag PWR.hSynthLock = false →
      exec (.coreSynthLock ns) s = .next (commit s.pending (let s1 := (((timeCounts (65536 * ns) s).put PWR.hSynthLock 1).put PWR.hPart 0).put TIMING0.DPLL_STAT_XO_PRESENT 1;
        forFin 4 (fun n s => if s.flag (TIMING2.CLKO_CFG_EN n) then clockOut n s else s)
          (if dpllState s1 = dpHold then s1.incWrap TIMING0.hHoTicks (ns / 800000) else s1))))

/-- Clock and pulse outputs are enabled, pulled and realigned, and emit their edges. It rests on rules R498 to R503
and R523, of which it states what its clauses say. The model's choices in it: log entry 183. -/
def Obligations.TimingOutputs : Prop :=
  (∀ (m : Master) (o : Fin 8) (v : Nat) (s : State),
      s.inReset = false →
      Accepts m .timing2 (outOffset o) s →
      exec (.outputEnable m o v) s = .next (commit s.pending (outCfgEff o v s)))
    ∧ (∀ (m : Master) (n : Fin 4) (s : State),
      s.inReset = false →
      Accepts m .timing2 (0x10C + 0x20 * n.val) s →
      exec (.pull m n) s = .next (commit s.pending (clockOut n (s.put (TIMING2.CLKO_MIS_HI_PULLING n) 1))))
    ∧ (∀ (m : Master) (n : Fin 4) (s : State),
      s.inReset = false →
      Accepts m .timing2 (0x10C + 0x20 * n.val) s →
      exec (.stopPull m n) s = .next (commit s.pending (clockOut n (s.put (TIMING2.CLKO_MIS_HI_PULLING n) 0))))
    ∧ (∀ (n : Fin 4) (s : State),
      s.inReset = false →
      s.flag (TIMING2.CLKO_MIS_HI_PULLING n) = true →
      (s.geti (TIMING2.hMis (Fin.ofNat 8 n.val))).natAbs ≤ 655360 →
      exec (.pullDone n) s = .next (commit s.pending (clockOut n (((s.put (TIMING2.hMis (Fin.ofNat 8 n.val)) 0).put (TIMING2.CLKO_MIS_HI_PULLING n) 0).raise .timing2 1))))
    ∧ (∀ (m : Master) (p : Fin 4) (s : State),
      s.inReset = false →
      Accepts m .timing2 (0x18C + 0x20 * p.val) s →
      exec (.realign m p) s = .next (commit s.pending (s.put (TIMING2.hRealign p) 1)))
    ∧ (∀ (p : Fin 4) (k : Nat) (a : Int) (per : Nat) (d : Nat) (s : State),
      s.inReset = false →
      s.flag (TIMING2.hRealign p) = false →
      pulseAt p k s = some (a, per, d) →
      s.flag PWR.hSynthLock = true →
      pageOn .timing2 s = true →
      s.flag (outEn (Fin.ofNat 8 (4 + p.val))) = true →
      0 ≤ a - (10000 * timeUnits s.time + s.geti (TIMING2.hMis (Fin.ofNat 8 (4 + p.val)))) * d →
      a - (10000 * timeUnits s.time + s.geti (TIMING2.hMis (Fin.ofNat 8 (4 + p.val)))) * d < 10000 * tickU * d →
      s.get (TIMING2.hEdge p) = 0 →
      exec (.outputEdge p k) s = .next (commit s.pending ((s.put (TIMING2.hEdge p) ((((s.tickCount : Int) * (10000 * tickU * d) + (a - (10000 * timeUnits s.time + s.geti (TIMING2.hMis (Fin.ofNat 8 (4 + p.val)))) * d)) / d).toNat + 1)).send
          (.edge p k (pulseShape p per d s).1 (pulseShape p per d s).2))))

/-- Time messages are taken, and PTP frames and records exchanged. It rests on rules R394, R505 to R508, R513, R514
and R516 to R519, of which it states what its clauses say. The model's choices in it: log entries 64, 65, 99, 100,
117. -/
def Obligations.TimeTransferAndPtp : Prop :=
  (∀ (c : Fin 16) (i : Fin 16) (l : List Nat) (s : State),
      s.inReset = false →
      pageOn .timing3 s = true →
      s.get (OTU.hOsmN c i) = 64 →
      l = osmcBytes c i s →
      l.all (· == 0) = false →
      exec (.timeMessage c i) s = .next (commit s.pending (forFin 2 (fun j s =>
        if s.flag (TIMING1.REF_CFG_TIME_MODE (Fin.ofNat 8 (4 + j.val))) && refCarrier (Fin.ofNat 8 (4 + j.val)) s == c && refStream (Fin.ofNat 8 (4 + j.val)) s == i then ltMessage c i j l s
        else s) (s.put (OTU.hOsmN c i) 0))))
    ∧ (∀ (l : List Nat) (us : Nat) (s : State),
      s.inReset = false →
      pageOn .timing3 s = true →
      s.flag TIMING3.TOD_CFG_EN = true →
      todOk l = false →
      exec (.todMessage l us) s = .next (commit s.pending (((s.put TIMING3.TOD_STAT_VALID 0).incWrap TIMING3.TOD_ERR_CRC 1).raise .timing3 0)))
    ∧ (∀ (l : List Nat) (us : Nat) (s : State),
      s.inReset = false →
      pageOn .timing3 s = true →
      s.flag TIMING3.TOD_CFG_EN = true →
      todOk l = true →
      (us < 10000 ∨ 990000 < us) →
      exec (.todMessage l us) s = .next (commit s.pending ((s.incWrap TIMING3.TOD_ERR_SEQ 1).raise .timing3 0)))
    ∧ (∀ (l : List Nat) (us : Nat) (s : State),
      s.inReset = false →
      pageOn .timing3 s = true →
      s.flag TIMING3.TOD_CFG_EN = true →
      todOk l = true →
      10000 ≤ us →
      us ≤ 990000 →
      s.flag TIMING3.hTodSeen = false →
      bit (l.getD 3 0) 7 = true →
      exec (.todMessage l us) s = .next (commit s.pending ((todReport l s).put TIMING3.hTodBad 0)))
    ∧ (∀ (g : Fin 32) (n : Fin 8) (fr : EthFrame) (ts : DevTime) (s : State),
      s.inReset = false →
      ptpTaken g n fr s = true →
      ptpRoom s = true →
      exec (.ptpFrameReceive g n fr ts) s = .next (commit s.pending ({ s with ptpRx := s.ptpRx ++ [rxRecord (portLane g n) (fr.bytes.take (fr.bytes.length - 4)) (stampAdj ts (s.geti (LANEGRP.TS_ADJ_RX g n)))] })))
    ∧ (∀ (g : Fin 32) (n : Fin 8) (fr : EthFrame) (ts : DevTime) (s : State),
      s.inReset = false →
      ptpTaken g n fr s = true →
      ptpRoom s = false →
      exec (.ptpFrameReceive g n fr ts) s = .next (commit s.pending ((s.incWrap PTP.PTP_STAT_RX_DROP 1).raise .ptp 2)))
    ∧ (∀ (ts : DevTime) (r : List Nat) (rest : List (List Nat)) (s : State),
      s.inReset = false →
      s.ptpTx = r :: rest →
      pageOn .ptp s = true →
      portState (Fin.ofNat 32 (r.getD 2 0 / 8)) (Fin.ofNat 8 (r.getD 2 0)) s ≠ ptUp →
      exec (.ptpTxRecord ts) s = .next (commit s.pending ({ s with ptpTx := rest }.incWrap PTP.PTP_STAT_TX_DROP 1)))
    ∧ (∀ (ts : DevTime) (r : List Nat) (rest : List (List Nat)) (g : Fin 32) (n : Fin 8) (b : List Nat) (s : State),
      s.inReset = false →
      s.ptpTx = r :: rest →
      pageOn .ptp s = true →
      g = Fin.ofNat 32 (r.getD 2 0 / 8) →
      n = Fin.ofNat 8 (r.getD 2 0) →
      portState g n s = ptUp →
      portUse g n s = usePkt →
      portTs g n s = true →
      bit (r.getD 3 0) 0 = false →
      bit (r.getD 3 0) 1 = true →
      b = slice r 16 (ofLe (slice r 0 2)) →
      normalRoom (groupQuad g) (Fin.ofNat 64 (portIndex g n)) (b.length + 4) { s with ptpTx := rest } = true →
      exec (.ptpTxRecord ts) s = .next (commit s.pending (txtsPush ⟨r.getD 2 0, ofLe (slice r 4 2), stampAdj ts (s.geti (LANEGRP.TS_ADJ_TX g n))⟩ (toNormalFifo (groupQuad g) (Fin.ofNat 64 (portIndex g n)) (b ++ fcs b) { s with ptpTx := rest }))))

/-- Memories are scrubbed, error buckets leak, and the DRAM arbiter grants its slots. It rests on rules R527, R536,
R543 to R545 and R548 to R552, of which it states what its clauses say. The model's choices in it: log entries 14, 69,
70. -/
def Obligations.ScrubbingAndDram : Prop :=
  (∀ (d : Fin 5) (r : Fin 16) (w : Nat) (s : State),
      s.inReset = false →
      scrubRuns d s = true →
      s.flag (HDR.FREEZE (memPage d)) = false →
      scrubBehind d r s = true →
      s.get (scrubFlds d r).pos = w →
      w + 1 < regionWords d r →
      exec (.scrubRead d r) s = .next (commit s.pending ((scrubWord d r w s).put (scrubFlds d r).pos (w + 1))))
    ∧ (∀ (d : Fin 5) (r : Fin 16) (w : Nat) (s : State),
      s.inReset = false →
      scrubRuns d s = true →
      s.flag (HDR.FREEZE (memPage d)) = false →
      scrubBehind d r s = true →
      s.get (scrubFlds d r).pos = w →
      w + 1 = regionWords d r →
      exec (.scrubRead d r) s = .next (commit s.pending (lapEnd d r (scrubWord d r w s))))
    ∧ (∀ (d : Fin 5) (r : Fin 16) (s : State),
      s.inReset = false →
      regionWords d r ≠ 0 →
      s.get (scrubFlds d r).leakTicks ≠ 0 →
      s.get (scrubFlds d r).leakTicks ≤ s.get (scrubFlds d r).leak →
      exec (.bucketLeak d r) s = .next (commit s.pending (bucketOver (regionLoc d r 0) ((s.put (scrubFlds d r).leak 0).put (regionLoc d r 0).level (s.get (regionLoc d r 0).level - 1)))))
    ∧ (∀ (q : Fin 4) (s : State),
      s.inReset = false →
      memAwake (Fin.ofNat 5 q.val) s = true →
      s.flag (MEM.MEM_STAT_INIT_DONE q) = false →
      exec (.memoryInitDone q) s = .next (commit s.pending (((s.zeroRange (.quad q 0 0) 8388608).zeroRange (.quad q 1 0) 4194304).put (MEM.MEM_STAT_INIT_DONE q) 1)))
    ∧ (∀ (q : Fin 4) (h : Fin 64) (s : State),
      s.inReset = false →
      memAwake (Fin.ofNat 5 q.val) s = true →
      exec (.arbiterWindow q h) s = .next (commit s.pending ((fun s1 => s1.put (MEM.hWaitMax q h) (max 1 (s1.get (MEM.ARB_CFG1_WAIT_MAX q))))
          (forFin 4 (fun k s => (s.put (MEM.hCred q h k) (arbCredit q k s)).put (MEM.hWait q h k) 0) s))))
    ∧ (∀ (q : Fin 4) (h : Fin 64) (arr : List Nat) (dbg : Bool) (s1 : State) (s : State),
      s.inReset = false →
      memAwake (Fin.ofNat 5 q.val) s = true →
      s1 = forFin 4 (fun k s => s.put (MEM.hFill q h k) (min 16 (s.get (MEM.hFill q h k) + arr.getD k.val 0))) s →
      s1.get (MEM.hRefSlots q h) ≠ 0 →
      exec (.arbiterSlot q h arr dbg) s = .next (commit s.pending (arbWaits q h none (s1.put (MEM.hRefSlots q h) (s1.get (MEM.hRefSlots q h) - 1)))))
    ∧ (∀ (q : Fin 4) (h : Fin 64) (arr : List Nat) (dbg : Bool) (k : Fin 4) (s1 : State) (s : State),
      s.inReset = false →
      memAwake (Fin.ofNat 5 q.val) s = true →
      s1 = forFin 4 (fun k s => s.put (MEM.hFill q h k) (min 16 (s.get (MEM.hFill q h k) + arr.getD k.val 0))) s →
      s1.get (MEM.hRefSlots q h) = 0 →
      arbDecide q h dbg s1 = .forcedRefresh →
      exec (.arbiterSlot q h arr dbg) s = .next (commit s.pending (arbRefresh q h ((arbWaits q h none s1).incWrap (MEM.ARB_STAT_FORCED_REF q) 1))))
    ∧ (∀ (q : Fin 4) (h : Fin 64) (arr : List Nat) (dbg : Bool) (k : Fin 4) (s1 : State) (s : State),
      s.inReset = false →
      memAwake (Fin.ofNat 5 q.val) s = true →
      s1 = forFin 4 (fun k s => s.put (MEM.hFill q h k) (min 16 (s.get (MEM.hFill q h k) + arr.getD k.val 0))) s →
      s1.get (MEM.hRefSlots q h) = 0 →
      arbDecide q h dbg s1 = .forced k →
      exec (.arbiterSlot q h arr dbg) s = .next (commit s.pending (arbServe q h k ((arbWaits q h (some k) s1).incWrap (MEM.ARB_STAT_FORCED q) 1))))
    ∧ (∀ (q : Fin 4) (h : Fin 64) (arr : List Nat) (dbg : Bool) (k : Fin 4) (s1 : State) (s : State),
      s.inReset = false →
      memAwake (Fin.ofNat 5 q.val) s = true →
      s1 = forFin 4 (fun k s => s.put (MEM.hFill q h k) (min 16 (s.get (MEM.hFill q h k) + arr.getD k.val 0))) s →
      s1.get (MEM.hRefSlots q h) = 0 →
      arbDecide q h dbg s1 = .client k →
      exec (.arbiterSlot q h arr dbg) s = .next (commit s.pending (arbServe q h k (arbWaits q h (some k) s1))))
    ∧ (∀ (q : Fin 4) (h : Fin 64) (arr : List Nat) (dbg : Bool) (k : Fin 4) (s1 : State) (s : State),
      s.inReset = false →
      memAwake (Fin.ofNat 5 q.val) s = true →
      s1 = forFin 4 (fun k s => s.put (MEM.hFill q h k) (min 16 (s.get (MEM.hFill q h k) + arr.getD k.val 0))) s →
      s1.get (MEM.hRefSlots q h) = 0 →
      arbDecide q h dbg s1 = .refresh →
      exec (.arbiterSlot q h arr dbg) s = .next (commit s.pending (arbRefresh q h s1)))
    ∧ (∀ (q : Fin 4) (h : Fin 64) (arr : List Nat) (dbg : Bool) (k : Fin 4) (s1 : State) (s : State),
      s.inReset = false →
      memAwake (Fin.ofNat 5 q.val) s = true →
      s1 = forFin 4 (fun k s => s.put (MEM.hFill q h k) (min 16 (s.get (MEM.hFill q h k) + arr.getD k.val 0))) s →
      s1.get (MEM.hRefSlots q h) = 0 →
      arbDecide q h dbg s1 = .debug →
      exec (.arbiterSlot q h arr dbg) s = .next (commit s.pending (arbWaits q h none s1)))
    ∧ (∀ (q : Fin 4) (h : Fin 64) (s : State),
      s.inReset = false →
      memAwake (Fin.ofNat 5 q.val) s = true →
      exec (.refreshDue q h) s = .next (commit s.pending (s.incStick (MEM.hRefresh q h) 1)))
    ∧ (∀ (m : Master) (q : Fin 4) (v : Nat) (t : State) (s : State),
      s.inReset = false →
      Accepts m (.mem q) 0x044 s →
      t = (s.put (MEM.ARB_CFG0_PKT_RD q) (bits v 16 10)).put (MEM.ARB_CFG0_PKT_WR q) (bits v 0 10) →
      arbCredit q 0 t + arbCredit q 1 t + arbCredit q 2 t + arbCredit q 3 t ≤ 1012 →
      exec (.arbCfgWrite m q 0 v) s = .next (commit s.pending (t.put (MEM.MEM_STAT_ARB_REJ q) 0)))
    ∧ (∀ (m : Master) (q : Fin 4) (v : Nat) (t : State) (s : State),
      s.inReset = false →
      Accepts m (.mem q) 0x048 s →
      t = ((s.put (MEM.ARB_CFG1_WAIT_MAX q) (bits v 24 8)).put (MEM.ARB_CFG1_DMA q) (bits v 8 8)).put (MEM.ARB_CFG1_SCRUB q) (bits v 0 8) →
      1012 < arbCredit q 0 t + arbCredit q 1 t + arbCredit q 2 t + arbCredit q 3 t →
      exec (.arbCfgWrite m q 1 v) s = .next (commit s.pending ((s.put (MEM.MEM_STAT_ARB_REJ q) 1).raise (.mem q) 3)))

/-- ECC test mode and the indirect access to the DRAM tier. It rests on rules R532 to R535, of which it states what
its clauses say. -/
def Obligations.IndirectDramAccess : Prop :=
  (∀ (m : Master) (d : Fin 5) (v : Nat) (s : State),
      s.inReset = false →
      Accepts m (memPage d) (if d.val < 4 then 0x054 else 0x194) s →
      s.holds m (.page (memPage d)) = true →
      bit v 30 = true →
      exec (.eccTestWrite m d v) s = .next (commit s.pending (((s.put (eccRaw (regionLoc d 0 0)) (bits v 31 1)).put (eccChk (regionLoc d 0 0)) (bits v 0 8)).put (eccArm (regionLoc d 0 0)) 1)))
    ∧ (∀ (m : Master) (d : Fin 5) (v : Nat) (s : State),
      s.inReset = false →
      Accepts m (memPage d) (if d.val < 4 then 0x054 else 0x194) s →
      s.holds m (.page (memPage d)) = true →
      bit v 30 = false →
      exec (.eccTestWrite m d v) s = .next (commit s.pending ((s.put (eccRaw (regionLoc d 0 0)) (bits v 31 1)).put (eccChk (regionLoc d 0 0)) (bits v 0 8))))
    ∧ (∀ (m : Master) (q : Fin 4) (s : State),
      s.inReset = false →
      Accepts m (.mem q) 0x060 s →
      s.holds m (.page (.mem q)) = true →
      s.flag (MEM.DR_CMD_BUSY q) = false →
      exec (.read m q) s = .next (commit s.pending (((((((s.put (MEM.DR_CMD_BUSY q) 1).put (MEM.hDrOp q) 1).put (MEM.hDrAddr q) (s.get (MEM.DR_ADDR q))).put (MEM.hDrChk q) (s.get (MEM.DR_CHK q))).put (MEM.hDrData q)
          (s.get (MEM.DR_DATA_HI q) * 2 ^ 32 + s.get (MEM.DR_DATA_LO q))).put (MEM.hDrRaw q) (s.get (MEM.ECC_TEST_RAW q))))))
    ∧ (∀ (m : Master) (q : Fin 4) (s : State),
      s.inReset = false →
      Accepts m (.mem q) 0x060 s →
      s.holds m (.page (.mem q)) = true →
      s.flag (MEM.DR_CMD_BUSY q) = false →
      exec (.write m q) s = .next (commit s.pending (((((((s.put (MEM.DR_CMD_BUSY q) 1).put (MEM.hDrOp q) 2).put (MEM.hDrAddr q) (s.get (MEM.DR_ADDR q))).put (MEM.hDrChk q) (s.get (MEM.DR_CHK q))).put (MEM.hDrData q)
          (s.get (MEM.DR_DATA_HI q) * 2 ^ 32 + s.get (MEM.DR_DATA_LO q))).put (MEM.hDrRaw q) (s.get (MEM.ECC_TEST_RAW q))))))
    ∧ (∀ (m : Master) (q : Fin 4) (s : State),
      s.inReset = false →
      Accepts m (.mem q) 0x060 s →
      s.holds m (.page (.mem q)) = true →
      s.flag (MEM.DR_CMD_BUSY q) = false →
      exec (.writeRaw m q) s = .next (commit s.pending (((((((s.put (MEM.DR_CMD_BUSY q) 1).put (MEM.hDrOp q) 3).put (MEM.hDrAddr q) (s.get (MEM.DR_ADDR q))).put (MEM.hDrChk q) (s.get (MEM.DR_CHK q))).put (MEM.hDrData q)
          (s.get (MEM.DR_DATA_HI q) * 2 ^ 32 + s.get (MEM.DR_DATA_LO q))).put (MEM.hDrRaw q) (s.get (MEM.ECC_TEST_RAW q))))))
    ∧ (∀ (q : Fin 4) (l : Loc) (s : State),
      s.inReset = false →
      s.flag (MEM.DR_CMD_BUSY q) = true →
      s.flag (MEM.MEM_STAT_INIT_DONE q) = true →
      s.flag (MEM.MEM_STAT_SELF_REFRESH q) = false →
      s.get (MEM.hDrOp q) = 2 →
      tierWord q (s.get (MEM.hDrAddr q)) = some l →
      exec (.drDone q) s = .next (commit s.pending ((((s.store l (s.get (MEM.hDrData q))).put (MEM.DR_CMD_BUSY q) 0).put (MEM.hDrOp q) 0).raise (.mem q) 4)))
    ∧ (∀ (q : Fin 4) (l : Loc) (s : State),
      s.inReset = false →
      s.flag (MEM.DR_CMD_BUSY q) = true →
      s.flag (MEM.MEM_STAT_INIT_DONE q) = true →
      s.flag (MEM.MEM_STAT_SELF_REFRESH q) = false →
      s.get (MEM.hDrOp q) = 3 →
      tierWord q (s.get (MEM.hDrAddr q)) = some l →
      exec (.drDone q) s = .next (commit s.pending ((((s.storeRaw l (s.get (MEM.hDrData q)) (s.get (MEM.hDrChk q))).put (MEM.DR_CMD_BUSY q) 0).put (MEM.hDrOp q) 0).raise (.mem q) 4)))
    ∧ (∀ (q : Fin 4) (l : Loc) (s : State),
      s.inReset = false →
      s.flag (MEM.DR_CMD_BUSY q) = true →
      s.flag (MEM.MEM_STAT_INIT_DONE q) = true →
      s.flag (MEM.MEM_STAT_SELF_REFRESH q) = false →
      s.get (MEM.hDrOp q) = 1 →
      s.flag (MEM.hDrRaw q) = true →
      tierWord q (s.get (MEM.hDrAddr q)) = some l →
      exec (.drDone q) s = .next (commit s.pending (((((((s.put (MEM.DR_DATA_LO q) (s.rawData l)).put (MEM.DR_DATA_HI q) (s.rawData l / 2 ^ 32)).put (MEM.DR_CHK q) (s.rawCheck l)).put (MEM.DR_CMD_UE q) 0).put (MEM.DR_CMD_BUSY q) 0).put (MEM.hDrOp q) 0).raise (.mem q) 4)))

/-- The monitor converters run their passes, and heater channels are set and fault. It rests on rules R591 to R599 and
R607, of which it states what its clauses say. The model's choices in it: log entries 101, 102, 178. -/
def Obligations.MonitorsAndHeaters : Prop :=
  (∀ (d : Fin 5) (s : State),
      s.inReset = false →
      monRuns d s = true →
      s.flag (MON.hTrig d) = false →
      s.flag (MON.MON_STAT_RUNNING d) = false →
      exec (.monPassStart d) s = .next (commit s.pending (monPass d s)))
    ∧ (∀ (d : Fin 5) (s : State),
      s.inReset = false →
      monRuns d s = true →
      s.flag (MON.hTrig d) = true →
      s.flag (MON.hDue d) = true →
      s.flag (MON.MON_STAT_RUNNING d) = false →
      exec (.monPassStart d) s = .next (commit s.pending (monPass d (s.put (MON.hDue d) 0))))
    ∧ (∀ (d : Fin 5) (s : State),
      s.inReset = false →
      monRuns d s = true →
      s.flag (MON.hTrig d) = true →
      s.flag (MON.hDue d) = true →
      s.flag (MON.MON_STAT_RUNNING d) = true →
      exec (.monPassStart d) s = .next (commit s.pending (((s.put (MON.hDue d) 0).incWrap (MON.MON_STAT_OVERRUN d) 1).raise (.mon d) 3)))
    ∧ (∀ (d : Fin 5) (s : State),
      s.inReset = false →
      monRuns d s = true →
      s.flag (MON.hTrig d) = false →
      s.flag (MON.MON_STAT_RUNNING d) = true →
      monFreeDue d s = true →
      exec (.monPassStart d) s = .next (commit s.pending (monPass d (monTail d s))))
    ∧ (∀ (d : Fin 5) (phase : Nat) (stream : List Bool) (s : State),
      s.inReset = false →
      monRuns d s = true →
      s.flag (MON.MON_STAT_RUNNING d) = true →
      s.flag (MON.hDone d) = false →
      monDwellOuts d phase stream s ≠ [] →
      exec (.monDwellEnd d ⟨phase, stream⟩) s = .next (commit s.pending (let e := monEntry d s;
        let l := monDwellOuts d phase stream s;
        let s1 := forL l (monOutput d e) s;
        monAdvance d e ((s1.puti (MON.MEAN d e) (l.sum / (l.length : Int))).put (MON.PASS d e) (passNext (s1.get (MON.MON_STAT_PASSES d)))))))
    ∧ (∀ (d : Fin 5) (phase : Nat) (stream : List Bool) (s : State),
      s.inReset = false →
      monRuns d s = true →
      s.flag (MON.MON_STAT_RUNNING d) = true →
      s.flag (MON.hDone d) = false →
      monDwellOuts d phase stream s = [] →
      exec (.monDwellEnd d ⟨phase, stream⟩) s = .next (commit s.pending (monAdvance d (monEntry d s) ((s.put (MON.MEAN d (monEntry d s)) 0).put (MON.PASS d (monEntry d s)) 0xFFFF))))
    ∧ (∀ (d : Fin 5) (s : State),
      s.inReset = false →
      monRuns d s = true →
      s.flag (MON.MON_STAT_RUNNING d) = true →
      s.flag (MON.hDone d) = true →
      exec (.monPassEnd d) s = .next (commit s.pending (let tail := s.flag (MON.hTail d);
        let short := if tail then s.flag (MON.hTailShort d) else monShort d s;
        monEvent d ((((((((s.put (MON.MON_STAT_PASSES d) (passNext (s.get (MON.MON_STAT_PASSES d)))).put (MON.MON_STAT_SHORT d) short.toNat).put (MON.MON_STAT_RUNNING d) tail.toNat).put
          (MON.hTail d) 0).put (MON.hDone d) 0).raiseIf (.mon d) 1 short).raise (.mon d) 0)))))
    ∧ (∀ (m : Master) (d : Fin 5) (v : Nat) (s : State),
      s.inReset = false →
      Accepts m (.mon d) 0x04C s →
      exec (.accClr m d v) s = .next (commit s.pending (forFin 16 (fun e s => if v.testBit e.val then monClear d e s else s) s)))
    ∧ (∀ (m : Master) (q : Fin 4) (h : Fin 32) (w : Fin 3) (v : Nat) (s : State),
      s.inReset = false →
      Accepts m (.htr q) (0x100 + 16 * h.val + 4 * w.val) s →
      htrLoad q (htrStore q h w v s) ≤ 100 * s.get (HTR.HTR_CFG_TOT_LIM q) →
      exec (.heaterSetptWrite m q h w v) s = .next (commit s.pending (htrFollow q h ((if w = 0 ∧ s.get (HTR.CH_CFG_OWNER q h) = masterId m then (htrStore q h w v s).put (HTR.hStale q h) 0 else htrStore q h w v s).put (HTR.hZero q h) 0))))
    ∧ (∀ (m : Master) (q : Fin 4) (h : Fin 32) (w : Fin 3) (v : Nat) (s : State),
      s.inReset = false →
      Accepts m (.htr q) (0x100 + 16 * h.val + 4 * w.val) s →
      100 * s.get (HTR.HTR_CFG_TOT_LIM q) < htrLoad q (htrStore q h w v s) →
      exec (.heaterSetptWrite m q h w v) s = .next (commit s.pending ((s.put (HTR.HTR_STAT_ILIM_REJ q) 1).raise (.htr q) 1)))
    ∧ (∀ (q : Fin 4) (h : Fin 32) (s : State),
      s.inReset = false →
      s.get (HTR.CH_CFG_WD_TICKS q h) ≠ 0 →
      s.get (HTR.CH_CFG_OWNER q h) ≠ 0 →
      s.get (HTR.CH_CFG_WD_TICKS q h) ≤ s.get (HTR.hStale q h) →
      qState q s = 0 →
      exec (.stale q h) s = .next (commit s.pending (htrFault q h hcStale s)))
    ∧ (∀ (q : Fin 4) (h : Fin 32) (s : State),
      s.inReset = false →
      qState q s ≠ 2 →
      exec (.htrOpen q h) s = .next (commit s.pending (htrFault q h hcOpen (s.put (HTR.hOpen q h) 1))))
    ∧ (∀ (q : Fin 4) (h : Fin 32) (s : State),
      s.inReset = false →
      qState q s ≠ 2 →
      exec (.short q h) s = .next (commit s.pending (htrFault q h hcShort (s.put (HTR.hShort q h) 1))))
    ∧ (∀ (q : Fin 4) (s : State),
      s.inReset = false →
      qState q s ≠ 2 →
      exec (.trip q) s = .next (commit s.pending (forFin 32 (fun h => htrFault q h hcTrip) ((s.raiseIf (.htr q) 2 (!s.flag (HTR.HTR_STAT_TRIP q))).put (HTR.HTR_STAT_TRIP q) 1))))
    ∧ (∀ (q : Fin 4) (s : State),
      s.inReset = false →
      qState q s ≠ 2 →
      exec (.supply q) s = .next (commit s.pending (forFin 32 (fun h => htrFault q h hcSupply) (((s.raiseIf (.htr q) 3 (s.flag (HTR.HTR_STAT_VDD_OK q))).put (HTR.HTR_STAT_VDD_OK q) 0).put (HTR.hSupply q) 1))))
    ∧ (∀ (m : Master) (q : Fin 4) (h : Fin 32) (s : State),
      s.inReset = false →
      Accepts m (.htr q) (0x10C + 16 * h.val) s →
      exec (.forceSafe m q h) s = .next (commit s.pending (htrFault q h hcForced s)))
    ∧ (∀ (m : Master) (q : Fin 4) (h : Fin 32) (s : State),
      s.inReset = false →
      Accepts m (.htr q) (0x10C + 16 * h.val) s →
      s.flag (HTR.CH_STAT_FAULTED q h) = true →
      htrCondition q h s = false →
      exec (.faultedClear m q h) s = .next (commit s.pending (htrFollow q h ((s.put (HTR.CH_STAT_FAULTED q h) 0).put (HTR.hStale q h) 0))))

/-- The register and immediate arithmetic of a Tumbler. It rests on rules R563, R567 to R569 and R582, of which it
states what its clauses say. The model's choices in it: log entry 80. -/
def Obligations.TumblerArithmetic : Prop :=
  (∀ (t : Fin 18) (x : Fin 2) (s : State),
      s.inReset = false →
      TumbRuns t x 0x01 s →
      TumbSeq t x (tumbRan t x s) →
      exec (.add t x) s = .next (commit s.pending (tumbNext t x (tumbPc t x (tumbRan t x s)) (tPut t x (fRd (tumbInstr t x s)) (((tGet t x (fRa (tumbInstr t x s)) (tumbRan t x s)) + (tGet t x (fRb (tumbInstr t x s)) (tumbRan t x s))) % 2 ^ 36) (tumbRan t x s)))))
    ∧ (∀ (t : Fin 18) (x : Fin 2) (s : State),
      s.inReset = false →
      TumbRuns t x 0x02 s →
      TumbSeq t x (tumbRan t x s) →
      exec (.sub t x) s = .next (commit s.pending (tumbNext t x (tumbPc t x (tumbRan t x s)) (tPut t x (fRd (tumbInstr t x s)) (w36 ((s36 (tGet t x (fRa (tumbInstr t x s)) (tumbRan t x s))) - (s36 (tGet t x (fRb (tumbInstr t x s)) (tumbRan t x s))))) (tumbRan t x s)))))
    ∧ (∀ (t : Fin 18) (x : Fin 2) (s : State),
      s.inReset = false →
      TumbRuns t x 0x03 s →
      TumbSeq t x (tumbRan t x s) →
      exec (.and t x) s = .next (commit s.pending (tumbNext t x (tumbPc t x (tumbRan t x s)) (tPut t x (fRd (tumbInstr t x s)) ((tGet t x (fRa (tumbInstr t x s)) (tumbRan t x s)) &&& (tGet t x (fRb (tumbInstr t x s)) (tumbRan t x s))) (tumbRan t x s)))))
    ∧ (∀ (t : Fin 18) (x : Fin 2) (s : State),
      s.inReset = false →
      TumbRuns t x 0x04 s →
      TumbSeq t x (tumbRan t x s) →
      exec (.or t x) s = .next (commit s.pending (tumbNext t x (tumbPc t x (tumbRan t x s)) (tPut t x (fRd (tumbInstr t x s)) ((tGet t x (fRa (tumbInstr t x s)) (tumbRan t x s)) ||| (tGet t x (fRb (tumbInstr t x s)) (tumbRan t x s))) (tumbRan t x s)))))
    ∧ (∀ (t : Fin 18) (x : Fin 2) (s : State),
      s.inReset = false →
      TumbRuns t x 0x05 s →
      TumbSeq t x (tumbRan t x s) →
      exec (.xor t x) s = .next (commit s.pending (tumbNext t x (tumbPc t x (tumbRan t x s)) (tPut t x (fRd (tumbInstr t x s)) ((tGet t x (fRa (tumbInstr t x s)) (tumbRan t x s)) ^^^ (tGet t x (fRb (tumbInstr t x s)) (tumbRan t x s))) (tumbRan t x s)))))
    ∧ (∀ (t : Fin 18) (x : Fin 2) (s : State),
      s.inReset = false →
      TumbRuns t x 0x06 s →
      TumbSeq t x (tumbRan t x s) →
      exec (.sll t x) s = .next (commit s.pending (tumbNext t x (tumbPc t x (tumbRan t x s)) (tPut t x (fRd (tumbInstr t x s)) ((tGet t x (fRa (tumbInstr t x s)) (tumbRan t x s)) * 2 ^ ((tGet t x (fRb (tumbInstr t x s)) (tumbRan t x s)) % 64) % 2 ^ 36) (tumbRan t x s)))))
    ∧ (∀ (t : Fin 18) (x : Fin 2) (s : State),
      s.inReset = false →
      TumbRuns t x 0x07 s →
      TumbSeq t x (tumbRan t x s) →
      exec (.srl t x) s = .next (commit s.pending (tumbNext t x (tumbPc t x (tumbRan t x s)) (tPut t x (fRd (tumbInstr t x s)) ((tGet t x (fRa (tumbInstr t x s)) (tumbRan t x s)) / 2 ^ ((tGet t x (fRb (tumbInstr t x s)) (tumbRan t x s)) % 64)) (tumbRan t x s)))))
    ∧ (∀ (t : Fin 18) (x : Fin 2) (s : State),
      s.inReset = false →
      TumbRuns t x 0x08 s →
      TumbSeq t x (tumbRan t x s) →
      exec (.sra t x) s = .next (commit s.pending (tumbNext t x (tumbPc t x (tumbRan t x s)) (tPut t x (fRd (tumbInstr t x s)) (w36 ((s36 (tGet t x (fRa (tumbInstr t x s)) (tumbRan t x s))) / (2 ^ ((tGet t x (fRb (tumbInstr t x s)) (tumbRan t x s)) % 64) : Nat))) (tumbRan t x s)))))
    ∧ (∀ (t : Fin 18) (x : Fin 2) (s : State),
      s.inReset = false →
      TumbRuns t x 0x09 s →
      TumbSeq t x (tumbRan t x s) →
      exec (.slt t x) s = .next (commit s.pending (tumbNext t x (tumbPc t x (tumbRan t x s)) (tPut t x (fRd (tumbInstr t x s)) (if (s36 (tGet t x (fRa (tumbInstr t x s)) (tumbRan t x s))) < (s36 (tGet t x (fRb (tumbInstr t x s)) (tumbRan t x s))) then 1 else 0) (tumbRan t x s)))))
    ∧ (∀ (t : Fin 18) (x : Fin 2) (s : State),
      s.inReset = false →
      TumbRuns t x 0x0A s →
      TumbSeq t x (tumbRan t x s) →
      exec (.sltu t x) s = .next (commit s.pending (tumbNext t x (tumbPc t x (tumbRan t x s)) (tPut t x (fRd (tumbInstr t x s)) (if (tGet t x (fRa (tumbInstr t x s)) (tumbRan t x s)) < (tGet t x (fRb (tumbInstr t x s)) (tumbRan t x s)) then 1 else 0) (tumbRan t x s)))))
    ∧ (∀ (t : Fin 18) (x : Fin 2) (s : State),
      s.inReset = false →
      TumbRuns t x 0x0B s →
      TumbSeq t x (tumbRan t x s) →
      exec (.min t x) s = .next (commit s.pending (tumbNext t x (tumbPc t x (tumbRan t x s)) (tPut t x (fRd (tumbInstr t x s)) (if (s36 (tGet t x (fRa (tumbInstr t x s)) (tumbRan t x s))) ≤ (s36 (tGet t x (fRb (tumbInstr t x s)) (tumbRan t x s))) then (tGet t x (fRa (tumbInstr t x s)) (tumbRan t x s)) else (tGet t x (fRb (tumbInstr t x s)) (tumbRan t x s))) (tumbRan t x s)))))
    ∧ (∀ (t : Fin 18) (x : Fin 2) (s : State),
      s.inReset = false →
      TumbRuns t x 0x0C s →
      TumbSeq t x (tumbRan t x s) →
      exec (.max t x) s = .next (commit s.pending (tumbNext t x (tumbPc t x (tumbRan t x s)) (tPut t x (fRd (tumbInstr t x s)) (if (s36 (tGet t x (fRa (tumbInstr t x s)) (tumbRan t x s))) ≤ (s36 (tGet t x (fRb (tumbInstr t x s)) (tumbRan t x s))) then (tGet t x (fRb (tumbInstr t x s)) (tumbRan t x s)) else (tGet t x (fRa (tumbInstr t x s)) (tumbRan t x s))) (tumbRan t x s)))))
    ∧ (∀ (t : Fin 18) (x : Fin 2) (s : State),
      s.inReset = false →
      TumbRuns t x 0x0D s →
      TumbSeq t x (tumbRan t x s) →
      exec (.adds t x) s = .next (commit s.pending (tumbNext t x (tumbPc t x (tumbRan t x s)) (tPut t x (fRd (tumbInstr t x s)) (w36 (clampI (-(2 ^ 35)) (2 ^ 35 - 1) ((s36 (tGet t x (fRa (tumbInstr t x s)) (tumbRan t x s))) + (s36 (tGet t x (fRb (tumbInstr t x s)) (tumbRan t x s)))))) (tumbRan t x s)))))
    ∧ (∀ (t : Fin 18) (x : Fin 2) (s : State),
      s.inReset = false →
      TumbRuns t x 0x10 s →
      TumbSeq t x (tumbRan t x s) →
      exec (.addi t x) s = .next (commit s.pending (tumbNext t x (tumbPc t x (tumbRan t x s)) (tPut t x (fRd (tumbInstr t x s)) (((tGet t x (fRa (tumbInstr t x s)) (tumbRan t x s)) + w36 (fImm (tumbInstr t x s))) % 2 ^ 36) (tumbRan t x s)))))
    ∧ (∀ (t : Fin 18) (x : Fin 2) (s : State),
      s.inReset = false →
      TumbRuns t x 0x11 s →
      TumbSeq t x (tumbRan t x s) →
      exec (.andi t x) s = .next (commit s.pending (tumbNext t x (tumbPc t x (tumbRan t x s)) (tPut t x (fRd (tumbInstr t x s)) ((tGet t x (fRa (tumbInstr t x s)) (tumbRan t x s)) &&& w36 (fImm (tumbInstr t x s))) (tumbRan t x s)))))
    ∧ (∀ (t : Fin 18) (x : Fin 2) (s : State),
      s.inReset = false →
      TumbRuns t x 0x12 s →
      TumbSeq t x (tumbRan t x s) →
      exec (.ori t x) s = .next (commit s.pending (tumbNext t x (tumbPc t x (tumbRan t x s)) (tPut t x (fRd (tumbInstr t x s)) ((tGet t x (fRa (tumbInstr t x s)) (tumbRan t x s)) ||| w36 (fImm (tumbInstr t x s))) (tumbRan t x s)))))
    ∧ (∀ (t : Fin 18) (x : Fin 2) (s : State),
      s.inReset = false →
      TumbRuns t x 0x13 s →
      TumbSeq t x (tumbRan t x s) →
      exec (.xori t x) s = .next (commit s.pending (tumbNext t x (tumbPc t x (tumbRan t x s)) (tPut t x (fRd (tumbInstr t x s)) ((tGet t x (fRa (tumbInstr t x s)) (tumbRan t x s)) ^^^ w36 (fImm (tumbInstr t x s))) (tumbRan t x s)))))
    ∧ (∀ (t : Fin 18) (x : Fin 2) (s : State),
      s.inReset = false →
      TumbRuns t x 0x14 s →
      TumbSeq t x (tumbRan t x s) →
      exec (.slli t x) s = .next (commit s.pending (tumbNext t x (tumbPc t x (tumbRan t x s)) (tPut t x (fRd (tumbInstr t x s)) ((tGet t x (fRa (tumbInstr t x s)) (tumbRan t x s)) * 2 ^ ofInt 6 (fImm (tumbInstr t x s)) % 2 ^ 36) (tumbRan t x s)))))
    ∧ (∀ (t : Fin 18) (x : Fin 2) (s : State),
      s.inReset = false →
      TumbRuns t x 0x15 s →
      TumbSeq t x (tumbRan t x s) →
      exec (.srli t x) s = .next (commit s.pending (tumbNext t x (tumbPc t x (tumbRan t x s)) (tPut t x (fRd (tumbInstr t x s)) ((tGet t x (fRa (tumbInstr t x s)) (tumbRan t x s)) / 2 ^ ofInt 6 (fImm (tumbInstr t x s))) (tumbRan t x s)))))
    ∧ (∀ (t : Fin 18) (x : Fin 2) (s : State),
      s.inReset = false →
      TumbRuns t x 0x16 s →
      TumbSeq t x (tumbRan t x s) →
      exec (.srai t x) s = .next (commit s.pending (tumbNext t x (tumbPc t x (tumbRan t x s)) (tPut t x (fRd (tumbInstr t x s)) (w36 ((s36 (tGet t x (fRa (tumbInstr t x s)) (tumbRan t x s))) / (2 ^ ofInt 6 (fImm (tumbInstr t x s)) : Nat))) (tumbRan t x s)))))
    ∧ (∀ (t : Fin 18) (x : Fin 2) (s : State),
      s.inReset = false →
      TumbRuns t x 0x17 s →
      TumbSeq t x (tumbRan t x s) →
      exec (.slti t x) s = .next (commit s.pending (tumbNext t x (tumbPc t x (tumbRan t x s)) (tPut t x (fRd (tumbInstr t x s)) (if (s36 (tGet t x (fRa (tumbInstr t x s)) (tumbRan t x s))) < (fImm (tumbInstr t x s)) then 1 else 0) (tumbRan t x s)))))
    ∧ (∀ (t : Fin 18) (x : Fin 2) (s : State),
      s.inReset = false →
      TumbRuns t x 0x18 s →
      TumbSeq t x (tumbRan t x s) →
      exec (.lui t x) s = .next (commit s.pending (tumbNext t x (tumbPc t x (tumbRan t x s)) (tPut t x (fRd (tumbInstr t x s)) (w36 ((fImm (tumbInstr t x s)) * 2 ^ 18)) (tumbRan t x s)))))
    ∧ (∀ (t : Fin 18) (x : Fin 2) (s : State),
      s.inReset = false →
      TumbRuns t x 0x37 s →
      TumbSeq t x (tumbRan t x s) →
      exec (.rdtk t x) s = .next (commit s.pending (tumbNext t x (tumbPc t x (tumbRan t x s)) (tPut t x (fRd (tumbInstr t x s)) ((tumbRan t x s).get (TUMB.hTicks t)) (tumbRan t x s)))))

/-- The accumulators and the data memory of a Tumbler. It rests on rules R569, R571, R573 and R582, of which it states
what its clauses say. The model's choices in it: log entries 80, 106. -/
def Obligations.TumblerDataAndAccumulators : Prop :=
  (∀ (t : Fin 18) (x : Fin 2) (s : State),
      s.inReset = false →
      TumbRuns t x 0x1B s →
      TumbSeq t x (tumbRan t x s) →
      -(2 ^ 71) ≤ s36 (tGet t x (fRa (tumbInstr t x s)) (tumbRan t x s)) * (2 ^ fSh (tumbInstr t x s) : Nat) →
      s36 (tGet t x (fRa (tumbInstr t x s)) (tumbRan t x s)) * (2 ^ fSh (tumbInstr t x s) : Nat) < 2 ^ 71 →
      exec (.movt t x) s = .next (commit s.pending (tumbNext t x (tumbPc t x (tumbRan t x s)) (aPut t x (fAcc (tumbInstr t x s)) (s36 (tGet t x (fRa (tumbInstr t x s)) (tumbRan t x s)) * (2 ^ fSh (tumbInstr t x s) : Nat)) (tumbRan t x s)))))
    ∧ (∀ (t : Fin 18) (x : Fin 2) (s : State),
      s.inReset = false →
      TumbRuns t x 0x1C s →
      TumbSeq t x (tumbRan t x s) →
      exec (.mul t x) s = .next (commit s.pending (tumbNext t x (tumbPc t x (tumbRan t x s)) (aPut t x (fAcc (tumbInstr t x s)) (tumbProduct t x (tumbInstr t x s) (tumbRan t x s)) (evcOnce t x 7 (tumbRan t x s))))))
    ∧ (∀ (t : Fin 18) (x : Fin 2) (s : State),
      s.inReset = false →
      TumbRuns t x 0x1D s →
      TumbSeq t x (tumbRan t x s) →
      exec (.mac t x) s = .next (commit s.pending (tumbNext t x (tumbPc t x (tumbRan t x s)) (aPut t x (fAcc (tumbInstr t x s)) (clampI (-(2 ^ 71 - 1)) (2 ^ 71 - 1) (aGet t x (fAcc (tumbInstr t x s)) (tumbRan t x s) + tumbProduct t x (tumbInstr t x s) (tumbRan t x s))) (evcOnce t x 7 (tumbRan t x s))))))
    ∧ (∀ (t : Fin 18) (x : Fin 2) (s : State),
      s.inReset = false →
      TumbRuns t x 0x1E s →
      TumbSeq t x (tumbRan t x s) →
      exec (.msu t x) s = .next (commit s.pending (tumbNext t x (tumbPc t x (tumbRan t x s)) (aPut t x (fAcc (tumbInstr t x s)) (clampI (-(2 ^ 71 - 1)) (2 ^ 71 - 1) (aGet t x (fAcc (tumbInstr t x s)) (tumbRan t x s) - tumbProduct t x (tumbInstr t x s) (tumbRan t x s))) (evcOnce t x 7 (tumbRan t x s))))))
    ∧ (∀ (t : Fin 18) (x : Fin 2) (s : State),
      s.inReset = false →
      TumbRuns t x 0x1F s →
      TumbSeq t x (tumbRan t x s) →
      exec (.mova t x) s = .next (commit s.pending (tumbNext t x (tumbPc t x (tumbRan t x s)) (tPut t x (fRd (tumbInstr t x s)) (w36 (clampI (-(2 ^ 35)) (2 ^ 35 - 1) (aGet t x (fAcc (tumbInstr t x s)) (tumbRan t x s) / (2 ^ fSh (tumbInstr t x s) : Nat)))) (tumbRan t x s)))))
    ∧ (∀ (t : Fin 18) (x : Fin 2) (s : State),
      s.inReset = false →
      TumbRuns t x 0x20 s →
      TumbSeq t x ((tumbRan t x s).readWord (tumbData t (tumbAddr t x (tumbInstr t x s) (tumbRan t x s))) false).2.2 →
      dataOk x (tumbAddr t x (tumbInstr t x s) (tumbRan t x s)) = true →
      ((tumbRan t x s).readWord (tumbData t (tumbAddr t x (tumbInstr t x s) (tumbRan t x s))) false).1 = .ok →
      exec (.ld t x) s = .next (commit s.pending (tumbNext t x (tumbPc t x ((tumbRan t x s).readWord (tumbData t (tumbAddr t x (tumbInstr t x s) (tumbRan t x s))) false).2.2) (tPut t x (fRd (tumbInstr t x s)) (((tumbRan t x s).readWord (tumbData t (tumbAddr t x (tumbInstr t x s) (tumbRan t x s))) false).2.1 % 2 ^ 36) ((tumbRan t x s).readWord (tumbData t (tumbAddr t x (tumbInstr t x s) (tumbRan t x s))) false).2.2))))
    ∧ (∀ (t : Fin 18) (x : Fin 2) (s : State),
      s.inReset = false →
      TumbRuns t x 0x22 s →
      TumbSeq t x ((tumbRan t x s).readWord (tumbData t (tumbAddr t x (tumbInstr t x s) (tumbRan t x s))) false).2.2 →
      dataOk x (tumbAddr t x (tumbInstr t x s) (tumbRan t x s)) = true →
      ((tumbRan t x s).readWord (tumbData t (tumbAddr t x (tumbInstr t x s) (tumbRan t x s))) false).1 = .ok →
      exec (.lda t x) s = .next (commit s.pending (tumbNext t x (tumbPc t x ((tumbRan t x s).readWord (tumbData t (tumbAddr t x (tumbInstr t x s) (tumbRan t x s))) false).2.2) (aPut t x (fAccI (tumbInstr t x s)) (toInt 64 ((tumbRan t x s).readWord (tumbData t (tumbAddr t x (tumbInstr t x s) (tumbRan t x s))) false).2.1) ((tumbRan t x s).readWord (tumbData t (tumbAddr t x (tumbInstr t x s) (tumbRan t x s))) false).2.2))))
    ∧ (∀ (t : Fin 18) (x : Fin 2) (s : State),
      s.inReset = false →
      TumbRuns t x 0x21 s →
      TumbSeq t x (tumbRan t x s) →
      dataOk x (tumbAddr t x (tumbInstr t x s) (tumbRan t x s)) = true →
      exec (.st t x) s = .next (commit s.pending (tumbNext t x (tumbPc t x (tumbRan t x s)) ((tumbRan t x s).store (tumbData t (tumbAddr t x (tumbInstr t x s) (tumbRan t x s))) (ofInt 64 (s36 (tGet t x (fRd (tumbInstr t x s)) (tumbRan t x s))))))))
    ∧ (∀ (t : Fin 18) (x : Fin 2) (s : State),
      s.inReset = false →
      TumbRuns t x 0x23 s →
      TumbSeq t x (tumbRan t x s) →
      dataOk x (tumbAddr t x (tumbInstr t x s) (tumbRan t x s)) = true →
      exec (.sta t x) s = .next (commit s.pending (tumbNext t x (tumbPc t x (tumbRan t x s)) ((tumbRan t x s).store (tumbData t (tumbAddr t x (tumbInstr t x s) (tumbRan t x s))) (ofInt 64 (clampI (-(2 ^ 63)) (2 ^ 63 - 1) (aGet t x (fAccI (tumbInstr t x s)) (tumbRan t x s))))))))
    ∧ (∀ (t : Fin 18) (x : Fin 2) (s : State),
      s.inReset = false →
      TumbRuns t x 0x20 s →
      dataOk x (tumbAddr t x (tumbInstr t x s) (tumbRan t x s)) = false →
      exec (.ld t x) s = .next (commit s.pending (tumbTrap t x tcBounds (tumbAddr t x (tumbInstr t x s) (tumbRan t x s)) (tumbRan t x s))))
    ∧ (∀ (t : Fin 18) (x : Fin 2) (s : State),
      s.inReset = false →
      TumbRuns t x 0x21 s →
      dataOk x (tumbAddr t x (tumbInstr t x s) (tumbRan t x s)) = false →
      exec (.st t x) s = .next (commit s.pending (tumbTrap t x tcBounds (tumbAddr t x (tumbInstr t x s) (tumbRan t x s)) (tumbRan t x s))))
    ∧ (∀ (t : Fin 18) (x : Fin 2) (s : State),
      s.inReset = false →
      TumbRuns t x 0x20 s →
      dataOk x (tumbAddr t x (tumbInstr t x s) (tumbRan t x s)) = true →
      ((tumbRan t x s).readWord (tumbData t (tumbAddr t x (tumbInstr t x s) (tumbRan t x s))) false).1 = .ue →
      exec (.ld t x) s = .next (commit s.pending (tumbTrap t x tcEccData (tumbAddr t x (tumbInstr t x s) (tumbRan t x s)) ((tumbRan t x s).readWord (tumbData t (tumbAddr t x (tumbInstr t x s) (tumbRan t x s))) false).2.2)))

/-- Page-space reads and writes of a Tumbler. It rests on rules R567, R570 to R572 and R575, of which it states what
its clauses say. The model's choices in it: log entry 106. -/
def Obligations.TumblerPageSpace : Prop :=
  (∀ (t : Fin 18) (x : Fin 2) (s : State),
      s.inReset = false →
      TumbRuns t x 0x24 s →
      pageTrap t x (tumbAddr t x (tumbInstr t x s) (tumbRan t x s)) 4 false (tumbRan t x s) = none →
      TumbSeq t x (tumbRan t x s) →
      exec (.ldp t x) s = .next (commit s.pending ((((evcOnce t x 2 (tumbRan t x s)).put (TUMB.hStall t x) 1).put (TUMB.hStAddr t x) (tumbAddr t x (tumbInstr t x s) (tumbRan t x s))).put (TUMB.hStRd t x) (fRd (tumbInstr t x s)))))
    ∧ (∀ (t : Fin 18) (x : Fin 2) (s : State),
      s.inReset = false →
      TumbRuns t x 0x26 s →
      pageTrap t x (tumbAddr t x (tumbInstr t x s) (tumbRan t x s)) 8 false (tumbRan t x s) = none →
      TumbSeq t x (tumbRan t x s) →
      exec (.ldpw t x) s = .next (commit s.pending ((((evcOnce t x 2 (tumbRan t x s)).put (TUMB.hStall t x) 2).put (TUMB.hStAddr t x) (tumbAddr t x (tumbInstr t x s) (tumbRan t x s))).put (TUMB.hStRd t x) (fRd (tumbInstr t x s)))))
    ∧ (∀ (t : Fin 18) (x : Fin 2) (cause : Nat) (s : State),
      s.inReset = false →
      TumbRuns t x 0x24 s →
      pageTrap t x (tumbAddr t x (tumbInstr t x s) (tumbRan t x s)) 4 false (tumbRan t x s) = some cause →
      exec (.ldp t x) s = .next (commit s.pending (tumbTrap t x cause (tumbAddr t x (tumbInstr t x s) (tumbRan t x s)) (tumbRan t x s))))
    ∧ (∀ (t : Fin 18) (x : Fin 2) (s : State),
      s.inReset = false →
      TumbRuns t x 0x25 s →
      pageTrap t x (tumbAddr t x (tumbInstr t x s) (tumbRan t x s)) 4 true (tumbRan t x s) = none →
      TumbSeq t x (tumbRan t x s) →
      exec (.stp t x) s = .next (commit s.pending (tumbNext t x (tumbPc t x (tumbRan t x s)) { (tumbRan t x s) with posted := (tumbRan t x s).posted ++ [⟨t, x, (tumbAddr t x (tumbInstr t x s) (tumbRan t x s)), 4, (tGet t x (fRd (tumbInstr t x s)) (tumbRan t x s)) % 2 ^ 32⟩] })))
    ∧ (∀ (t : Fin 18) (x : Fin 2) (s : State),
      s.inReset = false →
      TumbRuns t x 0x27 s →
      pageTrap t x (tumbAddr t x (tumbInstr t x s) (tumbRan t x s)) 8 true (tumbRan t x s) = none →
      TumbSeq t x (tumbRan t x s) →
      exec (.stpw t x) s = .next (commit s.pending (tumbNext t x (tumbPc t x (tumbRan t x s)) { (tumbRan t x s) with posted := (tumbRan t x s).posted ++ [⟨t, x, (tumbAddr t x (tumbInstr t x s) (tumbRan t x s)), 8, ofInt 64 (clampI (-(2 ^ 63)) (2 ^ 63 - 1) (aGet t x (fAccI (tumbInstr t x s)) (tumbRan t x s)))⟩] })))
    ∧ (∀ (t : Fin 18) (x : Fin 2) (n : Nat) (s : State),
      s.inReset = false →
      s.get (TUMB.hStall t x) ≠ 0 →
      tumbState t x s = tsRunning →
      postedTo t x (s.get (TUMB.hStAddr t x)) s = false →
      stalledBy (.tumb t) s = false →
      (readAt (.tumb t) (s.get (TUMB.hStAddr t x)) (if s.get (TUMB.hStall t x) = 1 then 4 else 8) s).isSome = true →
      exec (.ldpDataReturn t x n) s = .next (commit s.pending (match readAt (.tumb t) (s.get (TUMB.hStAddr t x)) (if s.get (TUMB.hStall t x) = 1 then 4 else 8) s with
        | some y => ldpEnd t x y.1 (tumbCycles t n y.2)
        | none => s)))
    ∧ (∀ (t : Fin 18) (x : Fin 2) (p : PostedWrite) (s : State),
      s.inReset = false →
      stalledBy (.tumb t) s = false →
      (x = 1 → (s.posted.filter fun p => p.t == t && p.x == 0) = []) →
      (s.posted.filter fun p => p.t == t && p.x == x).head? = some p →
      exec (.stpIssue t x) s = .next (commit s.pending (issuePost p { s with posted := s.posted.erase p })))

/-- Branches, jumps, waits, traps and counter control of a Tumbler. It rests on rules R560, R567 to R569, R571, R573,
R577, R578 and R582 to R584, of which it states what its clauses say. The model's choices in it: log entry 80. -/
def Obligations.TumblerBranchesAndControl : Prop :=
  (∀ (t : Fin 18) (x : Fin 2) (s : State),
      s.inReset = false →
      TumbRuns t x 0x28 s →
      (tGet t x (fRd (tumbInstr t x s)) (tumbRan t x s)) = (tGet t x (fRa (tumbInstr t x s)) (tumbRan t x s)) →
      ((tumbPc t x (tumbRan t x s) : Int) + fImm (tumbInstr t x s)) / 4096 = (x.val : Int) →
      exec (.beq t x) s = .next (commit s.pending ((evcOnce t x 6 (tumbRan t x s)).put (TUMB.hPc t x) (tumbPc t x (tumbRan t x s) + fImm (tumbInstr t x s)).toNat)))
    ∧ (∀ (t : Fin 18) (x : Fin 2) (s : State),
      s.inReset = false →
      TumbRuns t x 0x29 s →
      (tGet t x (fRd (tumbInstr t x s)) (tumbRan t x s)) ≠ (tGet t x (fRa (tumbInstr t x s)) (tumbRan t x s)) →
      ((tumbPc t x (tumbRan t x s) : Int) + fImm (tumbInstr t x s)) / 4096 = (x.val : Int) →
      exec (.bne t x) s = .next (commit s.pending ((evcOnce t x 6 (tumbRan t x s)).put (TUMB.hPc t x) (tumbPc t x (tumbRan t x s) + fImm (tumbInstr t x s)).toNat)))
    ∧ (∀ (t : Fin 18) (x : Fin 2) (s : State),
      s.inReset = false →
      TumbRuns t x 0x2A s →
      s36 (tGet t x (fRd (tumbInstr t x s)) (tumbRan t x s)) < s36 (tGet t x (fRa (tumbInstr t x s)) (tumbRan t x s)) →
      ((tumbPc t x (tumbRan t x s) : Int) + fImm (tumbInstr t x s)) / 4096 = (x.val : Int) →
      exec (.blt t x) s = .next (commit s.pending ((evcOnce t x 6 (tumbRan t x s)).put (TUMB.hPc t x) (tumbPc t x (tumbRan t x s) + fImm (tumbInstr t x s)).toNat)))
    ∧ (∀ (t : Fin 18) (x : Fin 2) (s : State),
      s.inReset = false →
      TumbRuns t x 0x2B s →
      s36 (tGet t x (fRa (tumbInstr t x s)) (tumbRan t x s)) ≤ s36 (tGet t x (fRd (tumbInstr t x s)) (tumbRan t x s)) →
      ((tumbPc t x (tumbRan t x s) : Int) + fImm (tumbInstr t x s)) / 4096 = (x.val : Int) →
      exec (.bge t x) s = .next (commit s.pending ((evcOnce t x 6 (tumbRan t x s)).put (TUMB.hPc t x) (tumbPc t x (tumbRan t x s) + fImm (tumbInstr t x s)).toNat)))
    ∧ (∀ (t : Fin 18) (x : Fin 2) (s : State),
      s.inReset = false →
      TumbRuns t x 0x2C s →
      (tGet t x (fRd (tumbInstr t x s)) (tumbRan t x s)) < (tGet t x (fRa (tumbInstr t x s)) (tumbRan t x s)) →
      ((tumbPc t x (tumbRan t x s) : Int) + fImm (tumbInstr t x s)) / 4096 = (x.val : Int) →
      exec (.bltu t x) s = .next (commit s.pending ((evcOnce t x 6 (tumbRan t x s)).put (TUMB.hPc t x) (tumbPc t x (tumbRan t x s) + fImm (tumbInstr t x s)).toNat)))
    ∧ (∀ (t : Fin 18) (x : Fin 2) (s : State),
      s.inReset = false →
      TumbRuns t x 0x2D s →
      (tGet t x (fRa (tumbInstr t x s)) (tumbRan t x s)) ≤ (tGet t x (fRd (tumbInstr t x s)) (tumbRan t x s)) →
      ((tumbPc t x (tumbRan t x s) : Int) + fImm (tumbInstr t x s)) / 4096 = (x.val : Int) →
      exec (.bgeu t x) s = .next (commit s.pending ((evcOnce t x 6 (tumbRan t x s)).put (TUMB.hPc t x) (tumbPc t x (tumbRan t x s) + fImm (tumbInstr t x s)).toNat)))
    ∧ (∀ (t : Fin 18) (x : Fin 2) (s : State),
      s.inReset = false →
      TumbRuns t x 0x28 s →
      (tGet t x (fRd (tumbInstr t x s)) (tumbRan t x s)) ≠ (tGet t x (fRa (tumbInstr t x s)) (tumbRan t x s)) →
      TumbSeq t x (tumbRan t x s) →
      exec (.beq t x) s = .next (commit s.pending (tumbNext t x (tumbPc t x (tumbRan t x s)) (tumbRan t x s))))
    ∧ (∀ (t : Fin 18) (x : Fin 2) (s : State),
      s.inReset = false →
      TumbRuns t x 0x29 s →
      (tGet t x (fRd (tumbInstr t x s)) (tumbRan t x s)) = (tGet t x (fRa (tumbInstr t x s)) (tumbRan t x s)) →
      TumbSeq t x (tumbRan t x s) →
      exec (.bne t x) s = .next (commit s.pending (tumbNext t x (tumbPc t x (tumbRan t x s)) (tumbRan t x s))))
    ∧ (∀ (t : Fin 18) (x : Fin 2) (s : State),
      s.inReset = false →
      TumbRuns t x 0x2A s →
      s36 (tGet t x (fRa (tumbInstr t x s)) (tumbRan t x s)) ≤ s36 (tGet t x (fRd (tumbInstr t x s)) (tumbRan t x s)) →
      TumbSeq t x (tumbRan t x s) →
      exec (.blt t x) s = .next (commit s.pending (tumbNext t x (tumbPc t x (tumbRan t x s)) (tumbRan t x s))))
    ∧ (∀ (t : Fin 18) (x : Fin 2) (s : State),
      s.inReset = false →
      TumbRuns t x 0x2B s →
      s36 (tGet t x (fRd (tumbInstr t x s)) (tumbRan t x s)) < s36 (tGet t x (fRa (tumbInstr t x s)) (tumbRan t x s)) →
      TumbSeq t x (tumbRan t x s) →
      exec (.bge t x) s = .next (commit s.pending (tumbNext t x (tumbPc t x (tumbRan t x s)) (tumbRan t x s))))
    ∧ (∀ (t : Fin 18) (x : Fin 2) (s : State),
      s.inReset = false →
      TumbRuns t x 0x2C s →
      (tGet t x (fRa (tumbInstr t x s)) (tumbRan t x s)) ≤ (tGet t x (fRd (tumbInstr t x s)) (tumbRan t x s)) →
      TumbSeq t x (tumbRan t x s) →
      exec (.bltu t x) s = .next (commit s.pending (tumbNext t x (tumbPc t x (tumbRan t x s)) (tumbRan t x s))))
    ∧ (∀ (t : Fin 18) (x : Fin 2) (s : State),
      s.inReset = false →
      TumbRuns t x 0x2D s →
      (tGet t x (fRd (tumbInstr t x s)) (tumbRan t x s)) < (tGet t x (fRa (tumbInstr t x s)) (tumbRan t x s)) →
      TumbSeq t x (tumbRan t x s) →
      exec (.bgeu t x) s = .next (commit s.pending (tumbNext t x (tumbPc t x (tumbRan t x s)) (tumbRan t x s))))
    ∧ (∀ (t : Fin 18) (x : Fin 2) (s : State),
      s.inReset = false →
      TumbRuns t x 0x28 s →
      (tGet t x (fRd (tumbInstr t x s)) (tumbRan t x s)) = (tGet t x (fRa (tumbInstr t x s)) (tumbRan t x s)) →
      ((tumbPc t x (tumbRan t x s) : Int) + fImm (tumbInstr t x s)) / 4096 ≠ (x.val : Int) →
      exec (.beq t x) s = .next (commit s.pending (tumbTrap t x tcBounds (w36 (tumbPc t x (tumbRan t x s) + fImm (tumbInstr t x s))) (tumbRan t x s))))
    ∧ (∀ (t : Fin 18) (x : Fin 2) (s : State),
      s.inReset = false →
      TumbRuns t x 0x2E s →
      fTarget (tumbInstr t x s) / 4096 = x.val →
      exec (.jal t x) s = .next (commit s.pending ((tPut t x (fRd (tumbInstr t x s)) (tumbPc t x (tumbRan t x s) + 1) (evcOnce t x 6 (tumbRan t x s))).put (TUMB.hPc t x) (fTarget (tumbInstr t x s)))))
    ∧ (∀ (t : Fin 18) (x : Fin 2) (s : State),
      s.inReset = false →
      TumbRuns t x 0x2F s →
      (tGet t x (fRa (tumbInstr t x s)) (tumbRan t x s)) % 2 ^ 13 / 4096 = x.val →
      exec (.jr t x) s = .next (commit s.pending ((evcOnce t x 6 (tumbRan t x s)).put (TUMB.hPc t x) ((tGet t x (fRa (tumbInstr t x s)) (tumbRan t x s)) % 2 ^ 13))))
    ∧ (∀ (t : Fin 18) (x : Fin 2) (s : State),
      s.inReset = false →
      TumbRuns t x 0x30 s →
      TumbSeq t x (tumbRan t x s) →
      exec (.waitt t x) s = .next (commit s.pending ((((tumbRan t x s).put (TUMB.hWaitTick t x) (tumbRan t x s).tickCount).put (TUMB.hState t x) tsWaiting).put (TUMB.hWait t x) 1)))
    ∧ (∀ (t : Fin 18) (x : Fin 2) (s : State),
      s.inReset = false →
      TumbRuns t x 0x31 s →
      tumbPending t x (tumbRan t x s) &&& (bits (tumbInstr t x s) 0 8 ||| bits (tGet t x (fRa (tumbInstr t x s)) (tumbRan t x s)) 0 8) = 0 →
      TumbSeq t x (tumbRan t x s) →
      exec (.waite t x) s = .next (commit s.pending (((((tumbRan t x s).put (TUMB.hWaitM t x) (bits (tumbInstr t x s) 0 8 ||| bits (tGet t x (fRa (tumbInstr t x s)) (tumbRan t x s)) 0 8)).put (TUMB.hWaitRd t x) (fRd (tumbInstr t x s))).put (TUMB.hState t x) tsWaiting).put (TUMB.hWait t x) 2)))
    ∧ (∀ (t : Fin 18) (x : Fin 2) (s : State),
      s.inReset = false →
      TumbRuns t x 0x31 s →
      tumbPending t x (tumbRan t x s) &&& (bits (tumbInstr t x s) 0 8 ||| bits (tGet t x (fRa (tumbInstr t x s)) (tumbRan t x s)) 0 8) ≠ 0 →
      TumbSeq t x (tumbRan t x s) →
      exec (.waite t x) s = .next (commit s.pending (tumbNext t x (tumbPc t x (tumbRan t x s)) (waiteDone t x (fRd (tumbInstr t x s)) (bits (tumbInstr t x s) 0 8 ||| bits (tGet t x (fRa (tumbInstr t x s)) (tumbRan t x s)) 0 8) (tumbRan t x s)))))
    ∧ (∀ (t : Fin 18) (x : Fin 2) (s : State),
      s.inReset = false →
      TumbRuns t x 0x32 s →
      TumbSeq t x (tumbRan t x s) →
      exec (.halt t x) s = .next (commit s.pending (tumbNext t x (tumbPc t x (tumbRan t x s)) (((tumbRan t x s).put (TUMB.hState t x) tsHalted).raise (.tumb t) (2 + x.val)))))
    ∧ (∀ (t : Fin 18) (x : Fin 2) (s : State),
      s.inReset = false →
      TumbRuns t x 0x33 s →
      exec (.trap t x) s = .next (commit s.pending (tumbTrap t x tcSoft (w36 (fImm (tumbInstr t x s))) (tumbRan t x s))))
    ∧ (∀ (t : Fin 18) (x : Fin 2) (s : State),
      s.inReset = false →
      tumbIssues t x s = true →
      (tumbFetch t x s).1 ≠ .ue →
      tumbLegal (tumbInstr t x s) = false →
      exec (.illegal t x) s = .next (commit s.pending (tumbTrap t x tcIllegal (tumbInstr t x s) (tumbRan t x s))))
    ∧ (∀ (t : Fin 18) (x : Fin 2) (n : Fin 8) (s : State),
      s.inReset = false →
      TumbRuns t x 0x34 s →
      bits (tumbInstr t x s) 0 4 = n.val →
      (x = 0 ∨ (tumbRan t x s).flag (HDR.CNT_USER (.tumb t)) = true) →
      TumbSeq t x (tumbRan t x s) →
      exec (.rdc t x) s = .next (commit s.pending (tumbNext t x (tumbPc t x (tumbRan t x s)) (aPut t x (fAccI (tumbInstr t x s)) (evcValue t n (tumbRan t x s)) (tumbRan t x s)))))
    ∧ (∀ (t : Fin 18) (x : Fin 2) (s : State),
      s.inReset = false →
      TumbRuns t x 0x34 s →
      bits (tumbInstr t x s) 0 4 = 8 →
      (x = 0 ∨ (tumbRan t x s).flag (HDR.CNT_USER (.tumb t)) = true) →
      TumbSeq t x (tumbRan t x s) →
      exec (.rdc t x) s = .next (commit s.pending (tumbNext t x (tumbPc t x (tumbRan t x s)) (aPut t x (fAccI (tumbInstr t x s)) ((tumbRan t x s).get (TUMB.hCycle t)) (tumbRan t x s)))))
    ∧ (∀ (t : Fin 18) (x : Fin 2) (s : State),
      s.inReset = false →
      TumbRuns t x 0x35 s →
      x = 0 →
      TumbSeq t x (tumbRan t x s) →
      exec (.frzc t x) s = .next (commit s.pending (tumbNext t x (tumbPc t x (tumbRan t x s)) ((tumbRan t x s).put (TUMB.CNT_CTRL_FREEZE t) 1))))
    ∧ (∀ (t : Fin 18) (x : Fin 2) (s : State),
      s.inReset = false →
      TumbRuns t x 0x36 s →
      x = 0 →
      TumbSeq t x (tumbRan t x s) →
      exec (.runc t x) s = .next (commit s.pending (tumbNext t x (tumbPc t x (tumbRan t x s)) ((tumbRan t x s).put (TUMB.CNT_CTRL_FREEZE t) 0))))

/-- Commands and events of the Tumblers. It rests on rules R560, R562, R576, R578, R581, R584 and R585, of which it
states what its clauses say. The model's choices in it: log entry 105. -/
def Obligations.TumblerCommands : Prop :=
  (∀ (m : Master) (t : Fin 18) (x : Fin 2) (s : State),
      s.inReset = false →
      Accepts m (.tumb t) 0x044 s →
      pageOn (.tumb t) s = true →
      tumbState t x s = tsHalted →
      exec (.tumbStart m t x) s = .next (commit s.pending (tumbGo t x s)))
    ∧ (∀ (m : Master) (t : Fin 18) (x : Fin 2) (s : State),
      s.inReset = false →
      Accepts m (.tumb t) 0x044 s →
      pageOn (.tumb t) s = true →
      (tumbState t x s = tsHalted ∨ tumbState t x s = tsTrapped) →
      exec (.tumbRestart m t x) s = .next (commit s.pending (tumbGo t x (tumbClear t x s))))
    ∧ (∀ (m : Master) (t : Fin 18) (x : Fin 2) (s : State),
      s.inReset = false →
      Accepts m (.tumb t) 0x044 s →
      ((tumbState t x s = tsRunning ∧ s.get (TUMB.hStall t x) = 0) ∨ tumbState t x s = tsWaiting) →
      exec (.tumbStop m t x) s = .next (commit s.pending ((tumbForget t x s).put (TUMB.hState t x) tsHalted)))
    ∧ (∀ (m : Master) (t : Fin 18) (x : Fin 2) (s : State),
      s.inReset = false →
      Accepts m (.tumb t) 0x044 s →
      tumbState t x s = tsRunning →
      s.get (TUMB.hStall t x) ≠ 0 →
      exec (.tumbStop m t x) s = .next (commit s.pending (s.put (TUMB.hStop t x) 1)))
    ∧ (∀ (t : Fin 18) (x : Fin 2) (s : State),
      s.inReset = false →
      s.flag (TUMB.hAutoTick t x) = true →
      tumbAuto t x (s.put (TUMB.hAutoTick t x) 0) = true →
      exec (.tumbAutoStart t x) s = .next (commit s.pending (Sys2Proof.Machine.tumbStart t x (s.put (TUMB.hAutoTick t x) 0))))
    ∧ (∀ (t : Fin 18) (x : Fin 2) (s : State),
      s.inReset = false →
      tumbState t x s = tsRunning →
      s.flag (HDR.FREEZE (.tumb t)) = false →
      tumbAwake t s = true →
      wdogOver t x s = true →
      exec (.tumbWatchdog t x) s = .next (commit s.pending (tumbTrap t x tcWatchdog (s.get (TUMB.hWd t x)) s)))
    ∧ (∀ (m : Master) (t : Fin 18) (x : Fin 2) (s : State),
      s.inReset = false →
      Accepts m (.tumb t) 0x068 s →
      exec (.tumbDoorbell m t x) s = .next (commit s.pending (tumbPend t x evDoorbell s)))
    ∧ (∀ (t : Fin 18) (x : Fin 2) (n : Nat) (s : State),
      s.inReset = false →
      tumbState t x s = tsWaiting →
      s.flag (HDR.FREEZE (.tumb t)) = false →
      tumbAwake t s = true →
      tumbWoken t x s = true →
      (tumbCycles t n s).get (TUMB.hWait t x) = 1 →
      exec (.tumbWake t x n) s = .next (commit s.pending (((tumbForget t x ((tumbCycles t n s).put (TUMB.hWd t x) 0)).put (TUMB.hState t x) tsRunning).put (TUMB.hPc t x) (tumbPc t x ((tumbCycles t n s).put (TUMB.hWd t x) 0) + 1))))
    ∧ (∀ (m : Master) (t : Fin 18) (w : Fin 8) (v : Nat) (s : State),
      s.inReset = false →
      Accepts m (.tumb t) (0x180 + 8 * w.val) s →
      tumbState t 1 s ≠ tsRunning →
      tumbState t 1 s ≠ tsWaiting →
      exec (.permWindowWrite m t w 0 v) s = .next (commit s.pending (((s.put (TUMB.PERM_BASE_R t w) (bits v 31 1)).put (TUMB.PERM_BASE_W t w) (bits v 30 1)).put (TUMB.PERM_BASE_ADDR t w) (bits v 2 24))))
    ∧ (∀ (m : Master) (t : Fin 18) (w : Fin 8) (v : Nat) (s : State),
      s.inReset = false →
      Accepts m (.tumb t) (0x184 + 8 * w.val) s →
      tumbState t 1 s ≠ tsRunning →
      tumbState t 1 s ≠ tsWaiting →
      exec (.permWindowWrite m t w 1 v) s = .next (commit s.pending (s.put (TUMB.PERM_LIM_ADDR t w) (bits v 2 24))))
    ∧ (∀ (m : Master) (t : Fin 18) (on : Bool) (s : State),
      s.inReset = false →
      Accepts m (.tumb t) 0x0C0 s →
      exec (.counterFreezeWrite m t on) s = .next (commit s.pending (s.put (TUMB.CNT_CTRL_FREEZE t) on.toNat)))
    ∧ (∀ (m : Master) (t : Fin 18) (v : Nat) (s : State),
      s.inReset = false →
      Accepts m (.tumb t) 0x0C0 s →
      exec (.counterClr m t v) s = .next (commit s.pending (forFin 8 (fun n s => if bit v n.val then evcClear t n s else s) (s.put (TUMB.CNT_CTRL_FREEZE t) (bits v 31 1)))))
    ∧ (∀ (t : Fin 18) (n : Fin 8) (s : State),
      s.inReset = false →
      s.flag (TUMB.EVC_CFG_STICK t n) = true →
      2 ^ 48 - 1 ≤ s.get (TUMB.hEvc t n) →
      s.flag (TUMB.EVC_HI_OVF t n) = false →
      exec (.evcOvf t n) s = .next (commit s.pending (evcOverflow t n s)))
    ∧ (∀ (t : Fin 18) (n : Fin 8) (s : State),
      s.inReset = false →
      s.flag (TUMB.EVC_CFG_STICK t n) = false →
      2 ^ 48 ≤ s.get (TUMB.hEvc t n) →
      exec (.evcOvf t n) s = .next (commit s.pending (evcOverflow t n (s.put (TUMB.hEvc t n) (s.get (TUMB.hEvc t n) - 2 ^ 48)))))

/-- The boot chain, recovery and the closing of debug. It rests on rules R649 to R651 and R659, of which it states
what its clauses say. The model's choices in it: log entries 29, 81, 82, 109, 110, 179. -/
def Obligations.BootAndRecovery : Prop :=
  (∀ (sigs : List (Nat × Nat)) (flash : Bool) (ms : Nat) (s : State),
      s.inReset = false →
      bootStage s = bsRom →
      exec (.bootStageComplete sigs flash ms) s = .next (commit s.pending (match selectCopy copyStage1 ikStage1 (fun a j => sigs.contains (a, j)) flash (showOwner (newChallenge (deriveKeys s))) with
        | (some x, u) => runStage1 (content x u) ((u.putB BOOT.BOOT_STAT_S1_COPY x.copyB).putB (BOOT.hCopyUsed 0) true)
        | (none, u) => setStage bsRecoveryRom u)))
    ∧ (∀ (sigs : List (Nat × Nat)) (flash : Bool) (ms : Nat) (s : State),
      s.inReset = false →
      bootStage s = bsStage1 →
      exec (.bootStageComplete sigs flash ms) s = .next (commit s.pending (stage1Ends (fun a j => sigs.contains (a, j)) flash s)))
    ∧ (∀ (sigs : List (Nat × Nat)) (flash : Bool) (ms : Nat) (u : State) (s : State),
      s.inReset = false →
      bootStage s = bsStage1 →
      selectCopy copyFirmware ikFirmware (fun a j => sigs.contains (a, j)) flash s = (none, u) →
      exec (.bootStageComplete sigs flash ms) s = .next (commit s.pending (readySets (bootFault ((setStage bsRecoveryS1 u).get BOOT.BOOT_STAT_CAUSE) (setStage bsRecoveryS1 u)))))
    ∧ (∀ (sigs : List (Nat × Nat)) (flash : Bool) (ms : Nat) (s : State),
      s.inReset = false →
      bootStage s = bsFirmware →
      exec (.bootStageComplete sigs flash ms) s = .next (commit s.pending (firmwareEnds (fun a j => sigs.contains (a, j)) flash ms s)))
    ∧ (∀ (m : Master) (v : Nat) (s : State),
      s.inReset = false →
      Accepts m .boot 0x064 s →
      bootStage s = bsRecoveryRom →
      exec (.rcvData m v) s = .next (commit s.pending ((s.modify (.hub 4 (s.get BOOT.RCV_ADDR / 8)) (fun d => setBits d (8 * (s.get BOOT.RCV_ADDR % 8)) 32 v)).put BOOT.RCV_ADDR (s.get BOOT.RCV_ADDR + 4))))
    ∧ (∀ (m : Master) (v : Nat) (s : State),
      s.inReset = false →
      Accepts m .boot 0x064 s →
      bootStage s ≠ bsRecoveryRom →
      exec (.rcvData m v) s = .next (commit s.pending (logErr .boot causeActiveWrite (masterId m) 0 false 0x064 s)))
    ∧ (∀ (m : Master) (sigs : List Nat) (s : State),
      s.inReset = false →
      Accepts m .boot 0x068 s →
      bootStage s = bsRecoveryRom →
      exec (.go m sigs) s = .next (commit s.pending (match verifyImage (regionBytes (.hub 4 0) 0 262144 s) 262144 ikStage1 none (fun j => sigs.contains j) s with
        | none => runStage1 ((regionBytes (.hub 4 0) 0 262144 s).take (imgTotal (regionBytes (.hub 4 0) 0 262144 s))) (s.putB BOOT.BOOT_STAT_RCV_IMAGE true)
        | some e => bootCause e.2 s)))
    ∧ (∀ (m : Master) (s : State),
      s.inReset = false →
      Accepts m .boot 0x05C s →
      exec (.lock m) s = .next (commit s.pending (haspsLost .debug (setScope 0 s))))

/-- The fuse commands and their refusals. It rests on rules R661 to R663, of which it states what its clauses say. The
model's choices in it: log entries 107, 111. -/
def Obligations.FuseCommands : Prop :=
  (∀ (arg : Fin 256) (s : State),
      s.inReset = false →
      Accepts .pcie .fuse 0x044 s →
      s.holds .pcie (.page .fuse) = true →
      s.flag FUSE.FUSE_STAT_BUSY = false →
      arg.val ≤ 1 →
      s.flag (FUSE.hOwnProg (Fin.ofNat 2 arg.val)) = false →
      ownerDamaged (Fin.ofNat 2 arg.val) s = false →
      exec (.programOwner .pcie arg) s = .next (commit s.pending (((((s.putB FUSE.FUSE_STAT_BUSY true).put FUSE.FUSE_STAT_RESULT 0).put FUSE.FUSE_STAT_CAUSE 0).put FUSE.hOp 1).put FUSE.hArg arg.val)))
    ∧ (∀ (arg : Fin 256) (s : State),
      s.inReset = false →
      Accepts .pcie .fuse 0x044 s →
      s.holds .pcie (.page .fuse) = true →
      s.flag FUSE.FUSE_STAT_BUSY = false →
      arg.val ≤ 1 →
      (s.flag FUSE.FUSE_STAT_OWNER_COSIGN = false ∨ ownerValid (1 - Fin.ofNat 2 arg.val) s = true) →
      exec (.revokeOwner .pcie arg) s = .next (commit s.pending (((((s.putB FUSE.FUSE_STAT_BUSY true).put FUSE.FUSE_STAT_RESULT 0).put FUSE.FUSE_STAT_CAUSE 0).put FUSE.hOp 2).put FUSE.hArg arg.val)))
    ∧ (∀ (arg : Fin 256) (s : State),
      s.inReset = false →
      Accepts .pcie .fuse 0x044 s →
      s.holds .pcie (.page .fuse) = true →
      s.flag FUSE.FUSE_STAT_BUSY = false →
      arg.val ≤ 64 →
      s.get FUSE.FUSE_STAT_ARB < arg.val →
      (∀ v ∈ secversNow s, arg.val ≤ v) →
      staging s = false →
      exec (.advanceArb .pcie arg) s = .next (commit s.pending (((((s.putB FUSE.FUSE_STAT_BUSY true).put FUSE.FUSE_STAT_RESULT 0).put FUSE.FUSE_STAT_CAUSE 0).put FUSE.hOp 3).put FUSE.hArg arg.val)))
    ∧ (∀ (arg : Fin 256) (s : State),
      s.inReset = false →
      Accepts .pcie .fuse 0x044 s →
      s.holds .pcie (.page .fuse) = true →
      s.flag FUSE.FUSE_STAT_BUSY = false →
      arg.val ≤ 64 →
      arg.val ≤ s.get FUSE.FUSE_STAT_ARB →
      exec (.advanceArb .pcie arg) s = .next (commit s.pending (((((s.putB FUSE.FUSE_STAT_BUSY true).put FUSE.FUSE_STAT_RESULT 0).put FUSE.FUSE_STAT_CAUSE 0).put FUSE.hOp 3).put FUSE.hArg arg.val)))
    ∧ (∀ (arg : Fin 256) (s : State),
      s.inReset = false →
      Accepts .pcie .fuse 0x044 s →
      s.holds .pcie (.page .fuse) = true →
      s.flag FUSE.FUSE_STAT_BUSY = false →
      64 < arg.val →
      exec (.advanceArb .pcie arg) s = .next (commit s.pending (keyBufClear (((s.put FUSE.FUSE_STAT_RESULT 2).put FUSE.FUSE_STAT_CAUSE 6).raise .fuse 1))))
    ∧ (∀ (arg : Fin 256) (s : State),
      s.inReset = false →
      Accepts .pcie .fuse 0x044 s →
      s.holds .pcie (.page .fuse) = true →
      s.flag FUSE.FUSE_STAT_BUSY = false →
      1 < arg.val →
      exec (.programOwner .pcie arg) s = .next (commit s.pending (keyBufClear (((s.put FUSE.FUSE_STAT_RESULT 2).put FUSE.FUSE_STAT_CAUSE 6).raise .fuse 1))))
    ∧ (∀ (arg : Fin 256) (s : State),
      s.inReset = false →
      Accepts .pcie .fuse 0x044 s →
      s.holds .pcie (.page .fuse) = true →
      s.flag FUSE.FUSE_STAT_BUSY = false →
      1 < arg.val →
      exec (.revokeOwner .pcie arg) s = .next (commit s.pending (keyBufClear (((s.put FUSE.FUSE_STAT_RESULT 2).put FUSE.FUSE_STAT_CAUSE 6).raise .fuse 1))))
    ∧ (∀ (s : State),
      s.inReset = false →
      Accepts .pcie .fuse 0x044 s →
      s.holds .pcie (.page .fuse) = true →
      s.flag FUSE.FUSE_STAT_BUSY = false →
      s.flag FUSE.FUSE_STAT_KEK_SEED_SET = false →
      exec (.programKekSeed .pcie) s = .next (commit s.pending (((((s.putB FUSE.FUSE_STAT_BUSY true).put FUSE.FUSE_STAT_RESULT 0).put FUSE.FUSE_STAT_CAUSE 0).put FUSE.hOp 4).put FUSE.hArg 0)))
    ∧ (∀ (s : State),
      s.inReset = false →
      Accepts .pcie .fuse 0x044 s →
      s.holds .pcie (.page .fuse) = true →
      s.flag FUSE.FUSE_STAT_BUSY = false →
      s.flag FUSE.FUSE_STAT_KEK_SEED_SET = true →
      exec (.programKekSeed .pcie) s = .next (commit s.pending (keyBufClear (((s.put FUSE.FUSE_STAT_RESULT 2).put FUSE.FUSE_STAT_CAUSE 2).raise .fuse 1))))
    ∧ (∀ (s : State),
      s.inReset = false →
      Accepts .pcie .fuse 0x044 s →
      s.holds .pcie (.page .fuse) = true →
      s.flag FUSE.FUSE_STAT_BUSY = false →
      ownerInUse s ≠ none →
      exec (.setCosign .pcie) s = .next (commit s.pending (((((s.putB FUSE.FUSE_STAT_BUSY true).put FUSE.FUSE_STAT_RESULT 0).put FUSE.FUSE_STAT_CAUSE 0).put FUSE.hOp 5).put FUSE.hArg 0)))
    ∧ (∀ (s : State),
      s.inReset = false →
      Accepts .pcie .fuse 0x044 s →
      s.holds .pcie (.page .fuse) = true →
      s.flag FUSE.FUSE_STAT_BUSY = false →
      ownerInUse s = none →
      exec (.setCosign .pcie) s = .next (commit s.pending (keyBufClear (((s.put FUSE.FUSE_STAT_RESULT 2).put FUSE.FUSE_STAT_CAUSE 4).raise .fuse 1))))
    ∧ (∀ (s : State),
      s.inReset = false →
      Accepts .pcie .fuse 0x044 s →
      s.holds .pcie (.page .fuse) = true →
      s.flag FUSE.FUSE_STAT_BUSY = false →
      exec (.disableDebug .pcie) s = .next (commit s.pending (((((s.putB FUSE.FUSE_STAT_BUSY true).put FUSE.FUSE_STAT_RESULT 0).put FUSE.FUSE_STAT_CAUSE 0).put FUSE.hOp 6).put FUSE.hArg 0)))
    ∧ (∀ (m : Master) (s : State),
      s.inReset = false →
      Accepts m .fuse 0x044 s →
      (m ≠ .pcie ∨ s.holds .pcie (.page .fuse) = false) →
      s.flag FUSE.FUSE_STAT_BUSY = false →
      exec (.disableDebug m) s = .next (commit s.pending (keyBufClear (((s.put FUSE.FUSE_STAT_RESULT 2).put FUSE.FUSE_STAT_CAUSE 1).raise .fuse 1))))
    ∧ (∀ (s : State),
      s.inReset = false →
      s.flag FUSE.FUSE_STAT_BUSY = true →
      exec (.fuseCmdDone) s = .next (commit s.pending (keyBufClear ((((showOwner (fuseBlown s)).putB FUSE.FUSE_STAT_BUSY false).put FUSE.FUSE_STAT_RESULT 1).raise .fuse 0))))
    ∧ (∀ (s : State),
      s.inReset = false →
      s.flag FUSE.FUSE_STAT_BUSY = true →
      s.get FUSE.hOp = 2 →
      exec (.fuseCmdDone) s = .next (commit s.pending (keyBufClear ((((showOwner (s.setBit FUSE.FUSE_STAT_REVOKE (s.get FUSE.hArg % 2))).putB FUSE.FUSE_STAT_BUSY false).put FUSE.FUSE_STAT_RESULT 1).raise .fuse 0))))
    ∧ (∀ (s : State),
      s.inReset = false →
      s.flag FUSE.FUSE_STAT_BUSY = true →
      s.get FUSE.hOp = 3 →
      exec (.fuseCmdDone) s = .next (commit s.pending (keyBufClear ((((showOwner (s.put FUSE.FUSE_STAT_ARB (max (s.get FUSE.FUSE_STAT_ARB) (s.get FUSE.hArg)))).putB FUSE.FUSE_STAT_BUSY false).put FUSE.FUSE_STAT_RESULT 1).raise .fuse 0))))

/-- The resets of the engine. It rests on rules R667 to R670, of which it states what its clauses say. The model's
choices in it: log entries 34, 35, 77, 108. -/
def Obligations.PowerAndResets : Prop :=
  (∀ (s : State),
      exec (.pwrOkRise) s = .next (commit s.pending ((s.put PWR.hRails 0x1FF).putB PWR.hPwrOk true)))
    ∧ (∀ (rails : Nat) (s : State),
      rails % 0x200 ≠ 0x1FF →
      bit rails 0 = true →
      exec (.pwrOkFall rails) s = .next (enterReset rcBrownout ((s.put PWR.hRails rails).putB PWR.hPwrOk false)))
    ∧ (∀ (rails : Nat) (s : State),
      bit rails 0 = false →
      exec (.pwrOkFall rails) s = .next (enterReset rcPowerOn ((s.put PWR.hRails rails).putB PWR.hPwrOk false)))
    ∧ (∀ (s : State),
      exec (.resetNAssert) s = .next (enterReset rcResetN (s.putB PWR.hRstN false)))
    ∧ (∀ (strap : Fin 4) (s : State),
      s.inReset = true →
      s.flag PWR.hPwrOk = true →
      exec (.resetRelease strap) s = .next (commit s.pending { (s.put PCIE.hStrap strap.val).putB PWR.hRstN true with inReset := false }))
    ∧ (∀ (m : Master) (key : Nat) (s : State),
      s.inReset = false →
      Accepts m .pwr 0x050 s →
      (m = .pcie ∨ m = .ward 0) →
      key % 2 ^ 16 = 0xA55A →
      exec (.devReset m key true) s = .next (commit s.pending (enterReset rcDevReset s)))
    ∧ (∀ (m : Master) (key : Nat) (s : State),
      s.inReset = false →
      Accepts m .pwr 0x050 s →
      key % 2 ^ 16 ≠ 0xA55A →
      exec (.devReset m key true) s = .next (commit s.pending (logErr .pwr causeActiveWrite (masterId m) 0 false 0x050 s)))
    ∧ (∀ (m : Master) (key : Nat) (s : State),
      s.inReset = false →
      Accepts m .pwr 0x050 s →
      m ≠ .pcie →
      m ≠ .ward 0 →
      exec (.devReset m key true) s = .next (commit s.pending (logErr .pwr causeActiveWrite (masterId m) 0 false 0x050 s)))

/-- Parking, quadrant sleep and STANDBY. It rests on rules R672, R673 and R676 to R681, of which it states what its
clauses say. The model's choices in it: log entries 34, 35, 77, 108. -/
def Obligations.ParkingAndStandby : Prop :=
  (∀ (m : Master) (v : Nat) (s : State),
      s.inReset = false →
      Accepts m .pwr 0x040 s →
      exec (.pwrCtrlWrite m v) s = .next (commit s.pending (powerFollow ((((((s.put PWR.PWR_CTRL_STANDBY (bits v 31 1)).put PWR.PWR_CTRL_RETAIN_PKTBUF (bits v 30 1)).put PWR.PWR_CTRL_KEYWAY_RETAIN (bits v 29 1)).put PWR.PWR_CTRL_STBY_PIN_EN (bits v 28 1)).put PWR.PWR_CTRL_QSLEEP (bits v 16 4)).put PWR.PWR_CTRL_PARK (bits v 0 16)))))
    ∧ (∀ (level : Bool) (s : State),
      s.inReset = false →
      exec (.standbyReqChange level) s = .next (commit s.pending (powerFollow (s.putB PWR.hStbyPin level))))
    ∧ (∀ (c : Fin 16) (s : State),
      s.inReset = false →
      parkState c s = pkEnter →
      (txState c s = txDark ∨ txState c s = txShuttered) →
      exec (.parkDone c) s = .next (commit s.pending (powerFollow (streamsSync c ((framersHunt c (fecStop c (((s.put (PWR.hPark c) pkParked).setBit PWR.PWR_STAT_PARKED c.val).raise .pwr 0))).putB (OTU.hPartial c) true)))))
    ∧ (∀ (c : Fin 16) (u : State) (v : State) (s : State),
      s.inReset = false →
      parkState c s = pkLeave →
      u = ((s.put (PWR.hPark c) pkRun).clrBit PWR.PWR_STAT_PARKED c.val).raise .pwr 0 →
      v = leaveOff c (if txMfPresent c u = true then txMfReturn c (txMfn c u) u else u) →
      (u.get (PWR.hWas c) = txRampUp ∨ u.get (PWR.hWas c) = txLit ∨ u.get (PWR.hWas c) = txBurst) →
      exec (.unparkDone c) s = .next (commit s.pending (powerFollow (txOn c v))))
    ∧ (∀ (c : Fin 16) (u : State) (v : State) (s : State),
      s.inReset = false →
      parkState c s = pkLeave →
      u = ((s.put (PWR.hPark c) pkRun).clrBit PWR.PWR_STAT_PARKED c.val).raise .pwr 0 →
      v = leaveOff c (if txMfPresent c u = true then txMfReturn c (txMfn c u) u else u) →
      u.get (PWR.hWas c) ≠ txRampUp →
      u.get (PWR.hWas c) ≠ txLit →
      u.get (PWR.hWas c) ≠ txBurst →
      exec (.unparkDone c) s = .next (commit s.pending (powerFollow v)))
    ∧ (∀ (q : Fin 4) (s : State),
      s.inReset = false →
      qState q s = 1 →
      (∀ k : Fin 4, parkState (carOf q k) s = pkParked) →
      htrTotal q s = 0 →
      exec (.quadAsleep q) s = .next (commit s.pending (powerFollow (tsiSyncAll ((setQState q 2 (memSleep q (monStop (Fin.ofNat 5 q.val) (forFin 4 (fun k s => tumbSleep (Fin.ofNat 18 (carOf q k).val) s) s)))).raise .pwr 1)))))
    ∧ (∀ (q : Fin 4) (s : State),
      s.inReset = false →
      qState q s = 3 →
      exec (.quadAwake q) s = .next (commit s.pending ((fun u => powerFollow (tsiSyncAll (u.put (PWR.hStagK q) (nextLeaving q 0 u)))) (forFin 8 (fun g s => laneStart (Fin.ofNat 32 (8 * q.val + g.val)) s)
        (htrWake q (((setQState q 0 (forFin 4 (fun k s => calLoad (carOf q k) true s) (memWake q s))).raise .pwr 1).put (PWR.hStag q) 3))))))
    ∧ (∀ (q : Fin 4) (k : Nat) (s : State),
      s.inReset = false →
      qState q s = 0 →
      s.get (PWR.hStagK q) < 4 →
      4 ≤ s.get (PWR.hStag q) →
      nextLeaving q (s.get (PWR.hStagK q)) s = k →
      k < 4 →
      exec (.parkExitStagger q) s = .next (commit s.pending ((fun u => u.put (PWR.hStagK q) (nextLeaving q (k + 1) u)) ((unpark (carOf q (Fin.ofNat 4 k)) s).put (PWR.hStag q) 0))))
    ∧ (∀ (s : State),
      s.inReset = false →
      s.get PWR.PWR_STAT_DEV_STATE = 1 →
      (∀ q : Fin 4, qState q s = 2) →
      mbBusy s = false →
      (∀ c : Fin 16, s.flag (CAL.NVM_STAT_STORE_BUSY c) = false) →
      s.flag PWR.hKeepKeys = true →
      exec (.standbyReached) s = .next (commit s.pending (powerFollow ((forFin 4 clockOut ((((scrubStop 4 (monStop 4 (tumbSleep 17 (tumbSleep 16 s)))).putB PWR.hWard false).putB PWR.hSynthRun false).putB PWR.hSynthLock false)).put PWR.PWR_STAT_DEV_STATE 2))))
    ∧ (∀ (s : State),
      s.inReset = false →
      s.get PWR.PWR_STAT_DEV_STATE = 1 →
      (∀ q : Fin 4, qState q s = 2) →
      mbBusy s = false →
      (∀ c : Fin 16, s.flag (CAL.NVM_STAT_STORE_BUSY c) = false) →
      s.flag PWR.hKeepKeys = false →
      exec (.standbyReached) s = .next (commit s.pending (powerFollow ((forFin 4 clockOut ((((keywayZero false (scrubStop 4 (monStop 4 (tumbSleep 17 (tumbSleep 16 s))))).putB PWR.hWard false).putB PWR.hSynthRun false).putB PWR.hSynthLock false)).put PWR.PWR_STAT_DEV_STATE 2))))
    ∧ (∀ (ms : Nat) (s : State),
      s.inReset = false →
      s.get PWR.PWR_STAT_DEV_STATE = 3 →
      s.flag PWR.hSynthLock = true →
      (∀ q : Fin 4, qState q s = 0 ∨ quadReq q s = true) →
      exec (.standbyExitDone ms) s = .next (commit s.pending (powerFollow ((((readySets s).put PWR.STBY_DUR (min ms (2 ^ 32 - 1))).put PWR.PWR_STAT_DEV_STATE 0).raise .pwr 2))))

/-- The mailbox exchange, its commands and events. It rests on rules R629 to R633, R643, R652, R655 and R658, of which
it states what its clauses say. The model's choices in it: log entries 83, 84, 85, 86, 112, 113, 114. -/
def Obligations.MailboxExchange : Prop :=
  (∀ (s : State),
      s.inReset = false →
      s.flag MBX.MB_STAT_READY = true →
      mbBusy s = false →
      s.flag MBX.MB_STAT_RESP_VALID = false →
      exec (.submit) s = .next (commit s.pending ((((((s.putB MBX.MB_STAT_REJ false).putB MBX.MB_STAT_BUSY true).put MBX.MB_STAT_TAG (ofLe (mbCmd 4 4 s))).put MBOX.hOp (ofLe (mbCmd 0 2 s))).put MBOX.hTag (ofLe (mbCmd 4 4 s))).putB MBOX.hDone false)))
    ∧ (∀ (s : State),
      s.inReset = false →
      (s.flag MBX.MB_STAT_READY = false ∨ s.flag MBX.MB_STAT_BUSY = true ∨ s.flag MBX.MB_STAT_RESP_VALID = true) →
      exec (.submit) s = .next (commit s.pending (s.putB MBX.MB_STAT_REJ true)))
    ∧ (∀ (s : State),
      s.inReset = false →
      s.flag MBX.MB_STAT_READY = true →
      s.flag MBX.MB_STAT_BUSY = false →
      s.flag MBX.MB_STAT_RESP_VALID = false →
      s.flag MBOX.hDiscard = true →
      exec (.submit) s = .next (commit s.pending ((((((s.putB MBX.MB_STAT_REJ false).putB MBX.MB_STAT_BUSY true).put MBX.MB_STAT_TAG (ofLe (mbCmd 4 4 s))).putB MBOX.hNext true).put MBOX.hNextOp (ofLe (mbCmd 0 2 s))).put MBOX.hNextTag (ofLe (mbCmd 4 4 s)))))
    ∧ (∀ (s : State),
      s.inReset = false →
      s.flag PWR.hWard = true →
      s.flag MBOX.hDone = true →
      s.flag MBOX.hDiscard = true →
      s.flag MBOX.hNext = true →
      exec (.mbResponse) s = .next (commit s.pending (((((s.putB MBOX.hDiscard false).putB MBOX.hDone false).put MBOX.hOp (s.get MBOX.hNextOp)).put MBOX.hTag (s.get MBOX.hNextTag)).putB MBOX.hNext false)))
    ∧ (∀ (s : State),
      s.inReset = false →
      exec (.ack) s = .next (commit s.pending (s.putB MBX.MB_STAT_RESP_VALID false)))
    ∧ (∀ (s : State),
      s.inReset = false →
      mbBusy s = true →
      s.flag PWR.hWard = true →
      s.flag MBOX.hDone = true →
      s.flag MBOX.hDiscard = false →
      exec (.mbResponse) s = .next (commit s.pending ((((s.putB MBX.MB_STAT_RESP_VALID true).putB MBX.MB_STAT_BUSY false).putB MBOX.hDone false).raise .mbox 0)))
    ∧ (∀ (s : State),
      s.inReset = false →
      mbBusy s = true →
      s.flag PWR.hWard = true →
      s.flag MBOX.hDone = false →
      mbServes (s.get MBOX.hOp) s = false →
      s.flag MBOX.hDiscard = false →
      exec (.mbResponse) s = .next (commit s.pending (((((mbWrite (s.get MBOX.hOp) stBadOpcode (s.get MBOX.hTag) [] s).putB MBOX.hDone true |>.putB MBX.MB_STAT_RESP_VALID true).putB MBX.MB_STAT_BUSY false).putB MBOX.hDone false).raise .mbox 0)))
    ∧ (∀ (s : State),
      s.inReset = false →
      mbBusy s = true →
      s.flag MBOX.hDone = false →
      s.get MBOX.hOp = 1 →
      s.flag PWR.hWard = true →
      bootStage s = bsRunning →
      ofLe (mbCmd 8 4 s) = 0 →
      exec (.getInfo) s = .next (commit s.pending (mbAnswer stOk (leBytes 2 (s.get BOOT.FW_ID_PROG_ID) ++ leBytes 2 (s.get BOOT.FW_ID_VERSION)
        ++ [bootStage s, (ownerInUse s).elim 0xFF (·.val), s.get FUSE.FUSE_STAT_ARB, 1] ++ leBytes 2 1) s)))
    ∧ (∀ (s : State),
      s.inReset = false →
      mbBusy s = true →
      s.flag MBOX.hDone = false →
      s.get MBOX.hOp = 2 →
      s.flag PWR.hWard = true →
      bootStage s = bsRunning →
      ofLe (mbCmd 8 4 s) = 4 →
      exec (.getLog) s = .next (commit s.pending (mbAnswer stOk ((s.evtLog.drop (ofLe (mbPayload 4 s))).flatten) s)))
    ∧ (∀ (sigs : List Nat) (s : State),
      s.inReset = false →
      mbBusy s = true →
      s.flag MBOX.hDone = false →
      s.get MBOX.hOp = 16 →
      s.flag PWR.hWard = true →
      bootStage s = bsRunning →
      ofLe (mbCmd 8 4 s) = 12 →
      (mbPayload 12 s).getD 0 0 ≤ 17 →
      (mbPayload 12 s).getD 1 0 ≤ 1 →
      slice (mbPayload 12 s) 2 2 = [0, 0] →
      ofLe (slice (mbPayload 12 s) 4 4) + ofLe (slice (mbPayload 12 s) 8 4) ≤ 33554432 →
      tumbState (Fin.ofNat 18 ((mbPayload 12 s).getD 0 0)) (Fin.ofNat 2 ((mbPayload 12 s).getD 1 0)) s ≠ tsRunning →
      tumbState (Fin.ofNat 18 ((mbPayload 12 s).getD 0 0)) (Fin.ofNat 2 ((mbPayload 12 s).getD 1 0)) s ≠ tsWaiting →
      exec (.loadImage sigs) s = .next (commit s.pending (match verifyImage (hostImage (ofLe (slice (mbPayload 12 s) 4 4)) (ofLe (slice (mbPayload 12 s) 8 4)) (imageBegin (Fin.ofNat 18 ((mbPayload 12 s).getD 0 0)) (Fin.ofNat 2 ((mbPayload 12 s).getD 1 0)) s)) (ofLe (slice (mbPayload 12 s) 8 4)) (if (Fin.ofNat 2 ((mbPayload 12 s).getD 1 0)) = 0 then ikCore else ikUser) (some (Fin.ofNat 18 ((mbPayload 12 s).getD 0 0))) (fun j => sigs.contains j) (imageBegin (Fin.ofNat 18 ((mbPayload 12 s).getD 0 0)) (Fin.ofNat 2 ((mbPayload 12 s).getD 1 0)) s) with
        | some e => mbAnswer e.1 [] (imageBegin (Fin.ofNat 18 ((mbPayload 12 s).getD 0 0)) (Fin.ofNat 2 ((mbPayload 12 s).getD 1 0)) s)
        | none => mbAnswer stOk [] (imageLoad (Fin.ofNat 18 ((mbPayload 12 s).getD 0 0)) (Fin.ofNat 2 ((mbPayload 12 s).getD 1 0)) (hostImage (ofLe (slice (mbPayload 12 s) 4 4)) (ofLe (slice (mbPayload 12 s) 8 4)) (imageBegin (Fin.ofNat 18 ((mbPayload 12 s).getD 0 0)) (Fin.ofNat 2 ((mbPayload 12 s).getD 1 0)) s)) (imageBegin (Fin.ofNat 18 ((mbPayload 12 s).getD 0 0)) (Fin.ofNat 2 ((mbPayload 12 s).getD 1 0)) s)))))
    ∧ (∀ (sigs : List (Nat × Nat)) (ok : Bool) (s : State),
      s.inReset = false →
      mbBusy s = true →
      s.flag MBOX.hDone = false →
      s.get MBOX.hOp = 17 →
      s.flag PWR.hWard = true →
      bootStage s = bsRunning →
      ofLe (mbCmd 8 4 s) = 8 →
      ofLe (slice (mbPayload 8 s) 0 4) + ofLe (slice (mbPayload 8 s) 4 4) ≤ 33554432 →
      exec (.stageFirmware sigs ok) s = .next (commit s.pending (stageImage (imgKind (hostImage (ofLe (slice (mbPayload 8 s) 0 4)) (ofLe (slice (mbPayload 8 s) 4 4)) s))
        (hostImage (ofLe (slice (mbPayload 8 s) 0 4)) (ofLe (slice (mbPayload 8 s) 4 4)) s) sigs ok s)))
    ∧ (∀ (s : State),
      s.inReset = false →
      mbBusy s = true →
      s.flag MBOX.hDone = false →
      s.get MBOX.hOp = 32 →
      s.flag PWR.hWard = true →
      bootStage s = bsRunning →
      ofLe (mbCmd 8 4 s) = 32 →
      exec (.attest) s = .next (commit s.pending (mbAnswer stOk (reportBody (mbPayload 32 s) s ++ leBytes 17088 (s.draw (8 * 17088)).1) (s.draw (8 * 17088)).2)))
    ∧ (∀ (s : State),
      s.inReset = false →
      mbBusy s = true →
      s.flag MBOX.hDone = false →
      s.get MBOX.hOp = 33 →
      s.flag PWR.hWard = true →
      bootStage s = bsRunning →
      ofLe (mbCmd 8 4 s) = 0 →
      exec (.getCert) s = .next (commit s.pending (if s.flag BOOT.hCertOk = true then mbAnswer stOk (certBytes s) s else mbAnswer stNvmFail [] s)))
    ∧ (∀ (sig : Bool) (s : State),
      s.inReset = false →
      mbBusy s = true →
      s.flag MBOX.hDone = false →
      s.get MBOX.hOp = 48 →
      s.flag PWR.hWard = true →
      bootStage s = bsRunning →
      ofLe (mbCmd 8 4 s) = 7888 →
      slice (mbPayload 32 s) 0 6 ≠ [0x54, 0x57, 0x44, 0x54, 1, 0] →
      exec (.debugUnlock sig) s = .next (commit s.pending (newChallenge (mbAnswer stBadArg [] s))))
    ∧ (∀ (s : State),
      s.inReset = false →
      mbBusy s = true →
      s.flag MBOX.hDone = false →
      s.get MBOX.hOp = 48 →
      s.flag PWR.hWard = true →
      bootStage s = bsRunning →
      ofLe (mbCmd 8 4 s) = 7888 →
      slice (mbPayload 32 s) 0 6 = [0x54, 0x57, 0x44, 0x54, 1, 0] →
      slice (mbPayload 32 s) 24 8 = List.replicate 8 0 →
      s.flag FUSE.FUSE_STAT_DEBUG_DISABLE = false →
      slice (mbPayload 32 s) 8 8 = serialBytes s →
      slice (mbPayload 32 s) 16 8 = leBytes 4 (s.get BOOT.DBG_CHAL_LO) ++ leBytes 4 (s.get BOOT.DBG_CHAL_HI) →
      tokenSlotBad ((mbPayload 32 s).getD 7 0) s = false →
      (bit ((mbPayload 32 s).getD 6 0 % 8) 2 = false ∨ (mbPayload 32 s).getD 7 0 = 0) →
      exec (.debugUnlock true) s = .next (commit s.pending (newChallenge (mbAnswer stOk [] (unlockScopes ((mbPayload 32 s).getD 6 0 % 8) s)))))
    ∧ (∀ (code : Nat) (data : List Nat) (s : State),
      s.inReset = false →
      exec (.mbEventPost code data) s = .next (commit s.pending (postEvent code data s)))
    ∧ (∀ (n : Fin 2) (cause : Nat) (addr : Nat) (s : State),
      s.inReset = false →
      s.flag PWR.hWard = true →
      (n.val ≠ 0 ∨ mbBusy s = false) →
      exec (.wardCoreReset n cause addr) s = .next (commit s.pending (postEvent evcWardException ([n.val] ++ leBytes 4 cause ++ leBytes 8 addr) (htrOwnerLost (masterId (.ward n)) (masterFails (.ward n) s)))))

/-- The DMA channels move descriptors, bursts and completions. It rests on rules R615 to R627 and R634, of which it
states what its clauses say. The model's choices in it: log entries 94, 95, 96, 115. -/
def Obligations.DmaChannels : Prop :=
  (∀ (n : Fin 16) (v : Nat) (s : State),
      s.inReset = false →
      dmaState n s ≠ dsDisabled →
      exec (.sqTail n v) s = .next (commit s.pending ((s.put (DMA.DOORBELLS_SQ_TAIL n) (bits v 0 12)).putB (DMA.DMA_STAT_OWN_WAIT n) false)))
    ∧ (∀ (n : Fin 16) (v : Nat) (u : State) (s : State),
      s.inReset = false →
      dmaState n s ≠ dsDisabled →
      u = s.put (DMA.DOORBELLS_CQ_HEAD n) (bits v 0 12) →
      exec (.cqHead n v) s = .next (commit s.pending (if cqFull n u = true then u else u.putB (DMA.DMA_STAT_CQ_FULL n) false)))
    ∧ (∀ (n : Fin 16) (desc : List Nat) (s : State),
      s.inReset = false →
      dmaState n s = dsRun →
      slotsLeft n s = true →
      s.flag (DMA.DMA_STAT_BUSY n) = false →
      s.flag (DMA.DMA_STAT_OWN_WAIT n) = false →
      bit (ofLe ((List.range 4).map fun j => desc.getD (0 + j) 0 % 256)) 0 = false →
      exec (.dmaDescriptorFetch n desc) s = .next (commit s.pending (((s.send (.hostRead n (s.get (DMA.hRingBase n) + 32 * s.get (DMA.DMA_STAT_HEAD n)) 32 false)).putB (DMA.DMA_STAT_OWN_WAIT n) true).raise (.dma n) 3)))
    ∧ (∀ (n : Fin 16) (desc : List Nat) (bad : Bool) (s : State),
      s.inReset = false →
      dmaState n s = dsRun →
      slotsLeft n s = true →
      s.flag (DMA.DMA_STAT_BUSY n) = false →
      s.flag (DMA.DMA_STAT_OWN_WAIT n) = false →
      bit (ofLe ((List.range 4).map fun j => desc.getD (0 + j) 0 % 256)) 0 = true →
      bit (ofLe ((List.range 4).map fun j => desc.getD (0 + j) 0 % 256)) 5 = false →
      descInvalid (s.get (DMA.hKind n)) (ofLe ((List.range 4).map fun j => desc.getD (0 + j) 0 % 256)) (ofLe ((List.range 4).map fun j => desc.getD (4 + j) 0 % 256)) (ofLe ((List.range 8).map fun j => desc.getD (8 + j) 0 % 256)) (ofLe ((List.range 8).map fun j => desc.getD (16 + j) 0 % 256)) (ofLe ((List.range 4).map fun j => desc.getD (28 + j) 0 % 256)) = bad →
      ∃ t, exec (.dmaDescriptorFetch n desc) s = .next t ∧ t.flag (DMA.DMA_STAT_BUSY n) = true ∧ t.get (DMA.hCtrl n) = (ofLe ((List.range 4).map fun j => desc.getD (0 + j) 0 % 256)) ∧ t.get (DMA.hLen n) = (ofLe ((List.range 4).map fun j => desc.getD (4 + j) 0 % 256)) ∧ t.get (DMA.hHost n) = (ofLe ((List.range 8).map fun j => desc.getD (8 + j) 0 % 256)) ∧ t.get (DMA.hDev n) = (ofLe ((List.range 8).map fun j => desc.getD (16 + j) 0 % 256)) ∧ t.get (DMA.hCookie n) = (ofLe ((List.range 4).map fun j => desc.getD (24 + j) 0 % 256)) ∧ t.get (DMA.hSlot n) = s.get (DMA.DMA_STAT_HEAD n) ∧ t.get (DMA.hRead n) = 0 ∧ t.get (DMA.hMoved n) = 0 ∧ t.get (DMA.hCrc n) = 0xFFFFFFFF ∧ t.flag (DMA.hEnded n) = bad ∧ t.get (DMA.hStatus n) = (if bad = true then dcAddrErr else 0) ∧ RegistersOnly s t ∧ OnlyPages [.dma n] s t)
    ∧ (∀ (n : Fin 16) (data : List Nat) (s : State),
      s.inReset = false →
      dmaState n s = dsRun →
      s.flag (DMA.DMA_STAT_BUSY n) = true →
      s.get (DMA.hKind n) = 0 →
      s.flag (DMA.hEnded n) = false →
      s.flag (DMA.hAborting n) = false →
      s.flag (DMA.hPause n) = false →
      s.get (DMA.hRead n) < s.get (DMA.hLen n) →
      devAnswers n s = true →
      bit (s.get (DMA.hCtrl n)) 1 = false →
      0 < burstSize n (s.get (DMA.hLen n)) s →
      exec (.dmaBurst n data false) s = .next (commit s.pending ((fun u : State => u.putB (DMA.hPause n) (s.flag (DMA.hPause n) || decide (dmaHigh n u ≤ dmaFill n u)))
        ((({ s with staged := s.staged ++ [⟨n, (List.range (burstSize n (s.get (DMA.hLen n)) s)).map fun i => data.getD i 0 % 256⟩] } : State).send
          (.hostRead n (s.get (DMA.hHost n) + s.get (DMA.hRead n)) (burstSize n (s.get (DMA.hLen n)) s) (bit (s.get (DMA.hCtrl n)) 2))).put (DMA.hRead n)
          (s.get (DMA.hRead n) + burstSize n (s.get (DMA.hLen n)) s)))))
    ∧ (∀ (n : Fin 16) (data : List Nat) (g : Staged) (u : State) (s : State),
      s.inReset = false →
      dmaState n s = dsRun →
      s.flag (DMA.DMA_STAT_BUSY n) = true →
      s.staged.find? (fun g => g.n == n) = some g →
      devAnswers n s = true →
      bit (s.get (DMA.hCtrl n)) 1 = true →
      bit (s.get (DMA.hCtrl n)) 4 = false →
      u = (({ s with staged := s.staged.erase g } : State).send (.hostWrite n (s.get (DMA.hHost n) + s.get (DMA.hMoved n)) g.bytes (bit (s.get (DMA.hCtrl n)) 2))).put (DMA.hMoved n) (s.get (DMA.hMoved n) + g.bytes.length) →
      exec (.dmaBurst n data true) s = .next (commit s.pending (u.putB (DMA.hPause n) (u.flag (DMA.hPause n) && decide (dmaLow n u < dmaFill n u)))))
    ∧ (∀ (n : Fin 16) (s : State),
      s.inReset = false →
      dmaEnded n s = true →
      cqFull n s = false →
      exec (.dmaDescriptorComplete n) s = .next (commit s.pending ((fun u : State => dmaRetire n (((u.put (DMA.DMA_STAT_CQ_TAIL n) ((s.get (DMA.DMA_STAT_CQ_TAIL n) + 1) % cqSize n s)).put (DMA.hPhase n)
          (s.get (DMA.hPhase n) + ((s.get (DMA.DMA_STAT_CQ_TAIL n) + 1) % cqSize n s == 0).toNat)).incWrap (DMA.DESC_CNT n) 1))
        (((s.send (.hostWrite n (s.get (DMA.hRingBase n) + 32 * s.get (DMA.hSlot n)) (leBytes 4 (setBits (s.get (DMA.hCtrl n)) 0 1 0)) false)).send
          (.hostWrite n (s.get (DMA.hCqBase n) + 16 * s.get (DMA.DMA_STAT_CQ_TAIL n)) (dmaRecord n s) false)).raiseIf (.dma n) 0 (bit (s.get (DMA.hCtrl n)) 3)))))
    ∧ (∀ (n : Fin 16) (s : State),
      s.inReset = false →
      dmaEnded n s = true →
      cqFull n s = true →
      exec (.dmaDescriptorComplete n) s = .next (commit s.pending ((s.raiseIf (.dma n) 2 (!s.flag (DMA.DMA_STAT_CQ_FULL n))).putB (DMA.DMA_STAT_CQ_FULL n) true)))
    ∧ (∀ (n : Fin 16) (s : State),
      s.inReset = false →
      dmaState n s = dsRun →
      s.flag (DMA.DMA_STAT_BUSY n) = true →
      exec (.dmaHostError n false) s = .next (commit s.pending ((s.putB (DMA.hEnded n) true).put (DMA.hStatus n) dcHostErr)))
    ∧ (∀ (n : Fin 16) (s : State),
      s.inReset = false →
      dmaState n s = dsRun →
      dmaEnded n s = true →
      cqFull n s = false →
      exec (.dmaHostError n true) s = .next (commit s.pending (dmaRetire n ((s.putB (DMA.hEnded n) true).put (DMA.hStatus n) dcHostErr))))
    ∧ (∀ (m : Master) (n : Fin 16) (s : State),
      s.inReset = false →
      Accepts m (.dma n) 0x054 s →
      dmaState n s = dsRun →
      s.flag (DMA.DMA_STAT_BUSY n) = true →
      exec (.abort m n) s = .next (commit s.pending (s.putB (DMA.hAborting n) true)))
    ∧ (∀ (m : Master) (n : Fin 16) (s : State),
      s.inReset = false →
      Accepts m (.dma n) 0x054 s →
      dmaState n s = dsRun →
      s.flag (DMA.DMA_STAT_BUSY n) = false →
      exec (.abort m n) s = .next (commit s.pending (dmaHalt n dcAborted s)))
    ∧ (∀ (m : Master) (n : Fin 16) (s : State),
      s.inReset = false →
      Accepts m (.dma n) 0x054 s →
      dmaState n s = dsHalted →
      exec (.resume m n) s = .next (commit s.pending ((s.put (DMA.DMA_STAT_STATE n) dsRun).put (DMA.DMA_STAT_CAUSE n) 0)))

/-- The PCIe link, its resets and errors, and the I2C target. It rests on rules R58, R608 to R612 and R637, of which
it states what its clauses say. -/
def Obligations.HostLinks : Prop :=
  (∀ (kind : Fin 3) (s : State),
      s.inReset = false →
      exec (.pcieFunctionReset kind) s = .next (commit s.pending (masterFails .pcie (mbReset (msixReset (pcieCount kind (forFin 16 dmaClear s)))))))
    ∧ (∀ (speed : Fin 5) (width : Fin 4) (s : State),
      s.inReset = false →
      exec (.linkUp speed width) s = .next (commit s.pending (setLink true (speed.val + 1) (2 ^ width.val) s)))
    ∧ (∀ (s : State),
      s.inReset = false →
      exec (.aerError true) s = .next (commit s.pending ((s.incStick PCIE.ERR_CNT_UNCORR 1).raiseIf .pcie 2 (s.get PCIE.ERR_CNT_UNCORR < 65535))))
    ∧ (∀ (s : State),
      s.inReset = false →
      exec (.aerError false) s = .next (commit s.pending ((s.incStick PCIE.ERR_CNT_CORR 1).raiseIf .pcie 1 (s.get PCIE.ERR_CNT_CORR < 65535))))
    ∧ (∀ (s : State),
      s.inReset = false →
      exec (.i2cBusTimeout) s = .next (commit s.pending (masterFails .i2c s)))
    ∧ (∀ (s : State),
      s.inReset = false →
      exec (.testLogicReset) s = .next (commit s.pending (masterFails .debug s)))
    ∧ (∀ (addr : Nat) (u : State) (s : State),
      s.inReset = false →
      s.flag PCIE.hIaBusy = false →
      inWindows addr = false →
      u = ((s.put PCIE.hIaAddr addr).putB PCIE.hIaBusy true).putB PCIE.hIaErr false →
      exec (.i2cIaRead addr) s = .next (commit s.pending ((fun v : State => v.putB PCIE.hIaFail (v.get (ID.hDrop 2) != u.get (ID.hDrop 2))) (busTx true ⟨.i2c, .bar0, addr, 4, true, 0⟩ u))))
    ∧ (∀ (addr : Nat) (data : Nat) (u : State) (s : State),
      s.inReset = false →
      s.flag PCIE.hIaBusy = false →
      inWindows addr = false →
      u = ((s.put PCIE.hIaAddr addr).putB PCIE.hIaBusy true).putB PCIE.hIaErr false →
      exec (.i2cIaWrite addr data) s = .next (commit s.pending ((fun v : State => v.putB PCIE.hIaFail (v.get (ID.hDrop 2) != u.get (ID.hDrop 2))) (busTx true ⟨.i2c, .bar0, addr, 4, false, data % 2 ^ 32⟩ (u.put PCIE.hIaData data)))))
    ∧ (∀ (s : State),
      s.inReset = false →
      s.flag PCIE.hIaBusy = true →
      stalledBy .i2c s = false →
      exec (.i2cIaDone) s = .next (commit s.pending (((s.putB PCIE.hIaBusy false).putB PCIE.hIaErr (s.flag PCIE.hIaFail)).putB PCIE.hIaFail false)))

/-- Page headers and interrupts, and transactions at the register bus. It rests on rules R28, R29, R45 to R47, R51,
R52, R65 to R67, R88, R93 and R519, of which it states what its clauses say. The model's choices in it: log entries 4,
5, 6, 10, 12, 13, 15, 16, 28, 52, 97, 98, 103, 128, 129, 130. -/
def Obligations.HeaderAndBusCommands : Prop :=
  (∀ (m : Master) (p : Page) (v : Nat) (s : State),
      s.inReset = false →
      Accepts m p 0x018 s →
      exec (.intForce m p v) s = .next (commit s.pending (intForceEff p v s)))
    ∧ (∀ (m : Master) (p : Page) (on : Bool) (s : State),
      s.inReset = false →
      Accepts m p 0x008 s →
      exec (.enableWrite m p on) s = .next (commit s.pending (ctrlEff p (on.toNat + 4 * s.get (HDR.FREEZE p)) s)))
    ∧ (∀ (m : Master) (p : Page) (on : Bool) (s : State),
      s.inReset = false →
      Accepts m p 0x008 s →
      exec (.freezeWrite m p on) s = .next (commit s.pending (ctrlEff p (s.get (HDR.ENABLE p) + 4 * on.toNat) s)))
    ∧ (∀ (m : Master) (p : Page) (s : State),
      s.inReset = false →
      Accepts m p 0x008 s →
      exec (.softReset m p) s = .next (commit s.pending (ctrlEff p (ctrlNow p s + 2) s)))
    ∧ (∀ (p : Page) (s : State),
      s.inReset = false →
      s.flag (HDR.RESET_BUSY p) = true →
      exec (.softResetDone p) s = .next (commit s.pending (drainStalled (softDone p (s.putB (HDR.RESET_BUSY p) false)))))
    ∧ (∀ (m : Master) (v : Fin 64) (s : State),
      s.inReset = false →
      Accepts m .devInt (0x060 + 4 * (Fin.ofNat 2 (v.val / 32)).val) s →
      exec (.vecRearm m v) s = .next (commit s.pending (vecRearmEff (Fin.ofNat 2 (v.val / 32)) (2 ^ (v.val % 32)) s)))
    ∧ (∀ (v : Fin 64) (s : State),
      s.inReset = false →
      exec (.msixUnmask (some v)) s = .next (commit s.pending (msixFlush (s.putB (MSIX.MASKED v) false))))
    ∧ (∀ (s : State),
      s.inReset = false →
      exec (.msixUnmask none) s = .next (commit s.pending (msixFlush (s.putB MSIX.FUNC_MASKED false))))
    ∧ (∀ (reqs : List BusReq) (s : State),
      s.inReset = false →
      exec (.registerWrite reqs) s = .next (commit s.pending (busRun reqs s)))
    ∧ (∀ (m : Master) (p : Page) (v : Nat) (s : State),
      s.inReset = false →
      mayIssue m s = true →
      stalledBy m s = false →
      Page.ofAddr (p.base + 0x030) = some p →
      s.flag (HDR.COPYING p) = false →
      stopped p s = false →
      (s.held.any fun w => w.page == p) = false →
      inWindows (p.base + 0x030) = false →
      (p.base + 0x030) % 4 = 0 →
      p ≠ .mbx →
      exec (.registerWrite [⟨m, .bar0, p.base + 0x030, 4, false, v⟩]) s = .next (commit s.pending (s.put (HDR.SCRATCH p) (v % 2 ^ 32))))
    ∧ (∀ (m : Master) (addr : Nat) (v : Nat) (u : State) (s : State),
      s.inReset = false →
      mayIssue m s = true →
      stalledBy m s = false →
      readAt m addr 4 s = some (v, u) →
      exec (.snapshotRead m addr) s = .next (commit s.pending (deliver ⟨m, .bar0, addr, 4, true, 0⟩ v u)))
    ∧ (∀ (m : Master) (addr : Nat) (s : State),
      s.inReset = false →
      mayIssue m s = true →
      stalledBy m s = false →
      readAt m addr 4 s = none →
      exec (.snapshotRead m addr) s = .next (commit s.pending (stall (pageOf addr) ⟨m, .bar0, addr, 4, true, 0⟩ true s)))
    ∧ (∀ (m : Master) (s : State),
      s.inReset = false →
      mayIssue m s = true →
      stalledBy m s = false →
      exec (.txtsRead m) s = .next (commit s.pending (deliver ⟨m, .bar0, Page.base .ptp + 0x048, 4, true, 0⟩ (readWord32 .ptp 0x048 s).1 (readWord32 .ptp 0x048 s).2)))
    ∧ (∀ (m : Master) (e : TxStamp) (rest : List TxStamp) (s : State),
      s.inReset = false →
      mayIssue m s = true →
      stalledBy m s = false →
      s.txts = e :: rest →
      ∃ t, exec (.txtsRead m) s = .next t ∧ t.txts = rest ∧ t.flag PTP.TXTS0_OVF = false)
    ∧ (∀ (m : Master) (addr : Nat) (size : Nat) (data : Nat) (s : State),
      s.inReset = false →
      mayIssue m s = true →
      stalledBy m s = false →
      inWindows addr = true →
      exec (.tableWindowWrite m addr size data) s = .next (commit s.pending (countPageDrop m true s (windowWrite m addr size data s))))
    ∧ (∀ (m : Master) (addr : Nat) (size : Nat) (s : State),
      s.inReset = false →
      mayIssue m s = true →
      stalledBy m s = false →
      inWindows addr = true →
      (hitAt addr).any (fun h => aligned addr size && decide (4 ≤ size) && readStalls h s) = false →
      exec (.tableWindowRead m addr size) s = .next (commit s.pending (deliver ⟨m, .bar0, addr, size, true, 0⟩ (windowRead m addr size s).1 (windowRead m addr size s).2)))
    ∧ (∀ (p : Page) (s : State),
      s.inReset = false →
      stopped p s = false →
      exec (.heldWriteApply p) s = .next (commit s.pending (forL (s.held.filter fun w => w.page == p) (fun w s => countPageDrop w.req.m w.core s (passedWrite w.req w.core p s)) { s with held := s.held.filter fun w => w.page != p })))

/-- Hasps are acquired, renewed, released and broken. It rests on rules R54 to R63, of which it states what its
clauses say. The model's choices in it: log entries 19, 20, 118, 131. -/
def Obligations.HaspCommands : Prop :=
  (∀ (m : Master) (p : Page) (lease : Fin 65536) (s : State),
      s.inReset = false →
      mayIssue m s = true →
      stalledBy m s = false →
      s.flag (HaspId.held (.page p)) = false →
      exec (.haspAcquire m (.page p) lease) s = .next (commit s.pending ((((s.putB (HaspId.held (.page p)) true).put (HaspId.owner (.page p)) (masterId m)).put (HaspId.lease (.page p)) lease.val).putB (HaspId.broken (.page p)) false)))
    ∧ (∀ (m : Master) (p : Page) (lease : Fin 65536) (s : State),
      s.inReset = false →
      mayIssue m s = true →
      stalledBy m s = false →
      s.holds m (.page p) = true →
      exec (.haspAcquire m (.page p) lease) s = .next (commit s.pending (s.put (HaspId.lease (.page p)) lease.val)))
    ∧ (∀ (m : Master) (n : Fin 32) (lease : Fin 65536) (s : State),
      s.inReset = false →
      Accepts m .hubctl (0x100 + 4 * n.val) s →
      s.flag (HaspId.held (.res n)) = false →
      exec (.haspAcquire m (.res n) lease) s = .next (commit s.pending ((((s.putB (HaspId.held (.res n)) true).put (HaspId.owner (.res n)) (masterId m)).put (HaspId.lease (.res n)) lease.val).putB (HaspId.broken (.res n)) false)))
    ∧ (∀ (m : Master) (p : Page) (s : State),
      s.inReset = false →
      mayIssue m s = true →
      stalledBy m s = false →
      s.holds m (.page p) = true →
      exec (.haspRelease m (.page p)) s = .next (commit s.pending (eccTestEnd (.page p) (((s.putB (HaspId.held (.page p)) false).put (HaspId.owner (.page p)) 0).put (HaspId.lease (.page p)) 0))))
    ∧ (∀ (p : Page) (s : State),
      s.inReset = false →
      mayIssue .debug s = true →
      stalledBy .debug s = false →
      s.heldByOther .debug (.page p) = true →
      exec (.haspRelease .debug (.page p)) s = .next (commit s.pending (haspBreak (.page p) s)))
    ∧ (∀ (m : Master) (p : Page) (s : State),
      s.inReset = false →
      mayIssue m s = true →
      stalledBy m s = false →
      m ≠ .debug →
      s.heldByOther m (.page p) = true →
      exec (.haspRelease m (.page p)) s = .next (commit s.pending (logErr p causeHaspDrop (masterId m) (s.get (HaspId.owner (.page p))) false 0x020 s)))
    ∧ (∀ (h : HaspId) (s : State),
      s.inReset = false →
      s.flag PWR.hSynthLock = true →
      s.flag (HaspId.held h) = true →
      s.get (HaspId.lease h) = 1 →
      exec (.haspLeaseExpiry ⟨h, []⟩) s = .next (commit s.pending (haspBreak h (s.put (HaspId.lease h) 0))))
    ∧ (∀ (m : Master) (p : Page) (v : Nat) (s : State),
      s.inReset = false →
      mayIssue m s = true →
      stalledBy m s = false →
      Page.ofAddr (p.base + 0x008) = some p →
      inWindows (p.base + 0x008) = false →
      s.flag PWR.hSynthLock = true →
      s.holds m (.page p) = true →
      s.get (HDR.HASP_LEASE p) = 1 →
      exec (.haspLeaseExpiry ⟨.page p, [⟨m, .bar0, p.base + 0x008, 4, false, v⟩]⟩) s = .next (commit s.pending (logErr p causeHaspDrop (masterId m) (masterId m) false 0x008 (haspBreak (.page p) (s.put (HDR.HASP_LEASE p) 0)))))
    ∧ (∀ (m : Master) (p : Page) (on : Bool) (s : State),
      s.inReset = false →
      mayIssue m s = true →
      stalledBy m s = false →
      s.heldByOther m (.page p) = true →
      exec (.enableWrite m p on) s = .next (commit s.pending (logErr p causeHaspDrop (masterId m) (s.get (HDR.HASP_OWNER p)) false 0x008 s)))

/-- Hinges are armed, cancelled, taken and refused, and copy forward. It rests on rules R72 to R84, of which it states
what its clauses say. The model's choices in it: log entries 8, 75, 90, 91, 92. -/
def Obligations.HingeCommands : Prop :=
  (∀ (m : Master) (p : Page) (mode : Fin 8) (mfSrc : Fin 4) (mf : Nat) (s : State),
      s.inReset = false →
      Accepts m p 0x024 s →
      s.flag (HDR.PENDING p) = false →
      exec (.hingeArm m p mode mfSrc mf) s = .next (commit s.pending (hingeArm p mode.val (bits (shadowMask p (2 ^ 31 + mode.val * 2 ^ 27 + mfSrc.val * 2 ^ 22 + mf % 2 ^ 16)) 22 2) (mf % 2 ^ 16) (s.put (HDR.hShadow p) (shadowMask p (2 ^ 31 + mode.val * 2 ^ 27 + mfSrc.val * 2 ^ 22 + mf % 2 ^ 16))))))
    ∧ (∀ (m : Master) (p : Page) (mode : Fin 8) (mfSrc : Fin 4) (mf : Nat) (s : State),
      s.inReset = false →
      Accepts m p 0x024 s →
      s.flag (HDR.PENDING p) = true →
      exec (.hingeArm m p mode mfSrc mf) s = .next (commit s.pending (logErr p causeArmPending (masterId m) 0 false 0x024 s)))
    ∧ (∀ (m : Master) (p : Page) (s : State),
      s.inReset = false →
      Accepts m p 0x024 s →
      exec (.hingeCancel m p) s = .next (commit s.pending (hingeCancel p (s.put (HDR.hShadow p) (shadowMask p (2 ^ 30))))))
    ∧ (∀ (p : Page) (s : State),
      s.inReset = false →
      hingeDue p s = true →
      hingeRefusal p s = none →
      exec (.hingeTake [p] []) s = .next (commit s.pending (hingeTaken p s)))
    ∧ (∀ (p : Page) (cause : Nat) (s : State),
      s.inReset = false →
      hingeDue p s = true →
      hingeRefusal p s = some cause →
      exec (.hingeTake [p] []) s = .next (commit s.pending (hingeRefuse p cause s)))
    ∧ (∀ (p : Page) (s : State),
      s.inReset = false →
      s.flag (HDR.COPYING p) = true →
      exec (.copyForwardDone p) s = .next (commit s.pending ((fun u : State => drainStalled (forL (u.late.filter fun w => w.page == p) passedTx (forL (u.engineWrites.filter fun w => w.page == p) engineWrite
        { u with engineWrites := u.engineWrites.filter (fun w => w.page != p), late := u.late.filter (fun w => w.page != p) }))) (copyDone p s))))

/-- A step takes the command at the front of the queue and executes it on the rest. The model's choices in it: log
entry 123. -/
def Obligations.StepRunsFront : Prop :=
  ∀ (c : Instr) (rest : List Instr) (s : State), s.pending = c :: rest → step s = exec c { s with pending := rest }

/-- With no command waiting, every carrier sends its next frame (the model's choice, log entry 57). The model's
choices in it: log entry 57. -/
def Obligations.EmptyQueueLetsTimePass : Prop :=
  (∀ s : State, s.pending = [] → s.inReset = false → step s = .next (commit [] (forFin 16 txFrame s)))
    ∧ ∀ s : State, s.pending = [] → s.inReset = true → step s = .next s

/-- Every command answers a next state and leaves the commands that wait. -/
def Obligations.EveryCommandAnswers : Prop :=
  ∀ (c : Instr) (s : State), ∃ t, exec c s = .next t ∧ t.pending = s.pending

/-- In reset only the pins and rails act. It rests on rule R668, of which it states what its clauses say. -/
def Obligations.ResetHoldsTheEngine : Prop :=
  ∀ (c : Instr) (s : State), s.inReset = true → c ≠ .pwrOkRise → (∀ rails, c ≠ .pwrOkFall rails) → c ≠ .resetNAssert →
    (∀ strap, c ≠ .resetRelease strap) → exec c s = .next s

/-- What the end of a reset leaves. It rests on rules R45, R54, R64, R527 and R673, of which it states what its
clauses say. The model's choices in it: log entries 104, 107, 122, 124. -/
def Obligations.ResetState : Prop :=
  (∀ f : Fld, State.reset.get f = f.reset)
    ∧ (∀ p : Page, State.reset.flag (HDR.ENABLE p) = decide (p ∈ [.devId, .hubctl, .devInt, .pwr, .pcie, .boot, .mbox, .fuse]))
    ∧ (∀ h : HaspId, State.reset.flag (HaspId.held h) = false ∧ State.reset.flag (HaspId.broken h) = false)
    ∧ (∀ q : Fin 4, qState q State.reset = 0) ∧ State.reset.get PWR.PWR_STAT_DEV_STATE = 0
    ∧ (∀ l : Loc, State.reset.rawData l = 0 ∧ State.reset.rawCheck l = 0)
    ∧ State.reset.pending = [] ∧ State.reset.held = [] ∧ State.reset.stalled = [] ∧ State.reset.late = [] ∧ State.reset.staged = []
    ∧ State.reset.posted = [] ∧ State.reset.inReset = false

/-- The interrupt chain agrees with its pages at reset. It rests on rules R90 to R94, of which it states what its
clauses say. -/
def Obligations.ChainSettledAtReset : Prop := ChainSettled State.reset

/-- Every step keeps the interrupt chain in agreement with its pages. It rests on rules R90 to R94, of which it states
what its clauses say. -/
def Obligations.ChainSettledKept : Prop :=
  ∀ s t : State, ChainSettled s → step s = .next t → ChainSettled t

/-- While a hasp is held, other masters' writes are dropped and logged, but for five registers. Formalises R56. The
model's choices in it: log entries 9, 133. -/
def Obligations.HaspsGuardTheirPage : Prop :=
  (∀ (m : Master) (p : Page) (off d : Nat) (s : State), s.inReset = false → mayIssue m s = true → stalledBy m s = false → s.heldByOther m (.page p) = true →
      Page.ofAddr (p.base + off) = some p → inWindows (p.base + off) = false → (p.base + off) % 4 = 0 →
      (off = 0x008 ∨ off = 0x024 ∨ off = 0x034 ∨ 0x040 ≤ off) →
      exec (.registerWrite [⟨m, .bar0, p.base + off, 4, false, d⟩]) s = .next (commit s.pending
        (countPageDrop m true s (logErr p causeHaspDrop (masterId m) (s.get (HDR.HASP_OWNER p)) false off s))))
    ∧ (∀ (m : Master) (h : Hit) (addr size d : Nat) (s : State), s.inReset = false → mayIssue m s = true → stalledBy m s = false → s.heldByOther m (.page h.page) = true →
      inWindows addr = true → hitAt addr = some h → (size = 8 ∧ addr % 8 = 0 ∨ size = 4 ∧ addr % 4 = 0) →
      exec (.tableWindowWrite m addr size d) s = .next (commit s.pending
        (countPageDrop m true s (logWin h.page causeHaspDrop (masterId m) (s.get (HDR.HASP_OWNER h.page)) addr s))))
    ∧ ∀ (m : Master) (p : Page) (off d : Nat) (s : State), s.inReset = false → mayIssue m s = true → stalledBy m s = false → s.heldByOther m (.page p) = true →
      Page.ofAddr (p.base + off) = some p → inWindows (p.base + off) = false → (p.base + off) % 4 = 0 →
      (off = 0x010 ∨ off = 0x014 ∨ off = 0x018 ∨ off = 0x02C ∨ off = 0x030) → stopped p s = false →
      (s.held.any fun w => w.page == p) = false →
      exec (.registerWrite [⟨m, .bar0, p.base + off, 4, false, d⟩]) s = .next (commit s.pending
        (countPageDrop m true s (headerEff m p off (d % 2 ^ 32) s)))

/-- A RELEASE by the owner, by another master, by debug, and of a free hasp. Formalises R57. The model's choices in
it: log entries 20, 118. -/
def Obligations.HaspReleaseRule : Prop :=
  (∀ (m : Master) (h : HaspId) (s : State), s.inReset = false → mayIssue m s = true → stalledBy m s = false → (∀ n, h = .res n → Accepts m .hubctl (HaspId.offset h) s) → s.holds m h = true →
      ∃ t, exec (.haspRelease m h) s = .next t ∧ t.flag (HaspId.held h) = false ∧ t.get (HaspId.owner h) = 0)
    ∧ (∀ (m : Master) (h : HaspId) (s : State), s.inReset = false → mayIssue m s = true → stalledBy m s = false → (∀ n, h = .res n → Accepts m .hubctl (HaspId.offset h) s) → s.heldByOther m h = true → m ≠ .debug →
      exec (.haspRelease m h) s = .next (commit s.pending
        (logErr (HaspId.home h) causeHaspDrop (masterId m) (s.get (HaspId.owner h)) false (HaspId.offset h) s)))
    ∧ (∀ (m : Master) (h : HaspId) (s : State), s.inReset = false → mayIssue m s = true → stalledBy m s = false → (∀ n, h = .res n → Accepts m .hubctl (HaspId.offset h) s) → s.heldByOther m h = true → m = .debug →
      (∀ n, HaspId.home h ≠ .timingX n) →
      ∃ t, exec (.haspRelease m h) s = .next t ∧ t.flag (HaspId.held h) = false ∧ t.flag (HaspId.broken h) = true
        ∧ t.get (HaspId.owner h) = s.get (HaspId.owner h) ∧ (t.get (HDR.INT_RAW (HaspId.home h))).testBit 28 = true)
    ∧ (∀ (m : Master) (h : HaspId) (s : State), s.inReset = false → mayIssue m s = true → stalledBy m s = false → (∀ n, h = .res n → Accepts m .hubctl (HaspId.offset h) s) → s.flag (HaspId.held h) = false →
      exec (.haspRelease m h) s = .next (commit s.pending s))
    ∧ ∀ (m : Master) (h : HaspId) (lease : Fin 65536) (s : State), s.inReset = false → mayIssue m s = true → stalledBy m s = false → (∀ n, h = .res n → Accepts m .hubctl (HaspId.offset h) s) → s.flag (HaspId.held h) = false →
      ∃ t, exec (.haspAcquire m h lease) s = .next t ∧ t.flag (HaspId.broken h) = false ∧ t.get (HaspId.owner h) = masterId m

/-- RESET_N clears every hasp. Formalises R64. -/
def Obligations.ResetClearsHasps : Prop :=
  ∀ s : State, ∃ t, exec .resetNAssert s = .next t ∧ ∀ h : HaspId, t.get (HaspId.held h) = 0 ∧ t.get (HaspId.broken h) = 0
    ∧ t.get (HaspId.owner h) = 0 ∧ t.get (HaspId.lease h) = 0

/-- A correctable error stays in memory until the scrubber passes its word. Formalises R530. -/
def Obligations.CorrectableErrorsStay : Prop :=
  (∀ (l : Loc) (s : State), (s.readWord l false).2.2.mem = s.mem)
    ∧ (∀ (m : Master) (addr size : Nat) (s : State), ∃ t, exec (.tableWindowRead m addr size) s = .next t ∧ t.mem = s.mem)
    ∧ ∀ (d : Fin 5) (r : Fin 16) (v syn : Nat) (s : State), s.inReset = false → scrubRuns d s = true →
      s.flag (HDR.FREEZE (memPage d)) = false → scrubBehind d r s = true →
      eccDecode (s.rawData (regionLoc d r (s.get (scrubFlds d r).pos))) (s.rawCheck (regionLoc d r (s.get (scrubFlds d r).pos))) = (.ce, v, syn) →
      ∃ t, exec (.scrubRead d r) s = .next t ∧ t.rawData (regionLoc d r (s.get (scrubFlds d r).pos)) = v
        ∧ t.rawCheck (regionLoc d r (s.get (scrubFlds d r).pos)) = eccCheck v

/-- A Tumbler fetches the half of a program word that its PC names. Formalises R563. -/
def Obligations.FetchReadsHalves : Prop :=
  ∀ (t : Fin 18) (x : Fin 2) (w : Nat) (s : State), tumbPc t x s / 2 = w →
    (tumbPc t x s = 2 * w → (tumbFetch t x s).2.1 = (s.readWord (tumbProg t w) false).2.1 % 2 ^ 32)
      ∧ (tumbPc t x s = 2 * w + 1 → (tumbFetch t x s).2.1 = (s.readWord (tumbProg t w) false).2.1 / 2 ^ 32 % 2 ^ 32)
      ∧ bits (tumbFetch t x s).2.1 32 4 = 0

/-- The memory code corrects every single error and detects every double one. It rests on rules R528 and R529, of
which it states what its clauses say. -/
def Obligations.SecdedCode : Prop :=
  ∀ d : Nat, d < 2 ^ 64 →
    eccDecode d (eccCheck d) = (.ok, d, 0)
      ∧ (∀ i : Fin 64, eccDecode (d ^^^ 2 ^ i.val) (eccCheck d) = (.ce, d, eccColumns.getD i.val 0))
      ∧ (∀ j : Fin 8, eccDecode d (eccCheck d ^^^ 2 ^ j.val) = (.ce, d, 2 ^ j.val))
      ∧ (∀ i k : Fin 64, i ≠ k → (eccDecode (d ^^^ 2 ^ i.val ^^^ 2 ^ k.val) (eccCheck d)).1 = .ue)
      ∧ (∀ (i : Fin 64) (j : Fin 8), (eccDecode (d ^^^ 2 ^ i.val) (eccCheck d ^^^ 2 ^ j.val)).1 = .ue)
      ∧ ∀ j k : Fin 8, j ≠ k → (eccDecode d (eccCheck d ^^^ 2 ^ j.val ^^^ 2 ^ k.val)).1 = .ue

/-- A stored word reads back, and nothing else of memory changes. It rests on rules R86 and R529, of which it states
what its clauses say. The model's choices in it: log entry 122. -/
def Obligations.MemoryWords : Prop :=
  ∀ (l : Loc) (d : Nat) (s : State),
    (s.store l d).rawData l = d % 2 ^ 64 ∧ (s.store l d).rawCheck l = eccCheck (d % 2 ^ 64)
      ∧ (s.store l d).readWord l false = (.ok, d % 2 ^ 64, s.store l d)
      ∧ (∀ k : Nat, (k < l.key ∨ l.key + 9 ≤ k) → (s.store l d).byte k = s.byte k)
      ∧ (Memory.wf s.mem = true → Memory.wf (s.store l d).mem = true)
      ∧ s.store l d = { s with mem := (s.store l d).mem }

/-- A field that is put reads back cut to its width, and no other field changes. It rests on rules R52 and R567, of
which it states what its clauses say. -/
def Obligations.RegisterFields : Prop :=
  (∀ (f : Fld) (v : Nat) (s : State), (s.put f v).get f = v % 2 ^ f.width)
    ∧ (∀ (f g : Fld) (v : Nat) (s : State), g.key ≠ f.key → (s.put f v).get g = s.get g)
    ∧ (∀ (f : Fld) (v : Nat) (s : State), s.put f v = { s with cells := (s.put f v).cells })
    ∧ ∀ (t : Fin 18) (x : Fin 2) (v : Nat) (s : State), tGet t x 0 s = 0 ∧ tPut t x 0 v s = s

/-- What a command's effect does in the interrupt chain, and nothing else. It rests on rules R93 and R94, of which it
states what its clauses say. -/
def Obligations.InterruptChain : Prop :=
  ∀ (q : List Instr) (s : State),
    (commit q s).vecIn = vecInputs s
      ∧ ((commit q s).alarm = true ↔ summary0 s &&& s.get INT.ALARM_EN0 ≠ 0 ∨ summary1 s &&& s.get INT.ALARM_EN1 ≠ 0)
      ∧ (commit q s).sent = s.sent ++ ((List.finRange 64).filter fun v => (vecInputs s).testBit v.val && !s.vecIn.testBit v.val
          && !s.flag (MSIX.MASKED v) && !s.flag MSIX.FUNC_MASKED).map Output.msix
      ∧ (∀ v : Fin 64, (commit q s).vecPend.testBit v.val = (s.vecPend.testBit v.val || ((vecInputs s).testBit v.val
          && !s.vecIn.testBit v.val && (s.flag (MSIX.MASKED v) || s.flag MSIX.FUNC_MASKED))))
      ∧ commit q s = { s with
          vecIn := (commit q s).vecIn, vecPend := (commit q s).vecPend, sumPrev := sumOutputs s, sumPend := (commit q s).sumPend
          alarm := (commit q s).alarm, sent := (commit q s).sent, pending := q }

/-- While RESET_BUSY is 1, writes to block registers and table windows are dropped and logged. Formalises R47. The
model's choices in it: log entry 16. -/
def Obligations.ResetBusyClosesThePage : Prop :=
  (∀ (m : Master) (p : Page) (off d : Nat) (s : State), s.inReset = false → mayIssue m s = true → stalledBy m s = false → s.heldByOther m (.page p) = false →
      s.flag (HDR.RESET_BUSY p) = true → stopped p s = false → (s.held.any fun w => w.page == p) = false →
      Page.ofAddr (p.base + off) = some p → inWindows (p.base + off) = false → (p.base + off) % 4 = 0 → 0x040 ≤ off →
      ((resourceOf p off).elim false fun n => s.heldByOther m (.res n)) = false → (isRwh p off && s.flag (HDR.COPYING p)) = false →
      exec (.registerWrite [⟨m, .bar0, p.base + off, 4, false, d⟩]) s = .next (commit s.pending
        (countPageDrop m true s (logErr p causeResetBusy (masterId m) 0 false off s))))
    ∧ ∀ (m : Master) (h : Hit) (addr size d : Nat) (s : State), s.inReset = false → mayIssue m s = true → stalledBy m s = false → s.heldByOther m (.page h.page) = false →
      s.flag (HDR.RESET_BUSY h.page) = true → inWindows addr = true → hitAt addr = some h →
      (size = 8 ∧ addr % 8 = 0 ∨ size = 4 ∧ addr % 4 = 0) →
      exec (.tableWindowWrite m addr size d) s = .next (commit s.pending
        (countPageDrop m true s (logWin h.page causeResetBusy (masterId m) 0 addr s)))

/-- INT_FORCE sets the causes written and reads 0. Formalises R51. -/
def Obligations.ForcedInterrupts : Prop :=
  (∀ (m : Master) (p : Page) (v : Nat) (s : State), s.inReset = false → Accepts m p 0x018 s → (∀ n, p ≠ .timingX n) →
      ∃ t, exec (.intForce m p v) s = .next t
        ∧ (∀ b : Fin 32, (t.get (HDR.INT_RAW p)).testBit b.val = ((s.get (HDR.INT_RAW p)).testBit b.val
            || (v.testBit b.val && (decide (b.val < blockCauses p) || decide (28 ≤ b.val)))))
        ∧ ∀ f : Fld, f.key ≠ (HDR.INT_RAW p).key → t.get f = s.get f)
    ∧ ∀ (p : Page) (s : State), (readWord32 p 0x018 s).1 = 0

/-- Whitening, scrambling and fill are undone at the far end. It rests on rules R145, R149 and R310, of which it
states what its clauses say. -/
def Obligations.LineCodesUndo : Prop :=
  (∀ (st : Nat) (l : List Bool), whiten st (whiten st l) = l)
    ∧ (∀ l : List Nat, scramble (scramble l) = l ∧ (scramble l).take 6 = l.take 6)
    ∧ ∀ (cap : Nat) (l : List Bool), dropFill l.length (addFill cap l) = l ∧ (l.length ≤ cap → (addFill cap l).length = cap)

/-- The frames of a multiframe tile it, and every slot bit has one place. It rests on rules R303 to R305, R341 and
R342, of which it states what its clauses say. -/
def Obligations.SlotsOfAMultiframe : Prop :=
  (∀ S f : Nat, frameStart S 0 = 0 ∧ frameStart S 256 = mfBits S ∧ frameStart S f + frameBits S f = frameStart S (f + 1))
    ∧ (∀ S H : Nat, 2048 * H ≤ 5115 * S →
      ((List.range 256).map fun f => slotBits S H f).sum = 1499625 * S
        ∧ ∀ f : Nat, f < 255 → areaStart S H f + slotBits S H f = areaStart S H (f + 1))
    ∧ (∀ M i j v w : Nat, i < M → j < M → isSegBit v = isSegBit w → tribPlace M i v = tribPlace M j w → i = j ∧ v = w)
    ∧ ∀ M n : Nat, 0 < M → ∃ i v : Nat, i < M ∧ isSegBit v = false ∧ tribPlace M i v = n
end

