-- ==== Sys2Proof/Laws/State.lean ====
section
/-! SUPPORT. The fields of the state under its named updates: what an update of one kind of state leaves alone, and
what a register field reads after it. -/
namespace Sys2Proof.Machine

/-! ## State.put -/

@[simp] theorem State.put_inReset (s : State) (f : Fld) (v : Nat) : (s.put f v).inReset = s.inReset := rfl
@[simp] theorem State.put_mem (s : State) (f : Fld) (v : Nat) : (s.put f v).mem = s.mem := rfl
@[simp] theorem State.put_time (s : State) (f : Fld) (v : Nat) : (s.put f v).time = s.time := rfl
@[simp] theorem State.put_maxSec (s : State) (f : Fld) (v : Nat) : (s.put f v).maxSec = s.maxSec := rfl
@[simp] theorem State.put_tickCount (s : State) (f : Fld) (v : Nat) : (s.put f v).tickCount = s.tickCount := rfl
@[simp] theorem State.put_freeCtr (s : State) (f : Fld) (v : Nat) : (s.put f v).freeCtr = s.freeCtr := rfl
@[simp] theorem State.put_held (s : State) (f : Fld) (v : Nat) : (s.put f v).held = s.held := rfl
@[simp] theorem State.put_stalled (s : State) (f : Fld) (v : Nat) : (s.put f v).stalled = s.stalled := rfl
@[simp] theorem State.put_late (s : State) (f : Fld) (v : Nat) : (s.put f v).late = s.late := rfl
@[simp] theorem State.put_engineWrites (s : State) (f : Fld) (v : Nat) : (s.put f v).engineWrites = s.engineWrites := rfl
@[simp] theorem State.put_storing (s : State) (f : Fld) (v : Nat) : (s.put f v).storing = s.storing := rfl
@[simp] theorem State.put_calPayload (s : State) (f : Fld) (v : Nat) : (s.put f v).calPayload = s.calPayload := rfl
@[simp] theorem State.put_grants (s : State) (f : Fld) (v : Nat) : (s.put f v).grants = s.grants := rfl
@[simp] theorem State.put_leafCmds (s : State) (f : Fld) (v : Nat) : (s.put f v).leafCmds = s.leafCmds := rfl
@[simp] theorem State.put_leafGrants (s : State) (f : Fld) (v : Nat) : (s.put f v).leafGrants = s.leafGrants := rfl
@[simp] theorem State.put_outer (s : State) (f : Fld) (v : Nat) : (s.put f v).outer = s.outer := rfl
@[simp] theorem State.put_txPay (s : State) (f : Fld) (v : Nat) : (s.put f v).txPay = s.txPay := rfl
@[simp] theorem State.put_ldm (s : State) (f : Fld) (v : Nat) : (s.put f v).ldm = s.ldm := rfl
@[simp] theorem State.put_bips (s : State) (f : Fld) (v : Nat) : (s.put f v).bips = s.bips := rfl
@[simp] theorem State.put_laneEqs (s : State) (f : Fld) (v : Nat) : (s.put f v).laneEqs = s.laneEqs := rfl
@[simp] theorem State.put_paths (s : State) (f : Fld) (v : Nat) : (s.put f v).paths = s.paths := rfl
@[simp] theorem State.put_queued (s : State) (f : Fld) (v : Nat) : (s.put f v).queued = s.queued := rfl
@[simp] theorem State.put_flights (s : State) (f : Fld) (v : Nat) : (s.put f v).flights = s.flights := rfl
@[simp] theorem State.put_egress (s : State) (f : Fld) (v : Nat) : (s.put f v).egress = s.egress := rfl
@[simp] theorem State.put_order (s : State) (f : Fld) (v : Nat) : (s.put f v).order = s.order := rfl
@[simp] theorem State.put_segments (s : State) (f : Fld) (v : Nat) : (s.put f v).segments = s.segments := rfl
@[simp] theorem State.put_segTags (s : State) (f : Fld) (v : Nat) : (s.put f v).segTags = s.segTags := rfl
@[simp] theorem State.put_hist (s : State) (f : Fld) (v : Nat) : (s.put f v).hist = s.hist := rfl
@[simp] theorem State.put_evtLog (s : State) (f : Fld) (v : Nat) : (s.put f v).evtLog = s.evtLog := rfl
@[simp] theorem State.put_posted (s : State) (f : Fld) (v : Nat) : (s.put f v).posted = s.posted := rfl
@[simp] theorem State.put_staged (s : State) (f : Fld) (v : Nat) : (s.put f v).staged = s.staged := rfl
@[simp] theorem State.put_ptpRx (s : State) (f : Fld) (v : Nat) : (s.put f v).ptpRx = s.ptpRx := rfl
@[simp] theorem State.put_ptpTx (s : State) (f : Fld) (v : Nat) : (s.put f v).ptpTx = s.ptpTx := rfl
@[simp] theorem State.put_ptpPart (s : State) (f : Fld) (v : Nat) : (s.put f v).ptpPart = s.ptpPart := rfl
@[simp] theorem State.put_txts (s : State) (f : Fld) (v : Nat) : (s.put f v).txts = s.txts := rfl
@[simp] theorem State.put_sumPrev (s : State) (f : Fld) (v : Nat) : (s.put f v).sumPrev = s.sumPrev := rfl
@[simp] theorem State.put_sumPend (s : State) (f : Fld) (v : Nat) : (s.put f v).sumPend = s.sumPend := rfl
@[simp] theorem State.put_snap (s : State) (f : Fld) (v : Nat) : (s.put f v).snap = s.snap := rfl
@[simp] theorem State.put_vecIn (s : State) (f : Fld) (v : Nat) : (s.put f v).vecIn = s.vecIn := rfl
@[simp] theorem State.put_vecPend (s : State) (f : Fld) (v : Nat) : (s.put f v).vecPend = s.vecPend := rfl
@[simp] theorem State.put_alarm (s : State) (f : Fld) (v : Nat) : (s.put f v).alarm = s.alarm := rfl
@[simp] theorem State.put_sent (s : State) (f : Fld) (v : Nat) : (s.put f v).sent = s.sent := rfl
@[simp] theorem State.put_pending (s : State) (f : Fld) (v : Nat) : (s.put f v).pending = s.pending := rfl

/-! ## State.putB -/

@[simp] theorem State.putB_inReset (s : State) (f : Fld) (b : Bool) : (s.putB f b).inReset = s.inReset := rfl
@[simp] theorem State.putB_mem (s : State) (f : Fld) (b : Bool) : (s.putB f b).mem = s.mem := rfl
@[simp] theorem State.putB_time (s : State) (f : Fld) (b : Bool) : (s.putB f b).time = s.time := rfl
@[simp] theorem State.putB_maxSec (s : State) (f : Fld) (b : Bool) : (s.putB f b).maxSec = s.maxSec := rfl
@[simp] theorem State.putB_tickCount (s : State) (f : Fld) (b : Bool) : (s.putB f b).tickCount = s.tickCount := rfl
@[simp] theorem State.putB_freeCtr (s : State) (f : Fld) (b : Bool) : (s.putB f b).freeCtr = s.freeCtr := rfl
@[simp] theorem State.putB_held (s : State) (f : Fld) (b : Bool) : (s.putB f b).held = s.held := rfl
@[simp] theorem State.putB_stalled (s : State) (f : Fld) (b : Bool) : (s.putB f b).stalled = s.stalled := rfl
@[simp] theorem State.putB_late (s : State) (f : Fld) (b : Bool) : (s.putB f b).late = s.late := rfl
@[simp] theorem State.putB_engineWrites (s : State) (f : Fld) (b : Bool) : (s.putB f b).engineWrites = s.engineWrites := rfl
@[simp] theorem State.putB_storing (s : State) (f : Fld) (b : Bool) : (s.putB f b).storing = s.storing := rfl
@[simp] theorem State.putB_calPayload (s : State) (f : Fld) (b : Bool) : (s.putB f b).calPayload = s.calPayload := rfl
@[simp] theorem State.putB_grants (s : State) (f : Fld) (b : Bool) : (s.putB f b).grants = s.grants := rfl
@[simp] theorem State.putB_leafCmds (s : State) (f : Fld) (b : Bool) : (s.putB f b).leafCmds = s.leafCmds := rfl
@[simp] theorem State.putB_leafGrants (s : State) (f : Fld) (b : Bool) : (s.putB f b).leafGrants = s.leafGrants := rfl
@[simp] theorem State.putB_outer (s : State) (f : Fld) (b : Bool) : (s.putB f b).outer = s.outer := rfl
@[simp] theorem State.putB_txPay (s : State) (f : Fld) (b : Bool) : (s.putB f b).txPay = s.txPay := rfl
@[simp] theorem State.putB_ldm (s : State) (f : Fld) (b : Bool) : (s.putB f b).ldm = s.ldm := rfl
@[simp] theorem State.putB_bips (s : State) (f : Fld) (b : Bool) : (s.putB f b).bips = s.bips := rfl
@[simp] theorem State.putB_laneEqs (s : State) (f : Fld) (b : Bool) : (s.putB f b).laneEqs = s.laneEqs := rfl
@[simp] theorem State.putB_paths (s : State) (f : Fld) (b : Bool) : (s.putB f b).paths = s.paths := rfl
@[simp] theorem State.putB_queued (s : State) (f : Fld) (b : Bool) : (s.putB f b).queued = s.queued := rfl
@[simp] theorem State.putB_flights (s : State) (f : Fld) (b : Bool) : (s.putB f b).flights = s.flights := rfl
@[simp] theorem State.putB_egress (s : State) (f : Fld) (b : Bool) : (s.putB f b).egress = s.egress := rfl
@[simp] theorem State.putB_order (s : State) (f : Fld) (b : Bool) : (s.putB f b).order = s.order := rfl
@[simp] theorem State.putB_segments (s : State) (f : Fld) (b : Bool) : (s.putB f b).segments = s.segments := rfl
@[simp] theorem State.putB_segTags (s : State) (f : Fld) (b : Bool) : (s.putB f b).segTags = s.segTags := rfl
@[simp] theorem State.putB_hist (s : State) (f : Fld) (b : Bool) : (s.putB f b).hist = s.hist := rfl
@[simp] theorem State.putB_evtLog (s : State) (f : Fld) (b : Bool) : (s.putB f b).evtLog = s.evtLog := rfl
@[simp] theorem State.putB_posted (s : State) (f : Fld) (b : Bool) : (s.putB f b).posted = s.posted := rfl
@[simp] theorem State.putB_staged (s : State) (f : Fld) (b : Bool) : (s.putB f b).staged = s.staged := rfl
@[simp] theorem State.putB_ptpRx (s : State) (f : Fld) (b : Bool) : (s.putB f b).ptpRx = s.ptpRx := rfl
@[simp] theorem State.putB_ptpTx (s : State) (f : Fld) (b : Bool) : (s.putB f b).ptpTx = s.ptpTx := rfl
@[simp] theorem State.putB_ptpPart (s : State) (f : Fld) (b : Bool) : (s.putB f b).ptpPart = s.ptpPart := rfl
@[simp] theorem State.putB_txts (s : State) (f : Fld) (b : Bool) : (s.putB f b).txts = s.txts := rfl
@[simp] theorem State.putB_sumPrev (s : State) (f : Fld) (b : Bool) : (s.putB f b).sumPrev = s.sumPrev := rfl
@[simp] theorem State.putB_sumPend (s : State) (f : Fld) (b : Bool) : (s.putB f b).sumPend = s.sumPend := rfl
@[simp] theorem State.putB_snap (s : State) (f : Fld) (b : Bool) : (s.putB f b).snap = s.snap := rfl
@[simp] theorem State.putB_vecIn (s : State) (f : Fld) (b : Bool) : (s.putB f b).vecIn = s.vecIn := rfl
@[simp] theorem State.putB_vecPend (s : State) (f : Fld) (b : Bool) : (s.putB f b).vecPend = s.vecPend := rfl
@[simp] theorem State.putB_alarm (s : State) (f : Fld) (b : Bool) : (s.putB f b).alarm = s.alarm := rfl
@[simp] theorem State.putB_sent (s : State) (f : Fld) (b : Bool) : (s.putB f b).sent = s.sent := rfl
@[simp] theorem State.putB_pending (s : State) (f : Fld) (b : Bool) : (s.putB f b).pending = s.pending := rfl

/-! ## State.clear -/

@[simp] theorem State.clear_inReset (s : State) (f : Fld) : (s.clear f).inReset = s.inReset := rfl
@[simp] theorem State.clear_mem (s : State) (f : Fld) : (s.clear f).mem = s.mem := rfl
@[simp] theorem State.clear_time (s : State) (f : Fld) : (s.clear f).time = s.time := rfl
@[simp] theorem State.clear_maxSec (s : State) (f : Fld) : (s.clear f).maxSec = s.maxSec := rfl
@[simp] theorem State.clear_tickCount (s : State) (f : Fld) : (s.clear f).tickCount = s.tickCount := rfl
@[simp] theorem State.clear_freeCtr (s : State) (f : Fld) : (s.clear f).freeCtr = s.freeCtr := rfl
@[simp] theorem State.clear_held (s : State) (f : Fld) : (s.clear f).held = s.held := rfl
@[simp] theorem State.clear_stalled (s : State) (f : Fld) : (s.clear f).stalled = s.stalled := rfl
@[simp] theorem State.clear_late (s : State) (f : Fld) : (s.clear f).late = s.late := rfl
@[simp] theorem State.clear_engineWrites (s : State) (f : Fld) : (s.clear f).engineWrites = s.engineWrites := rfl
@[simp] theorem State.clear_storing (s : State) (f : Fld) : (s.clear f).storing = s.storing := rfl
@[simp] theorem State.clear_calPayload (s : State) (f : Fld) : (s.clear f).calPayload = s.calPayload := rfl
@[simp] theorem State.clear_grants (s : State) (f : Fld) : (s.clear f).grants = s.grants := rfl
@[simp] theorem State.clear_leafCmds (s : State) (f : Fld) : (s.clear f).leafCmds = s.leafCmds := rfl
@[simp] theorem State.clear_leafGrants (s : State) (f : Fld) : (s.clear f).leafGrants = s.leafGrants := rfl
@[simp] theorem State.clear_outer (s : State) (f : Fld) : (s.clear f).outer = s.outer := rfl
@[simp] theorem State.clear_txPay (s : State) (f : Fld) : (s.clear f).txPay = s.txPay := rfl
@[simp] theorem State.clear_ldm (s : State) (f : Fld) : (s.clear f).ldm = s.ldm := rfl
@[simp] theorem State.clear_bips (s : State) (f : Fld) : (s.clear f).bips = s.bips := rfl
@[simp] theorem State.clear_laneEqs (s : State) (f : Fld) : (s.clear f).laneEqs = s.laneEqs := rfl
@[simp] theorem State.clear_paths (s : State) (f : Fld) : (s.clear f).paths = s.paths := rfl
@[simp] theorem State.clear_queued (s : State) (f : Fld) : (s.clear f).queued = s.queued := rfl
@[simp] theorem State.clear_flights (s : State) (f : Fld) : (s.clear f).flights = s.flights := rfl
@[simp] theorem State.clear_egress (s : State) (f : Fld) : (s.clear f).egress = s.egress := rfl
@[simp] theorem State.clear_order (s : State) (f : Fld) : (s.clear f).order = s.order := rfl
@[simp] theorem State.clear_segments (s : State) (f : Fld) : (s.clear f).segments = s.segments := rfl
@[simp] theorem State.clear_segTags (s : State) (f : Fld) : (s.clear f).segTags = s.segTags := rfl
@[simp] theorem State.clear_hist (s : State) (f : Fld) : (s.clear f).hist = s.hist := rfl
@[simp] theorem State.clear_evtLog (s : State) (f : Fld) : (s.clear f).evtLog = s.evtLog := rfl
@[simp] theorem State.clear_posted (s : State) (f : Fld) : (s.clear f).posted = s.posted := rfl
@[simp] theorem State.clear_staged (s : State) (f : Fld) : (s.clear f).staged = s.staged := rfl
@[simp] theorem State.clear_ptpRx (s : State) (f : Fld) : (s.clear f).ptpRx = s.ptpRx := rfl
@[simp] theorem State.clear_ptpTx (s : State) (f : Fld) : (s.clear f).ptpTx = s.ptpTx := rfl
@[simp] theorem State.clear_ptpPart (s : State) (f : Fld) : (s.clear f).ptpPart = s.ptpPart := rfl
@[simp] theorem State.clear_txts (s : State) (f : Fld) : (s.clear f).txts = s.txts := rfl
@[simp] theorem State.clear_sumPrev (s : State) (f : Fld) : (s.clear f).sumPrev = s.sumPrev := rfl
@[simp] theorem State.clear_sumPend (s : State) (f : Fld) : (s.clear f).sumPend = s.sumPend := rfl
@[simp] theorem State.clear_snap (s : State) (f : Fld) : (s.clear f).snap = s.snap := rfl
@[simp] theorem State.clear_vecIn (s : State) (f : Fld) : (s.clear f).vecIn = s.vecIn := rfl
@[simp] theorem State.clear_vecPend (s : State) (f : Fld) : (s.clear f).vecPend = s.vecPend := rfl
@[simp] theorem State.clear_alarm (s : State) (f : Fld) : (s.clear f).alarm = s.alarm := rfl
@[simp] theorem State.clear_sent (s : State) (f : Fld) : (s.clear f).sent = s.sent := rfl
@[simp] theorem State.clear_pending (s : State) (f : Fld) : (s.clear f).pending = s.pending := rfl

/-! ## State.incStick -/

@[simp] theorem State.incStick_inReset (s : State) (f : Fld) (n : Nat) : (s.incStick f n).inReset = s.inReset := rfl
@[simp] theorem State.incStick_mem (s : State) (f : Fld) (n : Nat) : (s.incStick f n).mem = s.mem := rfl
@[simp] theorem State.incStick_time (s : State) (f : Fld) (n : Nat) : (s.incStick f n).time = s.time := rfl
@[simp] theorem State.incStick_maxSec (s : State) (f : Fld) (n : Nat) : (s.incStick f n).maxSec = s.maxSec := rfl
@[simp] theorem State.incStick_tickCount (s : State) (f : Fld) (n : Nat) : (s.incStick f n).tickCount = s.tickCount := rfl
@[simp] theorem State.incStick_freeCtr (s : State) (f : Fld) (n : Nat) : (s.incStick f n).freeCtr = s.freeCtr := rfl
@[simp] theorem State.incStick_held (s : State) (f : Fld) (n : Nat) : (s.incStick f n).held = s.held := rfl
@[simp] theorem State.incStick_stalled (s : State) (f : Fld) (n : Nat) : (s.incStick f n).stalled = s.stalled := rfl
@[simp] theorem State.incStick_late (s : State) (f : Fld) (n : Nat) : (s.incStick f n).late = s.late := rfl
@[simp] theorem State.incStick_engineWrites (s : State) (f : Fld) (n : Nat) : (s.incStick f n).engineWrites = s.engineWrites := rfl
@[simp] theorem State.incStick_storing (s : State) (f : Fld) (n : Nat) : (s.incStick f n).storing = s.storing := rfl
@[simp] theorem State.incStick_calPayload (s : State) (f : Fld) (n : Nat) : (s.incStick f n).calPayload = s.calPayload := rfl
@[simp] theorem State.incStick_grants (s : State) (f : Fld) (n : Nat) : (s.incStick f n).grants = s.grants := rfl
@[simp] theorem State.incStick_leafCmds (s : State) (f : Fld) (n : Nat) : (s.incStick f n).leafCmds = s.leafCmds := rfl
@[simp] theorem State.incStick_leafGrants (s : State) (f : Fld) (n : Nat) : (s.incStick f n).leafGrants = s.leafGrants := rfl
@[simp] theorem State.incStick_outer (s : State) (f : Fld) (n : Nat) : (s.incStick f n).outer = s.outer := rfl
@[simp] theorem State.incStick_txPay (s : State) (f : Fld) (n : Nat) : (s.incStick f n).txPay = s.txPay := rfl
@[simp] theorem State.incStick_ldm (s : State) (f : Fld) (n : Nat) : (s.incStick f n).ldm = s.ldm := rfl
@[simp] theorem State.incStick_bips (s : State) (f : Fld) (n : Nat) : (s.incStick f n).bips = s.bips := rfl
@[simp] theorem State.incStick_laneEqs (s : State) (f : Fld) (n : Nat) : (s.incStick f n).laneEqs = s.laneEqs := rfl
@[simp] theorem State.incStick_paths (s : State) (f : Fld) (n : Nat) : (s.incStick f n).paths = s.paths := rfl
@[simp] theorem State.incStick_queued (s : State) (f : Fld) (n : Nat) : (s.incStick f n).queued = s.queued := rfl
@[simp] theorem State.incStick_flights (s : State) (f : Fld) (n : Nat) : (s.incStick f n).flights = s.flights := rfl
@[simp] theorem State.incStick_egress (s : State) (f : Fld) (n : Nat) : (s.incStick f n).egress = s.egress := rfl
@[simp] theorem State.incStick_order (s : State) (f : Fld) (n : Nat) : (s.incStick f n).order = s.order := rfl
@[simp] theorem State.incStick_segments (s : State) (f : Fld) (n : Nat) : (s.incStick f n).segments = s.segments := rfl
@[simp] theorem State.incStick_segTags (s : State) (f : Fld) (n : Nat) : (s.incStick f n).segTags = s.segTags := rfl
@[simp] theorem State.incStick_hist (s : State) (f : Fld) (n : Nat) : (s.incStick f n).hist = s.hist := rfl
@[simp] theorem State.incStick_evtLog (s : State) (f : Fld) (n : Nat) : (s.incStick f n).evtLog = s.evtLog := rfl
@[simp] theorem State.incStick_posted (s : State) (f : Fld) (n : Nat) : (s.incStick f n).posted = s.posted := rfl
@[simp] theorem State.incStick_staged (s : State) (f : Fld) (n : Nat) : (s.incStick f n).staged = s.staged := rfl
@[simp] theorem State.incStick_ptpRx (s : State) (f : Fld) (n : Nat) : (s.incStick f n).ptpRx = s.ptpRx := rfl
@[simp] theorem State.incStick_ptpTx (s : State) (f : Fld) (n : Nat) : (s.incStick f n).ptpTx = s.ptpTx := rfl
@[simp] theorem State.incStick_ptpPart (s : State) (f : Fld) (n : Nat) : (s.incStick f n).ptpPart = s.ptpPart := rfl
@[simp] theorem State.incStick_txts (s : State) (f : Fld) (n : Nat) : (s.incStick f n).txts = s.txts := rfl
@[simp] theorem State.incStick_sumPrev (s : State) (f : Fld) (n : Nat) : (s.incStick f n).sumPrev = s.sumPrev := rfl
@[simp] theorem State.incStick_sumPend (s : State) (f : Fld) (n : Nat) : (s.incStick f n).sumPend = s.sumPend := rfl
@[simp] theorem State.incStick_snap (s : State) (f : Fld) (n : Nat) : (s.incStick f n).snap = s.snap := rfl
@[simp] theorem State.incStick_vecIn (s : State) (f : Fld) (n : Nat) : (s.incStick f n).vecIn = s.vecIn := rfl
@[simp] theorem State.incStick_vecPend (s : State) (f : Fld) (n : Nat) : (s.incStick f n).vecPend = s.vecPend := rfl
@[simp] theorem State.incStick_alarm (s : State) (f : Fld) (n : Nat) : (s.incStick f n).alarm = s.alarm := rfl
@[simp] theorem State.incStick_sent (s : State) (f : Fld) (n : Nat) : (s.incStick f n).sent = s.sent := rfl
@[simp] theorem State.incStick_pending (s : State) (f : Fld) (n : Nat) : (s.incStick f n).pending = s.pending := rfl

/-! ## State.incWrap -/

@[simp] theorem State.incWrap_inReset (s : State) (f : Fld) (n : Nat) : (s.incWrap f n).inReset = s.inReset := rfl
@[simp] theorem State.incWrap_mem (s : State) (f : Fld) (n : Nat) : (s.incWrap f n).mem = s.mem := rfl
@[simp] theorem State.incWrap_time (s : State) (f : Fld) (n : Nat) : (s.incWrap f n).time = s.time := rfl
@[simp] theorem State.incWrap_maxSec (s : State) (f : Fld) (n : Nat) : (s.incWrap f n).maxSec = s.maxSec := rfl
@[simp] theorem State.incWrap_tickCount (s : State) (f : Fld) (n : Nat) : (s.incWrap f n).tickCount = s.tickCount := rfl
@[simp] theorem State.incWrap_freeCtr (s : State) (f : Fld) (n : Nat) : (s.incWrap f n).freeCtr = s.freeCtr := rfl
@[simp] theorem State.incWrap_held (s : State) (f : Fld) (n : Nat) : (s.incWrap f n).held = s.held := rfl
@[simp] theorem State.incWrap_stalled (s : State) (f : Fld) (n : Nat) : (s.incWrap f n).stalled = s.stalled := rfl
@[simp] theorem State.incWrap_late (s : State) (f : Fld) (n : Nat) : (s.incWrap f n).late = s.late := rfl
@[simp] theorem State.incWrap_engineWrites (s : State) (f : Fld) (n : Nat) : (s.incWrap f n).engineWrites = s.engineWrites := rfl
@[simp] theorem State.incWrap_storing (s : State) (f : Fld) (n : Nat) : (s.incWrap f n).storing = s.storing := rfl
@[simp] theorem State.incWrap_calPayload (s : State) (f : Fld) (n : Nat) : (s.incWrap f n).calPayload = s.calPayload := rfl
@[simp] theorem State.incWrap_grants (s : State) (f : Fld) (n : Nat) : (s.incWrap f n).grants = s.grants := rfl
@[simp] theorem State.incWrap_leafCmds (s : State) (f : Fld) (n : Nat) : (s.incWrap f n).leafCmds = s.leafCmds := rfl
@[simp] theorem State.incWrap_leafGrants (s : State) (f : Fld) (n : Nat) : (s.incWrap f n).leafGrants = s.leafGrants := rfl
@[simp] theorem State.incWrap_outer (s : State) (f : Fld) (n : Nat) : (s.incWrap f n).outer = s.outer := rfl
@[simp] theorem State.incWrap_txPay (s : State) (f : Fld) (n : Nat) : (s.incWrap f n).txPay = s.txPay := rfl
@[simp] theorem State.incWrap_ldm (s : State) (f : Fld) (n : Nat) : (s.incWrap f n).ldm = s.ldm := rfl
@[simp] theorem State.incWrap_bips (s : State) (f : Fld) (n : Nat) : (s.incWrap f n).bips = s.bips := rfl
@[simp] theorem State.incWrap_laneEqs (s : State) (f : Fld) (n : Nat) : (s.incWrap f n).laneEqs = s.laneEqs := rfl
@[simp] theorem State.incWrap_paths (s : State) (f : Fld) (n : Nat) : (s.incWrap f n).paths = s.paths := rfl
@[simp] theorem State.incWrap_queued (s : State) (f : Fld) (n : Nat) : (s.incWrap f n).queued = s.queued := rfl
@[simp] theorem State.incWrap_flights (s : State) (f : Fld) (n : Nat) : (s.incWrap f n).flights = s.flights := rfl
@[simp] theorem State.incWrap_egress (s : State) (f : Fld) (n : Nat) : (s.incWrap f n).egress = s.egress := rfl
@[simp] theorem State.incWrap_order (s : State) (f : Fld) (n : Nat) : (s.incWrap f n).order = s.order := rfl
@[simp] theorem State.incWrap_segments (s : State) (f : Fld) (n : Nat) : (s.incWrap f n).segments = s.segments := rfl
@[simp] theorem State.incWrap_segTags (s : State) (f : Fld) (n : Nat) : (s.incWrap f n).segTags = s.segTags := rfl
@[simp] theorem State.incWrap_hist (s : State) (f : Fld) (n : Nat) : (s.incWrap f n).hist = s.hist := rfl
@[simp] theorem State.incWrap_evtLog (s : State) (f : Fld) (n : Nat) : (s.incWrap f n).evtLog = s.evtLog := rfl
@[simp] theorem State.incWrap_posted (s : State) (f : Fld) (n : Nat) : (s.incWrap f n).posted = s.posted := rfl
@[simp] theorem State.incWrap_staged (s : State) (f : Fld) (n : Nat) : (s.incWrap f n).staged = s.staged := rfl
@[simp] theorem State.incWrap_ptpRx (s : State) (f : Fld) (n : Nat) : (s.incWrap f n).ptpRx = s.ptpRx := rfl
@[simp] theorem State.incWrap_ptpTx (s : State) (f : Fld) (n : Nat) : (s.incWrap f n).ptpTx = s.ptpTx := rfl
@[simp] theorem State.incWrap_ptpPart (s : State) (f : Fld) (n : Nat) : (s.incWrap f n).ptpPart = s.ptpPart := rfl
@[simp] theorem State.incWrap_txts (s : State) (f : Fld) (n : Nat) : (s.incWrap f n).txts = s.txts := rfl
@[simp] theorem State.incWrap_sumPrev (s : State) (f : Fld) (n : Nat) : (s.incWrap f n).sumPrev = s.sumPrev := rfl
@[simp] theorem State.incWrap_sumPend (s : State) (f : Fld) (n : Nat) : (s.incWrap f n).sumPend = s.sumPend := rfl
@[simp] theorem State.incWrap_snap (s : State) (f : Fld) (n : Nat) : (s.incWrap f n).snap = s.snap := rfl
@[simp] theorem State.incWrap_vecIn (s : State) (f : Fld) (n : Nat) : (s.incWrap f n).vecIn = s.vecIn := rfl
@[simp] theorem State.incWrap_vecPend (s : State) (f : Fld) (n : Nat) : (s.incWrap f n).vecPend = s.vecPend := rfl
@[simp] theorem State.incWrap_alarm (s : State) (f : Fld) (n : Nat) : (s.incWrap f n).alarm = s.alarm := rfl
@[simp] theorem State.incWrap_sent (s : State) (f : Fld) (n : Nat) : (s.incWrap f n).sent = s.sent := rfl
@[simp] theorem State.incWrap_pending (s : State) (f : Fld) (n : Nat) : (s.incWrap f n).pending = s.pending := rfl

/-! ## State.setBit -/

@[simp] theorem State.setBit_inReset (s : State) (f : Fld) (b : Nat) : (s.setBit f b).inReset = s.inReset := rfl
@[simp] theorem State.setBit_mem (s : State) (f : Fld) (b : Nat) : (s.setBit f b).mem = s.mem := rfl
@[simp] theorem State.setBit_time (s : State) (f : Fld) (b : Nat) : (s.setBit f b).time = s.time := rfl
@[simp] theorem State.setBit_maxSec (s : State) (f : Fld) (b : Nat) : (s.setBit f b).maxSec = s.maxSec := rfl
@[simp] theorem State.setBit_tickCount (s : State) (f : Fld) (b : Nat) : (s.setBit f b).tickCount = s.tickCount := rfl
@[simp] theorem State.setBit_freeCtr (s : State) (f : Fld) (b : Nat) : (s.setBit f b).freeCtr = s.freeCtr := rfl
@[simp] theorem State.setBit_held (s : State) (f : Fld) (b : Nat) : (s.setBit f b).held = s.held := rfl
@[simp] theorem State.setBit_stalled (s : State) (f : Fld) (b : Nat) : (s.setBit f b).stalled = s.stalled := rfl
@[simp] theorem State.setBit_late (s : State) (f : Fld) (b : Nat) : (s.setBit f b).late = s.late := rfl
@[simp] theorem State.setBit_engineWrites (s : State) (f : Fld) (b : Nat) : (s.setBit f b).engineWrites = s.engineWrites := rfl
@[simp] theorem State.setBit_storing (s : State) (f : Fld) (b : Nat) : (s.setBit f b).storing = s.storing := rfl
@[simp] theorem State.setBit_calPayload (s : State) (f : Fld) (b : Nat) : (s.setBit f b).calPayload = s.calPayload := rfl
@[simp] theorem State.setBit_grants (s : State) (f : Fld) (b : Nat) : (s.setBit f b).grants = s.grants := rfl
@[simp] theorem State.setBit_leafCmds (s : State) (f : Fld) (b : Nat) : (s.setBit f b).leafCmds = s.leafCmds := rfl
@[simp] theorem State.setBit_leafGrants (s : State) (f : Fld) (b : Nat) : (s.setBit f b).leafGrants = s.leafGrants := rfl
@[simp] theorem State.setBit_outer (s : State) (f : Fld) (b : Nat) : (s.setBit f b).outer = s.outer := rfl
@[simp] theorem State.setBit_txPay (s : State) (f : Fld) (b : Nat) : (s.setBit f b).txPay = s.txPay := rfl
@[simp] theorem State.setBit_ldm (s : State) (f : Fld) (b : Nat) : (s.setBit f b).ldm = s.ldm := rfl
@[simp] theorem State.setBit_bips (s : State) (f : Fld) (b : Nat) : (s.setBit f b).bips = s.bips := rfl
@[simp] theorem State.setBit_laneEqs (s : State) (f : Fld) (b : Nat) : (s.setBit f b).laneEqs = s.laneEqs := rfl
@[simp] theorem State.setBit_paths (s : State) (f : Fld) (b : Nat) : (s.setBit f b).paths = s.paths := rfl
@[simp] theorem State.setBit_queued (s : State) (f : Fld) (b : Nat) : (s.setBit f b).queued = s.queued := rfl
@[simp] theorem State.setBit_flights (s : State) (f : Fld) (b : Nat) : (s.setBit f b).flights = s.flights := rfl
@[simp] theorem State.setBit_egress (s : State) (f : Fld) (b : Nat) : (s.setBit f b).egress = s.egress := rfl
@[simp] theorem State.setBit_order (s : State) (f : Fld) (b : Nat) : (s.setBit f b).order = s.order := rfl
@[simp] theorem State.setBit_segments (s : State) (f : Fld) (b : Nat) : (s.setBit f b).segments = s.segments := rfl
@[simp] theorem State.setBit_segTags (s : State) (f : Fld) (b : Nat) : (s.setBit f b).segTags = s.segTags := rfl
@[simp] theorem State.setBit_hist (s : State) (f : Fld) (b : Nat) : (s.setBit f b).hist = s.hist := rfl
@[simp] theorem State.setBit_evtLog (s : State) (f : Fld) (b : Nat) : (s.setBit f b).evtLog = s.evtLog := rfl
@[simp] theorem State.setBit_posted (s : State) (f : Fld) (b : Nat) : (s.setBit f b).posted = s.posted := rfl
@[simp] theorem State.setBit_staged (s : State) (f : Fld) (b : Nat) : (s.setBit f b).staged = s.staged := rfl
@[simp] theorem State.setBit_ptpRx (s : State) (f : Fld) (b : Nat) : (s.setBit f b).ptpRx = s.ptpRx := rfl
@[simp] theorem State.setBit_ptpTx (s : State) (f : Fld) (b : Nat) : (s.setBit f b).ptpTx = s.ptpTx := rfl
@[simp] theorem State.setBit_ptpPart (s : State) (f : Fld) (b : Nat) : (s.setBit f b).ptpPart = s.ptpPart := rfl
@[simp] theorem State.setBit_txts (s : State) (f : Fld) (b : Nat) : (s.setBit f b).txts = s.txts := rfl
@[simp] theorem State.setBit_sumPrev (s : State) (f : Fld) (b : Nat) : (s.setBit f b).sumPrev = s.sumPrev := rfl
@[simp] theorem State.setBit_sumPend (s : State) (f : Fld) (b : Nat) : (s.setBit f b).sumPend = s.sumPend := rfl
@[simp] theorem State.setBit_snap (s : State) (f : Fld) (b : Nat) : (s.setBit f b).snap = s.snap := rfl
@[simp] theorem State.setBit_vecIn (s : State) (f : Fld) (b : Nat) : (s.setBit f b).vecIn = s.vecIn := rfl
@[simp] theorem State.setBit_vecPend (s : State) (f : Fld) (b : Nat) : (s.setBit f b).vecPend = s.vecPend := rfl
@[simp] theorem State.setBit_alarm (s : State) (f : Fld) (b : Nat) : (s.setBit f b).alarm = s.alarm := rfl
@[simp] theorem State.setBit_sent (s : State) (f : Fld) (b : Nat) : (s.setBit f b).sent = s.sent := rfl
@[simp] theorem State.setBit_pending (s : State) (f : Fld) (b : Nat) : (s.setBit f b).pending = s.pending := rfl

/-! ## State.puti -/

@[simp] theorem State.puti_inReset (s : State) (f : Fld) (i : Int) : (s.puti f i).inReset = s.inReset := rfl
@[simp] theorem State.puti_mem (s : State) (f : Fld) (i : Int) : (s.puti f i).mem = s.mem := rfl
@[simp] theorem State.puti_time (s : State) (f : Fld) (i : Int) : (s.puti f i).time = s.time := rfl
@[simp] theorem State.puti_maxSec (s : State) (f : Fld) (i : Int) : (s.puti f i).maxSec = s.maxSec := rfl
@[simp] theorem State.puti_tickCount (s : State) (f : Fld) (i : Int) : (s.puti f i).tickCount = s.tickCount := rfl
@[simp] theorem State.puti_freeCtr (s : State) (f : Fld) (i : Int) : (s.puti f i).freeCtr = s.freeCtr := rfl
@[simp] theorem State.puti_held (s : State) (f : Fld) (i : Int) : (s.puti f i).held = s.held := rfl
@[simp] theorem State.puti_stalled (s : State) (f : Fld) (i : Int) : (s.puti f i).stalled = s.stalled := rfl
@[simp] theorem State.puti_late (s : State) (f : Fld) (i : Int) : (s.puti f i).late = s.late := rfl
@[simp] theorem State.puti_engineWrites (s : State) (f : Fld) (i : Int) : (s.puti f i).engineWrites = s.engineWrites := rfl
@[simp] theorem State.puti_storing (s : State) (f : Fld) (i : Int) : (s.puti f i).storing = s.storing := rfl
@[simp] theorem State.puti_calPayload (s : State) (f : Fld) (i : Int) : (s.puti f i).calPayload = s.calPayload := rfl
@[simp] theorem State.puti_grants (s : State) (f : Fld) (i : Int) : (s.puti f i).grants = s.grants := rfl
@[simp] theorem State.puti_leafCmds (s : State) (f : Fld) (i : Int) : (s.puti f i).leafCmds = s.leafCmds := rfl
@[simp] theorem State.puti_leafGrants (s : State) (f : Fld) (i : Int) : (s.puti f i).leafGrants = s.leafGrants := rfl
@[simp] theorem State.puti_outer (s : State) (f : Fld) (i : Int) : (s.puti f i).outer = s.outer := rfl
@[simp] theorem State.puti_txPay (s : State) (f : Fld) (i : Int) : (s.puti f i).txPay = s.txPay := rfl
@[simp] theorem State.puti_ldm (s : State) (f : Fld) (i : Int) : (s.puti f i).ldm = s.ldm := rfl
@[simp] theorem State.puti_bips (s : State) (f : Fld) (i : Int) : (s.puti f i).bips = s.bips := rfl
@[simp] theorem State.puti_laneEqs (s : State) (f : Fld) (i : Int) : (s.puti f i).laneEqs = s.laneEqs := rfl
@[simp] theorem State.puti_paths (s : State) (f : Fld) (i : Int) : (s.puti f i).paths = s.paths := rfl
@[simp] theorem State.puti_queued (s : State) (f : Fld) (i : Int) : (s.puti f i).queued = s.queued := rfl
@[simp] theorem State.puti_flights (s : State) (f : Fld) (i : Int) : (s.puti f i).flights = s.flights := rfl
@[simp] theorem State.puti_egress (s : State) (f : Fld) (i : Int) : (s.puti f i).egress = s.egress := rfl
@[simp] theorem State.puti_order (s : State) (f : Fld) (i : Int) : (s.puti f i).order = s.order := rfl
@[simp] theorem State.puti_segments (s : State) (f : Fld) (i : Int) : (s.puti f i).segments = s.segments := rfl
@[simp] theorem State.puti_segTags (s : State) (f : Fld) (i : Int) : (s.puti f i).segTags = s.segTags := rfl
@[simp] theorem State.puti_hist (s : State) (f : Fld) (i : Int) : (s.puti f i).hist = s.hist := rfl
@[simp] theorem State.puti_evtLog (s : State) (f : Fld) (i : Int) : (s.puti f i).evtLog = s.evtLog := rfl
@[simp] theorem State.puti_posted (s : State) (f : Fld) (i : Int) : (s.puti f i).posted = s.posted := rfl
@[simp] theorem State.puti_staged (s : State) (f : Fld) (i : Int) : (s.puti f i).staged = s.staged := rfl
@[simp] theorem State.puti_ptpRx (s : State) (f : Fld) (i : Int) : (s.puti f i).ptpRx = s.ptpRx := rfl
@[simp] theorem State.puti_ptpTx (s : State) (f : Fld) (i : Int) : (s.puti f i).ptpTx = s.ptpTx := rfl
@[simp] theorem State.puti_ptpPart (s : State) (f : Fld) (i : Int) : (s.puti f i).ptpPart = s.ptpPart := rfl
@[simp] theorem State.puti_txts (s : State) (f : Fld) (i : Int) : (s.puti f i).txts = s.txts := rfl
@[simp] theorem State.puti_sumPrev (s : State) (f : Fld) (i : Int) : (s.puti f i).sumPrev = s.sumPrev := rfl
@[simp] theorem State.puti_sumPend (s : State) (f : Fld) (i : Int) : (s.puti f i).sumPend = s.sumPend := rfl
@[simp] theorem State.puti_snap (s : State) (f : Fld) (i : Int) : (s.puti f i).snap = s.snap := rfl
@[simp] theorem State.puti_vecIn (s : State) (f : Fld) (i : Int) : (s.puti f i).vecIn = s.vecIn := rfl
@[simp] theorem State.puti_vecPend (s : State) (f : Fld) (i : Int) : (s.puti f i).vecPend = s.vecPend := rfl
@[simp] theorem State.puti_alarm (s : State) (f : Fld) (i : Int) : (s.puti f i).alarm = s.alarm := rfl
@[simp] theorem State.puti_sent (s : State) (f : Fld) (i : Int) : (s.puti f i).sent = s.sent := rfl
@[simp] theorem State.puti_pending (s : State) (f : Fld) (i : Int) : (s.puti f i).pending = s.pending := rfl

/-! ## State.putiSat -/

@[simp] theorem State.putiSat_inReset (s : State) (f : Fld) (i : Int) : (s.putiSat f i).inReset = s.inReset := rfl
@[simp] theorem State.putiSat_mem (s : State) (f : Fld) (i : Int) : (s.putiSat f i).mem = s.mem := rfl
@[simp] theorem State.putiSat_time (s : State) (f : Fld) (i : Int) : (s.putiSat f i).time = s.time := rfl
@[simp] theorem State.putiSat_maxSec (s : State) (f : Fld) (i : Int) : (s.putiSat f i).maxSec = s.maxSec := rfl
@[simp] theorem State.putiSat_tickCount (s : State) (f : Fld) (i : Int) : (s.putiSat f i).tickCount = s.tickCount := rfl
@[simp] theorem State.putiSat_freeCtr (s : State) (f : Fld) (i : Int) : (s.putiSat f i).freeCtr = s.freeCtr := rfl
@[simp] theorem State.putiSat_held (s : State) (f : Fld) (i : Int) : (s.putiSat f i).held = s.held := rfl
@[simp] theorem State.putiSat_stalled (s : State) (f : Fld) (i : Int) : (s.putiSat f i).stalled = s.stalled := rfl
@[simp] theorem State.putiSat_late (s : State) (f : Fld) (i : Int) : (s.putiSat f i).late = s.late := rfl
@[simp] theorem State.putiSat_engineWrites (s : State) (f : Fld) (i : Int) : (s.putiSat f i).engineWrites = s.engineWrites := rfl
@[simp] theorem State.putiSat_storing (s : State) (f : Fld) (i : Int) : (s.putiSat f i).storing = s.storing := rfl
@[simp] theorem State.putiSat_calPayload (s : State) (f : Fld) (i : Int) : (s.putiSat f i).calPayload = s.calPayload := rfl
@[simp] theorem State.putiSat_grants (s : State) (f : Fld) (i : Int) : (s.putiSat f i).grants = s.grants := rfl
@[simp] theorem State.putiSat_leafCmds (s : State) (f : Fld) (i : Int) : (s.putiSat f i).leafCmds = s.leafCmds := rfl
@[simp] theorem State.putiSat_leafGrants (s : State) (f : Fld) (i : Int) : (s.putiSat f i).leafGrants = s.leafGrants := rfl
@[simp] theorem State.putiSat_outer (s : State) (f : Fld) (i : Int) : (s.putiSat f i).outer = s.outer := rfl
@[simp] theorem State.putiSat_txPay (s : State) (f : Fld) (i : Int) : (s.putiSat f i).txPay = s.txPay := rfl
@[simp] theorem State.putiSat_ldm (s : State) (f : Fld) (i : Int) : (s.putiSat f i).ldm = s.ldm := rfl
@[simp] theorem State.putiSat_bips (s : State) (f : Fld) (i : Int) : (s.putiSat f i).bips = s.bips := rfl
@[simp] theorem State.putiSat_laneEqs (s : State) (f : Fld) (i : Int) : (s.putiSat f i).laneEqs = s.laneEqs := rfl
@[simp] theorem State.putiSat_paths (s : State) (f : Fld) (i : Int) : (s.putiSat f i).paths = s.paths := rfl
@[simp] theorem State.putiSat_queued (s : State) (f : Fld) (i : Int) : (s.putiSat f i).queued = s.queued := rfl
@[simp] theorem State.putiSat_flights (s : State) (f : Fld) (i : Int) : (s.putiSat f i).flights = s.flights := rfl
@[simp] theorem State.putiSat_egress (s : State) (f : Fld) (i : Int) : (s.putiSat f i).egress = s.egress := rfl
@[simp] theorem State.putiSat_order (s : State) (f : Fld) (i : Int) : (s.putiSat f i).order = s.order := rfl
@[simp] theorem State.putiSat_segments (s : State) (f : Fld) (i : Int) : (s.putiSat f i).segments = s.segments := rfl
@[simp] theorem State.putiSat_segTags (s : State) (f : Fld) (i : Int) : (s.putiSat f i).segTags = s.segTags := rfl
@[simp] theorem State.putiSat_hist (s : State) (f : Fld) (i : Int) : (s.putiSat f i).hist = s.hist := rfl
@[simp] theorem State.putiSat_evtLog (s : State) (f : Fld) (i : Int) : (s.putiSat f i).evtLog = s.evtLog := rfl
@[simp] theorem State.putiSat_posted (s : State) (f : Fld) (i : Int) : (s.putiSat f i).posted = s.posted := rfl
@[simp] theorem State.putiSat_staged (s : State) (f : Fld) (i : Int) : (s.putiSat f i).staged = s.staged := rfl
@[simp] theorem State.putiSat_ptpRx (s : State) (f : Fld) (i : Int) : (s.putiSat f i).ptpRx = s.ptpRx := rfl
@[simp] theorem State.putiSat_ptpTx (s : State) (f : Fld) (i : Int) : (s.putiSat f i).ptpTx = s.ptpTx := rfl
@[simp] theorem State.putiSat_ptpPart (s : State) (f : Fld) (i : Int) : (s.putiSat f i).ptpPart = s.ptpPart := rfl
@[simp] theorem State.putiSat_txts (s : State) (f : Fld) (i : Int) : (s.putiSat f i).txts = s.txts := rfl
@[simp] theorem State.putiSat_sumPrev (s : State) (f : Fld) (i : Int) : (s.putiSat f i).sumPrev = s.sumPrev := rfl
@[simp] theorem State.putiSat_sumPend (s : State) (f : Fld) (i : Int) : (s.putiSat f i).sumPend = s.sumPend := rfl
@[simp] theorem State.putiSat_snap (s : State) (f : Fld) (i : Int) : (s.putiSat f i).snap = s.snap := rfl
@[simp] theorem State.putiSat_vecIn (s : State) (f : Fld) (i : Int) : (s.putiSat f i).vecIn = s.vecIn := rfl
@[simp] theorem State.putiSat_vecPend (s : State) (f : Fld) (i : Int) : (s.putiSat f i).vecPend = s.vecPend := rfl
@[simp] theorem State.putiSat_alarm (s : State) (f : Fld) (i : Int) : (s.putiSat f i).alarm = s.alarm := rfl
@[simp] theorem State.putiSat_sent (s : State) (f : Fld) (i : Int) : (s.putiSat f i).sent = s.sent := rfl
@[simp] theorem State.putiSat_pending (s : State) (f : Fld) (i : Int) : (s.putiSat f i).pending = s.pending := rfl

/-! ## State.putFree -/

@[simp] theorem State.putFree_inReset (s : State) (f : Fld) : (s.putFree f).inReset = s.inReset := rfl
@[simp] theorem State.putFree_mem (s : State) (f : Fld) : (s.putFree f).mem = s.mem := rfl
@[simp] theorem State.putFree_time (s : State) (f : Fld) : (s.putFree f).time = s.time := rfl
@[simp] theorem State.putFree_maxSec (s : State) (f : Fld) : (s.putFree f).maxSec = s.maxSec := rfl
@[simp] theorem State.putFree_tickCount (s : State) (f : Fld) : (s.putFree f).tickCount = s.tickCount := rfl
@[simp] theorem State.putFree_held (s : State) (f : Fld) : (s.putFree f).held = s.held := rfl
@[simp] theorem State.putFree_stalled (s : State) (f : Fld) : (s.putFree f).stalled = s.stalled := rfl
@[simp] theorem State.putFree_late (s : State) (f : Fld) : (s.putFree f).late = s.late := rfl
@[simp] theorem State.putFree_engineWrites (s : State) (f : Fld) : (s.putFree f).engineWrites = s.engineWrites := rfl
@[simp] theorem State.putFree_storing (s : State) (f : Fld) : (s.putFree f).storing = s.storing := rfl
@[simp] theorem State.putFree_calPayload (s : State) (f : Fld) : (s.putFree f).calPayload = s.calPayload := rfl
@[simp] theorem State.putFree_grants (s : State) (f : Fld) : (s.putFree f).grants = s.grants := rfl
@[simp] theorem State.putFree_leafCmds (s : State) (f : Fld) : (s.putFree f).leafCmds = s.leafCmds := rfl
@[simp] theorem State.putFree_leafGrants (s : State) (f : Fld) : (s.putFree f).leafGrants = s.leafGrants := rfl
@[simp] theorem State.putFree_outer (s : State) (f : Fld) : (s.putFree f).outer = s.outer := rfl
@[simp] theorem State.putFree_txPay (s : State) (f : Fld) : (s.putFree f).txPay = s.txPay := rfl
@[simp] theorem State.putFree_ldm (s : State) (f : Fld) : (s.putFree f).ldm = s.ldm := rfl
@[simp] theorem State.putFree_bips (s : State) (f : Fld) : (s.putFree f).bips = s.bips := rfl
@[simp] theorem State.putFree_laneEqs (s : State) (f : Fld) : (s.putFree f).laneEqs = s.laneEqs := rfl
@[simp] theorem State.putFree_paths (s : State) (f : Fld) : (s.putFree f).paths = s.paths := rfl
@[simp] theorem State.putFree_queued (s : State) (f : Fld) : (s.putFree f).queued = s.queued := rfl
@[simp] theorem State.putFree_flights (s : State) (f : Fld) : (s.putFree f).flights = s.flights := rfl
@[simp] theorem State.putFree_egress (s : State) (f : Fld) : (s.putFree f).egress = s.egress := rfl
@[simp] theorem State.putFree_order (s : State) (f : Fld) : (s.putFree f).order = s.order := rfl
@[simp] theorem State.putFree_segments (s : State) (f : Fld) : (s.putFree f).segments = s.segments := rfl
@[simp] theorem State.putFree_segTags (s : State) (f : Fld) : (s.putFree f).segTags = s.segTags := rfl
@[simp] theorem State.putFree_hist (s : State) (f : Fld) : (s.putFree f).hist = s.hist := rfl
@[simp] theorem State.putFree_evtLog (s : State) (f : Fld) : (s.putFree f).evtLog = s.evtLog := rfl
@[simp] theorem State.putFree_posted (s : State) (f : Fld) : (s.putFree f).posted = s.posted := rfl
@[simp] theorem State.putFree_staged (s : State) (f : Fld) : (s.putFree f).staged = s.staged := rfl
@[simp] theorem State.putFree_ptpRx (s : State) (f : Fld) : (s.putFree f).ptpRx = s.ptpRx := rfl
@[simp] theorem State.putFree_ptpTx (s : State) (f : Fld) : (s.putFree f).ptpTx = s.ptpTx := rfl
@[simp] theorem State.putFree_ptpPart (s : State) (f : Fld) : (s.putFree f).ptpPart = s.ptpPart := rfl
@[simp] theorem State.putFree_txts (s : State) (f : Fld) : (s.putFree f).txts = s.txts := rfl
@[simp] theorem State.putFree_sumPrev (s : State) (f : Fld) : (s.putFree f).sumPrev = s.sumPrev := rfl
@[simp] theorem State.putFree_sumPend (s : State) (f : Fld) : (s.putFree f).sumPend = s.sumPend := rfl
@[simp] theorem State.putFree_snap (s : State) (f : Fld) : (s.putFree f).snap = s.snap := rfl
@[simp] theorem State.putFree_vecIn (s : State) (f : Fld) : (s.putFree f).vecIn = s.vecIn := rfl
@[simp] theorem State.putFree_vecPend (s : State) (f : Fld) : (s.putFree f).vecPend = s.vecPend := rfl
@[simp] theorem State.putFree_alarm (s : State) (f : Fld) : (s.putFree f).alarm = s.alarm := rfl
@[simp] theorem State.putFree_sent (s : State) (f : Fld) : (s.putFree f).sent = s.sent := rfl
@[simp] theorem State.putFree_pending (s : State) (f : Fld) : (s.putFree f).pending = s.pending := rfl

/-! ## State.send -/

@[simp] theorem State.send_inReset (s : State) (o : Output) : (s.send o).inReset = s.inReset := rfl
@[simp] theorem State.send_cells (s : State) (o : Output) : (s.send o).cells = s.cells := rfl
@[simp] theorem State.send_mem (s : State) (o : Output) : (s.send o).mem = s.mem := rfl
@[simp] theorem State.send_time (s : State) (o : Output) : (s.send o).time = s.time := rfl
@[simp] theorem State.send_maxSec (s : State) (o : Output) : (s.send o).maxSec = s.maxSec := rfl
@[simp] theorem State.send_tickCount (s : State) (o : Output) : (s.send o).tickCount = s.tickCount := rfl
@[simp] theorem State.send_freeCtr (s : State) (o : Output) : (s.send o).freeCtr = s.freeCtr := rfl
@[simp] theorem State.send_held (s : State) (o : Output) : (s.send o).held = s.held := rfl
@[simp] theorem State.send_stalled (s : State) (o : Output) : (s.send o).stalled = s.stalled := rfl
@[simp] theorem State.send_late (s : State) (o : Output) : (s.send o).late = s.late := rfl
@[simp] theorem State.send_engineWrites (s : State) (o : Output) : (s.send o).engineWrites = s.engineWrites := rfl
@[simp] theorem State.send_storing (s : State) (o : Output) : (s.send o).storing = s.storing := rfl
@[simp] theorem State.send_calPayload (s : State) (o : Output) : (s.send o).calPayload = s.calPayload := rfl
@[simp] theorem State.send_grants (s : State) (o : Output) : (s.send o).grants = s.grants := rfl
@[simp] theorem State.send_leafCmds (s : State) (o : Output) : (s.send o).leafCmds = s.leafCmds := rfl
@[simp] theorem State.send_leafGrants (s : State) (o : Output) : (s.send o).leafGrants = s.leafGrants := rfl
@[simp] theorem State.send_outer (s : State) (o : Output) : (s.send o).outer = s.outer := rfl
@[simp] theorem State.send_txPay (s : State) (o : Output) : (s.send o).txPay = s.txPay := rfl
@[simp] theorem State.send_ldm (s : State) (o : Output) : (s.send o).ldm = s.ldm := rfl
@[simp] theorem State.send_bips (s : State) (o : Output) : (s.send o).bips = s.bips := rfl
@[simp] theorem State.send_laneEqs (s : State) (o : Output) : (s.send o).laneEqs = s.laneEqs := rfl
@[simp] theorem State.send_paths (s : State) (o : Output) : (s.send o).paths = s.paths := rfl
@[simp] theorem State.send_queued (s : State) (o : Output) : (s.send o).queued = s.queued := rfl
@[simp] theorem State.send_flights (s : State) (o : Output) : (s.send o).flights = s.flights := rfl
@[simp] theorem State.send_egress (s : State) (o : Output) : (s.send o).egress = s.egress := rfl
@[simp] theorem State.send_order (s : State) (o : Output) : (s.send o).order = s.order := rfl
@[simp] theorem State.send_segments (s : State) (o : Output) : (s.send o).segments = s.segments := rfl
@[simp] theorem State.send_segTags (s : State) (o : Output) : (s.send o).segTags = s.segTags := rfl
@[simp] theorem State.send_hist (s : State) (o : Output) : (s.send o).hist = s.hist := rfl
@[simp] theorem State.send_evtLog (s : State) (o : Output) : (s.send o).evtLog = s.evtLog := rfl
@[simp] theorem State.send_posted (s : State) (o : Output) : (s.send o).posted = s.posted := rfl
@[simp] theorem State.send_staged (s : State) (o : Output) : (s.send o).staged = s.staged := rfl
@[simp] theorem State.send_ptpRx (s : State) (o : Output) : (s.send o).ptpRx = s.ptpRx := rfl
@[simp] theorem State.send_ptpTx (s : State) (o : Output) : (s.send o).ptpTx = s.ptpTx := rfl
@[simp] theorem State.send_ptpPart (s : State) (o : Output) : (s.send o).ptpPart = s.ptpPart := rfl
@[simp] theorem State.send_txts (s : State) (o : Output) : (s.send o).txts = s.txts := rfl
@[simp] theorem State.send_sumPrev (s : State) (o : Output) : (s.send o).sumPrev = s.sumPrev := rfl
@[simp] theorem State.send_sumPend (s : State) (o : Output) : (s.send o).sumPend = s.sumPend := rfl
@[simp] theorem State.send_snap (s : State) (o : Output) : (s.send o).snap = s.snap := rfl
@[simp] theorem State.send_vecIn (s : State) (o : Output) : (s.send o).vecIn = s.vecIn := rfl
@[simp] theorem State.send_vecPend (s : State) (o : Output) : (s.send o).vecPend = s.vecPend := rfl
@[simp] theorem State.send_alarm (s : State) (o : Output) : (s.send o).alarm = s.alarm := rfl
@[simp] theorem State.send_pending (s : State) (o : Output) : (s.send o).pending = s.pending := rfl
@[simp] theorem State.send_sent (s : State) (o : Output) : (s.send o).sent = s.sent ++ [o] := rfl

/-! ## State.setByte -/

@[simp] theorem State.setByte_inReset (s : State) (k : Nat) (b : Byte) : (s.setByte k b).inReset = s.inReset := rfl
@[simp] theorem State.setByte_cells (s : State) (k : Nat) (b : Byte) : (s.setByte k b).cells = s.cells := rfl
@[simp] theorem State.setByte_time (s : State) (k : Nat) (b : Byte) : (s.setByte k b).time = s.time := rfl
@[simp] theorem State.setByte_maxSec (s : State) (k : Nat) (b : Byte) : (s.setByte k b).maxSec = s.maxSec := rfl
@[simp] theorem State.setByte_tickCount (s : State) (k : Nat) (b : Byte) : (s.setByte k b).tickCount = s.tickCount := rfl
@[simp] theorem State.setByte_freeCtr (s : State) (k : Nat) (b : Byte) : (s.setByte k b).freeCtr = s.freeCtr := rfl
@[simp] theorem State.setByte_held (s : State) (k : Nat) (b : Byte) : (s.setByte k b).held = s.held := rfl
@[simp] theorem State.setByte_stalled (s : State) (k : Nat) (b : Byte) : (s.setByte k b).stalled = s.stalled := rfl
@[simp] theorem State.setByte_late (s : State) (k : Nat) (b : Byte) : (s.setByte k b).late = s.late := rfl
@[simp] theorem State.setByte_engineWrites (s : State) (k : Nat) (b : Byte) : (s.setByte k b).engineWrites = s.engineWrites := rfl
@[simp] theorem State.setByte_storing (s : State) (k : Nat) (b : Byte) : (s.setByte k b).storing = s.storing := rfl
@[simp] theorem State.setByte_calPayload (s : State) (k : Nat) (b : Byte) : (s.setByte k b).calPayload = s.calPayload := rfl
@[simp] theorem State.setByte_grants (s : State) (k : Nat) (b : Byte) : (s.setByte k b).grants = s.grants := rfl
@[simp] theorem State.setByte_leafCmds (s : State) (k : Nat) (b : Byte) : (s.setByte k b).leafCmds = s.leafCmds := rfl
@[simp] theorem State.setByte_leafGrants (s : State) (k : Nat) (b : Byte) : (s.setByte k b).leafGrants = s.leafGrants := rfl
@[simp] theorem State.setByte_outer (s : State) (k : Nat) (b : Byte) : (s.setByte k b).outer = s.outer := rfl
@[simp] theorem State.setByte_txPay (s : State) (k : Nat) (b : Byte) : (s.setByte k b).txPay = s.txPay := rfl
@[simp] theorem State.setByte_ldm (s : State) (k : Nat) (b : Byte) : (s.setByte k b).ldm = s.ldm := rfl
@[simp] theorem State.setByte_bips (s : State) (k : Nat) (b : Byte) : (s.setByte k b).bips = s.bips := rfl
@[simp] theorem State.setByte_laneEqs (s : State) (k : Nat) (b : Byte) : (s.setByte k b).laneEqs = s.laneEqs := rfl
@[simp] theorem State.setByte_paths (s : State) (k : Nat) (b : Byte) : (s.setByte k b).paths = s.paths := rfl
@[simp] theorem State.setByte_queued (s : State) (k : Nat) (b : Byte) : (s.setByte k b).queued = s.queued := rfl
@[simp] theorem State.setByte_flights (s : State) (k : Nat) (b : Byte) : (s.setByte k b).flights = s.flights := rfl
@[simp] theorem State.setByte_egress (s : State) (k : Nat) (b : Byte) : (s.setByte k b).egress = s.egress := rfl
@[simp] theorem State.setByte_order (s : State) (k : Nat) (b : Byte) : (s.setByte k b).order = s.order := rfl
@[simp] theorem State.setByte_segments (s : State) (k : Nat) (b : Byte) : (s.setByte k b).segments = s.segments := rfl
@[simp] theorem State.setByte_segTags (s : State) (k : Nat) (b : Byte) : (s.setByte k b).segTags = s.segTags := rfl
@[simp] theorem State.setByte_hist (s : State) (k : Nat) (b : Byte) : (s.setByte k b).hist = s.hist := rfl
@[simp] theorem State.setByte_evtLog (s : State) (k : Nat) (b : Byte) : (s.setByte k b).evtLog = s.evtLog := rfl
@[simp] theorem State.setByte_posted (s : State) (k : Nat) (b : Byte) : (s.setByte k b).posted = s.posted := rfl
@[simp] theorem State.setByte_staged (s : State) (k : Nat) (b : Byte) : (s.setByte k b).staged = s.staged := rfl
@[simp] theorem State.setByte_ptpRx (s : State) (k : Nat) (b : Byte) : (s.setByte k b).ptpRx = s.ptpRx := rfl
@[simp] theorem State.setByte_ptpTx (s : State) (k : Nat) (b : Byte) : (s.setByte k b).ptpTx = s.ptpTx := rfl
@[simp] theorem State.setByte_ptpPart (s : State) (k : Nat) (b : Byte) : (s.setByte k b).ptpPart = s.ptpPart := rfl
@[simp] theorem State.setByte_txts (s : State) (k : Nat) (b : Byte) : (s.setByte k b).txts = s.txts := rfl
@[simp] theorem State.setByte_sumPrev (s : State) (k : Nat) (b : Byte) : (s.setByte k b).sumPrev = s.sumPrev := rfl
@[simp] theorem State.setByte_sumPend (s : State) (k : Nat) (b : Byte) : (s.setByte k b).sumPend = s.sumPend := rfl
@[simp] theorem State.setByte_snap (s : State) (k : Nat) (b : Byte) : (s.setByte k b).snap = s.snap := rfl
@[simp] theorem State.setByte_vecIn (s : State) (k : Nat) (b : Byte) : (s.setByte k b).vecIn = s.vecIn := rfl
@[simp] theorem State.setByte_vecPend (s : State) (k : Nat) (b : Byte) : (s.setByte k b).vecPend = s.vecPend := rfl
@[simp] theorem State.setByte_alarm (s : State) (k : Nat) (b : Byte) : (s.setByte k b).alarm = s.alarm := rfl
@[simp] theorem State.setByte_sent (s : State) (k : Nat) (b : Byte) : (s.setByte k b).sent = s.sent := rfl
@[simp] theorem State.setByte_pending (s : State) (k : Nat) (b : Byte) : (s.setByte k b).pending = s.pending := rfl
@[simp] theorem State.setByte_mem (s : State) (k : Nat) (b : Byte) : (s.setByte k b).mem = memSet s.mem k b := rfl

/-! ## State.zeroRange -/

@[simp] theorem State.zeroRange_inReset (s : State) (l : Loc) (n : Nat) : (s.zeroRange l n).inReset = s.inReset := rfl
@[simp] theorem State.zeroRange_cells (s : State) (l : Loc) (n : Nat) : (s.zeroRange l n).cells = s.cells := rfl
@[simp] theorem State.zeroRange_time (s : State) (l : Loc) (n : Nat) : (s.zeroRange l n).time = s.time := rfl
@[simp] theorem State.zeroRange_maxSec (s : State) (l : Loc) (n : Nat) : (s.zeroRange l n).maxSec = s.maxSec := rfl
@[simp] theorem State.zeroRange_tickCount (s : State) (l : Loc) (n : Nat) : (s.zeroRange l n).tickCount = s.tickCount := rfl
@[simp] theorem State.zeroRange_freeCtr (s : State) (l : Loc) (n : Nat) : (s.zeroRange l n).freeCtr = s.freeCtr := rfl
@[simp] theorem State.zeroRange_held (s : State) (l : Loc) (n : Nat) : (s.zeroRange l n).held = s.held := rfl
@[simp] theorem State.zeroRange_stalled (s : State) (l : Loc) (n : Nat) : (s.zeroRange l n).stalled = s.stalled := rfl
@[simp] theorem State.zeroRange_late (s : State) (l : Loc) (n : Nat) : (s.zeroRange l n).late = s.late := rfl
@[simp] theorem State.zeroRange_engineWrites (s : State) (l : Loc) (n : Nat) : (s.zeroRange l n).engineWrites = s.engineWrites := rfl
@[simp] theorem State.zeroRange_storing (s : State) (l : Loc) (n : Nat) : (s.zeroRange l n).storing = s.storing := rfl
@[simp] theorem State.zeroRange_calPayload (s : State) (l : Loc) (n : Nat) : (s.zeroRange l n).calPayload = s.calPayload := rfl
@[simp] theorem State.zeroRange_grants (s : State) (l : Loc) (n : Nat) : (s.zeroRange l n).grants = s.grants := rfl
@[simp] theorem State.zeroRange_leafCmds (s : State) (l : Loc) (n : Nat) : (s.zeroRange l n).leafCmds = s.leafCmds := rfl
@[simp] theorem State.zeroRange_leafGrants (s : State) (l : Loc) (n : Nat) : (s.zeroRange l n).leafGrants = s.leafGrants := rfl
@[simp] theorem State.zeroRange_outer (s : State) (l : Loc) (n : Nat) : (s.zeroRange l n).outer = s.outer := rfl
@[simp] theorem State.zeroRange_txPay (s : State) (l : Loc) (n : Nat) : (s.zeroRange l n).txPay = s.txPay := rfl
@[simp] theorem State.zeroRange_ldm (s : State) (l : Loc) (n : Nat) : (s.zeroRange l n).ldm = s.ldm := rfl
@[simp] theorem State.zeroRange_bips (s : State) (l : Loc) (n : Nat) : (s.zeroRange l n).bips = s.bips := rfl
@[simp] theorem State.zeroRange_laneEqs (s : State) (l : Loc) (n : Nat) : (s.zeroRange l n).laneEqs = s.laneEqs := rfl
@[simp] theorem State.zeroRange_paths (s : State) (l : Loc) (n : Nat) : (s.zeroRange l n).paths = s.paths := rfl
@[simp] theorem State.zeroRange_queued (s : State) (l : Loc) (n : Nat) : (s.zeroRange l n).queued = s.queued := rfl
@[simp] theorem State.zeroRange_flights (s : State) (l : Loc) (n : Nat) : (s.zeroRange l n).flights = s.flights := rfl
@[simp] theorem State.zeroRange_egress (s : State) (l : Loc) (n : Nat) : (s.zeroRange l n).egress = s.egress := rfl
@[simp] theorem State.zeroRange_order (s : State) (l : Loc) (n : Nat) : (s.zeroRange l n).order = s.order := rfl
@[simp] theorem State.zeroRange_segments (s : State) (l : Loc) (n : Nat) : (s.zeroRange l n).segments = s.segments := rfl
@[simp] theorem State.zeroRange_segTags (s : State) (l : Loc) (n : Nat) : (s.zeroRange l n).segTags = s.segTags := rfl
@[simp] theorem State.zeroRange_hist (s : State) (l : Loc) (n : Nat) : (s.zeroRange l n).hist = s.hist := rfl
@[simp] theorem State.zeroRange_evtLog (s : State) (l : Loc) (n : Nat) : (s.zeroRange l n).evtLog = s.evtLog := rfl
@[simp] theorem State.zeroRange_posted (s : State) (l : Loc) (n : Nat) : (s.zeroRange l n).posted = s.posted := rfl
@[simp] theorem State.zeroRange_staged (s : State) (l : Loc) (n : Nat) : (s.zeroRange l n).staged = s.staged := rfl
@[simp] theorem State.zeroRange_ptpRx (s : State) (l : Loc) (n : Nat) : (s.zeroRange l n).ptpRx = s.ptpRx := rfl
@[simp] theorem State.zeroRange_ptpTx (s : State) (l : Loc) (n : Nat) : (s.zeroRange l n).ptpTx = s.ptpTx := rfl
@[simp] theorem State.zeroRange_ptpPart (s : State) (l : Loc) (n : Nat) : (s.zeroRange l n).ptpPart = s.ptpPart := rfl
@[simp] theorem State.zeroRange_txts (s : State) (l : Loc) (n : Nat) : (s.zeroRange l n).txts = s.txts := rfl
@[simp] theorem State.zeroRange_sumPrev (s : State) (l : Loc) (n : Nat) : (s.zeroRange l n).sumPrev = s.sumPrev := rfl
@[simp] theorem State.zeroRange_sumPend (s : State) (l : Loc) (n : Nat) : (s.zeroRange l n).sumPend = s.sumPend := rfl
@[simp] theorem State.zeroRange_snap (s : State) (l : Loc) (n : Nat) : (s.zeroRange l n).snap = s.snap := rfl
@[simp] theorem State.zeroRange_vecIn (s : State) (l : Loc) (n : Nat) : (s.zeroRange l n).vecIn = s.vecIn := rfl
@[simp] theorem State.zeroRange_vecPend (s : State) (l : Loc) (n : Nat) : (s.zeroRange l n).vecPend = s.vecPend := rfl
@[simp] theorem State.zeroRange_alarm (s : State) (l : Loc) (n : Nat) : (s.zeroRange l n).alarm = s.alarm := rfl
@[simp] theorem State.zeroRange_sent (s : State) (l : Loc) (n : Nat) : (s.zeroRange l n).sent = s.sent := rfl
@[simp] theorem State.zeroRange_pending (s : State) (l : Loc) (n : Nat) : (s.zeroRange l n).pending = s.pending := rfl

/-! ## State.clrBit -/

@[simp] theorem State.clrBit_inReset (s : State) (f : Fld) (b : Nat) : (s.clrBit f b).inReset = s.inReset := by
  unfold State.clrBit; split <;> rfl
@[simp] theorem State.clrBit_mem (s : State) (f : Fld) (b : Nat) : (s.clrBit f b).mem = s.mem := by
  unfold State.clrBit; split <;> rfl
@[simp] theorem State.clrBit_time (s : State) (f : Fld) (b : Nat) : (s.clrBit f b).time = s.time := by
  unfold State.clrBit; split <;> rfl
@[simp] theorem State.clrBit_maxSec (s : State) (f : Fld) (b : Nat) : (s.clrBit f b).maxSec = s.maxSec := by
  unfold State.clrBit; split <;> rfl
@[simp] theorem State.clrBit_tickCount (s : State) (f : Fld) (b : Nat) : (s.clrBit f b).tickCount = s.tickCount := by
  unfold State.clrBit; split <;> rfl
@[simp] theorem State.clrBit_freeCtr (s : State) (f : Fld) (b : Nat) : (s.clrBit f b).freeCtr = s.freeCtr := by
  unfold State.clrBit; split <;> rfl
@[simp] theorem State.clrBit_held (s : State) (f : Fld) (b : Nat) : (s.clrBit f b).held = s.held := by
  unfold State.clrBit; split <;> rfl
@[simp] theorem State.clrBit_stalled (s : State) (f : Fld) (b : Nat) : (s.clrBit f b).stalled = s.stalled := by
  unfold State.clrBit; split <;> rfl
@[simp] theorem State.clrBit_late (s : State) (f : Fld) (b : Nat) : (s.clrBit f b).late = s.late := by
  unfold State.clrBit; split <;> rfl
@[simp] theorem State.clrBit_engineWrites (s : State) (f : Fld) (b : Nat) : (s.clrBit f b).engineWrites = s.engineWrites := by
  unfold State.clrBit; split <;> rfl
@[simp] theorem State.clrBit_storing (s : State) (f : Fld) (b : Nat) : (s.clrBit f b).storing = s.storing := by
  unfold State.clrBit; split <;> rfl
@[simp] theorem State.clrBit_calPayload (s : State) (f : Fld) (b : Nat) : (s.clrBit f b).calPayload = s.calPayload := by
  unfold State.clrBit; split <;> rfl
@[simp] theorem State.clrBit_grants (s : State) (f : Fld) (b : Nat) : (s.clrBit f b).grants = s.grants := by
  unfold State.clrBit; split <;> rfl
@[simp] theorem State.clrBit_leafCmds (s : State) (f : Fld) (b : Nat) : (s.clrBit f b).leafCmds = s.leafCmds := by
  unfold State.clrBit; split <;> rfl
@[simp] theorem State.clrBit_leafGrants (s : State) (f : Fld) (b : Nat) : (s.clrBit f b).leafGrants = s.leafGrants := by
  unfold State.clrBit; split <;> rfl
@[simp] theorem State.clrBit_outer (s : State) (f : Fld) (b : Nat) : (s.clrBit f b).outer = s.outer := by
  unfold State.clrBit; split <;> rfl
@[simp] theorem State.clrBit_txPay (s : State) (f : Fld) (b : Nat) : (s.clrBit f b).txPay = s.txPay := by
  unfold State.clrBit; split <;> rfl
@[simp] theorem State.clrBit_ldm (s : State) (f : Fld) (b : Nat) : (s.clrBit f b).ldm = s.ldm := by
  unfold State.clrBit; split <;> rfl
@[simp] theorem State.clrBit_bips (s : State) (f : Fld) (b : Nat) : (s.clrBit f b).bips = s.bips := by
  unfold State.clrBit; split <;> rfl
@[simp] theorem State.clrBit_laneEqs (s : State) (f : Fld) (b : Nat) : (s.clrBit f b).laneEqs = s.laneEqs := by
  unfold State.clrBit; split <;> rfl
@[simp] theorem State.clrBit_paths (s : State) (f : Fld) (b : Nat) : (s.clrBit f b).paths = s.paths := by
  unfold State.clrBit; split <;> rfl
@[simp] theorem State.clrBit_queued (s : State) (f : Fld) (b : Nat) : (s.clrBit f b).queued = s.queued := by
  unfold State.clrBit; split <;> rfl
@[simp] theorem State.clrBit_flights (s : State) (f : Fld) (b : Nat) : (s.clrBit f b).flights = s.flights := by
  unfold State.clrBit; split <;> rfl
@[simp] theorem State.clrBit_egress (s : State) (f : Fld) (b : Nat) : (s.clrBit f b).egress = s.egress := by
  unfold State.clrBit; split <;> rfl
@[simp] theorem State.clrBit_order (s : State) (f : Fld) (b : Nat) : (s.clrBit f b).order = s.order := by
  unfold State.clrBit; split <;> rfl
@[simp] theorem State.clrBit_segments (s : State) (f : Fld) (b : Nat) : (s.clrBit f b).segments = s.segments := by
  unfold State.clrBit; split <;> rfl
@[simp] theorem State.clrBit_segTags (s : State) (f : Fld) (b : Nat) : (s.clrBit f b).segTags = s.segTags := by
  unfold State.clrBit; split <;> rfl
@[simp] theorem State.clrBit_hist (s : State) (f : Fld) (b : Nat) : (s.clrBit f b).hist = s.hist := by
  unfold State.clrBit; split <;> rfl
@[simp] theorem State.clrBit_evtLog (s : State) (f : Fld) (b : Nat) : (s.clrBit f b).evtLog = s.evtLog := by
  unfold State.clrBit; split <;> rfl
@[simp] theorem State.clrBit_posted (s : State) (f : Fld) (b : Nat) : (s.clrBit f b).posted = s.posted := by
  unfold State.clrBit; split <;> rfl
@[simp] theorem State.clrBit_staged (s : State) (f : Fld) (b : Nat) : (s.clrBit f b).staged = s.staged := by
  unfold State.clrBit; split <;> rfl
@[simp] theorem State.clrBit_ptpRx (s : State) (f : Fld) (b : Nat) : (s.clrBit f b).ptpRx = s.ptpRx := by
  unfold State.clrBit; split <;> rfl
@[simp] theorem State.clrBit_ptpTx (s : State) (f : Fld) (b : Nat) : (s.clrBit f b).ptpTx = s.ptpTx := by
  unfold State.clrBit; split <;> rfl
@[simp] theorem State.clrBit_ptpPart (s : State) (f : Fld) (b : Nat) : (s.clrBit f b).ptpPart = s.ptpPart := by
  unfold State.clrBit; split <;> rfl
@[simp] theorem State.clrBit_txts (s : State) (f : Fld) (b : Nat) : (s.clrBit f b).txts = s.txts := by
  unfold State.clrBit; split <;> rfl
@[simp] theorem State.clrBit_sumPrev (s : State) (f : Fld) (b : Nat) : (s.clrBit f b).sumPrev = s.sumPrev := by
  unfold State.clrBit; split <;> rfl
@[simp] theorem State.clrBit_sumPend (s : State) (f : Fld) (b : Nat) : (s.clrBit f b).sumPend = s.sumPend := by
  unfold State.clrBit; split <;> rfl
@[simp] theorem State.clrBit_snap (s : State) (f : Fld) (b : Nat) : (s.clrBit f b).snap = s.snap := by
  unfold State.clrBit; split <;> rfl
@[simp] theorem State.clrBit_vecIn (s : State) (f : Fld) (b : Nat) : (s.clrBit f b).vecIn = s.vecIn := by
  unfold State.clrBit; split <;> rfl
@[simp] theorem State.clrBit_vecPend (s : State) (f : Fld) (b : Nat) : (s.clrBit f b).vecPend = s.vecPend := by
  unfold State.clrBit; split <;> rfl
@[simp] theorem State.clrBit_alarm (s : State) (f : Fld) (b : Nat) : (s.clrBit f b).alarm = s.alarm := by
  unfold State.clrBit; split <;> rfl
@[simp] theorem State.clrBit_sent (s : State) (f : Fld) (b : Nat) : (s.clrBit f b).sent = s.sent := by
  unfold State.clrBit; split <;> rfl
@[simp] theorem State.clrBit_pending (s : State) (f : Fld) (b : Nat) : (s.clrBit f b).pending = s.pending := by
  unfold State.clrBit; split <;> rfl

/-! ## State.raise -/

@[simp] theorem State.raise_inReset (s : State) (p : Page) (b : Nat) : (s.raise p b).inReset = s.inReset := by cases p <;> rfl
@[simp] theorem State.raise_mem (s : State) (p : Page) (b : Nat) : (s.raise p b).mem = s.mem := by cases p <;> rfl
@[simp] theorem State.raise_time (s : State) (p : Page) (b : Nat) : (s.raise p b).time = s.time := by cases p <;> rfl
@[simp] theorem State.raise_maxSec (s : State) (p : Page) (b : Nat) : (s.raise p b).maxSec = s.maxSec := by cases p <;> rfl
@[simp] theorem State.raise_tickCount (s : State) (p : Page) (b : Nat) : (s.raise p b).tickCount = s.tickCount := by cases p <;> rfl
@[simp] theorem State.raise_freeCtr (s : State) (p : Page) (b : Nat) : (s.raise p b).freeCtr = s.freeCtr := by cases p <;> rfl
@[simp] theorem State.raise_held (s : State) (p : Page) (b : Nat) : (s.raise p b).held = s.held := by cases p <;> rfl
@[simp] theorem State.raise_stalled (s : State) (p : Page) (b : Nat) : (s.raise p b).stalled = s.stalled := by cases p <;> rfl
@[simp] theorem State.raise_late (s : State) (p : Page) (b : Nat) : (s.raise p b).late = s.late := by cases p <;> rfl
@[simp] theorem State.raise_engineWrites (s : State) (p : Page) (b : Nat) : (s.raise p b).engineWrites = s.engineWrites := by cases p <;> rfl
@[simp] theorem State.raise_storing (s : State) (p : Page) (b : Nat) : (s.raise p b).storing = s.storing := by cases p <;> rfl
@[simp] theorem State.raise_calPayload (s : State) (p : Page) (b : Nat) : (s.raise p b).calPayload = s.calPayload := by cases p <;> rfl
@[simp] theorem State.raise_grants (s : State) (p : Page) (b : Nat) : (s.raise p b).grants = s.grants := by cases p <;> rfl
@[simp] theorem State.raise_leafCmds (s : State) (p : Page) (b : Nat) : (s.raise p b).leafCmds = s.leafCmds := by cases p <;> rfl
@[simp] theorem State.raise_leafGrants (s : State) (p : Page) (b : Nat) : (s.raise p b).leafGrants = s.leafGrants := by cases p <;> rfl
@[simp] theorem State.raise_outer (s : State) (p : Page) (b : Nat) : (s.raise p b).outer = s.outer := by cases p <;> rfl
@[simp] theorem State.raise_txPay (s : State) (p : Page) (b : Nat) : (s.raise p b).txPay = s.txPay := by cases p <;> rfl
@[simp] theorem State.raise_ldm (s : State) (p : Page) (b : Nat) : (s.raise p b).ldm = s.ldm := by cases p <;> rfl
@[simp] theorem State.raise_bips (s : State) (p : Page) (b : Nat) : (s.raise p b).bips = s.bips := by cases p <;> rfl
@[simp] theorem State.raise_laneEqs (s : State) (p : Page) (b : Nat) : (s.raise p b).laneEqs = s.laneEqs := by cases p <;> rfl
@[simp] theorem State.raise_paths (s : State) (p : Page) (b : Nat) : (s.raise p b).paths = s.paths := by cases p <;> rfl
@[simp] theorem State.raise_queued (s : State) (p : Page) (b : Nat) : (s.raise p b).queued = s.queued := by cases p <;> rfl
@[simp] theorem State.raise_flights (s : State) (p : Page) (b : Nat) : (s.raise p b).flights = s.flights := by cases p <;> rfl
@[simp] theorem State.raise_egress (s : State) (p : Page) (b : Nat) : (s.raise p b).egress = s.egress := by cases p <;> rfl
@[simp] theorem State.raise_order (s : State) (p : Page) (b : Nat) : (s.raise p b).order = s.order := by cases p <;> rfl
@[simp] theorem State.raise_segments (s : State) (p : Page) (b : Nat) : (s.raise p b).segments = s.segments := by cases p <;> rfl
@[simp] theorem State.raise_segTags (s : State) (p : Page) (b : Nat) : (s.raise p b).segTags = s.segTags := by cases p <;> rfl
@[simp] theorem State.raise_hist (s : State) (p : Page) (b : Nat) : (s.raise p b).hist = s.hist := by cases p <;> rfl
@[simp] theorem State.raise_evtLog (s : State) (p : Page) (b : Nat) : (s.raise p b).evtLog = s.evtLog := by cases p <;> rfl
@[simp] theorem State.raise_posted (s : State) (p : Page) (b : Nat) : (s.raise p b).posted = s.posted := by cases p <;> rfl
@[simp] theorem State.raise_staged (s : State) (p : Page) (b : Nat) : (s.raise p b).staged = s.staged := by cases p <;> rfl
@[simp] theorem State.raise_ptpRx (s : State) (p : Page) (b : Nat) : (s.raise p b).ptpRx = s.ptpRx := by cases p <;> rfl
@[simp] theorem State.raise_ptpTx (s : State) (p : Page) (b : Nat) : (s.raise p b).ptpTx = s.ptpTx := by cases p <;> rfl
@[simp] theorem State.raise_ptpPart (s : State) (p : Page) (b : Nat) : (s.raise p b).ptpPart = s.ptpPart := by cases p <;> rfl
@[simp] theorem State.raise_txts (s : State) (p : Page) (b : Nat) : (s.raise p b).txts = s.txts := by cases p <;> rfl
@[simp] theorem State.raise_sumPrev (s : State) (p : Page) (b : Nat) : (s.raise p b).sumPrev = s.sumPrev := by cases p <;> rfl
@[simp] theorem State.raise_sumPend (s : State) (p : Page) (b : Nat) : (s.raise p b).sumPend = s.sumPend := by cases p <;> rfl
@[simp] theorem State.raise_snap (s : State) (p : Page) (b : Nat) : (s.raise p b).snap = s.snap := by cases p <;> rfl
@[simp] theorem State.raise_vecIn (s : State) (p : Page) (b : Nat) : (s.raise p b).vecIn = s.vecIn := by cases p <;> rfl
@[simp] theorem State.raise_vecPend (s : State) (p : Page) (b : Nat) : (s.raise p b).vecPend = s.vecPend := by cases p <;> rfl
@[simp] theorem State.raise_alarm (s : State) (p : Page) (b : Nat) : (s.raise p b).alarm = s.alarm := by cases p <;> rfl
@[simp] theorem State.raise_sent (s : State) (p : Page) (b : Nat) : (s.raise p b).sent = s.sent := by cases p <;> rfl
@[simp] theorem State.raise_pending (s : State) (p : Page) (b : Nat) : (s.raise p b).pending = s.pending := by cases p <;> rfl

/-! ## State.raiseIf -/

@[simp] theorem State.raiseIf_inReset (s : State) (p : Page) (b : Nat) (x : Bool) : (s.raiseIf p b x).inReset = s.inReset := by
  cases x <;> simp [State.raiseIf]
@[simp] theorem State.raiseIf_mem (s : State) (p : Page) (b : Nat) (x : Bool) : (s.raiseIf p b x).mem = s.mem := by
  cases x <;> simp [State.raiseIf]
@[simp] theorem State.raiseIf_time (s : State) (p : Page) (b : Nat) (x : Bool) : (s.raiseIf p b x).time = s.time := by
  cases x <;> simp [State.raiseIf]
@[simp] theorem State.raiseIf_maxSec (s : State) (p : Page) (b : Nat) (x : Bool) : (s.raiseIf p b x).maxSec = s.maxSec := by
  cases x <;> simp [State.raiseIf]
@[simp] theorem State.raiseIf_tickCount (s : State) (p : Page) (b : Nat) (x : Bool) : (s.raiseIf p b x).tickCount = s.tickCount := by
  cases x <;> simp [State.raiseIf]
@[simp] theorem State.raiseIf_freeCtr (s : State) (p : Page) (b : Nat) (x : Bool) : (s.raiseIf p b x).freeCtr = s.freeCtr := by
  cases x <;> simp [State.raiseIf]
@[simp] theorem State.raiseIf_held (s : State) (p : Page) (b : Nat) (x : Bool) : (s.raiseIf p b x).held = s.held := by
  cases x <;> simp [State.raiseIf]
@[simp] theorem State.raiseIf_stalled (s : State) (p : Page) (b : Nat) (x : Bool) : (s.raiseIf p b x).stalled = s.stalled := by
  cases x <;> simp [State.raiseIf]
@[simp] theorem State.raiseIf_late (s : State) (p : Page) (b : Nat) (x : Bool) : (s.raiseIf p b x).late = s.late := by
  cases x <;> simp [State.raiseIf]
@[simp] theorem State.raiseIf_engineWrites (s : State) (p : Page) (b : Nat) (x : Bool) : (s.raiseIf p b x).engineWrites = s.engineWrites := by
  cases x <;> simp [State.raiseIf]
@[simp] theorem State.raiseIf_storing (s : State) (p : Page) (b : Nat) (x : Bool) : (s.raiseIf p b x).storing = s.storing := by
  cases x <;> simp [State.raiseIf]
@[simp] theorem State.raiseIf_calPayload (s : State) (p : Page) (b : Nat) (x : Bool) : (s.raiseIf p b x).calPayload = s.calPayload := by
  cases x <;> simp [State.raiseIf]
@[simp] theorem State.raiseIf_grants (s : State) (p : Page) (b : Nat) (x : Bool) : (s.raiseIf p b x).grants = s.grants := by
  cases x <;> simp [State.raiseIf]
@[simp] theorem State.raiseIf_leafCmds (s : State) (p : Page) (b : Nat) (x : Bool) : (s.raiseIf p b x).leafCmds = s.leafCmds := by
  cases x <;> simp [State.raiseIf]
@[simp] theorem State.raiseIf_leafGrants (s : State) (p : Page) (b : Nat) (x : Bool) : (s.raiseIf p b x).leafGrants = s.leafGrants := by
  cases x <;> simp [State.raiseIf]
@[simp] theorem State.raiseIf_outer (s : State) (p : Page) (b : Nat) (x : Bool) : (s.raiseIf p b x).outer = s.outer := by
  cases x <;> simp [State.raiseIf]
@[simp] theorem State.raiseIf_txPay (s : State) (p : Page) (b : Nat) (x : Bool) : (s.raiseIf p b x).txPay = s.txPay := by
  cases x <;> simp [State.raiseIf]
@[simp] theorem State.raiseIf_ldm (s : State) (p : Page) (b : Nat) (x : Bool) : (s.raiseIf p b x).ldm = s.ldm := by
  cases x <;> simp [State.raiseIf]
@[simp] theorem State.raiseIf_bips (s : State) (p : Page) (b : Nat) (x : Bool) : (s.raiseIf p b x).bips = s.bips := by
  cases x <;> simp [State.raiseIf]
@[simp] theorem State.raiseIf_laneEqs (s : State) (p : Page) (b : Nat) (x : Bool) : (s.raiseIf p b x).laneEqs = s.laneEqs := by
  cases x <;> simp [State.raiseIf]
@[simp] theorem State.raiseIf_paths (s : State) (p : Page) (b : Nat) (x : Bool) : (s.raiseIf p b x).paths = s.paths := by
  cases x <;> simp [State.raiseIf]
@[simp] theorem State.raiseIf_queued (s : State) (p : Page) (b : Nat) (x : Bool) : (s.raiseIf p b x).queued = s.queued := by
  cases x <;> simp [State.raiseIf]
@[simp] theorem State.raiseIf_flights (s : State) (p : Page) (b : Nat) (x : Bool) : (s.raiseIf p b x).flights = s.flights := by
  cases x <;> simp [State.raiseIf]
@[simp] theorem State.raiseIf_egress (s : State) (p : Page) (b : Nat) (x : Bool) : (s.raiseIf p b x).egress = s.egress := by
  cases x <;> simp [State.raiseIf]
@[simp] theorem State.raiseIf_order (s : State) (p : Page) (b : Nat) (x : Bool) : (s.raiseIf p b x).order = s.order := by
  cases x <;> simp [State.raiseIf]
@[simp] theorem State.raiseIf_segments (s : State) (p : Page) (b : Nat) (x : Bool) : (s.raiseIf p b x).segments = s.segments := by
  cases x <;> simp [State.raiseIf]
@[simp] theorem State.raiseIf_segTags (s : State) (p : Page) (b : Nat) (x : Bool) : (s.raiseIf p b x).segTags = s.segTags := by
  cases x <;> simp [State.raiseIf]
@[simp] theorem State.raiseIf_hist (s : State) (p : Page) (b : Nat) (x : Bool) : (s.raiseIf p b x).hist = s.hist := by
  cases x <;> simp [State.raiseIf]
@[simp] theorem State.raiseIf_evtLog (s : State) (p : Page) (b : Nat) (x : Bool) : (s.raiseIf p b x).evtLog = s.evtLog := by
  cases x <;> simp [State.raiseIf]
@[simp] theorem State.raiseIf_posted (s : State) (p : Page) (b : Nat) (x : Bool) : (s.raiseIf p b x).posted = s.posted := by
  cases x <;> simp [State.raiseIf]
@[simp] theorem State.raiseIf_staged (s : State) (p : Page) (b : Nat) (x : Bool) : (s.raiseIf p b x).staged = s.staged := by
  cases x <;> simp [State.raiseIf]
@[simp] theorem State.raiseIf_ptpRx (s : State) (p : Page) (b : Nat) (x : Bool) : (s.raiseIf p b x).ptpRx = s.ptpRx := by
  cases x <;> simp [State.raiseIf]
@[simp] theorem State.raiseIf_ptpTx (s : State) (p : Page) (b : Nat) (x : Bool) : (s.raiseIf p b x).ptpTx = s.ptpTx := by
  cases x <;> simp [State.raiseIf]
@[simp] theorem State.raiseIf_ptpPart (s : State) (p : Page) (b : Nat) (x : Bool) : (s.raiseIf p b x).ptpPart = s.ptpPart := by
  cases x <;> simp [State.raiseIf]
@[simp] theorem State.raiseIf_txts (s : State) (p : Page) (b : Nat) (x : Bool) : (s.raiseIf p b x).txts = s.txts := by
  cases x <;> simp [State.raiseIf]
@[simp] theorem State.raiseIf_sumPrev (s : State) (p : Page) (b : Nat) (x : Bool) : (s.raiseIf p b x).sumPrev = s.sumPrev := by
  cases x <;> simp [State.raiseIf]
@[simp] theorem State.raiseIf_sumPend (s : State) (p : Page) (b : Nat) (x : Bool) : (s.raiseIf p b x).sumPend = s.sumPend := by
  cases x <;> simp [State.raiseIf]
@[simp] theorem State.raiseIf_snap (s : State) (p : Page) (b : Nat) (x : Bool) : (s.raiseIf p b x).snap = s.snap := by
  cases x <;> simp [State.raiseIf]
@[simp] theorem State.raiseIf_vecIn (s : State) (p : Page) (b : Nat) (x : Bool) : (s.raiseIf p b x).vecIn = s.vecIn := by
  cases x <;> simp [State.raiseIf]
@[simp] theorem State.raiseIf_vecPend (s : State) (p : Page) (b : Nat) (x : Bool) : (s.raiseIf p b x).vecPend = s.vecPend := by
  cases x <;> simp [State.raiseIf]
@[simp] theorem State.raiseIf_alarm (s : State) (p : Page) (b : Nat) (x : Bool) : (s.raiseIf p b x).alarm = s.alarm := by
  cases x <;> simp [State.raiseIf]
@[simp] theorem State.raiseIf_sent (s : State) (p : Page) (b : Nat) (x : Bool) : (s.raiseIf p b x).sent = s.sent := by
  cases x <;> simp [State.raiseIf]
@[simp] theorem State.raiseIf_pending (s : State) (p : Page) (b : Nat) (x : Bool) : (s.raiseIf p b x).pending = s.pending := by
  cases x <;> simp [State.raiseIf]

/-! ## State.setBytes -/

@[simp] theorem State.setBytes_inReset (s : State) (k v n : Nat) : (s.setBytes k v n).inReset = s.inReset := by
  induction n generalizing s k v with
  | zero => rfl
  | succ n ih => simp [State.setBytes, ih]
@[simp] theorem State.setBytes_cells (s : State) (k v n : Nat) : (s.setBytes k v n).cells = s.cells := by
  induction n generalizing s k v with
  | zero => rfl
  | succ n ih => simp [State.setBytes, ih]
@[simp] theorem State.setBytes_time (s : State) (k v n : Nat) : (s.setBytes k v n).time = s.time := by
  induction n generalizing s k v with
  | zero => rfl
  | succ n ih => simp [State.setBytes, ih]
@[simp] theorem State.setBytes_maxSec (s : State) (k v n : Nat) : (s.setBytes k v n).maxSec = s.maxSec := by
  induction n generalizing s k v with
  | zero => rfl
  | succ n ih => simp [State.setBytes, ih]
@[simp] theorem State.setBytes_tickCount (s : State) (k v n : Nat) : (s.setBytes k v n).tickCount = s.tickCount := by
  induction n generalizing s k v with
  | zero => rfl
  | succ n ih => simp [State.setBytes, ih]
@[simp] theorem State.setBytes_freeCtr (s : State) (k v n : Nat) : (s.setBytes k v n).freeCtr = s.freeCtr := by
  induction n generalizing s k v with
  | zero => rfl
  | succ n ih => simp [State.setBytes, ih]
@[simp] theorem State.setBytes_held (s : State) (k v n : Nat) : (s.setBytes k v n).held = s.held := by
  induction n generalizing s k v with
  | zero => rfl
  | succ n ih => simp [State.setBytes, ih]
@[simp] theorem State.setBytes_stalled (s : State) (k v n : Nat) : (s.setBytes k v n).stalled = s.stalled := by
  induction n generalizing s k v with
  | zero => rfl
  | succ n ih => simp [State.setBytes, ih]
@[simp] theorem State.setBytes_late (s : State) (k v n : Nat) : (s.setBytes k v n).late = s.late := by
  induction n generalizing s k v with
  | zero => rfl
  | succ n ih => simp [State.setBytes, ih]
@[simp] theorem State.setBytes_engineWrites (s : State) (k v n : Nat) : (s.setBytes k v n).engineWrites = s.engineWrites := by
  induction n generalizing s k v with
  | zero => rfl
  | succ n ih => simp [State.setBytes, ih]
@[simp] theorem State.setBytes_storing (s : State) (k v n : Nat) : (s.setBytes k v n).storing = s.storing := by
  induction n generalizing s k v with
  | zero => rfl
  | succ n ih => simp [State.setBytes, ih]
@[simp] theorem State.setBytes_calPayload (s : State) (k v n : Nat) : (s.setBytes k v n).calPayload = s.calPayload := by
  induction n generalizing s k v with
  | zero => rfl
  | succ n ih => simp [State.setBytes, ih]
@[simp] theorem State.setBytes_grants (s : State) (k v n : Nat) : (s.setBytes k v n).grants = s.grants := by
  induction n generalizing s k v with
  | zero => rfl
  | succ n ih => simp [State.setBytes, ih]
@[simp] theorem State.setBytes_leafCmds (s : State) (k v n : Nat) : (s.setBytes k v n).leafCmds = s.leafCmds := by
  induction n generalizing s k v with
  | zero => rfl
  | succ n ih => simp [State.setBytes, ih]
@[simp] theorem State.setBytes_leafGrants (s : State) (k v n : Nat) : (s.setBytes k v n).leafGrants = s.leafGrants := by
  induction n generalizing s k v with
  | zero => rfl
  | succ n ih => simp [State.setBytes, ih]
@[simp] theorem State.setBytes_outer (s : State) (k v n : Nat) : (s.setBytes k v n).outer = s.outer := by
  induction n generalizing s k v with
  | zero => rfl
  | succ n ih => simp [State.setBytes, ih]
@[simp] theorem State.setBytes_txPay (s : State) (k v n : Nat) : (s.setBytes k v n).txPay = s.txPay := by
  induction n generalizing s k v with
  | zero => rfl
  | succ n ih => simp [State.setBytes, ih]
@[simp] theorem State.setBytes_ldm (s : State) (k v n : Nat) : (s.setBytes k v n).ldm = s.ldm := by
  induction n generalizing s k v with
  | zero => rfl
  | succ n ih => simp [State.setBytes, ih]
@[simp] theorem State.setBytes_bips (s : State) (k v n : Nat) : (s.setBytes k v n).bips = s.bips := by
  induction n generalizing s k v with
  | zero => rfl
  | succ n ih => simp [State.setBytes, ih]
@[simp] theorem State.setBytes_laneEqs (s : State) (k v n : Nat) : (s.setBytes k v n).laneEqs = s.laneEqs := by
  induction n generalizing s k v with
  | zero => rfl
  | succ n ih => simp [State.setBytes, ih]
@[simp] theorem State.setBytes_paths (s : State) (k v n : Nat) : (s.setBytes k v n).paths = s.paths := by
  induction n generalizing s k v with
  | zero => rfl
  | succ n ih => simp [State.setBytes, ih]
@[simp] theorem State.setBytes_queued (s : State) (k v n : Nat) : (s.setBytes k v n).queued = s.queued := by
  induction n generalizing s k v with
  | zero => rfl
  | succ n ih => simp [State.setBytes, ih]
@[simp] theorem State.setBytes_flights (s : State) (k v n : Nat) : (s.setBytes k v n).flights = s.flights := by
  induction n generalizing s k v with
  | zero => rfl
  | succ n ih => simp [State.setBytes, ih]
@[simp] theorem State.setBytes_egress (s : State) (k v n : Nat) : (s.setBytes k v n).egress = s.egress := by
  induction n generalizing s k v with
  | zero => rfl
  | succ n ih => simp [State.setBytes, ih]
@[simp] theorem State.setBytes_order (s : State) (k v n : Nat) : (s.setBytes k v n).order = s.order := by
  induction n generalizing s k v with
  | zero => rfl
  | succ n ih => simp [State.setBytes, ih]
@[simp] theorem State.setBytes_segments (s : State) (k v n : Nat) : (s.setBytes k v n).segments = s.segments := by
  induction n generalizing s k v with
  | zero => rfl
  | succ n ih => simp [State.setBytes, ih]
@[simp] theorem State.setBytes_segTags (s : State) (k v n : Nat) : (s.setBytes k v n).segTags = s.segTags := by
  induction n generalizing s k v with
  | zero => rfl
  | succ n ih => simp [State.setBytes, ih]
@[simp] theorem State.setBytes_hist (s : State) (k v n : Nat) : (s.setBytes k v n).hist = s.hist := by
  induction n generalizing s k v with
  | zero => rfl
  | succ n ih => simp [State.setBytes, ih]
@[simp] theorem State.setBytes_evtLog (s : State) (k v n : Nat) : (s.setBytes k v n).evtLog = s.evtLog := by
  induction n generalizing s k v with
  | zero => rfl
  | succ n ih => simp [State.setBytes, ih]
@[simp] theorem State.setBytes_posted (s : State) (k v n : Nat) : (s.setBytes k v n).posted = s.posted := by
  induction n generalizing s k v with
  | zero => rfl
  | succ n ih => simp [State.setBytes, ih]
@[simp] theorem State.setBytes_staged (s : State) (k v n : Nat) : (s.setBytes k v n).staged = s.staged := by
  induction n generalizing s k v with
  | zero => rfl
  | succ n ih => simp [State.setBytes, ih]
@[simp] theorem State.setBytes_ptpRx (s : State) (k v n : Nat) : (s.setBytes k v n).ptpRx = s.ptpRx := by
  induction n generalizing s k v with
  | zero => rfl
  | succ n ih => simp [State.setBytes, ih]
@[simp] theorem State.setBytes_ptpTx (s : State) (k v n : Nat) : (s.setBytes k v n).ptpTx = s.ptpTx := by
  induction n generalizing s k v with
  | zero => rfl
  | succ n ih => simp [State.setBytes, ih]
@[simp] theorem State.setBytes_ptpPart (s : State) (k v n : Nat) : (s.setBytes k v n).ptpPart = s.ptpPart := by
  induction n generalizing s k v with
  | zero => rfl
  | succ n ih => simp [State.setBytes, ih]
@[simp] theorem State.setBytes_txts (s : State) (k v n : Nat) : (s.setBytes k v n).txts = s.txts := by
  induction n generalizing s k v with
  | zero => rfl
  | succ n ih => simp [State.setBytes, ih]
@[simp] theorem State.setBytes_sumPrev (s : State) (k v n : Nat) : (s.setBytes k v n).sumPrev = s.sumPrev := by
  induction n generalizing s k v with
  | zero => rfl
  | succ n ih => simp [State.setBytes, ih]
@[simp] theorem State.setBytes_sumPend (s : State) (k v n : Nat) : (s.setBytes k v n).sumPend = s.sumPend := by
  induction n generalizing s k v with
  | zero => rfl
  | succ n ih => simp [State.setBytes, ih]
@[simp] theorem State.setBytes_snap (s : State) (k v n : Nat) : (s.setBytes k v n).snap = s.snap := by
  induction n generalizing s k v with
  | zero => rfl
  | succ n ih => simp [State.setBytes, ih]
@[simp] theorem State.setBytes_vecIn (s : State) (k v n : Nat) : (s.setBytes k v n).vecIn = s.vecIn := by
  induction n generalizing s k v with
  | zero => rfl
  | succ n ih => simp [State.setBytes, ih]
@[simp] theorem State.setBytes_vecPend (s : State) (k v n : Nat) : (s.setBytes k v n).vecPend = s.vecPend := by
  induction n generalizing s k v with
  | zero => rfl
  | succ n ih => simp [State.setBytes, ih]
@[simp] theorem State.setBytes_alarm (s : State) (k v n : Nat) : (s.setBytes k v n).alarm = s.alarm := by
  induction n generalizing s k v with
  | zero => rfl
  | succ n ih => simp [State.setBytes, ih]
@[simp] theorem State.setBytes_sent (s : State) (k v n : Nat) : (s.setBytes k v n).sent = s.sent := by
  induction n generalizing s k v with
  | zero => rfl
  | succ n ih => simp [State.setBytes, ih]
@[simp] theorem State.setBytes_pending (s : State) (k v n : Nat) : (s.setBytes k v n).pending = s.pending := by
  induction n generalizing s k v with
  | zero => rfl
  | succ n ih => simp [State.setBytes, ih]

/-! ## State.storeRaw -/

@[simp] theorem State.storeRaw_inReset (s : State) (l : Loc) (d c : Nat) : (s.storeRaw l d c).inReset = s.inReset := by simp [State.storeRaw]
@[simp] theorem State.storeRaw_cells (s : State) (l : Loc) (d c : Nat) : (s.storeRaw l d c).cells = s.cells := by simp [State.storeRaw]
@[simp] theorem State.storeRaw_time (s : State) (l : Loc) (d c : Nat) : (s.storeRaw l d c).time = s.time := by simp [State.storeRaw]
@[simp] theorem State.storeRaw_maxSec (s : State) (l : Loc) (d c : Nat) : (s.storeRaw l d c).maxSec = s.maxSec := by simp [State.storeRaw]
@[simp] theorem State.storeRaw_tickCount (s : State) (l : Loc) (d c : Nat) : (s.storeRaw l d c).tickCount = s.tickCount := by simp [State.storeRaw]
@[simp] theorem State.storeRaw_freeCtr (s : State) (l : Loc) (d c : Nat) : (s.storeRaw l d c).freeCtr = s.freeCtr := by simp [State.storeRaw]
@[simp] theorem State.storeRaw_held (s : State) (l : Loc) (d c : Nat) : (s.storeRaw l d c).held = s.held := by simp [State.storeRaw]
@[simp] theorem State.storeRaw_stalled (s : State) (l : Loc) (d c : Nat) : (s.storeRaw l d c).stalled = s.stalled := by simp [State.storeRaw]
@[simp] theorem State.storeRaw_late (s : State) (l : Loc) (d c : Nat) : (s.storeRaw l d c).late = s.late := by simp [State.storeRaw]
@[simp] theorem State.storeRaw_engineWrites (s : State) (l : Loc) (d c : Nat) : (s.storeRaw l d c).engineWrites = s.engineWrites := by simp [State.storeRaw]
@[simp] theorem State.storeRaw_storing (s : State) (l : Loc) (d c : Nat) : (s.storeRaw l d c).storing = s.storing := by simp [State.storeRaw]
@[simp] theorem State.storeRaw_calPayload (s : State) (l : Loc) (d c : Nat) : (s.storeRaw l d c).calPayload = s.calPayload := by simp [State.storeRaw]
@[simp] theorem State.storeRaw_grants (s : State) (l : Loc) (d c : Nat) : (s.storeRaw l d c).grants = s.grants := by simp [State.storeRaw]
@[simp] theorem State.storeRaw_leafCmds (s : State) (l : Loc) (d c : Nat) : (s.storeRaw l d c).leafCmds = s.leafCmds := by simp [State.storeRaw]
@[simp] theorem State.storeRaw_leafGrants (s : State) (l : Loc) (d c : Nat) : (s.storeRaw l d c).leafGrants = s.leafGrants := by simp [State.storeRaw]
@[simp] theorem State.storeRaw_outer (s : State) (l : Loc) (d c : Nat) : (s.storeRaw l d c).outer = s.outer := by simp [State.storeRaw]
@[simp] theorem State.storeRaw_txPay (s : State) (l : Loc) (d c : Nat) : (s.storeRaw l d c).txPay = s.txPay := by simp [State.storeRaw]
@[simp] theorem State.storeRaw_ldm (s : State) (l : Loc) (d c : Nat) : (s.storeRaw l d c).ldm = s.ldm := by simp [State.storeRaw]
@[simp] theorem State.storeRaw_bips (s : State) (l : Loc) (d c : Nat) : (s.storeRaw l d c).bips = s.bips := by simp [State.storeRaw]
@[simp] theorem State.storeRaw_laneEqs (s : State) (l : Loc) (d c : Nat) : (s.storeRaw l d c).laneEqs = s.laneEqs := by simp [State.storeRaw]
@[simp] theorem State.storeRaw_paths (s : State) (l : Loc) (d c : Nat) : (s.storeRaw l d c).paths = s.paths := by simp [State.storeRaw]
@[simp] theorem State.storeRaw_queued (s : State) (l : Loc) (d c : Nat) : (s.storeRaw l d c).queued = s.queued := by simp [State.storeRaw]
@[simp] theorem State.storeRaw_flights (s : State) (l : Loc) (d c : Nat) : (s.storeRaw l d c).flights = s.flights := by simp [State.storeRaw]
@[simp] theorem State.storeRaw_egress (s : State) (l : Loc) (d c : Nat) : (s.storeRaw l d c).egress = s.egress := by simp [State.storeRaw]
@[simp] theorem State.storeRaw_order (s : State) (l : Loc) (d c : Nat) : (s.storeRaw l d c).order = s.order := by simp [State.storeRaw]
@[simp] theorem State.storeRaw_segments (s : State) (l : Loc) (d c : Nat) : (s.storeRaw l d c).segments = s.segments := by simp [State.storeRaw]
@[simp] theorem State.storeRaw_segTags (s : State) (l : Loc) (d c : Nat) : (s.storeRaw l d c).segTags = s.segTags := by simp [State.storeRaw]
@[simp] theorem State.storeRaw_hist (s : State) (l : Loc) (d c : Nat) : (s.storeRaw l d c).hist = s.hist := by simp [State.storeRaw]
@[simp] theorem State.storeRaw_evtLog (s : State) (l : Loc) (d c : Nat) : (s.storeRaw l d c).evtLog = s.evtLog := by simp [State.storeRaw]
@[simp] theorem State.storeRaw_posted (s : State) (l : Loc) (d c : Nat) : (s.storeRaw l d c).posted = s.posted := by simp [State.storeRaw]
@[simp] theorem State.storeRaw_staged (s : State) (l : Loc) (d c : Nat) : (s.storeRaw l d c).staged = s.staged := by simp [State.storeRaw]
@[simp] theorem State.storeRaw_ptpRx (s : State) (l : Loc) (d c : Nat) : (s.storeRaw l d c).ptpRx = s.ptpRx := by simp [State.storeRaw]
@[simp] theorem State.storeRaw_ptpTx (s : State) (l : Loc) (d c : Nat) : (s.storeRaw l d c).ptpTx = s.ptpTx := by simp [State.storeRaw]
@[simp] theorem State.storeRaw_ptpPart (s : State) (l : Loc) (d c : Nat) : (s.storeRaw l d c).ptpPart = s.ptpPart := by simp [State.storeRaw]
@[simp] theorem State.storeRaw_txts (s : State) (l : Loc) (d c : Nat) : (s.storeRaw l d c).txts = s.txts := by simp [State.storeRaw]
@[simp] theorem State.storeRaw_sumPrev (s : State) (l : Loc) (d c : Nat) : (s.storeRaw l d c).sumPrev = s.sumPrev := by simp [State.storeRaw]
@[simp] theorem State.storeRaw_sumPend (s : State) (l : Loc) (d c : Nat) : (s.storeRaw l d c).sumPend = s.sumPend := by simp [State.storeRaw]
@[simp] theorem State.storeRaw_snap (s : State) (l : Loc) (d c : Nat) : (s.storeRaw l d c).snap = s.snap := by simp [State.storeRaw]
@[simp] theorem State.storeRaw_vecIn (s : State) (l : Loc) (d c : Nat) : (s.storeRaw l d c).vecIn = s.vecIn := by simp [State.storeRaw]
@[simp] theorem State.storeRaw_vecPend (s : State) (l : Loc) (d c : Nat) : (s.storeRaw l d c).vecPend = s.vecPend := by simp [State.storeRaw]
@[simp] theorem State.storeRaw_alarm (s : State) (l : Loc) (d c : Nat) : (s.storeRaw l d c).alarm = s.alarm := by simp [State.storeRaw]
@[simp] theorem State.storeRaw_sent (s : State) (l : Loc) (d c : Nat) : (s.storeRaw l d c).sent = s.sent := by simp [State.storeRaw]
@[simp] theorem State.storeRaw_pending (s : State) (l : Loc) (d c : Nat) : (s.storeRaw l d c).pending = s.pending := by simp [State.storeRaw]

/-! ## State.store -/

@[simp] theorem State.store_inReset (s : State) (l : Loc) (d : Nat) : (s.store l d).inReset = s.inReset := by simp [State.store]
@[simp] theorem State.store_cells (s : State) (l : Loc) (d : Nat) : (s.store l d).cells = s.cells := by simp [State.store]
@[simp] theorem State.store_time (s : State) (l : Loc) (d : Nat) : (s.store l d).time = s.time := by simp [State.store]
@[simp] theorem State.store_maxSec (s : State) (l : Loc) (d : Nat) : (s.store l d).maxSec = s.maxSec := by simp [State.store]
@[simp] theorem State.store_tickCount (s : State) (l : Loc) (d : Nat) : (s.store l d).tickCount = s.tickCount := by simp [State.store]
@[simp] theorem State.store_freeCtr (s : State) (l : Loc) (d : Nat) : (s.store l d).freeCtr = s.freeCtr := by simp [State.store]
@[simp] theorem State.store_held (s : State) (l : Loc) (d : Nat) : (s.store l d).held = s.held := by simp [State.store]
@[simp] theorem State.store_stalled (s : State) (l : Loc) (d : Nat) : (s.store l d).stalled = s.stalled := by simp [State.store]
@[simp] theorem State.store_late (s : State) (l : Loc) (d : Nat) : (s.store l d).late = s.late := by simp [State.store]
@[simp] theorem State.store_engineWrites (s : State) (l : Loc) (d : Nat) : (s.store l d).engineWrites = s.engineWrites := by simp [State.store]
@[simp] theorem State.store_storing (s : State) (l : Loc) (d : Nat) : (s.store l d).storing = s.storing := by simp [State.store]
@[simp] theorem State.store_calPayload (s : State) (l : Loc) (d : Nat) : (s.store l d).calPayload = s.calPayload := by simp [State.store]
@[simp] theorem State.store_grants (s : State) (l : Loc) (d : Nat) : (s.store l d).grants = s.grants := by simp [State.store]
@[simp] theorem State.store_leafCmds (s : State) (l : Loc) (d : Nat) : (s.store l d).leafCmds = s.leafCmds := by simp [State.store]
@[simp] theorem State.store_leafGrants (s : State) (l : Loc) (d : Nat) : (s.store l d).leafGrants = s.leafGrants := by simp [State.store]
@[simp] theorem State.store_outer (s : State) (l : Loc) (d : Nat) : (s.store l d).outer = s.outer := by simp [State.store]
@[simp] theorem State.store_txPay (s : State) (l : Loc) (d : Nat) : (s.store l d).txPay = s.txPay := by simp [State.store]
@[simp] theorem State.store_ldm (s : State) (l : Loc) (d : Nat) : (s.store l d).ldm = s.ldm := by simp [State.store]
@[simp] theorem State.store_bips (s : State) (l : Loc) (d : Nat) : (s.store l d).bips = s.bips := by simp [State.store]
@[simp] theorem State.store_laneEqs (s : State) (l : Loc) (d : Nat) : (s.store l d).laneEqs = s.laneEqs := by simp [State.store]
@[simp] theorem State.store_paths (s : State) (l : Loc) (d : Nat) : (s.store l d).paths = s.paths := by simp [State.store]
@[simp] theorem State.store_queued (s : State) (l : Loc) (d : Nat) : (s.store l d).queued = s.queued := by simp [State.store]
@[simp] theorem State.store_flights (s : State) (l : Loc) (d : Nat) : (s.store l d).flights = s.flights := by simp [State.store]
@[simp] theorem State.store_egress (s : State) (l : Loc) (d : Nat) : (s.store l d).egress = s.egress := by simp [State.store]
@[simp] theorem State.store_order (s : State) (l : Loc) (d : Nat) : (s.store l d).order = s.order := by simp [State.store]
@[simp] theorem State.store_segments (s : State) (l : Loc) (d : Nat) : (s.store l d).segments = s.segments := by simp [State.store]
@[simp] theorem State.store_segTags (s : State) (l : Loc) (d : Nat) : (s.store l d).segTags = s.segTags := by simp [State.store]
@[simp] theorem State.store_hist (s : State) (l : Loc) (d : Nat) : (s.store l d).hist = s.hist := by simp [State.store]
@[simp] theorem State.store_evtLog (s : State) (l : Loc) (d : Nat) : (s.store l d).evtLog = s.evtLog := by simp [State.store]
@[simp] theorem State.store_posted (s : State) (l : Loc) (d : Nat) : (s.store l d).posted = s.posted := by simp [State.store]
@[simp] theorem State.store_staged (s : State) (l : Loc) (d : Nat) : (s.store l d).staged = s.staged := by simp [State.store]
@[simp] theorem State.store_ptpRx (s : State) (l : Loc) (d : Nat) : (s.store l d).ptpRx = s.ptpRx := by simp [State.store]
@[simp] theorem State.store_ptpTx (s : State) (l : Loc) (d : Nat) : (s.store l d).ptpTx = s.ptpTx := by simp [State.store]
@[simp] theorem State.store_ptpPart (s : State) (l : Loc) (d : Nat) : (s.store l d).ptpPart = s.ptpPart := by simp [State.store]
@[simp] theorem State.store_txts (s : State) (l : Loc) (d : Nat) : (s.store l d).txts = s.txts := by simp [State.store]
@[simp] theorem State.store_sumPrev (s : State) (l : Loc) (d : Nat) : (s.store l d).sumPrev = s.sumPrev := by simp [State.store]
@[simp] theorem State.store_sumPend (s : State) (l : Loc) (d : Nat) : (s.store l d).sumPend = s.sumPend := by simp [State.store]
@[simp] theorem State.store_snap (s : State) (l : Loc) (d : Nat) : (s.store l d).snap = s.snap := by simp [State.store]
@[simp] theorem State.store_vecIn (s : State) (l : Loc) (d : Nat) : (s.store l d).vecIn = s.vecIn := by simp [State.store]
@[simp] theorem State.store_vecPend (s : State) (l : Loc) (d : Nat) : (s.store l d).vecPend = s.vecPend := by simp [State.store]
@[simp] theorem State.store_alarm (s : State) (l : Loc) (d : Nat) : (s.store l d).alarm = s.alarm := by simp [State.store]
@[simp] theorem State.store_sent (s : State) (l : Loc) (d : Nat) : (s.store l d).sent = s.sent := by simp [State.store]
@[simp] theorem State.store_pending (s : State) (l : Loc) (d : Nat) : (s.store l d).pending = s.pending := by simp [State.store]

/-! ## State.copyWord -/

@[simp] theorem State.copyWord_inReset (s : State) (a b : Loc) : (s.copyWord a b).inReset = s.inReset := by
  unfold State.copyWord; split <;> simp
@[simp] theorem State.copyWord_cells (s : State) (a b : Loc) : (s.copyWord a b).cells = s.cells := by
  unfold State.copyWord; split <;> simp
@[simp] theorem State.copyWord_time (s : State) (a b : Loc) : (s.copyWord a b).time = s.time := by
  unfold State.copyWord; split <;> simp
@[simp] theorem State.copyWord_maxSec (s : State) (a b : Loc) : (s.copyWord a b).maxSec = s.maxSec := by
  unfold State.copyWord; split <;> simp
@[simp] theorem State.copyWord_tickCount (s : State) (a b : Loc) : (s.copyWord a b).tickCount = s.tickCount := by
  unfold State.copyWord; split <;> simp
@[simp] theorem State.copyWord_freeCtr (s : State) (a b : Loc) : (s.copyWord a b).freeCtr = s.freeCtr := by
  unfold State.copyWord; split <;> simp
@[simp] theorem State.copyWord_held (s : State) (a b : Loc) : (s.copyWord a b).held = s.held := by
  unfold State.copyWord; split <;> simp
@[simp] theorem State.copyWord_stalled (s : State) (a b : Loc) : (s.copyWord a b).stalled = s.stalled := by
  unfold State.copyWord; split <;> simp
@[simp] theorem State.copyWord_late (s : State) (a b : Loc) : (s.copyWord a b).late = s.late := by
  unfold State.copyWord; split <;> simp
@[simp] theorem State.copyWord_engineWrites (s : State) (a b : Loc) : (s.copyWord a b).engineWrites = s.engineWrites := by
  unfold State.copyWord; split <;> simp
@[simp] theorem State.copyWord_storing (s : State) (a b : Loc) : (s.copyWord a b).storing = s.storing := by
  unfold State.copyWord; split <;> simp
@[simp] theorem State.copyWord_calPayload (s : State) (a b : Loc) : (s.copyWord a b).calPayload = s.calPayload := by
  unfold State.copyWord; split <;> simp
@[simp] theorem State.copyWord_grants (s : State) (a b : Loc) : (s.copyWord a b).grants = s.grants := by
  unfold State.copyWord; split <;> simp
@[simp] theorem State.copyWord_leafCmds (s : State) (a b : Loc) : (s.copyWord a b).leafCmds = s.leafCmds := by
  unfold State.copyWord; split <;> simp
@[simp] theorem State.copyWord_leafGrants (s : State) (a b : Loc) : (s.copyWord a b).leafGrants = s.leafGrants := by
  unfold State.copyWord; split <;> simp
@[simp] theorem State.copyWord_outer (s : State) (a b : Loc) : (s.copyWord a b).outer = s.outer := by
  unfold State.copyWord; split <;> simp
@[simp] theorem State.copyWord_txPay (s : State) (a b : Loc) : (s.copyWord a b).txPay = s.txPay := by
  unfold State.copyWord; split <;> simp
@[simp] theorem State.copyWord_ldm (s : State) (a b : Loc) : (s.copyWord a b).ldm = s.ldm := by
  unfold State.copyWord; split <;> simp
@[simp] theorem State.copyWord_bips (s : State) (a b : Loc) : (s.copyWord a b).bips = s.bips := by
  unfold State.copyWord; split <;> simp
@[simp] theorem State.copyWord_laneEqs (s : State) (a b : Loc) : (s.copyWord a b).laneEqs = s.laneEqs := by
  unfold State.copyWord; split <;> simp
@[simp] theorem State.copyWord_paths (s : State) (a b : Loc) : (s.copyWord a b).paths = s.paths := by
  unfold State.copyWord; split <;> simp
@[simp] theorem State.copyWord_queued (s : State) (a b : Loc) : (s.copyWord a b).queued = s.queued := by
  unfold State.copyWord; split <;> simp
@[simp] theorem State.copyWord_flights (s : State) (a b : Loc) : (s.copyWord a b).flights = s.flights := by
  unfold State.copyWord; split <;> simp
@[simp] theorem State.copyWord_egress (s : State) (a b : Loc) : (s.copyWord a b).egress = s.egress := by
  unfold State.copyWord; split <;> simp
@[simp] theorem State.copyWord_order (s : State) (a b : Loc) : (s.copyWord a b).order = s.order := by
  unfold State.copyWord; split <;> simp
@[simp] theorem State.copyWord_segments (s : State) (a b : Loc) : (s.copyWord a b).segments = s.segments := by
  unfold State.copyWord; split <;> simp
@[simp] theorem State.copyWord_segTags (s : State) (a b : Loc) : (s.copyWord a b).segTags = s.segTags := by
  unfold State.copyWord; split <;> simp
@[simp] theorem State.copyWord_hist (s : State) (a b : Loc) : (s.copyWord a b).hist = s.hist := by
  unfold State.copyWord; split <;> simp
@[simp] theorem State.copyWord_evtLog (s : State) (a b : Loc) : (s.copyWord a b).evtLog = s.evtLog := by
  unfold State.copyWord; split <;> simp
@[simp] theorem State.copyWord_posted (s : State) (a b : Loc) : (s.copyWord a b).posted = s.posted := by
  unfold State.copyWord; split <;> simp
@[simp] theorem State.copyWord_staged (s : State) (a b : Loc) : (s.copyWord a b).staged = s.staged := by
  unfold State.copyWord; split <;> simp
@[simp] theorem State.copyWord_ptpRx (s : State) (a b : Loc) : (s.copyWord a b).ptpRx = s.ptpRx := by
  unfold State.copyWord; split <;> simp
@[simp] theorem State.copyWord_ptpTx (s : State) (a b : Loc) : (s.copyWord a b).ptpTx = s.ptpTx := by
  unfold State.copyWord; split <;> simp
@[simp] theorem State.copyWord_ptpPart (s : State) (a b : Loc) : (s.copyWord a b).ptpPart = s.ptpPart := by
  unfold State.copyWord; split <;> simp
@[simp] theorem State.copyWord_txts (s : State) (a b : Loc) : (s.copyWord a b).txts = s.txts := by
  unfold State.copyWord; split <;> simp
@[simp] theorem State.copyWord_sumPrev (s : State) (a b : Loc) : (s.copyWord a b).sumPrev = s.sumPrev := by
  unfold State.copyWord; split <;> simp
@[simp] theorem State.copyWord_sumPend (s : State) (a b : Loc) : (s.copyWord a b).sumPend = s.sumPend := by
  unfold State.copyWord; split <;> simp
@[simp] theorem State.copyWord_snap (s : State) (a b : Loc) : (s.copyWord a b).snap = s.snap := by
  unfold State.copyWord; split <;> simp
@[simp] theorem State.copyWord_vecIn (s : State) (a b : Loc) : (s.copyWord a b).vecIn = s.vecIn := by
  unfold State.copyWord; split <;> simp
@[simp] theorem State.copyWord_vecPend (s : State) (a b : Loc) : (s.copyWord a b).vecPend = s.vecPend := by
  unfold State.copyWord; split <;> simp
@[simp] theorem State.copyWord_alarm (s : State) (a b : Loc) : (s.copyWord a b).alarm = s.alarm := by
  unfold State.copyWord; split <;> simp
@[simp] theorem State.copyWord_sent (s : State) (a b : Loc) : (s.copyWord a b).sent = s.sent := by
  unfold State.copyWord; split <;> simp
@[simp] theorem State.copyWord_pending (s : State) (a b : Loc) : (s.copyWord a b).pending = s.pending := by
  unfold State.copyWord; split <;> simp

/-! ## State.modify -/

@[simp] theorem State.modify_inReset (s : State) (l : Loc) (f : Nat → Nat) : (s.modify l f).inReset = s.inReset := by
  unfold State.modify; split <;> simp
@[simp] theorem State.modify_cells (s : State) (l : Loc) (f : Nat → Nat) : (s.modify l f).cells = s.cells := by
  unfold State.modify; split <;> simp
@[simp] theorem State.modify_time (s : State) (l : Loc) (f : Nat → Nat) : (s.modify l f).time = s.time := by
  unfold State.modify; split <;> simp
@[simp] theorem State.modify_maxSec (s : State) (l : Loc) (f : Nat → Nat) : (s.modify l f).maxSec = s.maxSec := by
  unfold State.modify; split <;> simp
@[simp] theorem State.modify_tickCount (s : State) (l : Loc) (f : Nat → Nat) : (s.modify l f).tickCount = s.tickCount := by
  unfold State.modify; split <;> simp
@[simp] theorem State.modify_freeCtr (s : State) (l : Loc) (f : Nat → Nat) : (s.modify l f).freeCtr = s.freeCtr := by
  unfold State.modify; split <;> simp
@[simp] theorem State.modify_held (s : State) (l : Loc) (f : Nat → Nat) : (s.modify l f).held = s.held := by
  unfold State.modify; split <;> simp
@[simp] theorem State.modify_stalled (s : State) (l : Loc) (f : Nat → Nat) : (s.modify l f).stalled = s.stalled := by
  unfold State.modify; split <;> simp
@[simp] theorem State.modify_late (s : State) (l : Loc) (f : Nat → Nat) : (s.modify l f).late = s.late := by
  unfold State.modify; split <;> simp
@[simp] theorem State.modify_engineWrites (s : State) (l : Loc) (f : Nat → Nat) : (s.modify l f).engineWrites = s.engineWrites := by
  unfold State.modify; split <;> simp
@[simp] theorem State.modify_storing (s : State) (l : Loc) (f : Nat → Nat) : (s.modify l f).storing = s.storing := by
  unfold State.modify; split <;> simp
@[simp] theorem State.modify_calPayload (s : State) (l : Loc) (f : Nat → Nat) : (s.modify l f).calPayload = s.calPayload := by
  unfold State.modify; split <;> simp
@[simp] theorem State.modify_grants (s : State) (l : Loc) (f : Nat → Nat) : (s.modify l f).grants = s.grants := by
  unfold State.modify; split <;> simp
@[simp] theorem State.modify_leafCmds (s : State) (l : Loc) (f : Nat → Nat) : (s.modify l f).leafCmds = s.leafCmds := by
  unfold State.modify; split <;> simp
@[simp] theorem State.modify_leafGrants (s : State) (l : Loc) (f : Nat → Nat) : (s.modify l f).leafGrants = s.leafGrants := by
  unfold State.modify; split <;> simp
@[simp] theorem State.modify_outer (s : State) (l : Loc) (f : Nat → Nat) : (s.modify l f).outer = s.outer := by
  unfold State.modify; split <;> simp
@[simp] theorem State.modify_txPay (s : State) (l : Loc) (f : Nat → Nat) : (s.modify l f).txPay = s.txPay := by
  unfold State.modify; split <;> simp
@[simp] theorem State.modify_ldm (s : State) (l : Loc) (f : Nat → Nat) : (s.modify l f).ldm = s.ldm := by
  unfold State.modify; split <;> simp
@[simp] theorem State.modify_bips (s : State) (l : Loc) (f : Nat → Nat) : (s.modify l f).bips = s.bips := by
  unfold State.modify; split <;> simp
@[simp] theorem State.modify_laneEqs (s : State) (l : Loc) (f : Nat → Nat) : (s.modify l f).laneEqs = s.laneEqs := by
  unfold State.modify; split <;> simp
@[simp] theorem State.modify_paths (s : State) (l : Loc) (f : Nat → Nat) : (s.modify l f).paths = s.paths := by
  unfold State.modify; split <;> simp
@[simp] theorem State.modify_queued (s : State) (l : Loc) (f : Nat → Nat) : (s.modify l f).queued = s.queued := by
  unfold State.modify; split <;> simp
@[simp] theorem State.modify_flights (s : State) (l : Loc) (f : Nat → Nat) : (s.modify l f).flights = s.flights := by
  unfold State.modify; split <;> simp
@[simp] theorem State.modify_egress (s : State) (l : Loc) (f : Nat → Nat) : (s.modify l f).egress = s.egress := by
  unfold State.modify; split <;> simp
@[simp] theorem State.modify_order (s : State) (l : Loc) (f : Nat → Nat) : (s.modify l f).order = s.order := by
  unfold State.modify; split <;> simp
@[simp] theorem State.modify_segments (s : State) (l : Loc) (f : Nat → Nat) : (s.modify l f).segments = s.segments := by
  unfold State.modify; split <;> simp
@[simp] theorem State.modify_segTags (s : State) (l : Loc) (f : Nat → Nat) : (s.modify l f).segTags = s.segTags := by
  unfold State.modify; split <;> simp
@[simp] theorem State.modify_hist (s : State) (l : Loc) (f : Nat → Nat) : (s.modify l f).hist = s.hist := by
  unfold State.modify; split <;> simp
@[simp] theorem State.modify_evtLog (s : State) (l : Loc) (f : Nat → Nat) : (s.modify l f).evtLog = s.evtLog := by
  unfold State.modify; split <;> simp
@[simp] theorem State.modify_posted (s : State) (l : Loc) (f : Nat → Nat) : (s.modify l f).posted = s.posted := by
  unfold State.modify; split <;> simp
@[simp] theorem State.modify_staged (s : State) (l : Loc) (f : Nat → Nat) : (s.modify l f).staged = s.staged := by
  unfold State.modify; split <;> simp
@[simp] theorem State.modify_ptpRx (s : State) (l : Loc) (f : Nat → Nat) : (s.modify l f).ptpRx = s.ptpRx := by
  unfold State.modify; split <;> simp
@[simp] theorem State.modify_ptpTx (s : State) (l : Loc) (f : Nat → Nat) : (s.modify l f).ptpTx = s.ptpTx := by
  unfold State.modify; split <;> simp
@[simp] theorem State.modify_ptpPart (s : State) (l : Loc) (f : Nat → Nat) : (s.modify l f).ptpPart = s.ptpPart := by
  unfold State.modify; split <;> simp
@[simp] theorem State.modify_txts (s : State) (l : Loc) (f : Nat → Nat) : (s.modify l f).txts = s.txts := by
  unfold State.modify; split <;> simp
@[simp] theorem State.modify_sumPrev (s : State) (l : Loc) (f : Nat → Nat) : (s.modify l f).sumPrev = s.sumPrev := by
  unfold State.modify; split <;> simp
@[simp] theorem State.modify_sumPend (s : State) (l : Loc) (f : Nat → Nat) : (s.modify l f).sumPend = s.sumPend := by
  unfold State.modify; split <;> simp
@[simp] theorem State.modify_snap (s : State) (l : Loc) (f : Nat → Nat) : (s.modify l f).snap = s.snap := by
  unfold State.modify; split <;> simp
@[simp] theorem State.modify_vecIn (s : State) (l : Loc) (f : Nat → Nat) : (s.modify l f).vecIn = s.vecIn := by
  unfold State.modify; split <;> simp
@[simp] theorem State.modify_vecPend (s : State) (l : Loc) (f : Nat → Nat) : (s.modify l f).vecPend = s.vecPend := by
  unfold State.modify; split <;> simp
@[simp] theorem State.modify_alarm (s : State) (l : Loc) (f : Nat → Nat) : (s.modify l f).alarm = s.alarm := by
  unfold State.modify; split <;> simp
@[simp] theorem State.modify_sent (s : State) (l : Loc) (f : Nat → Nat) : (s.modify l f).sent = s.sent := by
  unfold State.modify; split <;> simp
@[simp] theorem State.modify_pending (s : State) (l : Loc) (f : Nat → Nat) : (s.modify l f).pending = s.pending := by
  unfold State.modify; split <;> simp

/-! ## What a register field reads -/

/-- A value found in a list after one is put there. -/
@[simp] theorem Assoc.find_ins_self {α : Type} (k : Nat) (v : α) (l : List (Nat × α)) :
    Assoc.find k (Assoc.ins k v l) = some v := by
  induction l with
  | nil => simp [Assoc.ins, Assoc.find]
  | cons x l ih =>
    simp only [Assoc.ins]
    split
    · simp [Assoc.find]
    · split
      · simp [Assoc.find]
      · simp_all [Assoc.find]

theorem Assoc.find_ins_other {α : Type} (j k : Nat) (v : α) (l : List (Nat × α)) (h : j ≠ k) :
    Assoc.find k (Assoc.ins j v l) = Assoc.find k l := by
  induction l with
  | nil => simp [Assoc.ins, Assoc.find, h]
  | cons x l ih =>
    simp only [Assoc.ins]
    split
    · rename_i e
      subst e
      simp [Assoc.find, h]
    · split
      · simp [Assoc.find, h]
      · simp [Assoc.find, ih]

@[simp] theorem Assoc.find_del_self {α : Type} (k : Nat) (l : List (Nat × α)) : Assoc.find k (Assoc.del k l) = none := by
  induction l with
  | nil => rfl
  | cons x l ih =>
    simp only [Assoc.del]
    split
    · exact ih
    · simp_all [Assoc.find]

theorem Assoc.find_del_other {α : Type} (j k : Nat) (l : List (Nat × α)) (h : j ≠ k) :
    Assoc.find k (Assoc.del j l) = Assoc.find k l := by
  induction l with
  | nil => rfl
  | cons x l ih =>
    simp only [Assoc.del]
    split
    · rename_i e
      subst e
      simp [Assoc.find, h, ih]
    · simp [Assoc.find, ih]

/-- A field reads what was put there, cut to its width. -/
@[simp] theorem State.get_put_self (s : State) (f : Fld) (v : Nat) : (s.put f v).get f = v % 2 ^ f.width := by
  unfold State.get State.put
  dsimp only
  split <;> simp_all

/-- Another field keeps its value. -/
theorem State.get_put_other (s : State) (f g : Fld) (v : Nat) (h : f.key ≠ g.key) : (s.put f v).get g = s.get g := by
  unfold State.get State.put
  dsimp only
  split
  · rw [Assoc.find_del_other _ _ _ h]
  · rw [Assoc.find_ins_other _ _ _ _ h]

@[simp] theorem State.flag_putB_self (s : State) (f : Fld) (b : Bool) (h : 0 < f.width) : (s.putB f b).flag f = b := by
  have : 2 ≤ 2 ^ f.width := by
    calc 2 = 2 ^ 1 := rfl
      _ ≤ 2 ^ f.width := Nat.pow_le_pow_right (by decide) h
  cases b
  · simp [State.flag, State.putB]
  · have : 1 % 2 ^ f.width = 1 := Nat.mod_eq_of_lt (by omega)
    simp [State.flag, State.putB, this]

/-- The value of a field depends on the cells alone. -/
theorem State.get_of_cells (s t : State) (f : Fld) (h : t.cells = s.cells) : t.get f = s.get f := by
  unfold State.get
  rw [h]

@[simp] theorem State.get_send (s : State) (o : Output) (f : Fld) : (s.send o).get f = s.get f := rfl
@[simp] theorem State.get_setByte (s : State) (k : Nat) (b : Byte) (f : Fld) : (s.setByte k b).get f = s.get f := rfl
@[simp] theorem State.get_store (s : State) (l : Loc) (d : Nat) (f : Fld) : (s.store l d).get f = s.get f :=
  State.get_of_cells _ _ _ (by simp)
@[simp] theorem State.get_storeRaw (s : State) (l : Loc) (d c : Nat) (f : Fld) : (s.storeRaw l d c).get f = s.get f :=
  State.get_of_cells _ _ _ (by simp)
@[simp] theorem State.get_modify (s : State) (l : Loc) (g : Nat → Nat) (f : Fld) : (s.modify l g).get f = s.get f :=
  State.get_of_cells _ _ _ (by simp)

end Sys2Proof.Machine
end

