-- ==== Sys2Proof/Laws/Header.lean ====
section
/-! SUPPORT. What the interrupt chain adds to an effect, what a command answers while the engine runs, and when a register
write has its effect. -/
namespace Sys2Proof.Machine

/-! ## The interrupt chain -/

theorem vecMessage_cells (v : Fin 64) (s : State) : (vecMessage v s).cells = s.cells := by
  unfold vecMessage; split <;> rfl

/-- A loop over a list keeps what each of its rounds keeps. -/
theorem foldl_keeps {α β σ : Type} (g : σ → β) (f : σ → α → σ) (h : ∀ s a, g (f s a) = g s) (l : List α) (s : σ) :
    g (l.foldl f s) = g s := by
  induction l generalizing s with
  | nil => rfl
  | cons a l ih => rw [List.foldl_cons, ih, h]

theorem forFin_keeps {β σ : Type} {n : Nat} (g : σ → β) (f : Fin n → σ → σ) (h : ∀ i s, g (f i s) = g s) (s : σ) :
    g (forFin n f s) = g s := foldl_keeps g _ (fun s i => h i s) _ _

theorem forL_keeps {α β σ : Type} (g : σ → β) (l : List α) (f : α → σ → σ) (h : ∀ a s, g (f a s) = g s) (s : σ) :
    g (forL l f s) = g s := foldl_keeps g _ (fun s a => h a s) _ _

theorem forN_keeps {β σ : Type} (n : Nat) (g : σ → β) (f : Nat → σ → σ) (h : ∀ i s, g (f i s) = g s) (s : σ) :
    g (forN n f s) = g s := foldl_keeps g _ (fun s i => h i s) _ _

/-- What the interrupt chain does not touch, it leaves alone: `g` names what a message of a vector and the chain's own
levels do not carry. -/
theorem settle_keeps {β : Type} (g : State → β) (hm : ∀ v s, g (vecMessage v s) = g s)
    (hs : ∀ (s : State) a b c d, g { s with vecIn := a, sumPend := b, sumPrev := c, alarm := d } = g s) (s : State) :
    g (settle s) = g s := by
  unfold settle
  dsimp only
  rw [hs]
  split
  · rfl
  · exact forFin_keeps g _ (fun v s => by split <;> simp [hm]) s

@[simp] theorem settle_cells (s : State) : (settle s).cells = s.cells :=
  settle_keeps State.cells vecMessage_cells (fun _ _ _ _ _ => rfl) s
@[simp] theorem settle_mem (s : State) : (settle s).mem = s.mem :=
  settle_keeps State.mem (fun v s => by unfold vecMessage; split <;> rfl) (fun _ _ _ _ _ => rfl) s
@[simp] theorem settle_inReset (s : State) : (settle s).inReset = s.inReset :=
  settle_keeps State.inReset (fun v s => by unfold vecMessage; split <;> rfl) (fun _ _ _ _ _ => rfl) s
@[simp] theorem settle_time (s : State) : (settle s).time = s.time :=
  settle_keeps State.time (fun v s => by unfold vecMessage; split <;> rfl) (fun _ _ _ _ _ => rfl) s
@[simp] theorem settle_tickCount (s : State) : (settle s).tickCount = s.tickCount :=
  settle_keeps State.tickCount (fun v s => by unfold vecMessage; split <;> rfl) (fun _ _ _ _ _ => rfl) s
@[simp] theorem settle_held (s : State) : (settle s).held = s.held :=
  settle_keeps State.held (fun v s => by unfold vecMessage; split <;> rfl) (fun _ _ _ _ _ => rfl) s
@[simp] theorem settle_stalled (s : State) : (settle s).stalled = s.stalled :=
  settle_keeps State.stalled (fun v s => by unfold vecMessage; split <;> rfl) (fun _ _ _ _ _ => rfl) s
@[simp] theorem settle_late (s : State) : (settle s).late = s.late :=
  settle_keeps State.late (fun v s => by unfold vecMessage; split <;> rfl) (fun _ _ _ _ _ => rfl) s
@[simp] theorem settle_storing (s : State) : (settle s).storing = s.storing :=
  settle_keeps State.storing (fun v s => by unfold vecMessage; split <;> rfl) (fun _ _ _ _ _ => rfl) s
@[simp] theorem get_settle (s : State) (f : Fld) : (settle s).get f = s.get f := State.get_of_cells _ _ _ (by simp)

@[simp] theorem commit_pending (q : List Instr) (s : State) : (commit q s).pending = q := rfl
@[simp] theorem commit_cells (q : List Instr) (s : State) : (commit q s).cells = s.cells := by simp [commit]
@[simp] theorem commit_mem (q : List Instr) (s : State) : (commit q s).mem = s.mem := by simp [commit]
@[simp] theorem commit_inReset (q : List Instr) (s : State) : (commit q s).inReset = s.inReset := by simp [commit]
@[simp] theorem commit_time (q : List Instr) (s : State) : (commit q s).time = s.time := by simp [commit]
@[simp] theorem commit_tickCount (q : List Instr) (s : State) : (commit q s).tickCount = s.tickCount := by simp [commit]
@[simp] theorem commit_held (q : List Instr) (s : State) : (commit q s).held = s.held := by simp [commit]
@[simp] theorem commit_stalled (q : List Instr) (s : State) : (commit q s).stalled = s.stalled := by simp [commit]
@[simp] theorem commit_late (q : List Instr) (s : State) : (commit q s).late = s.late := by simp [commit]
@[simp] theorem get_commit (q : List Instr) (s : State) (f : Fld) : (commit q s).get f = s.get f :=
  State.get_of_cells _ _ _ (by simp)

/-! ## Commands -/

/-- Outside reset a command answers the state of its effect, with what follows of it in the interrupt chain. -/
theorem act_live (s : State) (f : State → State) (h : s.inReset = false) : act s f = .next (commit s.pending (f s)) := by
  simp [act, h]

/-- In reset a command changes nothing (R668). -/
theorem act_reset (s : State) (f : State → State) (h : s.inReset = true) : act s f = .next s := by
  simp [act, h]

/-! ## Register writes -/

/-- The arbiter drops no write to a page whose hasp no other master holds, at an offset that no resource hasp guards
(R56, R63). -/
theorem arbiterDrops_none (m : Master) (p : Page) (off : Nat) (s : State) (h : s.heldByOther m (.page p) = false)
    (hr : resourceOf p off = none) : arbiterDrops m p off s = none := by
  simp [arbiterDrops, h, hr]

/-- A write that is issued, not stalled, not dropped, and whose page runs and is in no soft reset, has its effect at
once (R26, R27, R47, R56). -/
theorem writeCmd_effect (m : Master) (p : Page) (off d : Nat) (eff : State → State) (s : State) (hi : mayIssue m s = true)
    (hs : stalledBy m s = false) (ha : arbiterDrops m p off s = none) (hc : stopped p s = false)
    (hh : s.held.any (fun w => w.page == p) = false)
    (hb : (s.flag (HDR.RESET_BUSY p) && decide (0x040 ≤ off)) = false) : writeCmd m p off d eff s = eff s := by
  unfold writeCmd atPage
  rw [ha, hc, hh, hb]
  simp [hi, hs]

/-- An accepted register write has its effect at once (R26, R27, R47, R56, R63). -/
theorem writeCmd_accepts {m : Master} {p : Page} {off : Nat} {s : State} (h : Accepts m p off s) (d : Nat)
    (eff : State → State) : writeCmd m p off d eff s = eff s := by
  obtain ⟨hi, hs, hg, hr, hc, hh, hb⟩ := h
  refine writeCmd_effect m p off d eff s hi hs ?_ hc hh hb
  unfold arbiterDrops
  rw [hg]
  cases hn : resourceOf p off with
  | none => simp
  | some n => simp_all

/-- A write that the hasp of its page drops changes nothing but the error record (R56). -/
theorem writeCmd_dropped (m : Master) (p : Page) (off d : Nat) (eff : State → State) (s : State) (hi : mayIssue m s = true)
    (hs : stalledBy m s = false) (hg : haspGuards off = true) (hh : s.heldByOther m (.page p) = true) :
    writeCmd m p off d eff s = logErr p causeHaspDrop (masterId m) (s.get (HDR.HASP_OWNER p)) false off s := by
  simp [writeCmd, arbiterDrops, hi, hs, hg, hh]

end Sys2Proof.Machine
end

