-- ==== Sys2Proof/Laws/Commands.lean ====
section
/-! SUPPORT. What the shared operations behind the commands do, once: writes at a table window, writes of a hasp register,
and the instruction cycle of a Tumbler. -/
namespace Sys2Proof.Machine

/-! ## Table windows -/

/-- An accepted write at a table window reaches its table (R47, R56, R71, R83, R88). -/
theorem winCmd_accepts {m : Master} {h : Hit} {s : State} (ha : AcceptsWindow m h.page s) (hinged : Bool)
    (addr size data : Nat) (eff : Nat → State → State)
    (hal : ((size == 8 && addr % 8 == 0) || (size == 4 && addr % 4 == 0)) = true) (hact : h.active = false)
    (hcp : (hinged && s.flag (HDR.COPYING h.page)) = false) :
    winCmd m h hinged addr size data eff s = winApply m h addr size data eff s := by
  obtain ⟨hi, hs, hh, hw, hr⟩ := ha
  unfold winCmd
  rw [hi, hs, hh, hw, hr, hal, hact, hcp]
  rfl

/-! ## Hasps -/

/-- A write of a page's hasp register acts at the arbiter (R54, R66). -/
theorem haspCmd_page {m : Master} {p : Page} {s : State} (hi : mayIssue m s = true) (hs : stalledBy m s = false) (d : Nat) :
    haspCmd m (.page p) d s = haspWrite m (.page p) d s := by
  simp [haspCmd, hi, hs]

/-- An accepted write of a resource hasp's register acts at the arbiter (R62, R66). -/
theorem haspCmd_res {m : Master} {n : Fin 32} {s : State} (h : Accepts m .hubctl (0x100 + 4 * n.val) s) (d : Nat) :
    haspCmd m (.res n) d s = haspWrite m (.res n) d s := by
  have hd : arbiterDrops m .hubctl (0x100 + 4 * n.val) s = none := by
    obtain ⟨_, _, hg, _⟩ := h
    unfold arbiterDrops
    rw [hg]
    rfl
  obtain ⟨hi, hs, _, _, _, _, hb⟩ := h
  have hr : s.flag (HDR.RESET_BUSY .hubctl) = false := by
    have h4 : decide (0x040 ≤ 0x100 + 4 * n.val) = true := by simp; omega
    rwa [h4, Bool.and_true] at hb
  simp [haspCmd, HaspId.home, HaspId.offset, hi, hs, hd, hr]

/-! ## The instruction cycle of a Tumbler -/

/-- A context that issues a legal instruction of an opcode runs that opcode's effect (R559, R561, R563, R569). -/
theorem tumbOp_runs {t : Fin 18} {x : Fin 2} {op : Nat} {s : State} (h : TumbRuns t x op s) (eff : Nat → State → State) :
    tumbOp t x op eff s = eff (tumbInstr t x s) (tumbRan t x s) := by
  obtain ⟨hi, hf, ho, hl⟩ := h
  unfold tumbInstr tumbRan at *
  unfold tumbOp tumbCycle
  rw [hi]
  rcases hq : tumbFetch t x s with ⟨k, w, s'⟩
  rw [hq] at hf ho hl
  cases k <;> simp_all

/-- A sequential step that stays in the context's partition does its effect and moves the PC on (R567, R571). -/
theorem tumbStep_seq {t : Fin 18} {x : Fin 2} {s : State} (h : TumbSeq t x s) (f : State → State) :
    tumbStep t x f s = tumbNext t x (tumbPc t x s) (f s) := by
  unfold tumbStep tumbGoto tumbNext
  have h2 : ((tumbPc t x s : Int) + 1) / 4096 = (x.val : Int) := by
    have h3 : (((tumbPc t x s + 1) / 4096 : Nat) : Int) = (x.val : Int) := congrArg Nat.cast h
    rw [← h3]; push_cast; rfl
  rw [if_pos h2]
  congr 1

end Sys2Proof.Machine
end

