-- ==== Sys2Proof/Laws/Line.lean ====
section
/-! SUPPORT. What the line codes, the filter windows and the substrate loop can do: lengths they keep, streams they deal whole, and
the bounds of a written current. -/
namespace Sys2Proof.Machine

/-- Whitening keeps the number of bits (R149). -/
@[simp] theorem whiten_length (st : Nat) (l : List Bool) : (whiten st l).length = l.length := by
  induction l generalizing st with
  | nil => rfl
  | cons b l ih => simp [whiten, ih]

/-- Scrambling keeps the number of octets (R310). -/
@[simp] theorem scrRun_length (st : Nat) (l : List Nat) : (scrRun st l).length = l.length := by
  induction l generalizing st with
  | nil => rfl
  | cons b l ih => simp [scrRun, ih]

@[simp] theorem scramble_length (l : List Nat) : (scramble l).length = l.length := by
  simp [scramble]
  omega

/-- A round takes its bits off the front of the coded stream, in order and without loss (R148). -/
theorem dealRound_joins (st : List (Nat × Bool × Nat)) (l : List Bool) :
    (dealRound st l).1.flatMap (·.2.2) ++ (dealRound st l).2 = l := by
  induction st generalizing l with
  | nil => rfl
  | cons x st ih => simp [dealRound, List.append_assoc, ih]

/-- Every stream of the dealing takes part in every round (R148). -/
theorem dealRound_streams (st : List (Nat × Bool × Nat)) (l : List Bool) :
    (dealRound st l).1.map (fun x => (x.1, x.2.1)) = st.map fun x => (x.1, x.2.1) := by
  induction st generalizing l with
  | nil => rfl
  | cons x st ih => simp [dealRound, ih]

/-- Dealing makes as many rounds as the multiframe has (R148). -/
@[simp] theorem deal_length (st : List (Nat × Bool × Nat)) (n : Nat) (l : List Bool) : (deal st n l).length = n := by
  induction n generalizing l with
  | zero => rfl
  | succ n ih => simp [deal, ih]

/-- The number of windows of a stream. -/
@[simp] theorem windowsOf_length (len step : Nat) (xs : List Int) :
    (windowsOf len step xs).length = (xs.length + step - len) / step := by
  simp [windowsOf]

/-- A clamped value lies in its bounds. -/
theorem clampI_between {lo hi : Int} (h : lo ≤ hi) (v : Int) : lo ≤ clampI lo hi v ∧ clampI lo hi v ≤ hi := by
  unfold clampI
  omega

/-- A result of the monitor chain is a 24-bit code (R588). -/
theorem code24_range (i : Int) : -(2 ^ 23) ≤ code24 i ∧ code24 i ≤ 2 ^ 23 - 1 := clampI_between (by decide) i

/-- A current of the substrate loop stays within one step of the channel's slew from its output (R603). -/
theorem subLimit_within (q : Fin 4) (h : Fin 32) (cur : Nat) (s : State) :
    s.get (HTR.CH_STAT_OUT q h) - s.get (HTR.CH_CFG_SLEW q h) ≤ subLimit q h cur s
      ∧ subLimit q h cur s ≤ s.get (HTR.CH_STAT_OUT q h) + s.get (HTR.CH_CFG_SLEW q h) := by
  simp only [subLimit]
  omega

end Sys2Proof.Machine
end

