-- ==== Sys2Proof/Laws/Memory.lean ====
section
/-! SUPPORT. The canonical form of the memories: every operation over memory keeps it, and the memory at reset has it; and a
read of a byte after a write. -/
namespace Sys2Proof.Machine

/-- Every key of a list is above `lo`. -/
def Assoc.above {α : Type} (lo : Nat) (l : List (Nat × α)) : Prop := ∀ x ∈ l, lo < x.1

theorem Assoc.rising_cons {α : Type} (j : Nat) (v : α) (l : List (Nat × α)) :
    Assoc.rising ((j, v) :: l) = true ↔ Assoc.above j l ∧ Assoc.rising l = true := by
  induction l generalizing j v with
  | nil => simp [Assoc.rising, Assoc.above]
  | cons x l ih =>
    obtain ⟨k, w⟩ := x
    simp only [Assoc.rising, Bool.and_eq_true, decide_eq_true_eq, Assoc.above]
    constructor
    · rintro ⟨hjk, hr⟩
      refine ⟨?_, hr⟩
      have ha := ((ih k w).mp hr).1
      intro y hy
      rcases List.mem_cons.mp hy with rfl | hy
      · exact hjk
      · exact Nat.lt_trans hjk (ha y hy)
    · rintro ⟨ha, hr⟩
      exact ⟨ha _ (List.mem_cons_self ..), hr⟩

theorem Assoc.mem_ins {α : Type} (k : Nat) (v : α) (l : List (Nat × α)) (x : Nat × α) (h : x ∈ Assoc.ins k v l) :
    x = (k, v) ∨ x ∈ l := by
  induction l with
  | nil => simpa [Assoc.ins] using h
  | cons y l ih =>
    simp only [Assoc.ins] at h
    split at h
    · rcases List.mem_cons.mp h with h | h
      · exact .inl h
      · exact .inr (List.mem_cons_of_mem _ h)
    · split at h
      · rcases List.mem_cons.mp h with h | h
        · exact .inl h
        · exact .inr h
      · rcases List.mem_cons.mp h with h | h
        · exact .inr (h ▸ List.mem_cons_self ..)
        · exact (ih h).imp id (List.mem_cons_of_mem _)

theorem Assoc.mem_del {α : Type} (k : Nat) (l : List (Nat × α)) (x : Nat × α) (h : x ∈ Assoc.del k l) : x ∈ l := by
  induction l with
  | nil => simp [Assoc.del] at h
  | cons y l ih =>
    simp only [Assoc.del] at h
    split at h
    · exact List.mem_cons_of_mem _ (ih h)
    · rcases List.mem_cons.mp h with h | h
      · exact h ▸ List.mem_cons_self ..
      · exact List.mem_cons_of_mem _ (ih h)

/-- Putting a value under a key keeps the keys rising. -/
theorem Assoc.rising_ins {α : Type} (k : Nat) (v : α) (l : List (Nat × α)) (h : Assoc.rising l = true) :
    Assoc.rising (Assoc.ins k v l) = true := by
  induction l with
  | nil => rfl
  | cons y l ih =>
    obtain ⟨j, w⟩ := y
    obtain ⟨ha, hr⟩ := (Assoc.rising_cons j w l).mp h
    simp only [Assoc.ins]
    split
    · rename_i e
      exact (Assoc.rising_cons k v l).mpr ⟨e ▸ ha, hr⟩
    · split
      · rename_i hk
        refine (Assoc.rising_cons k v _).mpr ⟨?_, h⟩
        intro y hy
        rcases List.mem_cons.mp hy with rfl | hy
        · exact hk
        · exact Nat.lt_trans hk (ha y hy)
      · refine (Assoc.rising_cons j w _).mpr ⟨?_, ih hr⟩
        intro y hy
        rcases Assoc.mem_ins k v l y hy with rfl | hy
        · simp only; omega
        · exact ha y hy

/-- Removing a key keeps the keys rising. -/
theorem Assoc.rising_del {α : Type} (k : Nat) (l : List (Nat × α)) (h : Assoc.rising l = true) :
    Assoc.rising (Assoc.del k l) = true := by
  induction l with
  | nil => rfl
  | cons y l ih =>
    obtain ⟨j, w⟩ := y
    obtain ⟨ha, hr⟩ := (Assoc.rising_cons j w l).mp h
    simp only [Assoc.del]
    split
    · exact ih hr
    · exact (Assoc.rising_cons j w _).mpr ⟨fun y hy => ha y (Assoc.mem_del k l y hy), ih hr⟩

/-- Dropping entries keeps the keys rising. -/
theorem Assoc.rising_filter {α : Type} (p : Nat × α → Bool) (l : List (Nat × α)) (h : Assoc.rising l = true) :
    Assoc.rising (l.filter p) = true := by
  induction l with
  | nil => rfl
  | cons y l ih =>
    obtain ⟨j, w⟩ := y
    obtain ⟨ha, hr⟩ := (Assoc.rising_cons j w l).mp h
    rw [List.filter_cons]
    split
    · exact (Assoc.rising_cons j w _).mpr ⟨fun y hy => ha y (List.mem_of_mem_filter hy), ih hr⟩
    · exact ih hr

theorem Memory.wf_iff (m : List Host.Cell) : Memory.wf m = true ↔ Assoc.rising m = true ∧ ∀ c ∈ m, c.2 ≠ 0 := by
  simp [Memory.wf]

/-- Setting a byte keeps the canonical form. -/
theorem memSet_wf (m : List Host.Cell) (k : Nat) (b : Byte) (h : Memory.wf m = true) : Memory.wf (memSet m k b) = true := by
  obtain ⟨hr, hz⟩ := (Memory.wf_iff m).mp h
  unfold memSet
  split
  · exact (Memory.wf_iff _).mpr ⟨Assoc.rising_del _ _ hr, fun c hc => hz c (Assoc.mem_del _ _ _ hc)⟩
  · rename_i hb
    refine (Memory.wf_iff _).mpr ⟨Assoc.rising_ins _ _ _ hr, fun c hc => ?_⟩
    rcases Assoc.mem_ins _ _ _ _ hc with rfl | hc
    · exact hb
    · exact hz c hc

/-- Dropping bytes, as zeroing a range does, keeps the canonical form. -/
theorem Memory.wf_filter (m : List Host.Cell) (p : Host.Cell → Bool) (h : Memory.wf m = true) :
    Memory.wf (m.filter p) = true := by
  obtain ⟨hr, hz⟩ := (Memory.wf_iff m).mp h
  exact (Memory.wf_iff _).mpr ⟨Assoc.rising_filter _ _ hr, fun c hc => hz c (List.mem_of_mem_filter hc)⟩

/-- The memory of a state is in canonical form. -/
def State.memWf (s : State) : Prop := Memory.wf s.mem = true

theorem reset_memWf : State.reset.memWf := rfl

theorem setByte_memWf (s : State) (k : Nat) (b : Byte) (h : s.memWf) : (s.setByte k b).memWf := memSet_wf _ _ _ h

theorem setBytes_memWf (s : State) (k v n : Nat) (h : s.memWf) : (s.setBytes k v n).memWf := by
  induction n generalizing s k v with
  | zero => exact h
  | succ n ih => exact ih _ _ _ (setByte_memWf _ _ _ h)

theorem storeRaw_memWf (s : State) (l : Loc) (d c : Nat) (h : s.memWf) : (s.storeRaw l d c).memWf :=
  setByte_memWf _ _ _ (setBytes_memWf _ _ _ _ h)

theorem store_memWf (s : State) (l : Loc) (d : Nat) (h : s.memWf) : (s.store l d).memWf := storeRaw_memWf _ _ _ _ h

theorem copyWord_memWf (s : State) (a b : Loc) (h : s.memWf) : (s.copyWord a b).memWf := by
  unfold State.copyWord
  split
  · exact storeRaw_memWf _ _ _ _ h
  · exact store_memWf _ _ _ h

theorem copyRange_memWf (s : State) (a b : Loc) (n : Nat) (h : s.memWf) : (s.copyRange a b n).memWf := by
  unfold State.copyRange forN
  generalize List.range n = l
  induction l generalizing s with
  | nil => exact h
  | cons i l ih => exact ih _ (copyWord_memWf _ _ _ h)

theorem modify_memWf (s : State) (l : Loc) (f : Nat → Nat) (h : s.memWf) : (s.modify l f).memWf := by
  unfold State.modify
  split
  · exact h
  · exact store_memWf _ _ _ h

theorem zeroRange_memWf (s : State) (l : Loc) (n : Nat) (h : s.memWf) : (s.zeroRange l n).memWf := Memory.wf_filter _ _ h

theorem putList_memWf (s : State) (k : Nat) (l : List Nat) (h : s.memWf) : (s.putList k l).memWf := by
  unfold State.putList
  suffices ∀ (a : Nat × State), a.2.memWf →
      ((l.foldl (fun (a : Nat × State) b => (a.1 + 1, a.2.setByte a.1 (BitVec.ofNat 8 b))) a).2).memWf from this _ h
  induction l with
  | nil => exact fun a ha => ha
  | cons b l ih => exact fun a ha => ih _ (setByte_memWf _ _ _ ha)

/-- A byte reads what was written to it. -/
@[simp] theorem State.byte_setByte_self (s : State) (k : Nat) (b : Byte) : (s.setByte k b).byte k = b := by
  unfold State.byte State.setByte memSet
  dsimp only
  split <;> simp_all

/-- A byte keeps its value when another is written. -/
theorem State.byte_setByte_other (s : State) (j k : Nat) (b : Byte) (h : j ≠ k) : (s.setByte j b).byte k = s.byte k := by
  unfold State.byte State.setByte memSet
  dsimp only
  split
  · rw [Assoc.find_del_other _ _ _ h]
  · rw [Assoc.find_ins_other _ _ _ _ h]

/-- Bytes outside a written range keep their values. -/
theorem State.byte_setBytes_other (s : State) (k v n j : Nat) (h : j < k ∨ k + n ≤ j) : (s.setBytes k v n).byte j = s.byte j := by
  induction n generalizing s k v with
  | zero => rfl
  | succ n ih =>
    rw [State.setBytes, ih _ _ _ (by omega), State.byte_setByte_other _ _ _ _ (by omega)]

/-- A stored word touches the nine bytes of its place alone. -/
theorem State.byte_store_other (s : State) (l : Loc) (d j : Nat) (h : j < l.key ∨ l.key + 9 ≤ j) :
    (s.store l d).byte j = s.byte j := by
  unfold State.store State.storeRaw
  rw [State.byte_setByte_other _ _ _ _ (by omega), State.byte_setBytes_other _ _ _ _ _ (by omega)]

end Sys2Proof.Machine
end

