-- ==== Sys2Proof/WellFormed.lean ====
section
/-! DEFINITION. Well-formed commands: operands that the interfaces of the engine can carry. -/
namespace Sys2Proof

/-- A 32-bit value. -/
def word32 (v : Nat) : Bool := decide (v < 2 ^ 32)

/-- A 64-bit value. -/
def word64 (v : Nat) : Bool := decide (v < 2 ^ 64)

/-- Bytes. -/
def bytesOk (l : List Nat) : Bool := l.all fun b => decide (b < 256)

/-- An address of the table-window region (R36). -/
def windowAddr (a : Nat) : Bool := decide (0x0300_0000 ≤ a) && decide (a < 0x0400_0000)

/-- A transaction that a master can present: a width of 1, 2, 4 or 8 bytes within a BAR (R36, R41), BAR2 for the PCIe host
alone. -/
def BusReq.wf (r : BusReq) : Bool :=
  (r.size == 1 || r.size == 2 || r.size == 4 || r.size == 8) && decide (r.data < 2 ^ (8 * r.size))
    && match r.bar with
      | .bar0 => decide (r.addr + r.size ≤ 2 ^ 26)
      | .bar2 => decide (r.addr + r.size ≤ 2 ^ 20) && r.m == .pcie

/-- A time in normal form (R473). -/
def DevTime.wf (t : DevTime) : Bool := decide (t.sec < 2 ^ 48) && decide (t.ns < 10 ^ 9) && decide (t.frac < 2 ^ 16)

/-- A loading message whose members fit their fields (R161). -/
def LoadMsg.wf (m : LoadMsg) : Bool :=
  decide (m.typ < 256) && decide (m.seq < 65536) && decide (m.target < 65536) && decide (m.rate < 256) && decide (m.reason < 256)
    && decide (m.rows.length = 16) && m.rows.all fun r => decide (r < 65536)

/-- The values of a foreground calibration: 4 corrections of 64 slices of 4 ADCs, 4 skews (R126). -/
def CalValues.wf (v : CalValues) : Bool := decide (v.corrections.length = 1024) && decide (v.skews.length = 4)

/-- A received frame's overhead is bytes, and its time a time. -/
def RxFrame.wf : RxFrame → Bool
  | .native octets arr => bytesOk octets && arr.wf
  | .msa oh sm pm => bytesOk oh && sm.all (fun v => decide (v ≤ 8)) && pm.all fun v => decide (v ≤ 8)

/-- An Ethernet frame of at least an address pair, an ethertype and an FCS. -/
def EthFrame.wf (f : EthFrame) : Bool := bytesOk f.bytes && decide (18 ≤ f.bytes.length)

/-- A reading that its register can hold. -/
def Meas.wf : Meas → Bool
  | .eye _ _ h v => decide (h < 256) && decide (v < 256)
  | .snr _ _ v _ dgd => decide (v < 65536) && decide (dgd < 65536)
  | .timing _ es => es.all fun l => decide (l.length = 16)
  | .symbols _ _ xs => xs.all fun x => decide (x.x.length = 2) && decide (x.y.length = 2)
  | .adapt _ _ _ _ ffe dfe => decide (ffe.length = 8) && decide (dfe.length = 12)
  | .pps _ _ | .refFofs _ _ | .phaseErr _ | .freqOfs _ | .xo _ | .iq _ _ _ _ | .freq _ _ | .cd _ _ | .skew _ _ _ | .tia _ _
  | .clip _ _ | .prbs _ _ _ | .port _ _ _ _ | .rplDisc _ _ | .heater _ _ _ _ | .tripEnds _ | .vddHtr _ _ => true

/-- A codeword of a length that the code has (R216, R231, R234), and blocks of 300 rows of 300 bits (R222). -/
def Codeword.wf : Codeword → Bool
  | .native cand llr blocks => decide (cand < 37200) && decide (llr.length = 9300) && llr.all (fun l => decide (|l| ≤ 31))
      && blocks.all fun b => decide (b.1 < 83700) && decide (b.2.length = 300) && b.2.all fun r => decide (r < 2 ^ 300)
  | .burst llr => llr.all (fun l => decide (|l| ≤ 31)) && llr.length % 100 == 0 && decide (2200 ≤ llr.length) && decide (llr.length ≤ 9300)
  | .ofec len corr _ => decide (corr ≤ len)

/-- A command's operands are such as its interface can carry. -/
def Instr.wf : Instr → Bool
  | .registerWrite reqs => reqs.all BusReq.wf
  | .snapshotRead m addr => BusReq.wf ⟨m, .bar0, addr, 4, true, 0⟩
  | .tableWindowWrite m addr size data => windowAddr addr && BusReq.wf ⟨m, .bar0, addr, size, false, data⟩
  | .tableWindowRead m addr size => windowAddr addr && BusReq.wf ⟨m, .bar0, addr, size, true, 0⟩
  | .heldWriteApply _ => true
  | .coreSynthLock ns => decide (ns < 10 ^ 9 * 2 ^ 48)
  | .synthReachesXo => true
  | .tick ms => ms.all Meas.wf
  | .clkPresentClear _ => true
  | .clkPresentSet _ => true
  | .queueSlip x => decide (0 < x.words)
  | .intForce _ _ v => word32 v
  | .softReset _ _ => true
  | .softResetDone _ => true
  | .enableWrite _ _ _ => true
  | .freezeWrite _ _ _ => true
  | .haspAcquire _ _ _ => true
  | .haspRelease _ _ => true
  | .haspLeaseExpiry h => h.writes.all BusReq.wf
  | .hingeArm _ _ _ _ mf => decide (mf < 2 ^ 16)
  | .hingeCancel _ _ => true
  | .hingeTake _ ws => ws.all BusReq.wf
  | .copyForwardDone _ => true
  | .vecRearm _ v => word32 v
  | .msixUnmask _ => true
  | .misUpdate _ _ errs _ _ => decide (errs.length = 256)
  | .misRestore _ _ v => word32 v
  | .laserEnWrite _ _ _ _ => true
  | .laserLightChange _ _ => true
  | .rxOverloadChange _ => true
  | .sigAbsentSet _ => true
  | .sigAbsentClear _ => true
  | .txOn _ _ => true
  | .txOff _ _ => true
  | .rampUpDone _ => true
  | .rampDownDone _ => true
  | .txTargetWrite _ _ v => word32 v
  | .pwrDevSet _ => true
  | .pwrDevClear _ => true
  | .autoRelight _ => true
  | .calStart _ _ _ _ => true
  | .calAbort _ _ => true
  | .calAutoStart _ => true
  | .calPhaseAdvance _ => true
  | .calCommit _ result => result.all CalValues.wf
  | .nvmStoreDone _ _ => true
  | .freqShiftWrite _ _ v => word32 v
  | .txMultiframeStart _ t => t.time.wf && t.pay.slots.all fun x => decide (x.j < 640)
  | .branchFrameSend _ _ => true
  | .propose _ m => LoadMsg.wf m
  | .accept _ m => LoadMsg.wf m
  | .reject _ m => LoadMsg.wf m
  | .state _ _m => LoadMsg.wf _m
  | .fallbackReq _ => true
  | .orderRx _ m => LoadMsg.wf m
  | .orderTx _ m => LoadMsg.wf m
  | .invalidLoadingMsg _ raw => bytesOk raw
  | .pairedNoAccept _ => true
  | .fbAutoTimeout _ => true
  | .fallbackNow _ _ v => word32 v
  | .txFallback _ => true
  | .acqStageComplete _ _ _ => true
  | .acqStageLimit _ _ => true
  | .acqTimeout _ _ => true
  | .degradeClear _ _ => true
  | .reacq _ _ => true
  | .oos _ _ => true
  | .restoreCarrier _ _ => true
  | .eqReset _ _ v => word32 v
  | .scUnlock _ _ => true
  | .sing _ _ => true
  | .cycleSlip _ i => i.turns != 0
  | .trUnlock _ => true
  | .freqRange _ _ => true
  | .snrValid _ _ => true
  | .captureArm _ _ v => word32 v
  | .captureTrigger _ => true
  | .captureDone _ _ => true
  | .captureAbort _ _ v _ => word32 v
  | .codewordDecode _ _ w => w.wf
  | .cwLockAcquired _ => true
  | .cwLockLost _ => true
  | .outerLockAcquired _ => true
  | .outerLockLost _ => true
  | .fecDegSet _ => true
  | .fecDegClr _ => true
  | .grantCycleStart _ => true
  | .grants _ raw => bytesOk raw && decide (raw.length = 64)
  | .range _ raw _ => bytesOk raw && decide (raw.length = 64)
  | .activate _ raw _ => bytesOk raw && decide (raw.length = 64)
  | .deactivate _ raw _ => bytesOk raw && decide (raw.length = 64)
  | .burstTransmit _ _ _ _ _ => true
  | .burstCaptureStart _ _ g _ _ _ => decide (g < 65536)
  | .burstCaptureAbandon _ _ => true
  | .burstRecapture _ _ _ _ => true
  | .burstHeader _ _ h => bytesOk h
  | .burstEnd _ _ _ _ _ => true
  | .burstMissing _ _ g _ => decide (g < 65536)
  | .leafCtxEnable _ _ _ v => word64 v
  | .leafCtxDisable _ _ _ v => word64 v
  | .deact _ _ _ v => word64 v
  | .clrFlags _ _ _ v => word64 v
  | .leafCtxStale _ _ => true
  | .noDs _ => true
  | .leafDsReturn _ => true
  | .frameCandidate _ _ pos fas oh => bytesOk fas && bytesOk oh && decide (fas.length = 6) && decide (oh.length = 10) && decide (pos < 2 ^ 40)
  | .frameConfirm _ _ obs => obs.all fun o => decide (o.1 < 2 ^ 40) && o.2.all bytesOk
  | .framerAligned _ _ => true
  | .framerLoss _ _ => true
  | .framerMfnMismatch _ _ => true
  | .frameReceived _ _ fr => fr.wf
  | .ttiAccepted _ _ => true
  | .lof _ _ => true
  | .lom _ _ => true
  | .statDefectChange _ _ => true
  | .bdiDefectChange _ _ => true
  | .protSwitch _ _ => true
  | .protRevert _ _ => true
  | .protSwitchApply _ _ => true
  | .forceA _ _ _ => true
  | .forceB _ _ _ => true
  | .clear _ _ _ => true
  | .msimChange _ _ _ cycles => cycles.all bytesOk
  | .oduflexAligned _ _ _ => true
  | .oduflexLoss _ _ _ => true
  | .laneCtrlWrite _ _ _ v => word32 v
  | .laneRestart _ _ _ => true
  | .laneSlip _ _ _ => true
  | .txEqWrite _ _ _ v => word32 v
  | .cdrLockAcquired _ _ => true
  | .cdrLockLost _ _ => true
  | .eqConv _ _ => true
  | .portEnable _ _ _ v => word32 v
  | .portDisable _ _ _ v => word32 v
  | .portUp _ _ => true
  | .portAlignLoss _ _ => true
  | .prbsLock _ _ => true
  | .prbsUnlock _ _ => true
  | .prbsClr _ _ _ v => word32 v
  | .clientFrameClassify _ _ fr => fr.wf
  | .contextEnable _ _ _ v => word64 v
  | .flush _ _ _ v => word64 v
  | .bucketCredit _ => true
  | .schedulerBeat _ _ _ => true
  | .wheelSlotReached _ _ => true
  | .egressFrameReceive _ fr => fr.wf
  | .egressFrameSend _ _ _ => true
  | .txSegmentSend _ _ d _ => bytesOk d.data && decide (d.data.length = 4096)
  | .rxSegmentReceive _ _ rcd data _ _ => bytesOk rcd && decide (rcd.length = 32) && bytesOk data && decide (data.length = 4096)
  | .rxTagResult _ _ rcd _ _ => bytesOk rcd && decide (rcd.length = 32)
  | .assocEnable _ _ _ v => word64 v
  | .assocDisable _ _ _ v => word64 v
  | .importKek _ => true
  | .eraseKek _ => true
  | .importKey _ => true
  | .eraseKey _ => true
  | .retirePrev _ => true
  | .save _ => true
  | .restore _ => true
  | .discard _ => true
  | .keyImportCommit => true
  | .keyEraseCommit => true
  | .saveComplete => true
  | .refFault _ _ => true
  | .refQualified _ => true
  | .dpllLocked => true
  | .dpllBwStep => true
  | .holdoverExpiry => true
  | .hoValidSet => true
  | .dpllModeWrite _ v => word32 v
  | .stepGo _ => true
  | .stepApply => true
  | .secGo _ => true
  | .secLabelApply => true
  | .boApply _ => true
  | .invalidate _ => true
  | .update _ => true
  | .invalid _ => true
  | .ref6Timeout => true
  | .refCfgWrite _ _ v => word32 v
  | .outputEnable _ _ v => word32 v
  | .pull _ _ => true
  | .stopPull _ _ => true
  | .pullDone _ => true
  | .realign _ _ => true
  | .timeMessage _ _ => true
  | .todMessage l _ => bytesOk l
  | .ptpFrameReceive _ _ fr ts => fr.wf && ts.wf
  | .ptpTxRecord ts => ts.wf
  | .txtsRead _ => true
  | .memoryInitDone _ => true
  | .bucketLeak _ _ => true
  | .eccTestWrite _ _ v => word32 v
  | .read _ _ => true
  | .write _ _ => true
  | .writeRaw _ _ => true
  | .drDone _ => true
  | .scrubRead _ _ => true
  | .arbiterWindow _ _ => true
  | .arbiterSlot _ _ arr _ => decide (arr.length ≤ 4)
  | .refreshDue _ _ => true
  | .arbCfgWrite _ _ _ v => word32 v
  | .tumbStart _ _ _ => true
  | .tumbStop _ _ _ => true
  | .tumbRestart _ _ _ => true
  | .tumbAutoStart _ _ => true
  | .tumbWatchdog _ _ => true
  | .tumbDoorbell _ _ _ => true
  | .tumbWake _ _ _ => true
  | .ldpDataReturn _ _ _ => true
  | .stpIssue _ _ => true
  | .permWindowWrite _ _ _ _ v => word32 v
  | .counterFreezeWrite _ _ _ => true
  | .counterClr _ _ v => word32 v
  | .evcOvf _ _ => true
  | .add _ _ => true
  | .sub _ _ => true
  | .and _ _ => true
  | .or _ _ => true
  | .xor _ _ => true
  | .sll _ _ => true
  | .srl _ _ => true
  | .sra _ _ => true
  | .slt _ _ => true
  | .sltu _ _ => true
  | .min _ _ => true
  | .max _ _ => true
  | .adds _ _ => true
  | .addi _ _ => true
  | .andi _ _ => true
  | .ori _ _ => true
  | .xori _ _ => true
  | .slli _ _ => true
  | .srli _ _ => true
  | .srai _ _ => true
  | .slti _ _ => true
  | .lui _ _ => true
  | .movt _ _ => true
  | .mul _ _ => true
  | .mac _ _ => true
  | .msu _ _ => true
  | .mova _ _ => true
  | .ld _ _ => true
  | .st _ _ => true
  | .lda _ _ => true
  | .sta _ _ => true
  | .ldp _ _ => true
  | .stp _ _ => true
  | .ldpw _ _ => true
  | .stpw _ _ => true
  | .beq _ _ => true
  | .bne _ _ => true
  | .blt _ _ => true
  | .bge _ _ => true
  | .bltu _ _ => true
  | .bgeu _ _ => true
  | .jal _ _ => true
  | .jr _ _ => true
  | .waitt _ _ => true
  | .waite _ _ => true
  | .halt _ _ => true
  | .trap _ _ => true
  | .rdc _ _ => true
  | .frzc _ _ => true
  | .runc _ _ => true
  | .rdtk _ _ => true
  | .illegal _ _ => true
  | .monPassStart _ => true
  | .monDwellEnd _ outs => decide (outs.phase < 1024)
  | .monPassEnd _ => true
  | .accClr _ _ v => word32 v
  | .heaterSetptWrite _ _ _ _ v => word32 v
  | .stale _ _ => true
  | .htrOpen _ _ => true
  | .short _ _ => true
  | .trip _ => true
  | .supply _ => true
  | .forceSafe _ _ _ => true
  | .faultedClear _ _ _ => true
  | .pcieFunctionReset _ => true
  | .i2cBusTimeout => true
  | .i2cIaRead addr => word32 addr
  | .i2cIaWrite addr data => word32 addr && word32 data
  | .i2cIaDone => true
  | .sqTail _ v => word32 v
  | .cqHead _ v => word32 v
  | .dmaDescriptorFetch _ desc => bytesOk desc && decide (desc.length = 32)
  | .dmaBurst _ data _ => bytesOk data
  | .dmaDescriptorComplete _ => true
  | .dmaHostError _ _ => true
  | .abort _ _ => true
  | .resume _ _ => true
  | .submit => true
  | .ack => true
  | .getInfo => true
  | .getLog => true
  | .loadImage _ => true
  | .stageFirmware _ _ => true
  | .attest => true
  | .getCert => true
  | .debugUnlock _ => true
  | .mbEventPost code data => decide (code < 65536) && bytesOk data && decide (data.length ≤ 48)
  | .wardCoreReset _ cause addr => word32 cause && word32 addr
  | .bootStageComplete _ _ _ => true
  | .rcvData _ v => word32 v
  | .go _ _ => true
  | .lock _ => true
  | .programOwner _ _ => true
  | .revokeOwner _ _ => true
  | .advanceArb _ _ => true
  | .programKekSeed _ => true
  | .setCosign _ => true
  | .disableDebug _ => true
  | .fuseCmdDone => true
  | .pwrOkRise => true
  | .pwrOkFall rails => decide (rails < 511)
  | .resetNAssert => true
  | .resetRelease _ => true
  | .devReset _ key _ => decide (key < 65536)
  | .pwrCtrlWrite _ v => word32 v
  | .standbyReqChange _ => true
  | .parkDone _ => true
  | .unparkDone _ => true
  | .quadAsleep _ => true
  | .quadAwake _ => true
  | .parkExitStagger _ => true
  | .standbyReached => true
  | .standbyExitDone _ => true
  | .scLock _ _ => true
  | .outputEdge _ _ => true
  | .refFaultClear _ _ => true
  | .linkUp _ _ => true
  | .aerError _ => true
  | .remoteFault _ _ _ => true
  | .hiSer _ _ _ => true
  | .oduflexStatChange _ _ _ stat => decide (stat < 8)
  | .keywayCmdDone => true
  | .mbResponse => true
  | .testLogicReset => true
  | .burstGuardStart _ _ g _ => decide (g < 65536)

end Sys2Proof
end

