-- ==== Sys2Proof/Tests/Slice0.lean ====
section
/-! SUPPORT. Tests of the model: ill-formed commands are refused by the check, small steps give what the spec states, and for
every statement with hypotheses a state and operands that meet them. -/
namespace Sys2Proof.Tests
open Machine

set_option maxRecDepth 20000
set_option Elab.async false

/-! ## Well-formedness -/

theorem test_wf_accepts :
    ([.ack, .registerWrite [⟨.pcie, .bar0, 0x30, 4, false, 7⟩], .txTargetWrite .i2c 3 0xF6, .grants 0 (List.replicate 64 0)] : List Instr).all Instr.wf = true := by
  decide +kernel

theorem test_wf_refuses_1 :
    ([.registerWrite [⟨.i2c, .bar2, 0, 4, false, 0⟩],
      .registerWrite [⟨.i2c, .bar0, 0, 3, false, 0⟩],
      .registerWrite [⟨.i2c, .bar0, 2 ^ 26, 4, false, 0⟩],
      .registerWrite [⟨.i2c, .bar0, 0, 4, false, 2 ^ 32⟩],
      .snapshotRead .i2c (2 ^ 26),
      .tableWindowWrite .i2c 0x100 8 0,
      .tableWindowWrite .i2c 0x3000000 4 (2 ^ 32),
      .tableWindowRead .i2c 0x4000000 8,
      .coreSynthLock (10 ^ 9 * 2 ^ 48),
      .tick [.eye 0 0 256 0],
      .tick [.snr 0 0 65536 0 0],
      .intForce .pcie .fuse (2 ^ 32),
      .hingeArm .pcie (.tsi 0) 1 0 65536,
      .hingeTake [] [⟨.pcie, .bar0, 0, 16, false, 0⟩],
      .misUpdate 0 0 [] false 0,
      .haspLeaseExpiry ⟨.page .fuse, [⟨.i2c, .bar0, 0, 3, false, 0⟩]⟩,
      .queueSlip ⟨.tsi 0, 0⟩,
      .misRestore .pcie 0 (2 ^ 32)] : List Instr).any Instr.wf = false := by
  decide +kernel

theorem test_wf_refuses_2 :
    ([.txTargetWrite .pcie 0 (2 ^ 32),
      .calCommit 0 (some ⟨[], [], []⟩),
      .freqShiftWrite .pcie 0 (2 ^ 32),
      .txMultiframeStart 0 ⟨(⟨0, 10 ^ 9, 0⟩ : DevTime), ⟨[], []⟩⟩,
      .txMultiframeStart 0 ⟨⟨0, 0, 0⟩, ⟨[], [⟨0, 640, []⟩]⟩⟩,
      .cycleSlip 0 ⟨0, 0⟩,
      .propose 0 (⟨256, false, 0, 0, 0, 0, List.replicate 16 0⟩ : LoadMsg),
      .accept 0 (⟨256, false, 0, 0, 0, 0, List.replicate 16 0⟩ : LoadMsg),
      .reject 0 (⟨256, false, 0, 0, 0, 0, List.replicate 16 0⟩ : LoadMsg),
      .state 0 (⟨256, false, 0, 0, 0, 0, List.replicate 16 0⟩ : LoadMsg),
      .orderRx 0 (⟨256, false, 0, 0, 0, 0, List.replicate 16 0⟩ : LoadMsg),
      .orderTx 0 (⟨256, false, 0, 0, 0, 0, List.replicate 16 0⟩ : LoadMsg),
      .invalidLoadingMsg 0 [256],
      .fallbackNow .pcie 0 (2 ^ 32),
      .eqReset .pcie 0 (2 ^ 32),
      .captureArm .pcie 0 (2 ^ 32),
      .captureAbort .pcie 0 (2 ^ 32) [],
      .codewordDecode 0 0 (.native 37200 (List.replicate 9300 0) []),
      .codewordDecode 0 0 (.burst (List.replicate 2100 0)),
      .codewordDecode 0 0 (.burst (List.replicate 2200 32)),
      .codewordDecode 0 0 (.ofec 10 11 none)] : List Instr).any Instr.wf = false := by
  decide +kernel

theorem test_wf_refuses_3 :
    ([.grants 0 [0],
      .range 0 [0] 0,
      .activate 0 [0] 0,
      .deactivate 0 [0] 0,
      .burstCaptureStart 0 0 65536 0 0 0,
      .burstHeader 0 0 [256],
      .burstMissing 0 0 65536 0,
      .burstGuardStart 0 0 65536 0,
      .leafCtxEnable .pcie 0 0 (2 ^ 64),
      .leafCtxDisable .pcie 0 0 (2 ^ 64),
      .deact .pcie 0 0 (2 ^ 64),
      .clrFlags .pcie 0 0 (2 ^ 64),
      .frameCandidate 0 0 (2 ^ 40) (List.replicate 6 0) (List.replicate 10 0),
      .frameCandidate 0 0 0 [1] [],
      .frameConfirm 0 0 [(2 ^ 40, [])],
      .frameReceived 0 0 (.native [256] ⟨0, 0, 0⟩),
      .frameReceived 0 0 (.msa [0] [9] []),
      .msimChange 0 0 0 [[256]]] : List Instr).any Instr.wf = false := by
  decide +kernel

theorem test_wf_refuses_4 :
    ([.laneCtrlWrite .pcie 0 0 (2 ^ 32),
      .txEqWrite .pcie 0 0 (2 ^ 32),
      .portEnable .pcie 0 0 (2 ^ 32),
      .portDisable .pcie 0 0 (2 ^ 32),
      .prbsClr .pcie 0 0 (2 ^ 32),
      .clientFrameClassify 0 0 (⟨[256], false, 0⟩ : EthFrame),
      .egressFrameReceive 0 ⟨[1, 2], false, 0⟩,
      .contextEnable .pcie 0 0 (2 ^ 64),
      .flush .pcie 0 0 (2 ^ 64),
      .txSegmentSend 0 0 ⟨0, [256]⟩ false,
      .rxSegmentReceive 0 0 [] [256] 0 false,
      .rxTagResult 0 0 [0] 0 false,
      .assocEnable .pcie 0 0 (2 ^ 64),
      .assocDisable .pcie 0 0 (2 ^ 64),
      .oduflexStatChange 0 0 0 8] : List Instr).any Instr.wf = false := by
  decide +kernel

theorem test_wf_refuses_5 :
    ([.dpllModeWrite .pcie (2 ^ 32),
      .refCfgWrite .pcie 0 (2 ^ 32),
      .outputEnable .pcie 0 (2 ^ 32),
      .todMessage [256] 0,
      .ptpFrameReceive 0 0 ⟨List.replicate 18 0, false, 0⟩ (⟨0, 10 ^ 9, 0⟩ : DevTime),
      .ptpTxRecord (⟨0, 10 ^ 9, 0⟩ : DevTime),
      .eccTestWrite .pcie 0 (2 ^ 32),
      .arbiterSlot 0 0 [0, 0, 0, 0, 0] false,
      .arbCfgWrite .pcie 0 0 (2 ^ 32),
      .permWindowWrite .pcie 0 0 0 (2 ^ 32),
      .counterClr .pcie 0 (2 ^ 32),
      .monDwellEnd 0 ⟨1024, []⟩,
      .accClr .pcie 0 (2 ^ 32),
      .heaterSetptWrite .pcie 0 0 0 (2 ^ 32)] : List Instr).any Instr.wf = false := by
  decide +kernel

theorem test_wf_refuses_6 :
    ([.i2cIaRead (2 ^ 32),
      .i2cIaWrite 0 (2 ^ 32),
      .sqTail 0 (2 ^ 32),
      .cqHead 0 (2 ^ 32),
      .dmaDescriptorFetch 0 [0],
      .dmaBurst 0 [256] false,
      .mbEventPost 65536 [],
      .wardCoreReset 0 0 (2 ^ 32),
      .rcvData .pcie (2 ^ 32),
      .pwrOkFall 511,
      .devReset .pcie 65536 true,
      .pwrCtrlWrite .pcie (2 ^ 32)] : List Instr).any Instr.wf = false := by
  decide +kernel

/-! ## Small steps -/

def hubMsg (l : List Nat) : List Nat :=
  let m := l ++ List.replicate (60 - l.length) 0
  m ++ beBytes 4 (crc32c m)
def ctrlMsg (cmd : Nat) : List Nat := hubMsg [0x11, 0, 0, 0, 0, cmd, 1, 2, 3, 4, 9]
def burstHdr : List Nat := List.replicate 14 0 ++ beBytes 2 (crc16 (List.replicate 14 0))
def overhead : List Nat :=
  let b := [0, 0, 0, 0] ++ beBytes 2 320 ++ [0, 0]
  [0, 0, 0xF6, 0x28, 0x28, 0] ++ b ++ beBytes 2 (crc16 b)
def st (l : List (Fld × Nat)) : State := l.foldl (fun s x => s.put x.1 x.2) State.reset
def stw (s : State) (l : List (Loc × Nat)) : State := l.foldl (fun s x => s.store x.1 x.2) s

/-- The state that a step answers. -/
def after (o : Host.Outcome State Fault Refusal) : State :=
  match o with
  | .next t => t
  | _ => State.reset

/-- Executing a command on a state. -/
def run (c : Instr) (s : State) : State := after (exec c s)

/-- No row of the table has bits, so that no word spells a command. -/
theorem test_no_word_spells : decodeTableWord 32 0xFFFFFFFF = none ∧ State.reset.withFetchWord 32 5 = State.reset := by
  decide +kernel

/-- R54: a free hasp goes to the master that acquires it, with its lease. -/
theorem test_hasp_acquired :
    let t := run (.haspAcquire .i2c (.page .fuse) 1250) State.reset
    t.get (HDR.HASP_HELD .fuse) = 1 ∧ t.get (HDR.HASP_OWNER .fuse) = 2 ∧ t.get (HDR.HASP_LEASE .fuse) = 1250 := by
  decide +kernel

/-- R56, R69: another master's write under a hasp is dropped, and the record names both masters. -/
theorem test_hasp_drop :
    let s := run (.haspAcquire .pcie (.page .fuse) 1250) State.reset
    let t := run (.registerWrite [⟨.i2c, .bar0, Page.base .fuse + 8, 4, false, 0⟩]) s
    t.flag (HDR.ENABLE .fuse) = true ∧ t.get (HDR.ERR_CAUSE .fuse) = 2 ∧ t.get (HDR.ERR_MASTER_A .fuse) = 2 ∧ t.get (HDR.ERR_MASTER_B .fuse) = 1 := by
  decide +kernel

/-- R65, R68: two masters write SCRATCH in one cycle; the later in the order stands, and COLLISION is recorded. -/
theorem test_collision :
    let t := run (.registerWrite [⟨.i2c, .bar0, Page.base .fuse + 0x30, 4, false, 5⟩, ⟨.pcie, .bar0, Page.base .fuse + 0x30, 4, false, 9⟩]) State.reset
    t.get (HDR.SCRATCH .fuse) = 5 ∧ t.get (HDR.ERR_CAUSE .fuse) = 1 := by
  decide +kernel

/-- R40: an access to an unmapped address has no effect and is logged on DEV.INT. -/
theorem test_unmapped :
    let t := run (.registerWrite [⟨.pcie, .bar0, 0x2FFF000, 4, false, 5⟩]) State.reset
    t.flag (HDR.ERR_VALID .devInt) = true ∧ t.get INT.ERR_ADDR_ADDR = 0x2FFF000 := by
  decide +kernel

/-- R528: the memory code corrects a flipped data bit. -/
theorem test_ecc_corrects : eccDecode (0x123456789ABCDEF0 ^^^ 2 ^ 17) (eccCheck 0x123456789ABCDEF0) = (.ce, 0x123456789ABCDEF0, eccColumns.getD 17 0) := by
  decide +kernel

/-- R135: CRC-32C of the nine bytes 123456789. -/
theorem test_crc32c : crc32c [0x31, 0x32, 0x33, 0x34, 0x35, 0x36, 0x37, 0x38, 0x39] = 0xE3069283 := by
  decide +kernel

/-- R569: ADDI of −1 to 0 is 2^36 − 1, and SUB wraps. -/
theorem test_tumbler_wraps : alAdd 0 (2 ^ 36 - 1) = 2 ^ 36 - 1 ∧ alSub 0 1 = 2 ^ 36 - 1 ∧ alAdds (2 ^ 35 - 1) 1 = 2 ^ 35 - 1 := by
  decide +kernel

/-- R668: in reset a command changes nothing. -/
theorem test_reset_holds : run (.intForce .pcie .fuse 1) { State.reset with inReset := true } = { State.reset with inReset := true } := by
  decide +kernel

/-- A step takes the front command. -/
theorem test_step_front :
    (after (step { State.reset with pending := [.intForce .pcie .fuse 1, .ack] })).pending = [.ack]
      ∧ (after (step { State.reset with pending := [.intForce .pcie .fuse 1, .ack] })).get (HDR.INT_RAW .fuse) = 1 := by
  decide +kernel

/-! ## Hypotheses that are met -/

theorem test_meets_TransmitterCommands :
    (∃ (m : Master) (c : Fin 16) (s : State), s.inReset = false ∧ Accepts m (.conv c) 0x050 s ∧ s.flag (CONV.LASER_CTRL_EN c) = true ∧ s.flag (HDR.ENABLE (.conv c)) = true ∧ s.get (PWR.hPark c) = 0 ∧ s.get (CONV.TX_STAT_STATE c) = txDark ∧ s.flag (CONV.LASER_STAT_LIGHT c) = true)
    ∧ (∃ (m : Master) (c : Fin 16) (s : State), s.inReset = false ∧ Accepts m (.conv c) 0x050 s ∧ ((s.get (CONV.TX_STAT_STATE c) = txRampUp ∨ s.get (CONV.TX_STAT_STATE c) = txLit ∨ s.get (CONV.TX_STAT_STATE c) = txBurst)))
    ∧ (∃ (c : Fin 16) (s : State), s.inReset = false ∧ s.get (CONV.TX_STAT_STATE c) = txRampUp ∧ s.flag (HDR.FREEZE (.conv c)) = false ∧ levelUp c s = s.geti (CONV.TX_TARGET_TARGET c) * 100000)
    ∧ (∃ (c : Fin 16) (s : State), s.inReset = false ∧ s.get (CONV.TX_STAT_STATE c) = txRampDown ∧ s.flag (HDR.FREEZE (.conv c)) = false ∧ levelDown c s ≤ s.geti (CONV.TX_TARGET_TARGET c) * 100000 - 30000000)
    ∧ (∃ (c : Fin 16) (s : State), s.inReset = false ∧ s.get (CONV.TX_STAT_STATE c) = txShuttered ∧ s.flag (CONV.LASER_CTRL_AUTO_RELIGHT c) = true ∧ s.flag (CONV.LASER_CTRL_EN c) = true ∧ s.flag (HDR.ENABLE (.conv c)) = true ∧ s.get (PWR.hPark c) = 0 ∧ s.flag (CONV.LASER_STAT_LIGHT c) = true ∧ 125 ≤ s.get (CONV.hRelight c))
    ∧ (∃ (m : Master) (c : Fin 16) (v : Nat) (s : State), s.inReset = false ∧ Accepts m (.conv c) 0x048 s ∧ s.get (CONV.TX_STAT_STATE c) ≠ txLit ∧ s.get (CONV.TX_STAT_STATE c) ≠ txBurst)
    ∧ (∃ (m : Master) (c : Fin 16) (relight : Bool) (s : State), s.inReset = false ∧ Accepts m (.conv c) 0x040 s) :=
  ⟨⟨.pcie, 3, (st [(CONV.LASER_CTRL_EN 3, 1), (HDR.ENABLE (.conv 3), 1), (CONV.LASER_STAT_LIGHT 3, 1)]), by decide +kernel⟩,
    ⟨.pcie, 3, (st [(CONV.TX_STAT_STATE 3, 2)]), by decide +kernel⟩,
    ⟨3, (st [(CONV.TX_STAT_STATE 3, 1), (CONV.TX_TARGET_TARGET 3, 0)]), by decide +kernel⟩,
    ⟨3, (st [(CONV.TX_STAT_STATE 3, 3), (CONV.TX_TARGET_TARGET 3, 0), (CONV.hLevel 3, 2 ^ 40 - 30000000)]), by decide +kernel⟩,
    ⟨3, (st [(CONV.TX_STAT_STATE 3, 5), (CONV.LASER_CTRL_AUTO_RELIGHT 3, 1), (CONV.LASER_CTRL_EN 3, 1), (HDR.ENABLE (.conv 3), 1), (CONV.LASER_STAT_LIGHT 3, 1), (CONV.hRelight 3, 125)]), by decide +kernel⟩,
    ⟨.pcie, 3, 0x0B, State.reset, by decide +kernel⟩,
    ⟨.pcie, 3, true, State.reset, by decide +kernel⟩⟩

theorem test_meets_LaserAndReceiverDetectors :
    (∃ (c : Fin 16) (s : State), s.inReset = false ∧ (s.get (CONV.TX_STAT_STATE c) = txLit ∨ s.get (CONV.TX_STAT_STATE c) = txBurst) ∧ 125 ≤ s.get (CONV.hLitTicks c) ∧ 125 ≤ s.get (CONV.hDevCnt c) ∧ s.flag (CONV.TX_STAT_PWR_DEV c) = false)
    ∧ (∃ (c : Fin 16) (s : State), s.inReset = false ∧ 125 ≤ s.get (CONV.hOkCnt c))
    ∧ (∃ (c : Fin 16) (s : State), s.inReset = false ∧ s.flag (CONV.LASER_STAT_LIGHT c) = false)
    ∧ (∃ (c : Fin 16) (s : State), s.inReset = false ∧ s.flag (CONV.LASER_STAT_LIGHT c) = true ∧ (s.get (CONV.TX_STAT_STATE c) = txDark ∨ s.get (CONV.TX_STAT_STATE c) = txShuttered))
    ∧ (∃ (c : Fin 16) (s : State), s.inReset = false ∧ 400 < s.geti (CONV.RX_STAT_PWR c) ∧ s.flag (CONV.RX_STAT_OVERLOAD c) = false)
    ∧ (∃ (c : Fin 16) (s : State), s.inReset = false ∧ s.flag (CONV.RX_STAT_SIG_ABSENT c) = false)
    ∧ (∃ (c : Fin 16) (s : State), s.inReset = false ∧ s.flag (CONV.RX_STAT_SIG_ABSENT c) = true) :=
  ⟨⟨3, (st [(CONV.TX_STAT_STATE 3, 2), (CONV.hLitTicks 3, 125), (CONV.hDevCnt 3, 125)]), by decide +kernel⟩,
    ⟨3, (st [(CONV.hOkCnt 3, 125), (CONV.TX_STAT_PWR_DEV 3, 1)]), by decide +kernel⟩,
    ⟨3, State.reset, by decide +kernel⟩,
    ⟨3, (st [(CONV.LASER_STAT_LIGHT 3, 1)]), by decide +kernel⟩,
    ⟨3, (st [(CONV.RX_STAT_PWR 3, 401)]), by decide +kernel⟩,
    ⟨3, (st [(CONV.RX_STAT_SIG_ABSENT 3, 0)]), by decide +kernel⟩,
    ⟨3, (st [(CONV.RX_STAT_SIG_ABSENT 3, 1)]), by decide +kernel⟩⟩

theorem test_meets_CorrectionAndCalibration :
    (∃ (c : Fin 16) (n : Fin 4) (errs : List Int) (low : Bool) (residual : Int) (s : State), s.inReset = false ∧ misRuns c s = true ∧ max 1 (s.get (CONV.MIS_CTRL_INTERVAL c)) ≤ s.get (CONV.hMisTicks c n) ∧ misComplete c n s = true ∧ (low || s.flag (CONV.hMisAbsent c n) || s.flag (CONV.RX_STAT_SIG_ABSENT c)) = true)
    ∧ (∃ (c : Fin 16) (n : Fin 4) (errs : List Int) (residual : Int) (s : State), s.inReset = false ∧ misRuns c s = true ∧ max 1 (s.get (CONV.MIS_CTRL_INTERVAL c)) ≤ s.get (CONV.hMisTicks c n) ∧ misComplete c n s = true ∧ s.flag (CONV.hMisAbsent c n) = false ∧ s.flag (CONV.RX_STAT_SIG_ABSENT c) = false)
    ∧ (∃ (m : Master) (c : Fin 16) (v : Nat) (s : State), s.inReset = false ∧ Accepts m (.conv c) 0x060 s)
    ∧ (∃ (m : Master) (c : Fin 16) (force : Bool) (full : Bool) (s : State), s.inReset = false ∧ Accepts m (.cal c) 0x040 s ∧ calRefusal c force s = none)
    ∧ (∃ (m : Master) (c : Fin 16) (s : State), s.inReset = false ∧ Accepts m (.cal c) 0x040 s)
    ∧ (∃ (c : Fin 16) (s : State), s.inReset = false ∧ s.get (RXDSP.CARRIER_STAT_STATE c) = stOff ∧ s.flag (CAL.hVals c) = false ∧ s.flag (HDR.ENABLE (.cal c)) = true ∧ mayRun c s = true ∧ s.flag (CONV.LASER_STAT_LIGHT c) = true ∧ s.flag (CAL.CAL_STAT_BUSY c) = false ∧ s.flag (HDR.RESET_BUSY (.rxdsp c)) = false ∧ s.flag (HDR.RESET_BUSY (.cal c)) = false)
    ∧ (∃ (c : Fin 16) (s : State), s.inReset = false ∧ s.flag (CAL.CAL_STAT_BUSY c) = true ∧ s.get (CAL.CAL_STAT_PHASE c) < 7 ∧ phaseDue c s = true)
    ∧ (∃ (c : Fin 16) (v : CalValues) (s : State), s.inReset = false ∧ s.flag (CAL.CAL_STAT_BUSY c) = true ∧ s.get (CAL.CAL_STAT_PHASE c) = 7 ∧ phaseDue c s = true)
    ∧ (∃ (c : Fin 16) (s : State), s.inReset = false ∧ s.flag (CAL.CAL_STAT_BUSY c) = true ∧ s.get (CAL.CAL_STAT_PHASE c) = 7 ∧ phaseDue c s = true)
    ∧ (∃ (c : Fin 16) (r : CalRecord) (s : State), s.inReset = false ∧ s.storing.find? (fun (x : CalRecord) => x.carrier == c) = some r)
    ∧ (∃ (c : Fin 16) (r : CalRecord) (s : State), s.inReset = false ∧ s.storing.find? (fun (x : CalRecord) => x.carrier == c) = some r) :=
  ⟨⟨3, 1, [], true, 0, (st [(CONV.MIS_CTRL_BG_EN 3, 1), (RXDSP.CARRIER_STAT_STATE 3, stIn), (CONV.hMisTicks 3 1, 9), (CONV.MIS_CTRL_INTERVAL 3, 1), (CONV.hMisAcc 3 1, 400), (CONV.MIS_STAT0_SKIPPED 3 1, 0), (CONV.RX_STAT_SIG_ABSENT 3, 0), (RXDSP.hMode 3, 0xA8)]), by decide +kernel⟩,
    ⟨3, 1, [3, -9], -401, (st [(CONV.MIS_CTRL_BG_EN 3, 1), (RXDSP.CARRIER_STAT_STATE 3, stIn), (CONV.hMisTicks 3 1, 9), (CONV.MIS_CTRL_INTERVAL 3, 1), (CONV.hMisAcc 3 1, 400), (CONV.MIS_STAT0_SKIPPED 3 1, 0), (CONV.RX_STAT_SIG_ABSENT 3, 0), (RXDSP.hMode 3, 0xA8), (CONV.hMisGood 3 1, 3)]), by decide +kernel⟩,
    ⟨.pcie, 3, 0x10203, State.reset, by decide +kernel⟩,
    ⟨.pcie, 3, false, true, (st [(HDR.ENABLE (.cal 3), 1), (HDR.ENABLE (.conv 3), 1), (CONV.LASER_STAT_LIGHT 3, 1)]), by decide +kernel⟩,
    ⟨.pcie, 3, (st [(CAL.CAL_STAT_BUSY 3, 1)]), by decide +kernel⟩,
    ⟨3, (st [(HDR.ENABLE (.cal 3), 1), (HDR.ENABLE (.conv 3), 1), (HDR.ENABLE (.rxdsp 3), 1), (CONV.LASER_STAT_LIGHT 3, 1)]), by decide +kernel⟩,
    ⟨3, (st [(CAL.CAL_STAT_BUSY 3, 1), (CAL.CAL_STAT_PHASE 3, 6), (CAL.hTicks 3, 220)]), by decide +kernel⟩,
    ⟨3, ⟨[], [], []⟩, (st [(CAL.CAL_STAT_BUSY 3, 1), (CAL.CAL_STAT_PHASE 3, 7), (CAL.hTicks 3, 225)]), by decide +kernel⟩,
    ⟨3, (st [(CAL.CAL_STAT_BUSY 3, 1), (CAL.CAL_STAT_PHASE 3, 7), (CAL.hTicks 3, 225)]), by decide +kernel⟩,
    ⟨3, ⟨3, false, 1, false, false, 0, 7, 0, 0, ⟨[], [], []⟩⟩, { (st [(CAL.NVM_STAT_STORE_BUSY 3, 1)]) with storing := [⟨3, false, 1, false, false, 0, 7, 0, 0, ⟨[], [], []⟩⟩] }, by decide +kernel⟩,
    ⟨3, ⟨3, false, 1, false, false, 0, 7, 0, 0, ⟨[], [], []⟩⟩, { (st [(CAL.NVM_STAT_STORE_BUSY 3, 1)]) with storing := [⟨3, false, 1, false, false, 0, 7, 0, 0, ⟨[], [], []⟩⟩] }, by decide +kernel⟩⟩

theorem test_meets_LoadingExchange :
    (∃ (c : Fin 16) (m : LoadMsg) (s : State), s.inReset = false ∧ msgsAct c s = true ∧ txMfPresent c ((s.put (TXDSP.hFbCnt c) 0).put (TXDSP.LOAD_STAT_LAST_RX_TYPE c) ltPropose) = true ∧ s.flag (TXDSP.hAnsValid c) = false ∧ proposeReason c m ((s.put (TXDSP.hFbCnt c) 0).put (TXDSP.LOAD_STAT_LAST_RX_TYPE c) ltPropose) = 0)
    ∧ (∃ (c : Fin 16) (m : LoadMsg) (s : State), s.inReset = false ∧ msgsAct c s = true ∧ 1 ≤ mfLead m.target (s.get (OTU.MFN_RX c)) ∧ mfLead m.target (s.get (OTU.MFN_RX c)) ≤ 32767 ∧ s.flag (TXDSP.LOAD_STAT_REQ_PENDING c) = true ∧ m.seq % 65536 = s.get (TXDSP.hSeq c) ∧ m.target % 65536 = s.get (HDR.HINGE_MF (.rxdsp c)))
    ∧ (∃ (c : Fin 16) (m : LoadMsg) (s : State), s.inReset = false ∧ msgsAct c s = true ∧ s.flag (TXDSP.LOAD_STAT_REQ_PENDING c) = true ∧ m.seq % 65536 = s.get (TXDSP.hSeq c) ∧ m.target % 65536 = s.get (HDR.HINGE_MF (.rxdsp c)))
    ∧ (∃ (c : Fin 16) (m : LoadMsg) (s : State), s.inReset = false ∧ msgsAct c s = true)
    ∧ (∃ (c : Fin 16) (s : State), s.inReset = false ∧ s.flag (HDR.PENDING (.rxdsp c)) = true ∧ s.get (HDR.HINGE_MODE (.rxdsp c)) = modePaired ∧ s.flag (TXDSP.hAcc c) = false ∧ mfLead (s.get (HDR.HINGE_MF (.rxdsp c))) (s.get (OTU.MFN_RX c)) ≤ 1)
    ∧ (∃ (c : Fin 16) (raw : List Nat) (s : State), s.inReset = false ∧ msgsAct c s = true ∧ loadMsgValid raw = false)
    ∧ (∃ (c : Fin 16) (s : State), s.inReset = false ∧ msgsAct c s = true ∧ isHub c s = false ∧ s.get (TXDSP.hFbAge c) < 8)
    ∧ (∃ (c : Fin 16) (s : State), s.inReset = false ∧ msgsAct c s = true ∧ isHub c s = false ∧ s.get (TXDSP.LOAD_CTRL_FB_AUTO c) ≠ 0 ∧ s.get (TXDSP.LOAD_CTRL_FB_AUTO c) ≤ s.get (TXDSP.hFbCnt c))
    ∧ (∃ (c : Fin 16) (s : State), s.inReset = false ∧ msgsAct c s = true ∧ isHub c s = true)
    ∧ (∃ (m : Master) (c : Fin 16) (v : Nat) (s : State), s.inReset = false ∧ msgsAct c s = true ∧ Accepts m (.txdsp c) 0x080 s)
    ∧ (∃ (c : Fin 16) (s : State), s.inReset = false ∧ s.flag (TXDSP.hFbPend c) = true ∧ txRuns c s = true)
    ∧ (∃ (c : Fin 16) (m : LoadMsg) (s : State), s.inReset = false ∧ msgsAct c s = true ∧ orderOk c m.target (s.get (OTU.MFN_RX c)) ((List.range 16).map fun i => rowOfEntry (m.rows.getD i 0)) (msgSeen c ltOrderRx s) = true ∧ samePending (.rxdsp c) m.target ((List.range 16).map fun i => rowOfEntry (m.rows.getD i 0)) (rxLoadRow c false) (msgSeen c ltOrderRx s) = false)
    ∧ (∃ (c : Fin 16) (m : LoadMsg) (s : State), s.inReset = false ∧ msgsAct c s = true ∧ isLeaf c s = false)
    ∧ (∃ (c : Fin 16) (m : LoadMsg) (s : State), s.inReset = false ∧ msgsAct c s = true ∧ orderOk c m.target (txMfn c s) ((List.range 16).map fun i => if leafLo c s ≤ i ∧ i ≤ leafHi c s then rowOfEntry (m.rows.getD i 0) else 0) (msgSeen c ltOrderTx s) = true ∧ samePending (.txdsp c) m.target ((List.range 16).map fun i => if leafLo c s ≤ i ∧ i ≤ leafHi c s then rowOfEntry (m.rows.getD i 0) else 0) (txLoadRow c false) (msgSeen c ltOrderTx s) = false)
    ∧ (∃ (m : Master) (c : Fin 16) (v : Nat) (s : State), s.inReset = false ∧ Accepts m (.txdsp c) 0x050 s) :=
  ⟨⟨3, ⟨1, false, 7, 9, 0, 0, []⟩, (st [(HDR.ENABLE (.otu 3), 1), (OTU.hTxFirst 3, 0), (TXDSP.LOAD_CTRL_AUTO_ACCEPT 3, 1), (TXDSP.hMode 3, 0xA8)]), by decide +kernel⟩,
    ⟨3, ⟨2, false, 7, 9, 0, 3, []⟩, (st [(TXDSP.LOAD_STAT_REQ_PENDING 3, 1), (TXDSP.hSeq 3, 7), (HDR.HINGE_MF (.rxdsp 3), 9)]), by decide +kernel⟩,
    ⟨3, ⟨2, false, 7, 9, 0, 3, []⟩, (st [(TXDSP.LOAD_STAT_REQ_PENDING 3, 1), (TXDSP.hSeq 3, 7), (HDR.HINGE_MF (.rxdsp 3), 9)]), by decide +kernel⟩,
    ⟨3, ⟨2, false, 7, 9, 0, 3, []⟩, State.reset, by decide +kernel⟩,
    ⟨3, (st [(HDR.PENDING (.rxdsp 3), 1), (HDR.HINGE_MODE (.rxdsp 3), 3), (HDR.HINGE_MF (.rxdsp 3), 9), (OTU.MFN_RX 3, 8)]), by decide +kernel⟩,
    ⟨3, [1], State.reset, by decide +kernel⟩,
    ⟨3, (st [(TXDSP.hFbAge 3, 5)]), by decide +kernel⟩,
    ⟨3, (st [(TXDSP.LOAD_CTRL_FB_AUTO 3, 4), (TXDSP.hFbCnt 3, 4)]), by decide +kernel⟩,
    ⟨3, (st [((HUB.CAR_MODE 3).active, 1)]), by decide +kernel⟩,
    ⟨.pcie, 3, 0x80050006, State.reset, by decide +kernel⟩,
    ⟨3, (st [(TXDSP.hFbPend 3, 1), (TXDSP.hState 3, 1)]), by decide +kernel⟩,
    ⟨3, ⟨6, false, 0, 9, 0, 0, List.replicate 16 0x9000⟩, (st [((HUB.CAR_MODE 3).active, 2)]), by decide +kernel⟩,
    ⟨3, ⟨2, false, 7, 9, 0, 3, []⟩, State.reset, by decide +kernel⟩,
    ⟨3, ⟨7, false, 0, 9, 0, 0, List.replicate 16 0x9000⟩, (st [((HUB.CAR_MODE 3).active, 2)]), by decide +kernel⟩,
    ⟨.pcie, 3, 0x7000, State.reset, by decide +kernel⟩⟩

theorem test_meets_FramingAndCodewords :
    (∃ (c : Fin 16) (i : Fin 16) (pos : Nat) (fas : List Nat) (oh : List Nat) (s : State), s.inReset = false ∧ s.flag (RXDSP.hLineClk c) = true ∧ otuRuns c s = true ∧ s.flag (FEC.FEC_STAT_CW_LOCK c) = true ∧ rxZr c s = false ∧ i ∈ streamsRx c s ∧ s.get (OTU.hFrmState c i) ≤ 1 ∧ opensCandidate c i pos (scramble (fas ++ oh)) s = true ∧ (candidates c i s).length < 4)
    ∧ (∃ (c : Fin 16) (i : Fin 16) (pos : Nat) (fas : List Nat) (oh : List Nat) (s : State), s.inReset = false ∧ s.flag (RXDSP.hLineClk c) = true ∧ otuRuns c s = true ∧ s.flag (FEC.FEC_STAT_CW_LOCK c) = true ∧ rxZr c s = false ∧ i ∈ streamsRx c s ∧ s.get (OTU.hFrmState c i) ≤ 1 ∧ opensCandidate c i pos (scramble (fas ++ oh)) s = true ∧ (candidates c i s).length = 4)
    ∧ (∃ (c : Fin 16) (i : Fin 16) (v : Nat) (fs : List (List Nat)) (s : State), s.inReset = false ∧ s.flag (RXDSP.hLineClk c) = true ∧ s.get (OTU.hFrmState c i) = 1 ∧ candidates c i s = [v] ∧ confirms v fs = true)
    ∧ (∃ (c : Fin 16) (i : Fin 16) (v : Nat) (fs : List (List Nat)) (s : State), s.inReset = false ∧ s.flag (RXDSP.hLineClk c) = true ∧ s.get (OTU.hFrmState c i) = 1 ∧ candidates c i s = [v] ∧ confirms v fs = false)
    ∧ (∃ (c : Fin 16) (i : Fin 16) (s : State), s.inReset = false ∧ s.flag (RXDSP.hLineClk c) = true ∧ otuRuns c s = true ∧ s.flag (FEC.FEC_STAT_CW_LOCK c) = true ∧ rxZr c s = false ∧ s.get (OTU.hFrmState c i) = 2 ∧ s.flag (OTU.hMet c i) = true)
    ∧ (∃ (c : Fin 16) (s : State), s.inReset = false ∧ s.flag (RXDSP.hLineClk c) = true ∧ otuRuns c s = true ∧ s.flag (FEC.FEC_STAT_CW_LOCK c) = true ∧ rxZr c s = true ∧ s.get (OTU.hFrmState c 0) = 0)
    ∧ (∃ (c : Fin 16) (i : Fin 16) (s : State), s.inReset = false ∧ s.flag (RXDSP.hLineClk c) = true ∧ 2 ≤ s.get (OTU.hFrmState c i) ∧ (rxZr c s = true ∨ s.get (OTU.hErr c i) = 5))
    ∧ (∃ (c : Fin 16) (i : Fin 16) (s : State), s.inReset = false ∧ s.flag (RXDSP.hLineClk c) = true ∧ s.get (OTU.hFrmState c i) = 3 ∧ s.get (OTU.hMis c i) = 4)
    ∧ (∃ (c : Fin 16) (b : Fin 16) (llr : List Int) (s : State), s.inReset = false ∧ fecRuns c s = true ∧ rxZr c s = false ∧ s.flag (FEC.FEC_STAT_CW_LOCK c) = true ∧ ((llr.length = innerN ∧ innerN ≤ capPayload c b s) ∨ (llr.length = shortLen (s.get (RXDSP.hMode c)) (capPayload c b s) ∧ llr ≠ [])))
    ∧ (∃ (c : Fin 16) (b : Fin 16) (cand : Nat) (llr : List Int) (blocks : List (Nat × List Nat)) (s : State), s.inReset = false ∧ fecRuns c s = true ∧ rxZr c s = false ∧ s.flag (FEC.FEC_STAT_CW_LOCK c) = true ∧ (isHub c s = true ∨ s.get (FEC.hCand c b) = cand))
    ∧ (∃ (c : Fin 16) (b : Fin 16) (cand : Nat) (llr : List Int) (blocks : List (Nat × List Nat)) (s : State), s.inReset = false ∧ fecRuns c s = true ∧ rxZr c s = false ∧ s.flag (FEC.FEC_STAT_CW_LOCK c) = false)
    ∧ (∃ (c : Fin 16) (b : Fin 16) (len : Nat) (corr : Nat) (n : Nat) (s : State), s.inReset = false ∧ fecRuns c s = true ∧ rxZr c s = true ∧ s.flag (FEC.FEC_STAT_CW_LOCK c) = true)
    ∧ (∃ (c : Fin 16) (s : State), s.inReset = false ∧ fecRuns c s = true ∧ s.flag (FEC.FEC_STAT_CW_LOCK c) = false ∧ rxZr c s = false ∧ (unitsOf c s).any (fun b => decide (7 ≤ s.get (unitOf c b s).stage) && s.get (FEC.hConv c b) == 4) = true)
    ∧ (∃ (c : Fin 16) (s : State), s.inReset = false ∧ fecRuns c s = true ∧ s.flag (FEC.FEC_STAT_CW_LOCK c) = false ∧ rxZr c s = true ∧ (unitsOf c s).any (fun b => decide (7 ≤ s.get (unitOf c b s).stage)) = true)
    ∧ (∃ (c : Fin 16) (s : State), s.inReset = false ∧ s.flag (RXDSP.hLineClk c) = true ∧ s.flag (FEC.FEC_STAT_CW_LOCK c) = true ∧ (rxZr c s = true ∨ s.get (FEC.hNconv c) = 64))
    ∧ (∃ (c : Fin 16) (s : State), s.inReset = false ∧ s.flag (RXDSP.hLineClk c) = true ∧ s.flag (FEC.FEC_STAT_CW_LOCK c) = true ∧ s.flag (FEC.FEC_STAT_OUTER_LOCK c) = false ∧ s.get (FEC.hGoodBlk c) = 2 ∧ (streamsRx c s).any (fun i => streamAligned c i s) = true)
    ∧ (∃ (c : Fin 16) (s : State), s.inReset = false ∧ s.flag (RXDSP.hLineClk c) = true ∧ s.flag (FEC.FEC_STAT_OUTER_LOCK c) = true ∧ s.get (FEC.hBadBlk c) = 16)
    ∧ (∃ (c : Fin 16) (s : State), s.inReset = false ∧ degEvaluated c s = true ∧ s.flag (FEC.FEC_STAT_DEG c) = false ∧ max 1 (s.get (FEC.DEG_TIME_SET_TICKS c)) ≤ s.get (FEC.hSetCnt c))
    ∧ (∃ (c : Fin 16) (s : State), s.inReset = false ∧ degEvaluated c s = true ∧ s.flag (FEC.FEC_STAT_DEG c) = true ∧ max 1 (s.get (FEC.DEG_TIME_CLR_TICKS c)) ≤ s.get (FEC.hClrCnt c)) :=
  ⟨⟨3, 0, frameStart 320 0, (scramble overhead).take 6, (scramble overhead).drop 6, (st [(HDR.ENABLE (.otu 3), 1), (FEC.FEC_STAT_CW_LOCK 3, 1), (RXDSP.hMode 3, 0x1000A8), (RXDSP.hLineClk 3, 1)]), by decide +kernel⟩,
    ⟨3, 0, frameStart 320 0, (scramble overhead).take 6, (scramble overhead).drop 6, (st [(HDR.ENABLE (.otu 3), 1), (FEC.FEC_STAT_CW_LOCK 3, 1), (RXDSP.hMode 3, 0x1000A8), (OTU.hCandN 3 0, 4), (RXDSP.hLineClk 3, 1)]), by decide +kernel⟩,
    ⟨3, 0, 5, [[0, 0, 0xF6, 0x28, 0x28, 0, 1], [0, 0, 0xF6, 0x28, 0x28, 0, 2], [0, 0, 0xF6, 0x28, 0x28, 0, 3]].map scramble, (st [(OTU.hFrmState 3 0, 1), (OTU.hCandN 3 0, 1), (OTU.hCand 3 0 0, 5), (RXDSP.hLineClk 3, 1)]), by decide +kernel⟩,
    ⟨3, 0, 5, [], (st [(OTU.hFrmState 3 0, 1), (OTU.hCandN 3 0, 1), (OTU.hCand 3 0 0, 5), (RXDSP.hLineClk 3, 1)]), by decide +kernel⟩,
    ⟨3, 0, (st [(HDR.ENABLE (.otu 3), 1), (FEC.FEC_STAT_CW_LOCK 3, 1), (OTU.hFrmState 3 0, 2), (OTU.hMet 3 0, 1), (RXDSP.hLineClk 3, 1)]), by decide +kernel⟩,
    ⟨3, (st [(HDR.ENABLE (.otu 3), 1), (FEC.FEC_STAT_CW_LOCK 3, 1), (RXDSP.hMode 3, 0x40000000), (RXDSP.hLineClk 3, 1)]), by decide +kernel⟩,
    ⟨3, 0, (st [(OTU.hFrmState 3 0, 3), (OTU.hErr 3 0, 5), (RXDSP.hLineClk 3, 1)]), by decide +kernel⟩,
    ⟨3, 0, (st [(OTU.hFrmState 3 0, 3), (OTU.hMis 3 0, 4), (RXDSP.hLineClk 3, 1)]), by decide +kernel⟩,
    ⟨3, 0, List.replicate 2200 1, (st [(HDR.ENABLE (.fec 3), 1), (FEC.FEC_STAT_CW_LOCK 3, 1), (FEC.FEC_STAT_ITER_ACT 3, 2), (HUB.hCap 3 0, 2), (HUB.hCapE 3 0, 22), (HUB.hCapR 3 0, 1), (RXDSP.hLineClk 3, 1)]), by decide +kernel⟩,
    ⟨3, 0, 5, [1, -1], [], (st [(HDR.ENABLE (.fec 3), 1), (FEC.FEC_STAT_CW_LOCK 3, 1), (FEC.hCand 3 0, 5), (RXDSP.hLineClk 3, 1)]), by decide +kernel⟩,
    ⟨3, 0, 5, [1, -1], [], (st [(HDR.ENABLE (.fec 3), 1), (RXDSP.hLineClk 3, 1)]), by decide +kernel⟩,
    ⟨3, 0, 100, 1, 3, (st [(HDR.ENABLE (.fec 3), 1), (FEC.FEC_STAT_CW_LOCK 3, 1), (RXDSP.hMode 3, 0x40000000), (RXDSP.hLineClk 3, 1)]), by decide +kernel⟩,
    ⟨3, (st [(HDR.ENABLE (.fec 3), 1), (RXDSP.CARRIER_STAT_ACQ_STAGE 3, 7), (FEC.hConv 3 0, 4), (RXDSP.hLineClk 3, 1)]), by decide +kernel⟩,
    ⟨3, (st [(HDR.ENABLE (.fec 3), 1), (RXDSP.CARRIER_STAT_ACQ_STAGE 3, 7), (RXDSP.hMode 3, 0x40000000), (RXDSP.hLineClk 3, 1)]), by decide +kernel⟩,
    ⟨3, (st [(FEC.FEC_STAT_CW_LOCK 3, 1), (FEC.hNconv 3, 64), (RXDSP.hLineClk 3, 1)]), by decide +kernel⟩,
    ⟨3, (st [(FEC.FEC_STAT_CW_LOCK 3, 1), (FEC.hGoodBlk 3, 2), (OTU.hFrmState 3 0, 3), (RXDSP.hLineClk 3, 1)]), by decide +kernel⟩,
    ⟨3, (st [(FEC.FEC_STAT_OUTER_LOCK 3, 1), (FEC.hBadBlk 3, 16), (RXDSP.hLineClk 3, 1)]), by decide +kernel⟩,
    ⟨3, (st [(FEC.FEC_STAT_CW_LOCK 3, 1), (RXDSP.CARRIER_STAT_STATE 3, 3), (FEC.hSetCnt 3, 255)]), by decide +kernel⟩,
    ⟨3, (st [(FEC.FEC_STAT_DEG 3, 1), (FEC.FEC_STAT_CW_LOCK 3, 1), (RXDSP.CARRIER_STAT_STATE 3, 3), (FEC.hClrCnt 3, 255)]), by decide +kernel⟩⟩

theorem test_meets_ReceivedOverhead :
    (∃ (c : Fin 16) (i : Fin 16) (octets : List Nat) (arr : DevTime) (s : State), s.inReset = false ∧ s.flag (RXDSP.hLineClk c) = true ∧ s.get (OTU.hFrmState c i) = 2 ∧ s.get (OTU.hMfas c i) ≠ 0 ∧ rxZr c s = false)
    ∧ (∃ (c : Fin 16) (i : Fin 16) (octets : List Nat) (arr : DevTime) (s : State), s.inReset = false ∧ s.flag (RXDSP.hLineClk c) = true ∧ s.get (OTU.hFrmState c i) = 3 ∧ s.get (OTU.hMfas c i) ≠ 0 ∧ rxZr c s = false)
    ∧ (∃ (c : Fin 16) (i : Fin 16) (octets : List Nat) (arr : DevTime) (s : State), s.inReset = false ∧ s.flag (RXDSP.hLineClk c) = true ∧ s.get (OTU.hFrmState c i) = 3 ∧ s.get (OTU.hMfas c i) = 0 ∧ rxZr c s = false)
    ∧ (∃ (c : Fin 16) (i : Fin 16) (oh : List Nat) (sm : List Nat) (pm : List Nat) (s : State), s.inReset = false ∧ s.flag (RXDSP.hLineClk c) = true ∧ s.get (OTU.hFrmState c i) = 3 ∧ s.get (OTU.hMfas c i) ≠ 0 ∧ rxZr c s = true)
    ∧ (∃ (c : Fin 16) (i : Fin 16) (s : State), s.inReset = false ∧ s.flag (RXDSP.hLineClk c) = true ∧ s.get (OTU.hFrmState c i) = 3 ∧ s.get (OTU.hTtiRun c i) = 3)
    ∧ (∃ (c : Fin 16) (i : Fin 16) (s : State), s.inReset = false ∧ s.flag (RXDSP.hLineClk c) = true ∧ otuRuns c s = true ∧ s.flag (OTU.hOof c i) = true ∧ s.flag (OTU.hLof c i) = false ∧ i ∈ streamsRx c s ∧ (streamsSync c (s.put (OTU.hLof c i) 1)).get (RXDSP.CARRIER_STAT_STATE c) = stCal)
    ∧ (∃ (c : Fin 16) (i : Fin 16) (s : State), s.inReset = false ∧ s.flag (RXDSP.hLineClk c) = true ∧ otuRuns c s = true ∧ s.flag (OTU.hOof c i) = true ∧ s.flag (OTU.hLof c i) = false ∧ i ∈ streamsRx c s ∧ (streamsSync c (s.put (OTU.hLof c i) 1)).get (RXDSP.CARRIER_STAT_STATE c) ≠ stCal)
    ∧ (∃ (c : Fin 16) (i : Fin 16) (s : State), s.inReset = false ∧ s.flag (RXDSP.hLineClk c) = true ∧ s.get (OTU.hFrmState c i) = 2 ∧ s.flag (OTU.hFromAl c i) = true ∧ s.flag (OTU.hLom c i) = false ∧ max 1 (s.get (FRM.FRM_CFG_LOM_MF (quadOf c))) ≤ s.get (OTU.hLomMf c i) ∧ (streamsSync c (s.put (OTU.hLom c i) 1)).get (RXDSP.CARRIER_STAT_STATE c) ≠ stCal)
    ∧ (∃ (c : Fin 16) (i : Fin 16) (s : State), s.inReset = false ∧ s.flag (RXDSP.hLineClk c) = true ∧ s.get (OTU.hFrmState c i) = 3)
    ∧ (∃ (c : Fin 16) (i : Fin 16) (s : State), s.inReset = false ∧ s.flag (RXDSP.hLineClk c) = true ∧ s.get (OTU.hFrmState c i) = 3) :=
  ⟨⟨3, 0, scramble ([0, 0, 0xF6, 0x28, 0x28, 0, 9] ++ List.replicate 60 0), ⟨1, 2, 3⟩, (st [(OTU.hFrmState 3 0, 2), (OTU.hMfas 3 0, 9), (RXDSP.hLineClk 3, 1)]), by decide +kernel⟩,
    ⟨3, 0, scramble ([0, 0, 0xF6, 0x28, 0x28, 0, 9] ++ List.replicate 60 0), ⟨1, 2, 3⟩, (st [(OTU.hFrmState 3 0, 3), (OTU.hMfas 3 0, 9), (RXDSP.hLineClk 3, 1)]), by decide +kernel⟩,
    ⟨3, 0, scramble ([0, 0, 0xF6, 0x28, 0x28, 0, 9] ++ List.replicate 60 0), ⟨1, 2, 3⟩, (st [(OTU.hFrmState 3 0, 3), (RXDSP.hLineClk 3, 1)]), by decide +kernel⟩,
    ⟨3, 0, [1, 2, 3], [4], [5], (st [(OTU.hFrmState 3 0, 3), (OTU.hMfas 3 0, 9), (RXDSP.hMode 3, 0x40000000), (RXDSP.hLineClk 3, 1)]), by decide +kernel⟩,
    ⟨3, 0, (st [(OTU.hFrmState 3 0, 3), (OTU.hTtiRun 3 0, 3), (RXDSP.hLineClk 3, 1)]), by decide +kernel⟩,
    ⟨3, 0, (st [(HDR.ENABLE (.otu 3), 1), (OTU.hOof 3 0, 1), (RXDSP.CARRIER_STAT_STATE 3, 1), (RXDSP.hLineClk 3, 1)]), by decide +kernel⟩,
    ⟨3, 0, (st [(HDR.ENABLE (.otu 3), 1), (OTU.hOof 3 0, 1), (RXDSP.CARRIER_STAT_STATE 3, 3), (RXDSP.hLineClk 3, 1)]), by decide +kernel⟩,
    ⟨3, 0, (st [(OTU.hFrmState 3 0, 2), (OTU.hFromAl 3 0, 1), (OTU.hLomMf 3 0, 255), (RXDSP.CARRIER_STAT_STATE 3, 3), (RXDSP.hLineClk 3, 1)]), by decide +kernel⟩,
    ⟨3, 0, (st [(OTU.hFrmState 3 0, 3), (OTU.hDetIn 3 0 0, 3), (RXDSP.hLineClk 3, 1)]), by decide +kernel⟩,
    ⟨3, 0, (st [(OTU.hFrmState 3 0, 3), (OTU.hDetIn 3 0 3, 5), (RXDSP.hLineClk 3, 1)]), by decide +kernel⟩⟩

theorem test_meets_AcquisitionAndCarrierState :
    (∃ (c : Fin 16) (b : Fin 16) (v : Int) (s : State), s.inReset = false ∧ s.flag (RXDSP.hLineClk c) = true ∧ s.get (unitOf c b s).stage = 1 ∧ s.flag (CONV.RX_STAT_SIG_ABSENT c) = false ∧ s.flag (CONV.LASER_STAT_IN_RANGE c) = true)
    ∧ (∃ (c : Fin 16) (b : Fin 16) (v : Int) (s : State), s.inReset = false ∧ s.flag (RXDSP.hLineClk c) = true ∧ s.flag (HDR.FREEZE (.rxdsp c)) = false ∧ s.get (unitOf c b s).stage = 2 ∧ |v| ≤ 5000)
    ∧ (∃ (c : Fin 16) (b : Fin 16) (v : Int) (s : State), s.inReset = false ∧ s.flag (RXDSP.hLineClk c) = true ∧ s.flag (HDR.FREEZE (.rxdsp c)) = false ∧ s.get (unitOf c b s).stage = 3)
    ∧ (∃ (c : Fin 16) (b : Fin 16) (v : Int) (s : State), s.inReset = false ∧ s.flag (RXDSP.hLineClk c) = true ∧ s.get (unitOf c b s).stage = 4 ∧ isHub c s = false ∧ |v| < 20000)
    ∧ (∃ (c : Fin 16) (b : Fin 16) (v : Int) (s : State), s.inReset = false ∧ s.flag (RXDSP.hLineClk c) = true ∧ s.get (unitOf c b s).stage = 4 ∧ isHub c s = true)
    ∧ (∃ (c : Fin 16) (b : Fin 16) (v : Int) (s : State), s.inReset = false ∧ s.flag (RXDSP.hLineClk c) = true ∧ s.get (unitOf c b s).stage = 5 ∧ ((unitRows c b s).filter (fun i => rxRowOn c i s)).all (fun i => scLock c i s) = true)
    ∧ (∃ (c : Fin 16) (b : Fin 16) (v : Int) (s : State), s.inReset = false ∧ s.flag (RXDSP.hLineClk c) = true ∧ s.get (unitOf c b s).stage = 6)
    ∧ (∃ (c : Fin 16) (b : Fin 16) (v : Int) (s : State), s.inReset = false ∧ s.flag (RXDSP.hLineClk c) = true ∧ s.get (unitOf c b s).stage = 7 ∧ s.get (OTU.hFrmState c b) = 3)
    ∧ (∃ (c : Fin 16) (b : Fin 16) (v : Int) (s : State), s.inReset = false ∧ s.flag (RXDSP.hLineClk c) = true ∧ s.get (unitOf c b s).stage = 8 ∧ max 1 (s.get (RXDSP.ACQ_CTRL_VERIFY_MF c)) ≤ s.get (unitOf c b s).verify)
    ∧ (∃ (c : Fin 16) (b : Fin 16) (s : State), s.inReset = false ∧ 2 ≤ s.get (unitOf c b s).stage ∧ s.get (unitOf c b s).stage ≤ 6 ∧ (isZr (s.get (RXDSP.hMode c)) = false ∨ s.get (unitOf c b s).stage ≠ 6))
    ∧ (∃ (c : Fin 16) (b : Fin 16) (s : State), s.inReset = false ∧ 2 ≤ s.get (unitOf c b s).stage ∧ s.get (unitOf c b s).stage ≤ 8 ∧ max 1 (s.get (RXDSP.ACQ_CTRL_ACQ_TIMEOUT c)) ≤ s.get (unitOf c b s).ticks)
    ∧ (∃ (c : Fin 16) (b : Fin 16) (s : State), s.inReset = false ∧ s.get (unitOf c b s).state = stDeg ∧ 125 ≤ s.get (unitOf c b s).degClr ∧ degradeCause c b s = 0)
    ∧ (∃ (m : Master) (c : Fin 16) (s : State), s.inReset = false ∧ Accepts m (.rxdsp c) 0x048 s)
    ∧ (∃ (m : Master) (c : Fin 16) (s : State), s.inReset = false ∧ Accepts m (.rxdsp c) 0x048 s)
    ∧ (∃ (m : Master) (c : Fin 16) (s : State), s.inReset = false ∧ Accepts m (.rxdsp c) 0x048 s) :=
  ⟨⟨3, 0, 0, (st [(RXDSP.CARRIER_STAT_ACQ_STAGE 3, 1), (CONV.RX_STAT_SIG_ABSENT 3, 0), (CONV.LASER_STAT_IN_RANGE 3, 1), (RXDSP.hLineClk 3, 1)]), by decide +kernel⟩,
    ⟨3, 0, -5000, (st [(RXDSP.CARRIER_STAT_ACQ_STAGE 3, 2), (RXDSP.hLineClk 3, 1)]), by decide +kernel⟩,
    ⟨3, 0, 7, (st [(RXDSP.CARRIER_STAT_ACQ_STAGE 3, 3), (RXDSP.hLineClk 3, 1)]), by decide +kernel⟩,
    ⟨3, 0, -7, (st [(RXDSP.CARRIER_STAT_ACQ_STAGE 3, 4), (RXDSP.hLineClk 3, 1)]), by decide +kernel⟩,
    ⟨3, 2, 0, (st [((HUB.CAR_MODE 3).active, 1), (HUB.hBrStage 3 2, 4), (RXDSP.hLineClk 3, 1)]), by decide +kernel⟩,
    ⟨3, 0, 0, (st [(RXDSP.CARRIER_STAT_ACQ_STAGE 3, 5), (RXDSP.hLineClk 3, 1)]), by decide +kernel⟩,
    ⟨3, 0, 7, (st [(RXDSP.CARRIER_STAT_ACQ_STAGE 3, 6), (RXDSP.hLineClk 3, 1)]), by decide +kernel⟩,
    ⟨3, 0, 7, (st [(RXDSP.CARRIER_STAT_ACQ_STAGE 3, 7), (OTU.hFrmState 3 0, 3), (RXDSP.hLineClk 3, 1)]), by decide +kernel⟩,
    ⟨3, 0, 7, (st [(RXDSP.CARRIER_STAT_ACQ_STAGE 3, 8), (RXDSP.hVerify 3, 255), (RXDSP.hLineClk 3, 1)]), by decide +kernel⟩,
    ⟨3, 0, (st [(RXDSP.CARRIER_STAT_ACQ_STAGE 3, 6)]), by decide +kernel⟩,
    ⟨3, 0, (st [(RXDSP.CARRIER_STAT_ACQ_STAGE 3, 8), (RXDSP.hAcqTicks 3, 65535)]), by decide +kernel⟩,
    ⟨3, 0, (st [(RXDSP.CARRIER_STAT_STATE 3, 4), (RXDSP.hDegClr 3, 125)]), by decide +kernel⟩,
    ⟨.pcie, 3, (st [(RXDSP.CARRIER_STAT_STATE 3, 3)]), by decide +kernel⟩,
    ⟨.pcie, 3, (st [(RXDSP.CARRIER_STAT_STATE 3, 3)]), by decide +kernel⟩,
    ⟨.pcie, 3, (st [(RXDSP.CARRIER_STAT_STATE 3, 5), (RXDSP.CARRIER_STAT_ACQ_STAGE 3, 9)]), by decide +kernel⟩⟩

theorem test_meets_SubcarrierLocksAndCaptures :
    (∃ (c : Fin 16) (i : Fin 16) (s : State), s.inReset = false ∧ s.flag (RXDSP.hLineClk c) = true ∧ s.flag (RXDSP.SC_STAT0_SC_LOCK c i) = true ∧ rxRowOn c i s = false)
    ∧ (∃ (c : Fin 16) (i : Fin 16) (s : State), s.inReset = false ∧ s.flag (RXDSP.hLineClk c) = true ∧ s.flag (RXDSP.SC_STAT0_SC_LOCK c i) = true ∧ rxRowOn c i s = true)
    ∧ (∃ (c : Fin 16) (i : Fin 16) (s : State), s.inReset = false ∧ s.flag (RXDSP.hLineClk c) = true ∧ s.flag (RXDSP.SC_STAT0_SC_LOCK c i) = false ∧ (isZr (s.get (RXDSP.hMode c)) = false ∨ i = 0))
    ∧ (∃ (m : Master) (c : Fin 16) (s : State), s.inReset = false ∧ Accepts m (.rxdsp c) 0x074 s)
    ∧ (∃ (m : Master) (c : Fin 16) (v : Nat) (s : State), s.inReset = false ∧ Accepts m (.rxdsp c) 0x074 s)
    ∧ (∃ (c : Fin 16) (i : Fin 16) (s : State), s.inReset = false ∧ s.flag (RXDSP.hLineClk c) = true ∧ (isZr (s.get (RXDSP.hMode c)) = false ∨ i = 0) ∧ eqFrozen c i s = false ∧ rxRowOn c i s = true)
    ∧ (∃ (c : Fin 16) (i : Fin 16) (s : State), s.inReset = false ∧ s.flag (RXDSP.hLineClk c) = true ∧ (isZr (s.get (RXDSP.hMode c)) = false ∨ i = 0) ∧ (eqFrozen c i s = true ∨ rxRowOn c i s = false))
    ∧ (∃ (c : Fin 16) (i : Fin 16) (k : Fin 4) (s : State), s.inReset = false ∧ s.flag (RXDSP.hLineClk c) = true ∧ (isZr (s.get (RXDSP.hMode c)) = false ∨ i = 0) ∧ k ≠ 0)
    ∧ (∃ (c : Fin 16) (s : State), s.inReset = false ∧ s.flag (RXDSP.hLineClk c) = true ∧ isHub c s = false ∧ s.flag (RXDSP.TR_STAT_LOCK c) = true)
    ∧ (∃ (c : Fin 16) (ofs : Int) (s : State), s.inReset = false ∧ s.flag (RXDSP.hLineClk c) = true ∧ s.flag (HDR.FREEZE (.rxdsp c)) = false ∧ |ofs| ≤ 8000 ∧ 5000 < |ofs|)
    ∧ (∃ (c : Fin 16) (ofs : Int) (s : State), s.inReset = false ∧ s.flag (RXDSP.hLineClk c) = true ∧ s.flag (HDR.FREEZE (.rxdsp c)) = false ∧ |ofs| ≤ 5000)
    ∧ (∃ (c : Fin 16) (ofs : Int) (s : State), s.inReset = false ∧ s.flag (RXDSP.hLineClk c) = true ∧ s.flag (HDR.FREEZE (.rxdsp c)) = false ∧ 8000 < |ofs| ∧ s.flag (RXDSP.FREQ_STAT_OOR c) = false)
    ∧ (∃ (c : Fin 16) (i : Fin 16) (s : State), s.inReset = false ∧ s.flag (RXDSP.hLineClk c) = true ∧ s.flag (RXDSP.SC_STAT0_SC_LOCK c i) = true ∧ 2 ^ s.get (RXDSP.SNR_CTRL_AVG c) ≤ s.get (RXDSP.hSnrTicks c i))
    ∧ (∃ (m : Master) (c : Fin 16) (v : Nat) (s : State), s.inReset = false ∧ Accepts m (.rxdsp c) 0x0A0 s ∧ s.flag (RXDSP.CAP_STAT_ARMED c) = false ∧ bits v 25 3 < 5)
    ∧ (∃ (m : Master) (c : Fin 16) (v : Nat) (xs : List Int) (s : State), s.inReset = false ∧ Accepts m (.rxdsp c) 0x0A0 s ∧ s.flag (RXDSP.CAP_STAT_ARMED c) = true ∧ s.flag (RXDSP.CAP_STAT_RUNNING c) = false)
    ∧ (∃ (m : Master) (c : Fin 16) (v : Nat) (xs : List Int) (n : Nat) (s : State), s.inReset = false ∧ Accepts m (.rxdsp c) 0x0A0 s ∧ s.flag (RXDSP.CAP_STAT_RUNNING c) = true ∧ n = min (captureLen c s) (wholeWords (s.get (RXDSP.CAP_CTRL_SRC c)) xs))
    ∧ (∃ (c : Fin 16) (s : State), s.inReset = false ∧ s.flag (RXDSP.hLineClk c) = true ∧ s.flag (RXDSP.CAP_STAT_ARMED c) = true ∧ s.flag (RXDSP.hTrig c) = true)
    ∧ (∃ (c : Fin 16) (xs : List Int) (s : State), s.inReset = false ∧ s.flag (RXDSP.hLineClk c) = true ∧ s.flag (RXDSP.CAP_STAT_RUNNING c) = true) :=
  ⟨⟨3, 2, (st [(RXDSP.SC_STAT0_SC_LOCK 3 2, 1), (RXDSP.SC_STAT0_VALID 3 2, 1), (RXDSP.hLineClk 3, 1)]), by decide +kernel⟩,
    ⟨3, 2, (stw (st [(RXDSP.SC_STAT0_SC_LOCK 3 2, 1), (RXDSP.hLineClk 3, 1)]) [(rxLoadRow 3 true 2, 2 ^ 63)]), by decide +kernel⟩,
    ⟨3, 2, (st [(RXDSP.hLineClk 3, 1)]), by decide +kernel⟩,
    ⟨.pcie, 3, (st [(RXDSP.SC_STAT0_SC_LOCK 3 0, 1)]), by decide +kernel⟩,
    ⟨.pcie, 3, 0x8001, (st [(RXDSP.SC_STAT0_SC_LOCK 3 0, 1)]), by decide +kernel⟩,
    ⟨3, 2, (stw (st [(RXDSP.hLineClk 3, 1)]) [(rxLoadRow 3 true 2, 2 ^ 63)]), by decide +kernel⟩,
    ⟨3, 2, (st [(RXDSP.hLineClk 3, 1)]), by decide +kernel⟩,
    ⟨3, 2, 1, (st [(RXDSP.hLineClk 3, 1)]), by decide +kernel⟩,
    ⟨3, (st [(RXDSP.TR_STAT_LOCK 3, 1), (RXDSP.hLineClk 3, 1)]), by decide +kernel⟩,
    ⟨3, -5001, (st [(RXDSP.hLineClk 3, 1)]), by decide +kernel⟩,
    ⟨3, -5000, (st [(RXDSP.hLineClk 3, 1)]), by decide +kernel⟩,
    ⟨3, 8001, (st [(RXDSP.FREQ_STAT_VALID 3, 1), (RXDSP.hLineClk 3, 1)]), by decide +kernel⟩,
    ⟨3, 2, (st [(RXDSP.SC_STAT0_SC_LOCK 3 2, 1), (RXDSP.hSnrTicks 3 2, 32768), (RXDSP.hLineClk 3, 1)]), by decide +kernel⟩,
    ⟨.pcie, 3, 0x02000010, State.reset, by decide +kernel⟩,
    ⟨.pcie, 3, 0, [], (st [(RXDSP.CAP_STAT_ARMED 3, 1)]), by decide +kernel⟩,
    ⟨.pcie, 3, 0, [1, 2, 3, 4, 5, 6, 7, -8, 9], 1, (st [(RXDSP.CAP_STAT_RUNNING 3, 1)]), by decide +kernel⟩,
    ⟨3, (st [(RXDSP.CAP_STAT_ARMED 3, 1), (RXDSP.hTrig 3, 1), (RXDSP.hLineClk 3, 1)]), by decide +kernel⟩,
    ⟨3, [1, 2], (st [(RXDSP.CAP_STAT_RUNNING 3, 1), (RXDSP.CAP_CTRL_LEN 3, 2), (RXDSP.hLineClk 3, 1)]), by decide +kernel⟩⟩

theorem test_meets_LeafMessagesAndContexts :
    (∃ (c : Fin 16) (raw : List Nat) (s : State), s.inReset = false ∧ leafHears c s = true ∧ hubMsgOk 0x10 raw = true ∧ raw.getD 13 0 = 0)
    ∧ (∃ (c : Fin 16) (raw : List Nat) (g : Nat) (s : State), s.inReset = false ∧ leafHears c s = true ∧ hubMsgOk 0x10 raw = true ∧ g = ofBe (slice raw 2 2))
    ∧ (∃ (c : Fin 16) (raw : List Nat) (k : Fin 4) (eqd : Nat) (q : Nat) (s : State), s.inReset = false ∧ leafCmdOf c raw k lcRange s = some (eqd, q) ∧ s.get (HUB.LEAF_STAT_STATE c) = lfUnranged)
    ∧ (∃ (c : Fin 16) (raw : List Nat) (k : Fin 4) (eqd : Nat) (q : Nat) (s : State), s.inReset = false ∧ leafCmdOf c raw k lcActivate s = some (eqd, q) ∧ s.get (HUB.LEAF_STAT_STATE c) = lfRanged)
    ∧ (∃ (c : Fin 16) (raw : List Nat) (k : Fin 4) (eqd : Nat) (q : Nat) (s : State), s.inReset = false ∧ leafCmdOf c raw k lcDeactivate s = some (eqd, q) ∧ s.get (HUB.LEAF_STAT_STATE c) = lfActive)
    ∧ (∃ (c : Fin 16) (s : State), s.inReset = false ∧ isLeaf c (syncUpdate c s) = true ∧ lfUnranged ≤ (syncUpdate c s).get (HUB.LEAF_STAT_STATE c) ∧ leafDsOk c (syncUpdate c s) = false)
    ∧ (∃ (c : Fin 16) (s : State), s.inReset = false ∧ (syncUpdate c s).get (HUB.LEAF_STAT_STATE c) = lfNoDs ∧ leafDsOk c (syncUpdate c s) = true ∧ (syncUpdate c s).get (HUB.hPrev c) = lfActive ∧ (syncUpdate c s).get (HUB.hNoDsTicks c) ≤ (syncUpdate c s).get (HUB.LEAF_HOLD c))
    ∧ (∃ (c : Fin 16) (x : LeafGrant) (backlog : Nat) (guard : Nat) (s : State), s.inReset = false ∧ s.leafGrants = [x] ∧ x.c = c ∧ x.gcn < 65536 ∧ x.kind = 0 ∧ leafBurst c s = true ∧ s.flag (HUB.LEAF_STAT_SYNC c) = true ∧ s.get (HUB.LEAF_STAT_STATE c) = lfActive ∧ s.get (CONV.TX_STAT_STATE c) = txBurst ∧ lineSends c s = true)
    ∧ (∃ (m : Master) (c : Fin 16) (r : Fin 256) (v : Nat) (s : State), s.inReset = false ∧ AcceptsWindow m (.hub c) s ∧ ctxState c r s = cxEmpty)
    ∧ (∃ (m : Master) (c : Fin 16) (r : Fin 256) (v : Nat) (s : State), s.inReset = false ∧ AcceptsWindow m (.hub c) s ∧ ctxState c r s ≠ cxEmpty)
    ∧ (∃ (m : Master) (c : Fin 16) (r : Fin 256) (v : Nat) (s : State), s.inReset = false ∧ AcceptsWindow m (.hub c) s ∧ ctxState c r s ≠ cxEmpty)
    ∧ (∃ (m : Master) (c : Fin 16) (r : Fin 256) (v : Nat) (s : State), s.inReset = false ∧ AcceptsWindow m (.hub c) s ∧ ctxState c r s ≠ cxEmpty)
    ∧ (∃ (c : Fin 16) (r : Fin 256) (s : State), s.inReset = false ∧ ctxState c r s = cxActive ∧ s.get (HUB.LEAF_POL_CTX_AGE c) ≠ 0 ∧ s.get (HUB.LEAF_POL_CTX_AGE c) ≤ bits (ctxW c r 3 s) 0 16)
    ∧ (∃ (c : Fin 16) (s : State), s.inReset = false ∧ isHub c s = true ∧ s.flag (HUB.hCycFirst c) = true ∧ s.get (HUB.hMf c) ≠ 2 ^ 64 - 1 ∧ s.get (RXDSP.CARRIER_STAT_STATE c) ≠ stCal)
    ∧ (∃ (c : Fin 16) (n : Nat) (s : State), s.inReset = false ∧ isHub c s = true ∧ s.flag (HUB.hCycFirst c) = false ∧ n = s.get (HUB.hCyc c) + 1 ∧ s.get (RXDSP.CARRIER_STAT_STATE c) ≠ stCal)
    ∧ (∃ (c : Fin 16) (s : State), s.inReset = false ∧ isHub c s = true ∧ s.flag (HUB.hCycFirst c) = false ∧ s.get (RXDSP.CARRIER_STAT_STATE c) = stCal) :=
  ⟨⟨3, hubMsg [0x10], { (st [((HUB.CAR_MODE 3).active, 2), (OTU.hFrmState 3 0, 3), (HUB.LEAF_STAT_STATE 3, 2)]) with leafGrants := [⟨3, 1000, 4, false, 0, false, 100, 8, 0, 0, 0, 0, 0⟩] }, by decide +kernel⟩,
    ⟨3, hubMsg ([0x10, 0, 3, 232, 0, 0, 0, 0, 0, 0, 0, 0, 0, 1, 0, 0, 0xFF, 0xF0, 0, 0, 100, 0, 8, 5]), 1000, (st [((HUB.CAR_MODE 3).active, 2), (OTU.hFrmState 3 0, 3), (HUB.LEAF_STAT_STATE 3, 2)]), by decide +kernel⟩,
    ⟨3, ctrlMsg lcRange, 0, 0x01020304, 9, { (st [((HUB.CAR_MODE 3).active, 2), (OTU.hFrmState 3 0, 3), (HUB.LEAF_STAT_STATE 3, 2)]) with leafGrants := [⟨3, 1000, 4, false, 0, false, 100, 8, 0, 0, 0, 0, 0⟩] }, by decide +kernel⟩,
    ⟨3, ctrlMsg lcActivate, 0, 0x01020304, 9, (st [((HUB.CAR_MODE 3).active, 2), (OTU.hFrmState 3 0, 3), (HUB.LEAF_STAT_STATE 3, 3)]), by decide +kernel⟩,
    ⟨3, ctrlMsg lcDeactivate, 0, 0x01020304, 9, (st [((HUB.CAR_MODE 3).active, 2), (OTU.hFrmState 3 0, 3), (HUB.LEAF_STAT_STATE 3, 4)]), by decide +kernel⟩,
    ⟨3, (st [((HUB.CAR_MODE 3).active, 2), (HUB.LEAF_STAT_STATE 3, 4)]), by decide +kernel⟩,
    ⟨3, (st [((HUB.CAR_MODE 3).active, 2), (HUB.LEAF_STAT_STATE 3, 1), (RXDSP.CARRIER_STAT_STATE 3, 3), (RXDSP.TR_STAT_LOCK 3, 1), (HUB.LEAF_STAT_SYNC 3, 1), (OTU.hFrmState 3 0, 3), (HUB.hPrev 3, 4)]), by decide +kernel⟩,
    ⟨3, ⟨3, 9, 4, false, 0, false, 100, 8, 0, 0, 0, 0, 0⟩, 5, 5, { (st [((HUB.CAR_MODE 3).active, 2), ((HUB.LEAF_CFG_UP_BURST 3).active, 1), (HUB.LEAF_STAT_SYNC 3, 1), (HUB.LEAF_STAT_STATE 3, 4), (CONV.TX_STAT_STATE 3, 4), (TXDSP.hState 3, 1), (HDR.ENABLE (.txdsp 3), 1)]) with leafGrants := [⟨3, 9, 4, false, 0, false, 100, 8, 0, 0, 0, 0, 0⟩] }, by decide +kernel⟩,
    ⟨.pcie, 3, 5, 77, State.reset, by decide +kernel⟩,
    ⟨.pcie, 3, 5, 77, (stw State.reset [(leafWord 3 5 1, 2 ^ 61)]), by decide +kernel⟩,
    ⟨.pcie, 3, 5, 77, (stw State.reset [(leafWord 3 5 1, 2 ^ 61)]), by decide +kernel⟩,
    ⟨.pcie, 3, 5, 77, (stw State.reset [(leafWord 3 5 1, 2 ^ 61 + 2 ^ 58)]), by decide +kernel⟩,
    ⟨3, 5, (stw (st [(HUB.LEAF_POL_CTX_AGE 3, 2)]) [(leafWord 3 5 1, 3 * 2 ^ 61), (leafWord 3 5 3, 9)]), by decide +kernel⟩,
    ⟨3, (st [((HUB.CAR_MODE 3).active, 1), (HUB.hCycFirst 3, 1), (HUB.hMf 3, 0)]), by decide +kernel⟩,
    ⟨3, 9, (st [((HUB.CAR_MODE 3).active, 1), (HUB.hCycFirst 3, 0), (HUB.hCyc 3, 8)]), by decide +kernel⟩,
    ⟨3, (st [((HUB.CAR_MODE 3).active, 1), (HUB.hCycFirst 3, 0), (HUB.hCyc 3, 8), (RXDSP.CARRIER_STAT_STATE 3, 1)]), by decide +kernel⟩⟩

theorem test_meets_BurstReception :
    (∃ (c : Fin 16) (b : Fin 16) (g : Nat) (i : Fin 64) (x : Grant) (s : State), s.inReset = false ∧ findGrant c b g i s = some x ∧ x.kind ≠ 2)
    ∧ (∃ (c : Fin 16) (b : Fin 16) (g : Nat) (i : Fin 64) (x : Grant) (head : Int) (pow : Int) (s : State), s.inReset = false ∧ s.flag (RXDSP.hLineClk c) = true ∧ s.get (HUB.hCap c b) = 0 ∧ findGrant c b g i s = some x ∧ inWindow x head s = true)
    ∧ (∃ (c : Fin 16) (b : Fin 16) (s : State), s.inReset = false ∧ s.flag (RXDSP.hLineClk c) = true ∧ s.get (HUB.hCap c b) = 1)
    ∧ (∃ (c : Fin 16) (b : Fin 16) (head : Int) (pow : Int) (x : Grant) (s : State), s.inReset = false ∧ s.flag (RXDSP.hLineClk c) = true ∧ s.get (HUB.hCap c b) = 1 ∧ s.geti (HUB.hCapPos c b) + 32 ≤ head ∧ capGrant c b s = some x ∧ head ≤ s.geti (HUB.hCapPos c b) + gePre x.entry + 32 ∧ s.geti (HUB.hCapPow c b) + 100 * max 1 (s.get (HUB.CAP_CFG_RECAP_DB c)) ≤ pow)
    ∧ (∃ (c : Fin 16) (b : Fin 16) (head : Int) (pow : Int) (x : Grant) (s : State), s.inReset = false ∧ s.flag (RXDSP.hLineClk c) = true ∧ s.get (HUB.hCap c b) = 2 ∧ s.geti (HUB.hCapPos c b) + 32 ≤ head ∧ capGrant c b s = some x ∧ s.geti (HUB.hCapPow c b) + 100 * max 1 (s.get (HUB.CAP_CFG_RECAP_DB c)) ≤ pow)
    ∧ (∃ (c : Fin 16) (b : Fin 16) (head : Int) (pow : Int) (s : State), s.inReset = false ∧ s.flag (RXDSP.hLineClk c) = true ∧ s.get (HUB.hCap c b) = 2 ∧ s.geti (HUB.hCapPos c b) + 32 ≤ head ∧ pow < s.geti (HUB.hCapPow c b) + 100 * max 1 (s.get (HUB.CAP_CFG_RECAP_DB c)))
    ∧ (∃ (c : Fin 16) (b : Fin 16) (h : List Nat) (s : State), s.inReset = false ∧ s.flag (RXDSP.hLineClk c) = true ∧ s.get (HUB.hCap c b) = 1 ∧ hdrOk h = false)
    ∧ (∃ (c : Fin 16) (b : Fin 16) (h : List Nat) (s : State), s.inReset = false ∧ s.flag (RXDSP.hLineClk c) = true ∧ s.get (HUB.hCap c b) = 1 ∧ hdrOk h = true)
    ∧ (∃ (c : Fin 16) (b : Fin 16) (tphase : Int) (taps : List Nat) (lr : BurstLearn) (s : State), s.inReset = false ∧ s.flag (RXDSP.hLineClk c) = true ∧ s.get (HUB.hCap c b) = 2 ∧ capGrant c b s = none)
    ∧ (∃ (c : Fin 16) (b : Fin 16) (tphase : Int) (taps : List Nat) (lr : BurstLearn) (x : Grant) (r : Fin 256) (cws : Nat) (s : State), s.inReset = false ∧ s.flag (RXDSP.hLineClk c) = true ∧ s.get (HUB.hCap c b) = 2 ∧ capGrant c b s = some x ∧ x.kind ≠ 2 ∧ r = ctxRow b x.slot ∧ cws = burstWords (s.get (RXDSP.hMode c)) (capPayload c b s) ∧ cws ≤ s.get (HUB.hCapCws c b) ∧ s.flag (HDR.FREEZE (.hub c)) = false)
    ∧ (∃ (c : Fin 16) (b : Fin 16) (tphase : Int) (taps : List Nat) (lr : BurstLearn) (x : Grant) (r : Fin 256) (cws : Nat) (s : State), s.inReset = false ∧ s.flag (RXDSP.hLineClk c) = true ∧ s.get (HUB.hCap c b) = 2 ∧ capGrant c b s = some x ∧ x.kind ≠ 2 ∧ r = ctxRow b x.slot ∧ cws = burstWords (s.get (RXDSP.hMode c)) (capPayload c b s) ∧ 100 * s.get (HUB.hCapCws c b) < 90 * cws ∧ s.flag (HDR.FREEZE (.hub c)) = false)
    ∧ (∃ (c : Fin 16) (b : Fin 16) (g : Nat) (i : Fin 64) (x : Grant) (r : Fin 256) (s : State), s.inReset = false ∧ findGrant c b g i s = some x ∧ x.kind ≠ 2 ∧ x.excused = false ∧ s.get (RXDSP.CARRIER_STAT_STATE c) ≠ stCal ∧ r = ctxRow b x.slot)
    ∧ (∃ (c : Fin 16) (b : Fin 16) (g : Nat) (i : Fin 64) (x : Grant) (s : State), s.inReset = false ∧ findGrant c b g i s = some x ∧ x.kind = 2) :=
  ⟨⟨3, 2, 9, 4, ⟨3, 2, 9, 4, 0, 5, 77, 2 ^ 63 + 100 * 2 ^ 32 + 50 * 2 ^ 16, false, false⟩, { State.reset with grants := [⟨3, 2, 9, 4, 0, 5, 77, 2 ^ 63 + 100 * 2 ^ 32 + 50 * 2 ^ 16, false, false⟩] }, by decide +kernel⟩,
    ⟨3, 2, 9, 4, ⟨3, 2, 9, 4, 0, 5, 77, 2 ^ 63 + 100 * 2 ^ 32 + 50 * 2 ^ 16, false, false⟩, 100, 0, { (st [(RXDSP.hLineClk 3, 1)]) with grants := [⟨3, 2, 9, 4, 0, 5, 77, 2 ^ 63 + 100 * 2 ^ 32 + 50 * 2 ^ 16, false, false⟩] }, by decide +kernel⟩,
    ⟨3, 2, (st [(HUB.hCap 3 2, 1), (RXDSP.hLineClk 3, 1)]), by decide +kernel⟩,
    ⟨3, 2, 40, 25500, ⟨3, 2, 9, 4, 0, 5, 77, 2 ^ 63 + 100 * 2 ^ 32 + 50 * 2 ^ 16, false, false⟩, { (st [(HUB.hCap 3 2, 1), (HUB.hCapG 3 2, 581), (RXDSP.hLineClk 3, 1)]) with grants := [⟨3, 2, 9, 4, 0, 5, 77, 2 ^ 63 + 100 * 2 ^ 32 + 50 * 2 ^ 16, false, false⟩] }, by decide +kernel⟩,
    ⟨3, 2, 40, 25500, ⟨3, 2, 9, 4, 0, 5, 77, 2 ^ 63 + 100 * 2 ^ 32 + 50 * 2 ^ 16, false, false⟩, { (st [(HUB.hCap 3 2, 2), (HUB.hCapG 3 2, 581), (RXDSP.hLineClk 3, 1)]) with grants := [⟨3, 2, 9, 4, 0, 5, 77, 2 ^ 63 + 100 * 2 ^ 32 + 50 * 2 ^ 16, false, false⟩] }, by decide +kernel⟩,
    ⟨3, 2, 40, 0, (st [(HUB.hCap 3 2, 2), (RXDSP.hLineClk 3, 1)]), by decide +kernel⟩,
    ⟨3, 2, [], (st [(HUB.hCap 3 2, 1), (RXDSP.hLineClk 3, 1)]), by decide +kernel⟩,
    ⟨3, 2, burstHdr, (st [(HUB.hCap 3 2, 1), (RXDSP.hLineClk 3, 1)]), by decide +kernel⟩,
    ⟨3, 2, 0, [], ⟨0, 0, 0, 0⟩, (st [(HUB.hCap 3 2, 2), (RXDSP.hLineClk 3, 1)]), by decide +kernel⟩,
    ⟨3, 2, 0, [], ⟨0, 0, 0, 0⟩, ⟨3, 2, 9, 4, 0, 5, 77, 2 ^ 63 + 100 * 2 ^ 32 + 50 * 2 ^ 16, false, false⟩, ctxRow 2 5, 0, { (st [(HUB.hCap 3 2, 2), (HUB.hCapG 3 2, 581), (RXDSP.hLineClk 3, 1)]) with grants := [⟨3, 2, 9, 4, 0, 5, 77, 2 ^ 63 + 100 * 2 ^ 32 + 50 * 2 ^ 16, false, false⟩] }, by decide +kernel⟩,
    ⟨3, 2, 0, [], ⟨0, 0, 0, 0⟩, ⟨3, 2, 9, 4, 0, 5, 77, 2 ^ 63 + 100 * 2 ^ 32 + 50 * 2 ^ 16, false, false⟩, ctxRow 2 5, 1, { (st [(HUB.hCap 3 2, 2), (HUB.hCapG 3 2, 581), (HUB.hCapE 3 2, 22), (HUB.hCapR 3 2, 1), (RXDSP.hLineClk 3, 1)]) with grants := [⟨3, 2, 9, 4, 0, 5, 77, 2 ^ 63 + 100 * 2 ^ 32 + 50 * 2 ^ 16, false, false⟩] }, by decide +kernel⟩,
    ⟨3, 2, 9, 4, ⟨3, 2, 9, 4, 0, 5, 77, 2 ^ 63 + 100 * 2 ^ 32 + 50 * 2 ^ 16, false, false⟩, ctxRow 2 5, { State.reset with grants := [⟨3, 2, 9, 4, 0, 5, 77, 2 ^ 63 + 100 * 2 ^ 32 + 50 * 2 ^ 16, false, false⟩] }, by decide +kernel⟩,
    ⟨3, 2, 9, 4, ⟨3, 2, 9, 4, 2, 5, 77, 0, false, false⟩, { State.reset with grants := [⟨3, 2, 9, 4, 2, 5, 77, 0, false, false⟩] }, by decide +kernel⟩⟩

theorem test_meets_ClientPortsAndLanes :
    (∃ (m : Master) (g : Fin 32) (n : Fin 8) (v : Nat) (s : State), s.inReset = false ∧ Accepts m (.lanegrp g) (portCfgOff n) s ∧ s.flag (LANEGRP.PORT_CFG_EN g n) = false ∧ s.flag (HDR.ENABLE (.lanegrp g)) = true)
    ∧ (∃ (m : Master) (g : Fin 32) (n : Fin 8) (v : Nat) (s : State), s.inReset = false ∧ Accepts m (.lanegrp g) (portCfgOff n) s)
    ∧ (∃ (g : Fin 32) (n : Fin 8) (s : State), s.inReset = false ∧ s.get (LANEGRP.PORT_STAT_STATE g n) = ptAligning ∧ (∀ r ∈ portLanes g n s, s.flag (LANEGRP.LANE_CTRL_EN g r) = true ∧ s.flag (LANEGRP.LANE_STAT_CDR_LOCK g r) = true ∧ s.flag (LANEGRP.LANE_STAT_EQ_CONV g r) = true) ∧ s.flag (HDR.ENABLE (.lanegrp g)) = true)
    ∧ (∃ (g : Fin 32) (n : Fin 8) (s : State), s.inReset = false ∧ s.flag (LANEGRP.LANE_STAT_CLK_PRESENT g n) = true ∧ s.get (LANEGRP.PORT_STAT_STATE g n) = ptUp)
    ∧ (∃ (g : Fin 32) (n : Fin 8) (s : State), s.inReset = false ∧ s.flag (LANEGRP.LANE_STAT_CLK_PRESENT g n) = true ∧ s.get (LANEGRP.PORT_STAT_STATE g n) = ptUp)
    ∧ (∃ (g : Fin 32) (n : Fin 8) (s : State), s.inReset = false ∧ s.flag (LANEGRP.LANE_STAT_CLK_PRESENT g n) = true ∧ portOn g n s = true ∧ s.flag (LANEGRP.PORT_STAT_HI_SER g n) = false)
    ∧ (∃ (g : Fin 32) (n : Fin 8) (s : State), s.inReset = false ∧ s.flag (LANEGRP.LANE_STAT_CLK_PRESENT g n) = true ∧ portOn g n s = true)
    ∧ (∃ (g : Fin 32) (n : Fin 8) (on : Bool) (s : State), s.inReset = false ∧ s.flag (LANEGRP.LANE_STAT_CLK_PRESENT g n) = true ∧ s.get (LANEGRP.PORT_STAT_STATE g n) = ptUp)
    ∧ (∃ (m : Master) (g : Fin 32) (r : Fin 8) (v : Nat) (s : State), s.inReset = false ∧ Accepts m (.lanegrp g) (0x100 + 0x40 * r.val) s ∧ s.flag (LANEGRP.LANE_CTRL_EN g r) = false ∧ s.flag (HDR.ENABLE (.lanegrp g)) = true ∧ (((((s.put (LANEGRP.LANE_CTRL_RX_INV g r) (bits v 3 1)).put (LANEGRP.LANE_CTRL_TX_INV g r) (bits v 2 1)).put (LANEGRP.LANE_CTRL_LPBK g r) (bits v 1 1)).put (LANEGRP.LANE_CTRL_EN g r) (bits v 0 1))).flag (HDR.ENABLE (.lanegrp g)) = true ∧ bits v 0 1 = 1)
    ∧ (∃ (m : Master) (g : Fin 32) (r : Fin 8) (s : State), s.inReset = false ∧ Accepts m (.lanegrp g) (0x10C + 0x40 * r.val) s)
    ∧ (∃ (m : Master) (g : Fin 32) (r : Fin 8) (s : State), s.inReset = false ∧ Accepts m (.lanegrp g) (0x10C + 0x40 * r.val) s ∧ s.flag (LANEGRP.LANE_CTRL_EN g r) = true ∧ s.flag (HDR.ENABLE (.lanegrp g)) = true ∧ portOfLane g r s = none)
    ∧ (∃ (m : Master) (g : Fin 32) (r : Fin 8) (v : Nat) (s : State), s.inReset = false ∧ Accepts m (.lanegrp g) (0x104 + 0x40 * r.val) s ∧ txEqOk v = false)
    ∧ (∃ (m : Master) (g : Fin 32) (r : Fin 8) (v : Nat) (s : State), s.inReset = false ∧ Accepts m (.lanegrp g) (0x104 + 0x40 * r.val) s ∧ txEqOk v = true)
    ∧ (∃ (g : Fin 32) (r : Fin 8) (s : State), s.inReset = false ∧ s.flag (LANEGRP.LANE_STAT_CLK_PRESENT g r) = true ∧ s.flag (LANEGRP.LANE_CTRL_EN g r) = true ∧ s.flag (HDR.ENABLE (.lanegrp g)) = true)
    ∧ (∃ (g : Fin 32) (r : Fin 8) (s : State), s.inReset = false ∧ s.flag (LANEGRP.LANE_STAT_CLK_PRESENT g r) = true ∧ s.flag (LANEGRP.LANE_STAT_CDR_LOCK g r) = true ∧ laneOn g r (s.put (LANEGRP.LANE_STAT_CDR_LOCK g r) 0) = true)
    ∧ (∃ (g : Fin 32) (r : Fin 8) (s : State), s.inReset = false ∧ s.flag (LANEGRP.LANE_STAT_CLK_PRESENT g r) = true ∧ laneOn g r s = true ∧ s.flag (LANEGRP.LANE_STAT_CDR_LOCK g r) = true ∧ (laneFrozen g r s = false ∨ bit (s.get (LANEGRP.hMode g r)) 6 = true))
    ∧ (∃ (m : Master) (g : Fin 32) (r : Fin 8) (v : Nat) (s : State), s.inReset = false ∧ Accepts m (.lanegrp g) (0x114 + 0x40 * r.val) s)
    ∧ (∃ (g : Fin 32) (r : Fin 8) (s : State), s.inReset = false ∧ s.flag (LANEGRP.LANE_STAT_CLK_PRESENT g r) = true ∧ prbsRuns g r s = true ∧ s.flag (LANEGRP.PRBS_ERR_HI_LOCKED g r) = false)
    ∧ (∃ (g : Fin 32) (r : Fin 8) (s : State), s.inReset = false ∧ s.flag (LANEGRP.LANE_STAT_CLK_PRESENT g r) = true ∧ s.flag (LANEGRP.PRBS_ERR_HI_LOCKED g r) = true) :=
  ⟨⟨.pcie, 9, 2, 0, (st [(HDR.ENABLE (.lanegrp 9), 1)]), by decide +kernel⟩,
    ⟨.pcie, 9, 2, 0, (st [(LANEGRP.PORT_STAT_STATE 9 2, 3)]), by decide +kernel⟩,
    ⟨9, 2, (st [(LANEGRP.PORT_STAT_STATE 9 2, 2), (HDR.ENABLE (.lanegrp 9), 1), (LANEGRP.LANE_CTRL_EN 9 2, 1), (LANEGRP.LANE_STAT_CDR_LOCK 9 2, 1), (LANEGRP.LANE_STAT_EQ_CONV 9 2, 1)]), by decide +kernel⟩,
    ⟨9, 2, (st [(LANEGRP.PORT_STAT_STATE 9 2, 3), (LANEGRP.LANE_STAT_CLK_PRESENT 9 2, 1)]), by decide +kernel⟩,
    ⟨9, 2, (st [(LANEGRP.PORT_STAT_STATE 9 2, 3), (LANEGRP.LANE_STAT_CLK_PRESENT 9 2, 1)]), by decide +kernel⟩,
    ⟨9, 2, (st [(LANEGRP.PORT_STAT_STATE 9 2, 3), (LANEGRP.LANE_STAT_CLK_PRESENT 9 2, 1)]), by decide +kernel⟩,
    ⟨9, 2, (st [(LANEGRP.PORT_STAT_STATE 9 2, 3), (LANEGRP.PORT_STAT_HI_SER 9 2, 1), (LANEGRP.LANE_STAT_CLK_PRESENT 9 2, 1)]), by decide +kernel⟩,
    ⟨9, 2, true, (st [(LANEGRP.PORT_STAT_STATE 9 2, 3), (LANEGRP.LANE_STAT_CLK_PRESENT 9 2, 1)]), by decide +kernel⟩,
    ⟨.pcie, 9, 2, 1, (st [(HDR.ENABLE (.lanegrp 9), 1)]), by decide +kernel⟩,
    ⟨.pcie, 9, 2, (st [(LANEGRP.LANE_STAT_EQ_CONV 9 2, 1)]), by decide +kernel⟩,
    ⟨.pcie, 9, 2, (st [(HDR.ENABLE (.lanegrp 9), 1), (LANEGRP.LANE_CTRL_EN 9 2, 1), (LANEGRP.LANE_STAT_SLIP_POS 9 2, 79)]), by decide +kernel⟩,
    ⟨.pcie, 9, 2, 0, State.reset, by decide +kernel⟩,
    ⟨.pcie, 9, 2, 100 * 2 ^ 24, State.reset, by decide +kernel⟩,
    ⟨9, 2, (st [(HDR.ENABLE (.lanegrp 9), 1), (LANEGRP.LANE_CTRL_EN 9 2, 1), (LANEGRP.LANE_STAT_CLK_PRESENT 9 2, 1)]), by decide +kernel⟩,
    ⟨9, 2, (st [(HDR.ENABLE (.lanegrp 9), 1), (LANEGRP.LANE_CTRL_EN 9 2, 1), (LANEGRP.LANE_STAT_CDR_LOCK 9 2, 1), (LANEGRP.LANE_STAT_CLK_PRESENT 9 2, 1)]), by decide +kernel⟩,
    ⟨9, 2, (st [(HDR.ENABLE (.lanegrp 9), 1), (LANEGRP.LANE_CTRL_EN 9 2, 1), (LANEGRP.LANE_STAT_CDR_LOCK 9 2, 1), (LANEGRP.LANE_STAT_CLK_PRESENT 9 2, 1)]), by decide +kernel⟩,
    ⟨.pcie, 9, 2, 0, (st [(LANEGRP.PRBS_ERR_LO 9 2, 5)]), by decide +kernel⟩,
    ⟨9, 2, (st [(HDR.ENABLE (.lanegrp 9), 1), (LANEGRP.LANE_CTRL_EN 9 2, 1), (LANEGRP.PRBS_CTRL_RX_EN 9 2, 1), (LANEGRP.PRBS_CTRL_PATTERN 9 2, 1), (LANEGRP.LANE_STAT_CLK_PRESENT 9 2, 1)]), by decide +kernel⟩,
    ⟨9, 2, (st [(LANEGRP.PRBS_ERR_HI_LOCKED 9 2, 1), (LANEGRP.LANE_STAT_CLK_PRESENT 9 2, 1)]), by decide +kernel⟩⟩

theorem test_meets_TributarySelectionAndConditions :
    (∃ (q : Fin 4) (t : Fin 256) (s : State), s.inReset = false ∧ selFree q t s = true ∧ s.get (TSI.hForce q t) = 0 ∧ (s.get (TSI.hSf q t)).testBit (selSide q t s) = true ∧ (s.get (TSI.hSf q t)).testBit (1 - selSide q t s) = false ∧ s.get (TSI.TSI_CFG_HOLDOFF q) ≤ s.get (TSI.hSfTicks q t))
    ∧ (∃ (q : Fin 4) (t : Fin 256) (s : State), s.inReset = false ∧ selFree q t s = true ∧ s.get (TSI.hForce q t) = 0 ∧ s.flag (TSI.TSI_CFG_REVERT q) = true ∧ selSide q t s = 1 ∧ (s.get (TSI.hSf q t)).testBit 0 = false ∧ wtrTicks q s ≤ s.get (TSI.hFree q t))
    ∧ (∃ (q : Fin 4) (t : Fin 256) (s : State), s.inReset = false ∧ selFree q t s = true ∧ s.get (TSI.hNext q t) ≠ 0)
    ∧ (∃ (m : Master) (q : Fin 4) (t : Fin 256) (s : State), s.inReset = false ∧ Accepts m (.tsi q) 0x044 s ∧ tdEn (tribDesc q true t s) = true ∧ tdProt (tribDesc q true t s) = true)
    ∧ (∃ (m : Master) (q : Fin 4) (t : Fin 256) (s : State), s.inReset = false ∧ Accepts m (.tsi q) 0x044 s ∧ tdEn (tribDesc q true t s) = true ∧ tdProt (tribDesc q true t s) = true)
    ∧ (∃ (m : Master) (q : Fin 4) (t : Fin 256) (s : State), s.inReset = false ∧ Accepts m (.tsi q) 0x044 s ∧ tdEn (tribDesc q true t s) = true ∧ tdProt (tribDesc q true t s) = true)
    ∧ (∃ (q : Fin 4) (t : Fin 256) (x : Fin 2) (cycles : List (List Nat)) (s : State), s.inReset = false ∧ cycles.length = 3 ∧ tdEn (tribDesc q true t s) = true ∧ cycles.all (msiDiffers ((sideEntries q t x s).filter fun e => decide (e.1 < 2560))) = true ∧ s.flag (TSI.hMsim q t x) = false)
    ∧ (∃ (q : Fin 4) (t : Fin 256) (x : Fin 2) (s : State), s.inReset = false ∧ tdEn (tribDesc q true t s) = true ∧ sideEntries q t x s ≠ [])
    ∧ (∃ (q : Fin 4) (t : Fin 256) (x : Fin 2) (s : State), s.inReset = false ∧ tdEn (tribDesc q true t s) = true)
    ∧ (∃ (q : Fin 4) (t : Fin 256) (x : Fin 2) (n : Nat) (s : State), s.inReset = false ∧ tdEn (tribDesc q true t s) = true ∧ (n % 8 = 5 ∨ n % 8 = 6 ∨ n % 8 = 7))
    ∧ (∃ (q : Fin 4) (t : Fin 256) (x : Fin 2) (n : Nat) (s : State), s.inReset = false ∧ tdEn (tribDesc q true t s) = true ∧ n % 8 < 5)
    ∧ (∃ (q : Fin 4) (words : Nat) (s : State), s.inReset = false)
    ∧ (∃ (words : Nat) (s : State), s.inReset = false) :=
  ⟨⟨1, 5, (stw (st [(HDR.ENABLE (.tsi 1), 1), (TSI.hSf 1 5, 1), (TSI.hSfTicks 1 5, 15)]) [(connEntry 1 true 3845, 2 ^ 63 + 2 ^ 45)]), by decide +kernel⟩,
    ⟨1, 5, (stw (st [(HDR.ENABLE (.tsi 1), 1), (TSI.TSI_CFG_REVERT 1, 1), (TSI.hSel 1 5, 1), (TSI.hFree 1 5, 8000000)]) [(connEntry 1 true 3845, 2 ^ 63 + 2 ^ 45)]), by decide +kernel⟩,
    ⟨1, 5, (stw (st [(HDR.ENABLE (.tsi 1), 1), (TSI.hNext 1 5, 2)]) [(connEntry 1 true 3845, 2 ^ 63 + 2 ^ 45)]), by decide +kernel⟩,
    ⟨.pcie, 1, 5, (stw (st [(HDR.ENABLE (.tsi 1), 1)]) [(connEntry 1 true 3845, 2 ^ 63 + 2 ^ 45)]), by decide +kernel⟩,
    ⟨.pcie, 1, 5, (stw (st [(HDR.ENABLE (.tsi 1), 1)]) [(connEntry 1 true 3845, 2 ^ 63 + 2 ^ 45)]), by decide +kernel⟩,
    ⟨.pcie, 1, 5, (stw (st [(HDR.ENABLE (.tsi 1), 1), (TSI.hForce 1 5, 2)]) [(connEntry 1 true 3845, 2 ^ 63 + 2 ^ 45)]), by decide +kernel⟩,
    ⟨1, 5, 0, [[], [], []], (stw (st [(HDR.ENABLE (.tsi 1), 1)]) [(connEntry 1 true 3845, 2 ^ 63 + 2 ^ 45), (connEntry 1 true 7, 2 ^ 31 + 5 * 2 ^ 21)]), by decide +kernel⟩,
    ⟨1, 5, 0, (stw (st [(HDR.ENABLE (.tsi 1), 1)]) [(connEntry 1 true 3845, 2 ^ 63 + 2 ^ 45), (connEntry 1 true 7, 2 ^ 31 + 5 * 2 ^ 21)]), by decide +kernel⟩,
    ⟨1, 5, 0, (stw (st [(HDR.ENABLE (.tsi 1), 1), (TSI.hOdu 1 5 0, 1)]) [(connEntry 1 true 3845, 2 ^ 63 + 2 ^ 45), (connEntry 1 true 7, 2 ^ 31 + 5 * 2 ^ 21)]), by decide +kernel⟩,
    ⟨1, 5, 0, 5, (stw (st [(HDR.ENABLE (.tsi 1), 1)]) [(connEntry 1 true 3845, 2 ^ 63 + 2 ^ 45), (connEntry 1 true 7, 2 ^ 31 + 5 * 2 ^ 21)]), by decide +kernel⟩,
    ⟨1, 5, 0, 1, (stw (st [(HDR.ENABLE (.tsi 1), 1), (TSI.hStat 1 5 0, 5)]) [(connEntry 1 true 3845, 2 ^ 63 + 2 ^ 45), (connEntry 1 true 7, 2 ^ 31 + 5 * 2 ^ 21)]), by decide +kernel⟩,
    ⟨1, 2, State.reset, by decide +kernel⟩,
    ⟨2, State.reset, by decide +kernel⟩⟩

theorem test_meets_TransmitFrames :
    (∃ (c : Fin 16) (d : DevTime) (pay : TxPayload) (s : State), s.inReset = false ∧ otuRuns c s = true)
    ∧ (∃ (c : Fin 16) (b : Fin 16) (s : State), s.inReset = false ∧ otuRuns c s = true ∧ isHub c s = true ∧ b ∈ streamsTx c s ∧ s.get (OTU.hBrFrame c b) < 256) :=
  ⟨⟨3, ⟨5, 7, 9⟩, ⟨[], []⟩, (st [(HDR.ENABLE (.otu 3), 1), ((HUB.CAR_MODE 3).active, 1)]), by decide +kernel⟩,
    ⟨3, 2, (stw (st [(HDR.ENABLE (.otu 3), 1), ((HUB.CAR_MODE 3).active, 1), (OTU.hBrFrame 3 2, 6)]) [(branchRow 3 true 2, 2 ^ 63)]), by decide +kernel⟩⟩

theorem test_meets_ContextsAndScheduler :
    (∃ (m : Master) (q : Fin 4) (x : Fin 4096) (v : Nat) (s : State), s.inReset = false ∧ AcceptsWindow m (.tm q) s)
    ∧ (∃ (m : Master) (q : Fin 4) (x : Fin 4096) (v : Nat) (s : State), s.inReset = false ∧ AcceptsWindow m (.tm q) s)
    ∧ (∃ (g : Fin 32) (n : Fin 8) (fr : EthFrame) (x : Fin 4096) (s : State), s.inReset = false ∧ (ptpTaken g n fr s = false ∨ ptpMode g n s ≠ 1) ∧ portState g n s = ptUp ∧ portUse g n s = usePkt ∧ pageOn (.tm (groupQuad g)) s = true ∧ frameBad fr = false ∧ classify (groupQuad g) (portIndex g n) fr.bytes (blockReads [portMapWord (groupQuad g) (2 * portIndex g n), portMapWord (groupQuad g) (2 * portIndex g n + 1)] s) = some x)
    ∧ (∃ (g : Fin 32) (n : Fin 8) (fr : EthFrame) (s : State), s.inReset = false ∧ (ptpTaken g n fr s = false ∨ ptpMode g n s ≠ 1) ∧ portState g n s = ptUp ∧ portUse g n s = usePkt ∧ pageOn (.tm (groupQuad g)) s = true ∧ frameBad fr = true)
    ∧ (∃ (g : Fin 32) (n : Fin 8) (fr : EthFrame) (s : State), s.inReset = false ∧ (ptpTaken g n fr s = false ∨ ptpMode g n s ≠ 1) ∧ portState g n s = ptUp ∧ portUse g n s = usePkt ∧ pageOn (.tm (groupQuad g)) s = true ∧ frameBad fr = false ∧ classify (groupQuad g) (portIndex g n) fr.bytes (blockReads [portMapWord (groupQuad g) (2 * portIndex g n), portMapWord (groupQuad g) (2 * portIndex g n + 1)] s) = none)
    ∧ (∃ (c : Fin 16) (taken : List Nat) (ue : Bool) (s : State), s.inReset = false ∧ pageOn (.tm (quadOf c)) ((portsSend c taken s).incWrap (TM.hBeat (quadOf c) (kOf c)) 1) = false)
    ∧ (∃ (c : Fin 16) (taken : List Nat) (ue : Bool) (i : Nat) (n : Fin 16) (s : State), s.inReset = false ∧ pageOn (.tm (quadOf c)) ((portsSend c taken s).incWrap (TM.hBeat (quadOf c) (kOf c)) 1) = true ∧ calLen (quadOf c) (kOf c) true (orderSync (quadOf c) (schedReads (quadOf c) ((portsSend c taken s).incWrap (TM.hBeat (quadOf c) (kOf c)) 1))) ≠ 0 ∧ scanCalendar c (calLen (quadOf c) (kOf c) true (orderSync (quadOf c) (schedReads (quadOf c) ((portsSend c taken s).incWrap (TM.hBeat (quadOf c) (kOf c)) 1)))) (orderSync (quadOf c) (schedReads (quadOf c) ((portsSend c taken s).incWrap (TM.hBeat (quadOf c) (kOf c)) 1))) ((orderSync (quadOf c) (schedReads (quadOf c) ((portsSend c taken s).incWrap (TM.hBeat (quadOf c) (kOf c)) 1))).get (TM.hPtr (quadOf c) (kOf c))) (min 8 (calLen (quadOf c) (kOf c) true (orderSync (quadOf c) (schedReads (quadOf c) ((portsSend c taken s).incWrap (TM.hBeat (quadOf c) (kOf c)) 1))))) = some (i, n, none))
    ∧ (∃ (c : Fin 16) (taken : List Nat) (ue : Bool) (i : Nat) (n : Fin 16) (x : Next) (s : State), s.inReset = false ∧ pageOn (.tm (quadOf c)) ((portsSend c taken s).incWrap (TM.hBeat (quadOf c) (kOf c)) 1) = true ∧ calLen (quadOf c) (kOf c) true (orderSync (quadOf c) (schedReads (quadOf c) ((portsSend c taken s).incWrap (TM.hBeat (quadOf c) (kOf c)) 1))) ≠ 0 ∧ scanCalendar c (calLen (quadOf c) (kOf c) true (orderSync (quadOf c) (schedReads (quadOf c) ((portsSend c taken s).incWrap (TM.hBeat (quadOf c) (kOf c)) 1)))) (orderSync (quadOf c) (schedReads (quadOf c) ((portsSend c taken s).incWrap (TM.hBeat (quadOf c) (kOf c)) 1))) ((orderSync (quadOf c) (schedReads (quadOf c) ((portsSend c taken s).incWrap (TM.hBeat (quadOf c) (kOf c)) 1))).get (TM.hPtr (quadOf c) (kOf c))) (min 8 (calLen (quadOf c) (kOf c) true (orderSync (quadOf c) (schedReads (quadOf c) ((portsSend c taken s).incWrap (TM.hBeat (quadOf c) (kOf c)) 1))))) = some (i, n, some x))
    ∧ (∃ (c : Fin 16) (taken : List Nat) (ue : Bool) (s : State), s.inReset = false ∧ pageOn (.tm (quadOf c)) ((portsSend c taken s).incWrap (TM.hBeat (quadOf c) (kOf c)) 1) = true ∧ calLen (quadOf c) (kOf c) true (orderSync (quadOf c) (schedReads (quadOf c) ((portsSend c taken s).incWrap (TM.hBeat (quadOf c) (kOf c)) 1))) ≠ 0 ∧ scanCalendar c (calLen (quadOf c) (kOf c) true (orderSync (quadOf c) (schedReads (quadOf c) ((portsSend c taken s).incWrap (TM.hBeat (quadOf c) (kOf c)) 1)))) (orderSync (quadOf c) (schedReads (quadOf c) ((portsSend c taken s).incWrap (TM.hBeat (quadOf c) (kOf c)) 1))) ((orderSync (quadOf c) (schedReads (quadOf c) ((portsSend c taken s).incWrap (TM.hBeat (quadOf c) (kOf c)) 1))).get (TM.hPtr (quadOf c) (kOf c))) (min 8 (calLen (quadOf c) (kOf c) true (orderSync (quadOf c) (schedReads (quadOf c) ((portsSend c taken s).incWrap (TM.hBeat (quadOf c) (kOf c)) 1))))) = none)
    ∧ (∃ (q : Fin 4) (now : Nat) (s : State), s.inReset = false ∧ now = s.get (TM.hCredit q))
    ∧ (∃ (c : Fin 16) (coarse : Bool) (now : Nat) (s : State), s.inReset = false ∧ now = beatOf c s) :=
  ⟨⟨.pcie, 1, 5, 77, State.reset, by decide +kernel⟩,
    ⟨.pcie, 1, 5, 77, { State.reset with queued := [⟨1, 5, false, 7, [1, 2, 3]⟩] }, by decide +kernel⟩,
    ⟨1, 2, ⟨List.replicate 64 0, false, 7⟩, 5, (stw (st [(LANEGRP.PORT_STAT_STATE 1 2, 3), (LANEGRP.hCfg 1 2, 8), (HDR.ENABLE (.tm 0), 1)]) [(portMapWord 0 20, 2 ^ 63 + 2 ^ 36 + 5 * 2 ^ 24), (contextWord 0 5 0, 2 ^ 63 + 1000 * 2 ^ 20 + 2 ^ 40)]), by decide +kernel⟩,
    ⟨1, 2, ⟨List.replicate 64 0, true, 7⟩, (st [(LANEGRP.PORT_STAT_STATE 1 2, 3), (LANEGRP.hCfg 1 2, 8), (HDR.ENABLE (.tm 0), 1)]), by decide +kernel⟩,
    ⟨1, 2, ⟨List.replicate 64 0, false, 7⟩, (st [(LANEGRP.PORT_STAT_STATE 1 2, 3), (LANEGRP.hCfg 1 2, 8), (HDR.ENABLE (.tm 0), 1)]), by decide +kernel⟩,
    ⟨3, [], false, State.reset, by decide +kernel⟩,
    ⟨3, [], false, 0, 0, { (stw (st [(HDR.ENABLE (.tm 0), 1)]) [(calWord 0 true 784, 1), (calWord 0 true 800, 0x80), (calWord 0 true 768, 2 ^ 63), (connEntry 0 true 3840, 2 ^ 63 + 2 ^ 62 + 48 * 2 ^ 46 + 4 * 2 ^ 52)]) with flights := [⟨3, 0, false, List.replicate 100 7, 0, 64⟩] }, by decide +kernel⟩,
    ⟨3, [], false, 0, 0, .express ⟨0, 5, true, 7, [1, 2, 3]⟩, { (stw (st [(HDR.ENABLE (.tm 0), 1)]) [(calWord 0 true 784, 1), (calWord 0 true 800, 0x80), (calWord 0 true 768, 2 ^ 63), (connEntry 0 true 3840, 2 ^ 63 + 2 ^ 62 + 48 * 2 ^ 46 + 4 * 2 ^ 52), (contextWord 0 5 0, 3 * 2 ^ 62 + 3 * 2 ^ 55)]) with queued := [⟨0, 5, true, 7, [1, 2, 3]⟩] }, by decide +kernel⟩,
    ⟨3, [], false, (stw (st [(HDR.ENABLE (.tm 0), 1)]) [(calWord 0 true 784, 1), (calWord 0 true 800, 0x80), (calWord 0 true 768, 2 ^ 63), (connEntry 0 true 3840, 2 ^ 63 + 2 ^ 62 + 48 * 2 ^ 46 + 4 * 2 ^ 52)]), by decide +kernel⟩,
    ⟨1, 0, State.reset, by decide +kernel⟩,
    ⟨3, false, 0, (st [(TM.hExpE 0 3 4, 1)]), by decide +kernel⟩⟩

theorem test_meets_EgressFrames :
    (∃ (q : Fin 4) (fr : EthFrame) (e : Nat) (s : State), s.inReset = false ∧ pageOn (.tm q) s = true ∧ frameBad fr = false ∧ e = s.word (egressWord q (outerTag fr.bytes).1) ∧ bit e 63 = true ∧ portState (portGroup q (bits e 57 6)) (portFirst (bits e 57 6)) s ≠ ptDisabled ∧ portUse (portGroup q (bits e 57 6)) (portFirst (bits e 57 6)) s = usePkt ∧ bit (portMap q (bits e 57 6) 0 s) 63 = true ∧ portShut q (Fin.ofNat 64 (bits e 57 6)) s = false)
    ∧ (∃ (q : Fin 4) (fr : EthFrame) (s : State), s.inReset = false ∧ pageOn (.tm q) s = true ∧ frameBad fr = true)
    ∧ (∃ (q : Fin 4) (fr : EthFrame) (e : Nat) (s : State), s.inReset = false ∧ pageOn (.tm q) s = true ∧ frameBad fr = false ∧ e = s.word (egressWord q (outerTag fr.bytes).1) ∧ bit e 63 = false)
    ∧ (∃ (q : Fin 4) (fr : EthFrame) (e : Nat) (s : State), s.inReset = false ∧ pageOn (.tm q) s = true ∧ frameBad fr = false ∧ e = s.word (egressWord q (outerTag fr.bytes).1) ∧ bit e 63 = true ∧ portState (portGroup q (bits e 57 6)) (portFirst (bits e 57 6)) s ≠ ptDisabled ∧ portUse (portGroup q (bits e 57 6)) (portFirst (bits e 57 6)) s = usePkt ∧ bit (portMap q (bits e 57 6) 0 s) 63 = true ∧ portShut q (Fin.ofNat 64 (bits e 57 6)) s = true)
    ∧ (∃ (q : Fin 4) (fr : EthFrame) (s : State), s.inReset = false ∧ pageOn (.tm q) s = false)
    ∧ (∃ (g : Fin 32) (n : Fin 8) (f : EgrFrame) (ue : Bool) (s : State), s.inReset = false ∧ (fifo (groupQuad g) (Fin.ofNat 64 (portIndex g n)) true s ++ fifo (groupQuad g) (Fin.ofNat 64 (portIndex g n)) false s).head? = some f ∧ pageOn (.tm (groupQuad g)) s = true ∧ portShut (groupQuad g) (Fin.ofNat 64 (portIndex g n)) s = false)
    ∧ (∃ (g : Fin 32) (n : Fin 8) (f : EgrFrame) (ue : Bool) (s : State), s.inReset = false ∧ (fifo (groupQuad g) (Fin.ofNat 64 (portIndex g n)) true s ++ fifo (groupQuad g) (Fin.ofNat 64 (portIndex g n)) false s).head? = some f ∧ pageOn (.tm (groupQuad g)) s = true ∧ portShut (groupQuad g) (Fin.ofNat 64 (portIndex g n)) s = true) :=
  ⟨⟨0, ⟨List.replicate 64 0, false, 7⟩, 2 ^ 63 + 10 * 2 ^ 57, (stw (st [(LANEGRP.PORT_STAT_STATE 1 2, 3), (LANEGRP.hCfg 1 2, 8), (HDR.ENABLE (.tm 0), 1)]) [(egressWord 0 0, 2 ^ 63 + 10 * 2 ^ 57), (portMapWord 0 20, 2 ^ 63), (portMapWord 0 21, 100 * 2 ^ 29)]), by decide +kernel⟩,
    ⟨0, ⟨List.replicate 64 0, true, 7⟩, (st [(LANEGRP.PORT_STAT_STATE 1 2, 3), (LANEGRP.hCfg 1 2, 8), (HDR.ENABLE (.tm 0), 1)]), by decide +kernel⟩,
    ⟨0, ⟨List.replicate 64 0, false, 7⟩, 0, (st [(LANEGRP.PORT_STAT_STATE 1 2, 3), (LANEGRP.hCfg 1 2, 8), (HDR.ENABLE (.tm 0), 1)]), by decide +kernel⟩,
    ⟨0, ⟨List.replicate 64 0, false, 7⟩, 2 ^ 63 + 10 * 2 ^ 57, (stw (st [(LANEGRP.PORT_STAT_STATE 1 2, 2), (LANEGRP.hCfg 1 2, 8), (HDR.ENABLE (.tm 0), 1)]) [(egressWord 0 0, 2 ^ 63 + 10 * 2 ^ 57), (portMapWord 0 20, 2 ^ 63), (portMapWord 0 21, 100 * 2 ^ 29)]), by decide +kernel⟩,
    ⟨0, ⟨List.replicate 64 0, false, 7⟩, State.reset, by decide +kernel⟩,
    ⟨1, 2, ⟨0, 10, true, [1, 2]⟩, false, { (st [(LANEGRP.PORT_STAT_STATE 1 2, 3), (LANEGRP.hCfg 1 2, 8), (HDR.ENABLE (.tm 0), 1)]) with egress := [⟨0, 10, false, [3]⟩, ⟨0, 10, true, [1, 2]⟩] }, by decide +kernel⟩,
    ⟨1, 2, ⟨0, 10, true, [1, 2]⟩, false, { (st [(HDR.ENABLE (.tm 0), 1)]) with egress := [⟨0, 10, true, [1, 2]⟩] }, by decide +kernel⟩⟩

theorem test_meets_SegmentsSentAndReceived :
    (∃ (q : Fin 4) (a : Fin 1024) (j : Fin 119) (data : List Nat) (ue : Bool) (w : Nat) (gen : Nat) (key : Nat) (s : State), s.inReset = false ∧ (asRead q a s).flag (CIPH.hBad q a) = false ∧ w = asWord q a 0 (asRead q a s) ∧ adEn w = true ∧ adRx w = false ∧ tdEn (tribDesc q true (adTrib w) (asRead q a s)) = true ∧ asState q a (asBoundary q (a, w) (txStops q (a, w) (slotUe q w ue (asRead q a s)))) = asRun ∧ pageOn (.ciph q) (asBoundary q (a, w) (txStops q (a, w) (slotUe q w ue (asRead q a s)))) = true ∧ keyNow q a (adSlot w) (asBoundary q (a, w) (txStops q (a, w) (slotUe q w ue (asRead q a s)))) = some (gen, key))
    ∧ (∃ (q : Fin 4) (a : Fin 1024) (j : Fin 119) (data : List Nat) (ue : Bool) (w : Nat) (s : State), s.inReset = false ∧ (asRead q a s).flag (CIPH.hBad q a) = false ∧ w = asWord q a 0 (asRead q a s) ∧ adEn w = true ∧ adRx w = false ∧ tdEn (tribDesc q true (adTrib w) (asRead q a s)) = true ∧ (asState q a (asBoundary q (a, w) (txStops q (a, w) (slotUe q w ue (asRead q a s)))) ≠ asRun ∨ pageOn (.ciph q) (asBoundary q (a, w) (txStops q (a, w) (slotUe q w ue (asRead q a s)))) = false ∨ keyNow q a (adSlot w) (asBoundary q (a, w) (txStops q (a, w) (slotUe q w ue (asRead q a s)))) = none))
    ∧ (∃ (q : Fin 4) (a : Fin 1024) (j : Fin 119) (data : List Nat) (ue : Bool) (w : Nat) (s : State), s.inReset = false ∧ (asRead q a s).flag (CIPH.hBad q a) = true ∧ w = asWord q a 0 (asRead q a s) ∧ adRx w = false)
    ∧ (∃ (q : Fin 4) (a : Fin 1024) (rcd : List Nat) (data : List Nat) (n : Nat) (ue : Bool) (w : Nat) (s : State), s.inReset = false ∧ (asRead q a s).flag (CIPH.hBad q a) = false ∧ w = asWord q a 0 (asRead q a s) ∧ adEn w = true ∧ adRx w = true ∧ sideDead q (adTrib w) (adSide w) (asRead q a s) = true)
    ∧ (∃ (q : Fin 4) (a : Fin 1024) (rcd : List Nat) (data : List Nat) (n : Nat) (ue : Bool) (w : Nat) (s : State), s.inReset = false ∧ (asRead q a s).flag (CIPH.hBad q a) = false ∧ w = asWord q a 0 (asRead q a s) ∧ adEn w = true ∧ adRx w = true ∧ sideDead q (adTrib w) (adSide w) (asRead q a s) = false ∧ pageOn (.ciph q) (asBoundary q (a, w) (slotUe q w ue (asRead q a s))) = true ∧ asState q a (asBoundary q (a, w) (slotUe q w ue (asRead q a s))) = asHunt ∧ crc16 ((recordHeader rcd).take 14) = ofBe (slice (recordHeader rcd) 14 2) ∧ bit ((recordHeader rcd).headD 0) 7 = false)
    ∧ (∃ (q : Fin 4) (a : Fin 1024) (rcd : List Nat) (data : List Nat) (n : Nat) (ue : Bool) (w : Nat) (s : State), s.inReset = false ∧ (asRead q a s).flag (CIPH.hBad q a) = false ∧ w = asWord q a 0 (asRead q a s) ∧ adEn w = true ∧ adRx w = true ∧ sideDead q (adTrib w) (adSide w) (asRead q a s) = false ∧ pageOn (.ciph q) (asBoundary q (a, w) (slotUe q w ue (asRead q a s))) = true ∧ (asState q a (asBoundary q (a, w) (slotUe q w ue (asRead q a s))) = asVerify ∨ asState q a (asBoundary q (a, w) (slotUe q w ue (asRead q a s))) = asRun))
    ∧ (∃ (q : Fin 4) (a : Fin 1024) (rcd : List Nat) (data : List Nat) (n : Nat) (ue : Bool) (w : Nat) (s : State), s.inReset = false ∧ (asRead q a s).flag (CIPH.hBad q a) = false ∧ w = asWord q a 0 (asRead q a s) ∧ adEn w = true ∧ adRx w = true ∧ sideDead q (adTrib w) (adSide w) (asRead q a s) = false ∧ (pageOn (.ciph q) (asBoundary q (a, w) (slotUe q w ue (asRead q a s))) = false ∨ asState q a (asBoundary q (a, w) (slotUe q w ue (asRead q a s))) = asStopped))
    ∧ (∃ (q : Fin 4) (a : Fin 1024) (rcd : List Nat) (data : List Nat) (n : Nat) (ue : Bool) (w : Nat) (s : State), s.inReset = false ∧ (asRead q a s).flag (CIPH.hBad q a) = false ∧ w = asWord q a 0 (asRead q a s) ∧ adEn w = true ∧ adRx w = true ∧ sideDead q (adTrib w) (adSide w) (asRead q a s) = false ∧ asState q a (asBoundary q (a, w) (slotUe q w ue (asRead q a s))) = asHunt ∧ (crc16 ((recordHeader rcd).take 14) ≠ ofBe (slice (recordHeader rcd) 14 2) ∨ bit ((recordHeader rcd).headD 0) 7 = true))
    ∧ (∃ (q : Fin 4) (a : Fin 1024) (rcd : List Nat) (data : List Nat) (n : Nat) (ue : Bool) (w : Nat) (s : State), s.inReset = false ∧ (asRead q a s).flag (CIPH.hBad q a) = true ∧ w = asWord q a 0 (asRead q a s))
    ∧ (∃ (q : Fin 4) (a : Fin 1024) (rcd : List Nat) (n : Nat) (g : RxSegment) (k : Nat) (ue : Bool) (s : State), s.inReset = false ∧ s.segments.find? (fun g => g.q == q && g.a == a) = some g ∧ g.key = some k ∧ (ue = false ∨ asState q a s ≠ asVerify))
    ∧ (∃ (q : Fin 4) (a : Fin 1024) (rcd : List Nat) (n : Nat) (g : RxSegment) (s : State), s.inReset = false ∧ s.segments.find? (fun g => g.q == q && g.a == a) = some g ∧ asState q a s = asVerify)
    ∧ (∃ (m : Master) (q : Fin 4) (a : Fin 1024) (v : Nat) (s : State), s.inReset = false ∧ AcceptsWindow m (.ciph q) s ∧ adEn (asWord q a 0 s) = false ∧ asReject q a (2 ^ 63 + v % 2 ^ 63) s = 0)
    ∧ (∃ (m : Master) (q : Fin 4) (a : Fin 1024) (v : Nat) (s : State), s.inReset = false ∧ AcceptsWindow m (.ciph q) s ∧ adEn (asWord q a 0 s) = false ∧ asReject q a (2 ^ 63 + v % 2 ^ 63) s ≠ 0)
    ∧ (∃ (m : Master) (q : Fin 4) (a : Fin 1024) (v : Nat) (s : State), s.inReset = false ∧ AcceptsWindow m (.ciph q) s ∧ adEn (asWord q a 0 s) = true ∧ bits (v % 2 ^ 63) 25 38 = bits (asWord q a 0 s) 25 38) :=
  ⟨⟨1, 7, 3, [1, 2], false, 2 ^ 63 + 5 * 2 ^ 51 + 3 * 2 ^ 41, 9, 5, (stw (st [(HDR.ENABLE (.ciph 1), 1), (CIPH.hCur 1 3, 5)]) [(assocWord 1 7 0, 2 ^ 63 + 5 * 2 ^ 51 + 3 * 2 ^ 41), (connEntry 1 true 3845, 2 ^ 63), (assocWord 1 7 3, 3 * 2 ^ 61), (slotStatWord 1 3, 2 ^ 63 + 9 * 2 ^ 54)]), by decide +kernel⟩,
    ⟨1, 7, 3, [1, 2], false, 2 ^ 63 + 5 * 2 ^ 51 + 3 * 2 ^ 41, (stw (st [(HDR.ENABLE (.ciph 1), 1)]) [(assocWord 1 7 0, 2 ^ 63 + 5 * 2 ^ 51 + 3 * 2 ^ 41), (connEntry 1 true 3845, 2 ^ 63), (assocWord 1 7 3, 3 * 2 ^ 61)]), by decide +kernel⟩,
    ⟨1, 7, 3, [1, 2], true, 0, (st [(CIPH.hBad 1 7, 1)]), by decide +kernel⟩,
    ⟨1, 7, [], [], 0, true, 3 * 2 ^ 62 + 5 * 2 ^ 51 + 3 * 2 ^ 41, (stw State.reset [(assocWord 1 7 0, 3 * 2 ^ 62 + 5 * 2 ^ 51 + 3 * 2 ^ 41), (connEntry 1 true 3845, 2 ^ 63), (assocWord 1 7 3, 3 * 2 ^ 61)]), by decide +kernel⟩,
    ⟨1, 7, segHeader false 9 0 5 ++ List.replicate 16 0, [1, 2], 0, false, 3 * 2 ^ 62 + 5 * 2 ^ 51 + 3 * 2 ^ 41, (stw (st [(HDR.ENABLE (.ciph 1), 1), (TSI.hOdu 1 5 0, 1)]) [(assocWord 1 7 0, 3 * 2 ^ 62 + 5 * 2 ^ 51 + 3 * 2 ^ 41), (connEntry 1 true 3845, 2 ^ 63), (assocWord 1 7 3, 1 * 2 ^ 61)]), by decide +kernel⟩,
    ⟨1, 7, segHeader false 9 0 5 ++ List.replicate 16 0, [1, 2], 0, false, 3 * 2 ^ 62 + 5 * 2 ^ 51 + 3 * 2 ^ 41, (stw (st [(HDR.ENABLE (.ciph 1), 1), (TSI.hOdu 1 5 0, 1)]) [(assocWord 1 7 0, 3 * 2 ^ 62 + 5 * 2 ^ 51 + 3 * 2 ^ 41), (connEntry 1 true 3845, 2 ^ 63), (assocWord 1 7 3, 3 * 2 ^ 61)]), by decide +kernel⟩,
    ⟨1, 7, segHeader false 9 0 5 ++ List.replicate 16 0, [1, 2], 0, false, 3 * 2 ^ 62 + 5 * 2 ^ 51 + 3 * 2 ^ 41, (stw (st [(HDR.ENABLE (.ciph 1), 1), (TSI.hOdu 1 5 0, 1)]) [(assocWord 1 7 0, 3 * 2 ^ 62 + 5 * 2 ^ 51 + 3 * 2 ^ 41), (connEntry 1 true 3845, 2 ^ 63), (assocWord 1 7 3, 4 * 2 ^ 61)]), by decide +kernel⟩,
    ⟨1, 7, segHeader true 9 0 5 ++ List.replicate 16 0, [1, 2], 0, false, 3 * 2 ^ 62 + 5 * 2 ^ 51 + 3 * 2 ^ 41, (stw (st [(HDR.ENABLE (.ciph 1), 1), (TSI.hOdu 1 5 0, 1)]) [(assocWord 1 7 0, 3 * 2 ^ 62 + 5 * 2 ^ 51 + 3 * 2 ^ 41), (connEntry 1 true 3845, 2 ^ 63), (assocWord 1 7 3, 1 * 2 ^ 61)]), by decide +kernel⟩,
    ⟨1, 7, [], [1, 2], 0, false, 3 * 2 ^ 62 + 5 * 2 ^ 51 + 3 * 2 ^ 41, (stw (st [(CIPH.hBad 1 7, 1)]) [(assocWord 1 7 0, 3 * 2 ^ 62 + 5 * 2 ^ 51 + 3 * 2 ^ 41), (connEntry 1 true 3845, 2 ^ 63)]), by decide +kernel⟩,
    ⟨1, 7, [], 0, ⟨1, 7, [], [], some 5, 9, 5⟩, 5, false, { State.reset with segments := [⟨1, 7, [], [], some 5, 9, 5⟩] }, by decide +kernel⟩,
    ⟨1, 7, [], 0, ⟨1, 7, [], [], some 5, 9, 5⟩, { (stw (st [(HDR.ENABLE (.ciph 1), 1)]) [(assocWord 1 7 3, 2 * 2 ^ 61)]) with segments := [⟨1, 7, [], [], some 5, 9, 5⟩] }, by decide +kernel⟩,
    ⟨.pcie, 1, 7, 0, State.reset, by decide +kernel⟩,
    ⟨.pcie, 1, 7, 0, (stw State.reset [(assocWord 1 8 0, 2 ^ 63)]), by decide +kernel⟩,
    ⟨.pcie, 1, 7, 0, (stw State.reset [(assocWord 1 7 0, 2 ^ 63), (assocWord 1 7 3, 3 * 2 ^ 61)]), by decide +kernel⟩⟩

theorem test_meets_KeywayOperations :
    (∃ (m : Master) (s : State), s.inReset = false ∧ Accepts m .keyway 0x040 s ∧ pageOn .keyway s = true ∧ s.flag KEYWAY.KW_STAT_BUSY = false ∧ 1 ≤ kwIndex (kwBegun 1 s) ∧ kwIndex (kwBegun 1 s) ≤ 15 ∧ kwKek (kwBegun 1 s) = 0 ∧ kekLoaded 0 (kwBegun 1 s) = true)
    ∧ (∃ (m : Master) (s : State), s.inReset = false ∧ Accepts m .keyway 0x040 s ∧ pageOn .keyway s = true ∧ s.flag KEYWAY.KW_STAT_BUSY = false ∧ 1 ≤ kwIndex (kwBegun 2 s) ∧ kwIndex (kwBegun 2 s) ≤ 15)
    ∧ (∃ (m : Master) (s : State), s.inReset = false ∧ Accepts m .keyway 0x040 s ∧ pageOn .keyway s = true ∧ s.flag KEYWAY.KW_STAT_BUSY = false ∧ kekLoaded (kwKek (kwBegun 3 s)) (kwBegun 3 s) = true ∧ slotUsers (kwQuad (kwBegun 3 s)) (kwPlace (kwBegun 3 s)) s ≠ [])
    ∧ (∃ (m : Master) (s : State), s.inReset = false ∧ Accepts m .keyway 0x040 s ∧ pageOn .keyway s = true ∧ s.flag KEYWAY.KW_STAT_BUSY = false ∧ slotUsers (kwQuad (kwBegun 4 s)) (kwPlace (kwBegun 4 s)) s ≠ [])
    ∧ (∃ (m : Master) (s : State), s.inReset = false ∧ Accepts m .keyway 0x040 s ∧ pageOn .keyway s = true ∧ s.flag KEYWAY.KW_STAT_BUSY = false ∧ slotUsers (kwQuad (kwBegun 4 s)) (kwPlace (kwBegun 4 s)) s = [])
    ∧ (∃ (m : Master) (q : Fin 4) (k : Fin 1024) (s : State), s.inReset = false ∧ Accepts m .keyway 0x040 s ∧ pageOn .keyway s = true ∧ s.flag KEYWAY.KW_STAT_BUSY = false ∧ q = kwQuad (kwBegun 5 s) ∧ k = kwPlace (kwBegun 5 s))
    ∧ (∃ (m : Master) (q : Fin 4) (k : Fin 1024) (s : State), s.inReset = false ∧ Accepts m .keyway 0x040 s ∧ pageOn .keyway s = true ∧ s.flag KEYWAY.KW_STAT_BUSY = false ∧ q = kwQuad (kwBegun 6 s) ∧ k = kwPlace (kwBegun 6 s) ∧ adEn (asWord q k 0 s) = true)
    ∧ (∃ (m : Master) (q : Fin 4) (a : Fin 1024) (b : List Nat) (r : Fin 16384) (s : State), s.inReset = false ∧ Accepts m .keyway 0x040 s ∧ pageOn .keyway s = true ∧ s.flag KEYWAY.KW_STAT_BUSY = false ∧ q = kwQuad (kwBegun 7 s) ∧ a = kwPlace (kwBegun 7 s) ∧ b = (kwBuf s).take 64 ∧ s.get KEYWAY.KW_STAT_LEN = 64 ∧ b.take 4 = [0x54, 0x53, 0x41, 0x43] ∧ ofLe (slice b 4 2) = 1 ∧ ofLe (slice b 60 4) = crc32c (b.take 60) ∧ adEn (asWord q a 0 s) = false ∧ adRx (asWord q a 0 s) = bit (b.getD 6 0) 0 ∧ ofLe (slice b 8 2) = r.val ∧ s.flag (KEYWAY.hSvValid r) = true ∧ ofLe (slice b 12 4) = s.get (KEYWAY.hSvSerial r) ∧ (adRx (asWord q a 0 s) = true ∨ s.get (KEYWAY.hSvFloor r) ≤ ofLe (slice b 24 8)) ∧ slotLoaded q (adSlot (asWord q a 0 s)) s = true)
    ∧ (∃ (m : Master) (s : State), s.inReset = false ∧ Accepts m .keyway 0x040 s ∧ pageOn .keyway s = true ∧ s.flag KEYWAY.KW_STAT_BUSY = false)
    ∧ (∃ (q : Fin 4) (k : Fin 1024) (s : State), s.inReset = false ∧ s.flag KEYWAY.KW_STAT_BUSY = true ∧ s.get KEYWAY.hOp = 3 ∧ q = kwQuad s ∧ k = kwPlace s ∧ s.get (CIPH.hStage q k) = 1 ∧ allTook q k s = true)
    ∧ (∃ (q : Fin 4) (k : Fin 1024) (s : State), s.inReset = false ∧ s.flag KEYWAY.KW_STAT_BUSY = true ∧ s.get KEYWAY.hOp = 4 ∧ q = kwQuad s ∧ k = kwPlace s ∧ s.get (CIPH.hStage q k) = 2 ∧ allTook q k s = true)
    ∧ (∃ (q : Fin 4) (a : Fin 1024) (r : Fin 16384) (s1 : State) (b : List Nat) (s : State), s.inReset = false ∧ s.flag KEYWAY.KW_STAT_BUSY = true ∧ s.get KEYWAY.hOp = 6 ∧ s.get KEYWAY.hRes = 0 ∧ q = kwQuad s ∧ a = kwPlace s ∧ r = kwRecord s ∧ s.flag (CIPH.hSaving q a) = false ∧ s1 = ((s.incWrap (KEYWAY.hSvSerial r) 1).put (KEYWAY.hSvValid r) 1).put (KEYWAY.hSvFloor r) (asSeq q a s) ∧ b = recordOf q a (kwWrap s) r (s1.get (KEYWAY.hSvSerial r)) s1)
    ∧ (∃ (res : Nat) (s : State), s.inReset = false ∧ s.flag KEYWAY.KW_STAT_BUSY = true ∧ s.get KEYWAY.hRes = res ∧ res ≠ 0) :=
  ⟨⟨.pcie, (st [(HDR.ENABLE .keyway, 1), (KEYWAY.KEK_STAT, 1), (KEYWAY.KW_ARG0_INDEX, 3)]), by decide +kernel⟩,
    ⟨.pcie, (st [(HDR.ENABLE .keyway, 1), (KEYWAY.KEK_STAT, 9), (KEYWAY.KW_ARG0_INDEX, 3)]), by decide +kernel⟩,
    ⟨.pcie, (stw (st [(HDR.ENABLE .keyway, 1), (KEYWAY.KEK_STAT, 1), (KEYWAY.KW_ARG0_INDEX, 1027)]) [(assocWord 1 7 0, 2 ^ 63 + 3 * 2 ^ 41)]), by decide +kernel⟩,
    ⟨.pcie, (stw (st [(HDR.ENABLE .keyway, 1), (KEYWAY.KW_ARG0_INDEX, 1027)]) [(assocWord 1 7 0, 2 ^ 63 + 3 * 2 ^ 41)]), by decide +kernel⟩,
    ⟨.pcie, (st [(HDR.ENABLE .keyway, 1), (KEYWAY.KW_ARG0_INDEX, 1027)]), by decide +kernel⟩,
    ⟨.pcie, 1, 3, (stw (st [(HDR.ENABLE .keyway, 1), (KEYWAY.KW_ARG0_INDEX, 1027)]) [(slotStatWord 1 3, 3 * 2 ^ 62)]), by decide +kernel⟩,
    ⟨.pcie, 1, 7, (stw (st [(HDR.ENABLE .keyway, 1), (KEYWAY.KW_ARG0_INDEX, 1031)]) [(assocWord 1 7 0, 2 ^ 63 + 3 * 2 ^ 41)]), by decide +kernel⟩,
    ⟨.pcie, 1, 7, [0x54, 0x53, 0x41, 0x43, 1] ++ List.replicate 55 0 ++ leBytes 4 (crc32c ([0x54, 0x53, 0x41, 0x43, 1] ++ List.replicate 55 0)), 0, (stw (st [(HDR.ENABLE .keyway, 1), (KEYWAY.KW_ARG0_INDEX, 1031), (KEYWAY.KW_STAT_LEN, 64), (KEYWAY.hSvValid 0, 1), (KEYWAY.KW_BUF 0, 0x43415354), (KEYWAY.KW_BUF 1, 1), (KEYWAY.KW_BUF 15, crc32c ([0x54, 0x53, 0x41, 0x43, 1] ++ List.replicate 55 0))]) [(slotStatWord 1 0, 2 ^ 63)]), by decide +kernel⟩,
    ⟨.pcie, (st [(HDR.ENABLE .keyway, 1), (KEYWAY.hSvValid 0, 1)]), by decide +kernel⟩,
    ⟨1, 3, (st [(KEYWAY.KW_STAT_BUSY, 1), (KEYWAY.hOp, 3), (KEYWAY.hArg, 1027), (CIPH.hStage 1 3, 1)]), by decide +kernel⟩,
    ⟨1, 3, (st [(KEYWAY.KW_STAT_BUSY, 1), (KEYWAY.hOp, 4), (KEYWAY.hArg, 1027), (CIPH.hStage 1 3, 2)]), by decide +kernel⟩,
    ⟨1, 7, 0, (let s := st [(KEYWAY.KW_STAT_BUSY, 1), (KEYWAY.hOp, 6), (KEYWAY.hArg, 1031)]; ((s.incWrap (KEYWAY.hSvSerial 0) 1).put (KEYWAY.hSvValid 0) 1).put (KEYWAY.hSvFloor 0) (asSeq 1 7 s)), (let s := st [(KEYWAY.KW_STAT_BUSY, 1), (KEYWAY.hOp, 6), (KEYWAY.hArg, 1031)]; recordOf 1 7 false 0 1 (((s.incWrap (KEYWAY.hSvSerial 0) 1).put (KEYWAY.hSvValid 0) 1).put (KEYWAY.hSvFloor 0) (asSeq 1 7 s))), (st [(KEYWAY.KW_STAT_BUSY, 1), (KEYWAY.hOp, 6), (KEYWAY.hArg, 1031)]), by decide +kernel⟩,
    ⟨2, (st [(KEYWAY.KW_STAT_BUSY, 1), (KEYWAY.hRes, 2), (KEYWAY.hCause, 4)]), by decide +kernel⟩⟩

theorem test_meets_ReferenceConditions :
    (∃ (n : Fin 8) (k : RefFault) (s : State), s.inReset = false ∧ faultApplies n k s = true ∧ faultSeen n k s ≠ some false)
    ∧ (∃ (n : Fin 8) (k : RefFault) (s : State), s.inReset = false ∧ n ≠ 6 ∧ faultOver n k s = true ∧ refNoClk n (s.putB (faultFlag n k).1 (!(faultFlag n k).2)) = some true)
    ∧ (∃ (n : Fin 8) (k : RefFault) (s : State), s.inReset = false ∧ n ≠ 6 ∧ faultOver n k s = true ∧ refNoClk n (s.putB (faultFlag n k).1 (!(faultFlag n k).2)) ≠ some true)
    ∧ (∃ (n : Fin 8) (s : State), s.inReset = false ∧ refFaulty n s = false ∧ s.flag (TIMING1.REF_STAT_QUALIFIED n) = false ∧ s.get (TIMING1.WTR_LEFT n) = 0)
    ∧ (∃ (m : Master) (n : Fin 8) (v : Nat) (s : State), s.inReset = false ∧ Accepts m .timing1 (0x100 + 0x20 * n.val) s)
    ∧ (∃ (m : Master) (n : Nat) (s : State), s.inReset = false ∧ Accepts m .timing1 0x04C s ∧ n = s.get TIMING1.hUpdN)
    ∧ (∃ (m : Master) (s : State), s.inReset = false ∧ Accepts m .timing1 0x04C s)
    ∧ (∃ (s : State), s.inReset = false ∧ s.flag (TIMING1.REF_STAT_ACTIVE 6) = true ∧ max 1 (s.get TIMING1.REF6_CFG_REF6_TIMEOUT) ≤ s.get TIMING1.hRef6Ticks) :=
  ⟨⟨2, .noClk, (st [(TIMING1.REF_STAT_ACTIVE 2, 1)]), by decide +kernel⟩,
    ⟨2, .freq, (st [(TIMING1.REF_STAT_FREQ_FAULT 2, 1)]), by decide +kernel⟩,
    ⟨0, .noClk, State.reset, by decide +kernel⟩,
    ⟨0, (st [(HDR.ENABLE .timing1, 1), (TIMING1.REF_STAT_ACTIVE 0, 1)]), by decide +kernel⟩,
    ⟨.pcie, 2, 0x01200000, State.reset, by decide +kernel⟩,
    ⟨.pcie, 0, State.reset, by decide +kernel⟩,
    ⟨.pcie, (st [(TIMING1.REF_STAT_ACTIVE 6, 1)]), by decide +kernel⟩,
    ⟨(st [(TIMING1.REF_STAT_ACTIVE 6, 1), (TIMING1.hRef6Ticks, 65535), (TIMING1.REF6_CFG_REF6_TIMEOUT, 1)]), by decide +kernel⟩⟩

theorem test_meets_TimeCommandsAndTicks :
    (∃ (m : Master) (s : State), s.inReset = false ∧ Accepts m .timing0 0x0A0 s ∧ s.flag TIMING0.TIME_STAT_STEP_PEND = false)
    ∧ (∃ (m : Master) (s : State), s.inReset = false ∧ Accepts m .timing0 0x0A0 s ∧ s.flag TIMING0.TIME_STAT_STEP_PEND = true)
    ∧ (∃ (m : Master) (s : State), s.inReset = false ∧ Accepts m .timing0 0x0A0 s ∧ s.flag TIMING0.TIME_STAT_SEC_PEND = false)
    ∧ (∃ (m : Master) (n : Fin 8) (s : State), s.inReset = false ∧ Accepts m .timing0 0x0A0 s ∧ selectedRef s = some n ∧ refKind n s ≠ 0 ∧ s.flag TIMING0.TIME_STAT_STEP_PEND = false)
    ∧ (∃ (m : Master) (s : State), s.inReset = false ∧ Accepts m .timing0 0x0A0 s)
    ∧ (∃ (s : State), s.inReset = false ∧ s.flag PWR.hSynthLock = true ∧ s.flag TIMING0.TIME_STAT_STEP_PEND = true)
    ∧ (∃ (u : Nat) (s : State), s.inReset = false ∧ s.flag PWR.hSynthLock = true ∧ s.flag TIMING0.TIME_STAT_SEC_PEND = true ∧ u = secU - timeUnits s.time % secU ∧ s.get PWR.hPart + u ≤ tickU)
    ∧ (∃ (ms : List Meas) (s : State), s.inReset = false ∧ s.flag PWR.hSynthLock = true)
    ∧ (∃ (ms : List Meas) (s : State), s.inReset = false ∧ s.flag PWR.hSynthLock = false)
    ∧ (∃ (c : Fin 16) (s : State), s.inReset = false)
    ∧ (∃ (c : Fin 16) (s : State), s.inReset = false)
    ∧ (∃ (g : Fin 32) (r : Fin 8) (s : State), s.inReset = false)
    ∧ (∃ (g : Fin 32) (r : Fin 8) (s : State), s.inReset = false) :=
  ⟨⟨.pcie, (st [(TIMING0.STEP_LO, 5)]), by decide +kernel⟩,
    ⟨.pcie, (st [(TIMING0.TIME_STAT_STEP_PEND, 1)]), by decide +kernel⟩,
    ⟨.pcie, State.reset, by decide +kernel⟩,
    ⟨.pcie, 6, (st [(TIMING0.DPLL_STAT_SEL_VALID, 1), (TIMING0.DPLL_STAT_SEL, 6)]), by decide +kernel⟩,
    ⟨.pcie, (st [(TIMING0.DPLL_STAT_TIME_VALID, 1)]), by decide +kernel⟩,
    ⟨(st [(PWR.hSynthLock, 1), (TIMING0.TIME_STAT_STEP_PEND, 1), (TIMING0.hStep, 500)]), by decide +kernel⟩,
    ⟨65536, { (st [(PWR.hSynthLock, 1), (TIMING0.TIME_STAT_SEC_PEND, 1), (TIMING0.hSec, 77)]) with time := ⟨5, 999999999, 0⟩ }, by decide +kernel⟩,
    ⟨[], { (st [(PWR.hSynthLock, 1)]) with time := ⟨5, 0, 0⟩ }, by decide +kernel⟩,
    ⟨[], State.reset, by decide +kernel⟩,
    ⟨3, State.reset, by decide +kernel⟩,
    ⟨3, (st [(RXDSP.hLineClk 3, 0)]), by decide +kernel⟩,
    ⟨9, 2, State.reset, by decide +kernel⟩,
    ⟨9, 2, (st [(LANEGRP.LANE_STAT_CLK_PRESENT 9 2, 1)]), by decide +kernel⟩⟩

theorem test_meets_DpllStates :
    (∃ (m : Master) (v : Nat) (s1 : State) (s : State), s.inReset = false ∧ Accepts m .timing0 0x040 s ∧ s1 = (((s.put TIMING0.DPLL_CTRL_MODE (bits v 30 2)).put TIMING0.DPLL_CTRL_REVERTIVE (bits v 29 1)).put TIMING0.DPLL_CTRL_FORCE_SEL_EN (bits v 28 1)).put TIMING0.DPLL_CTRL_FORCE_SEL (bits v 24 3) ∧ pageOn .timing0 s1 = true ∧ bits v 30 2 = 1)
    ∧ (∃ (m : Master) (v : Nat) (s1 : State) (s : State), s.inReset = false ∧ Accepts m .timing0 0x040 s ∧ s1 = (((s.put TIMING0.DPLL_CTRL_MODE (bits v 30 2)).put TIMING0.DPLL_CTRL_REVERTIVE (bits v 29 1)).put TIMING0.DPLL_CTRL_FORCE_SEL_EN (bits v 28 1)).put TIMING0.DPLL_CTRL_FORCE_SEL (bits v 24 3) ∧ pageOn .timing0 s1 = true ∧ bits v 30 2 = 2 ∧ s1.flag TIMING0.DPLL_STAT_HO_VALID = true ∧ dpllState s1 = dpLocked)
    ∧ (∃ (k : Nat) (s : State), s.inReset = false ∧ dpllState s = dpAcq ∧ s.get TIMING0.DPLL_STAT_BW_STEP = k ∧ k < 3 ∧ dwellTicks k s ≤ s.get TIMING0.hDwell ∧ phaseOk ((s.put TIMING0.hDwell 0).put TIMING0.hLockCnt 0) = true)
    ∧ (∃ (s : State), s.inReset = false ∧ dpllState s = dpAcq ∧ s.get TIMING0.DPLL_STAT_BW_STEP = 3 ∧ max 1 (s.get TIMING0.QUAL_LOCK_TICKS) ≤ s.get TIMING0.hLockCnt)
    ∧ (∃ (s : State), s.inReset = false ∧ dpllState s = dpLocked ∧ s.flag TIMING0.DPLL_STAT_HO_VALID = false ∧ max (1250 * s.get TIMING0.HO_CFG_HO_MIN) (1250 * 2 ^ s.get TIMING0.HO_AVG_HO_AVG + s.get TIMING0.HO_AVG_HO_DELAY) ≤ s.get TIMING0.hLockTicks)
    ∧ (∃ (s : State), s.inReset = false ∧ dpllState s = dpHold ∧ s.get TIMING0.HO_CFG_HO_MAX ≠ 0 ∧ 10 * s.get TIMING0.HO_CFG_HO_MAX ≤ s.get TIMING0.HO_ELAPSED)
    ∧ (∃ (s : State), s.inReset = false ∧ s.get PWR.hSynth = 1 ∧ (s.geti PWR.hFreq).natAbs ≤ 800000)
    ∧ (∃ (ns : Nat) (s : State), s.inReset = false ∧ s.flag PWR.hSynthRun = true ∧ s.flag PWR.hSynthLock = false) :=
  ⟨⟨.pcie, 0x40000000, ((((st [(HDR.ENABLE .timing0, 1), (TIMING0.DPLL_STAT_STATE, 2)]).put TIMING0.DPLL_CTRL_MODE (bits 0x40000000 30 2)).put TIMING0.DPLL_CTRL_REVERTIVE (bits 0x40000000 29 1)).put TIMING0.DPLL_CTRL_FORCE_SEL_EN (bits 0x40000000 28 1)).put TIMING0.DPLL_CTRL_FORCE_SEL (bits 0x40000000 24 3), (st [(HDR.ENABLE .timing0, 1), (TIMING0.DPLL_STAT_STATE, 2)]), by decide +kernel⟩,
    ⟨.pcie, 0x80000000, ((((st [(HDR.ENABLE .timing0, 1), (TIMING0.DPLL_STAT_STATE, 2), (TIMING0.DPLL_STAT_HO_VALID, 1)]).put TIMING0.DPLL_CTRL_MODE (bits 0x80000000 30 2)).put TIMING0.DPLL_CTRL_REVERTIVE (bits 0x80000000 29 1)).put TIMING0.DPLL_CTRL_FORCE_SEL_EN (bits 0x80000000 28 1)).put TIMING0.DPLL_CTRL_FORCE_SEL (bits 0x80000000 24 3), (st [(HDR.ENABLE .timing0, 1), (TIMING0.DPLL_STAT_STATE, 2), (TIMING0.DPLL_STAT_HO_VALID, 1)]), by decide +kernel⟩,
    ⟨0, (st [(TIMING0.DPLL_STAT_STATE, 1), (TIMING0.hDwell, 12500)]), by decide +kernel⟩,
    ⟨(st [(TIMING0.DPLL_STAT_STATE, 1), (TIMING0.DPLL_STAT_BW_STEP, 3), (TIMING0.hLockCnt, 65535)]), by decide +kernel⟩,
    ⟨(st [(TIMING0.DPLL_STAT_STATE, 2), (TIMING0.hLockTicks, 2000000), (TIMING0.HO_CFG_HO_MIN, 1), (TIMING0.HO_AVG_HO_AVG, 1)]), by decide +kernel⟩,
    ⟨(st [(TIMING0.DPLL_STAT_STATE, 3), (TIMING0.HO_CFG_HO_MAX, 1), (TIMING0.HO_ELAPSED, 10)]), by decide +kernel⟩,
    ⟨(st [(PWR.hSynth, 1), (PWR.hFreq, 800000)]), by decide +kernel⟩,
    ⟨1600007, (st [(PWR.hSynthRun, 1), (TIMING0.DPLL_STAT_STATE, 3), (TIMING2.CLKO_CFG_EN 2, 1), (HDR.ENABLE .timing2, 1), (TIMING2.CLKO_FREQ 2, 1000)]), by decide +kernel⟩⟩

theorem test_meets_TimingOutputs :
    (∃ (m : Master) (o : Fin 8) (v : Nat) (s : State), s.inReset = false ∧ Accepts m .timing2 (outOffset o) s)
    ∧ (∃ (m : Master) (n : Fin 4) (s : State), s.inReset = false ∧ Accepts m .timing2 (0x10C + 0x20 * n.val) s)
    ∧ (∃ (m : Master) (n : Fin 4) (s : State), s.inReset = false ∧ Accepts m .timing2 (0x10C + 0x20 * n.val) s)
    ∧ (∃ (n : Fin 4) (s : State), s.inReset = false ∧ s.flag (TIMING2.CLKO_MIS_HI_PULLING n) = true ∧ (s.geti (TIMING2.hMis (Fin.ofNat 8 n.val))).natAbs ≤ 655360)
    ∧ (∃ (m : Master) (p : Fin 4) (s : State), s.inReset = false ∧ Accepts m .timing2 (0x18C + 0x20 * p.val) s)
    ∧ (∃ (p : Fin 4) (k : Nat) (a : Int) (per : Nat) (d : Nat) (s : State), s.inReset = false ∧ s.flag (TIMING2.hRealign p) = false ∧ pulseAt p k s = some (a, per, d) ∧ s.flag PWR.hSynthLock = true ∧ pageOn .timing2 s = true ∧ s.flag (outEn (Fin.ofNat 8 (4 + p.val))) = true ∧ 0 ≤ a - (10000 * timeUnits s.time + s.geti (TIMING2.hMis (Fin.ofNat 8 (4 + p.val)))) * d ∧ a - (10000 * timeUnits s.time + s.geti (TIMING2.hMis (Fin.ofNat 8 (4 + p.val)))) * d < 10000 * tickU * d ∧ s.get (TIMING2.hEdge p) = 0) :=
  ⟨⟨.pcie, 5, 0x80000001, State.reset, by decide +kernel⟩,
    ⟨.pcie, 2, State.reset, by decide +kernel⟩,
    ⟨.pcie, 2, (st [(TIMING2.CLKO_MIS_HI_PULLING 2, 1)]), by decide +kernel⟩,
    ⟨2, (st [(TIMING2.CLKO_MIS_HI_PULLING 2, 1), (TIMING2.hMis 2, 7)]), by decide +kernel⟩,
    ⟨.pcie, 2, State.reset, by decide +kernel⟩,
    ⟨0, 0, 0, 655360000000000000, 1, (st [(PWR.hSynthLock, 1), (HDR.ENABLE .timing2, 1), (TIMING2.PPSO_CFG_EN 0, 1)]), by decide +kernel⟩⟩

theorem test_meets_TimeTransferAndPtp :
    (∃ (c : Fin 16) (i : Fin 16) (l : List Nat) (s : State), s.inReset = false ∧ pageOn .timing3 s = true ∧ s.get (OTU.hOsmN c i) = 64 ∧ l = osmcBytes c i s ∧ l.all (· == 0) = false)
    ∧ (∃ (l : List Nat) (us : Nat) (s : State), s.inReset = false ∧ pageOn .timing3 s = true ∧ s.flag TIMING3.TOD_CFG_EN = true ∧ todOk l = false)
    ∧ (∃ (l : List Nat) (us : Nat) (s : State), s.inReset = false ∧ pageOn .timing3 s = true ∧ s.flag TIMING3.TOD_CFG_EN = true ∧ todOk l = true ∧ (us < 10000 ∨ 990000 < us))
    ∧ (∃ (l : List Nat) (us : Nat) (s : State), s.inReset = false ∧ pageOn .timing3 s = true ∧ s.flag TIMING3.TOD_CFG_EN = true ∧ todOk l = true ∧ 10000 ≤ us ∧ us ≤ 990000 ∧ s.flag TIMING3.hTodSeen = false ∧ bit (l.getD 3 0) 7 = true)
    ∧ (∃ (g : Fin 32) (n : Fin 8) (fr : EthFrame) (ts : DevTime) (s : State), s.inReset = false ∧ ptpTaken g n fr s = true ∧ ptpRoom s = true)
    ∧ (∃ (g : Fin 32) (n : Fin 8) (fr : EthFrame) (ts : DevTime) (s : State), s.inReset = false ∧ ptpTaken g n fr s = true ∧ ptpRoom s = false)
    ∧ (∃ (ts : DevTime) (r : List Nat) (rest : List (List Nat)) (s : State), s.inReset = false ∧ s.ptpTx = r :: rest ∧ pageOn .ptp s = true ∧ portState (Fin.ofNat 32 (r.getD 2 0 / 8)) (Fin.ofNat 8 (r.getD 2 0)) s ≠ ptUp)
    ∧ (∃ (ts : DevTime) (r : List Nat) (rest : List (List Nat)) (g : Fin 32) (n : Fin 8) (b : List Nat) (s : State), s.inReset = false ∧ s.ptpTx = r :: rest ∧ pageOn .ptp s = true ∧ g = Fin.ofNat 32 (r.getD 2 0 / 8) ∧ n = Fin.ofNat 8 (r.getD 2 0) ∧ portState g n s = ptUp ∧ portUse g n s = usePkt ∧ portTs g n s = true ∧ bit (r.getD 3 0) 0 = false ∧ bit (r.getD 3 0) 1 = true ∧ b = slice r 16 (ofLe (slice r 0 2)) ∧ normalRoom (groupQuad g) (Fin.ofNat 64 (portIndex g n)) (b.length + 4) { s with ptpTx := rest } = true) :=
  ⟨⟨3, 0, 0x20 :: List.replicate 63 0, (st [(OTU.hOsmN 3 0, 64), (HDR.ENABLE .timing3, 1), (OTU.hOsmRx 3 0 0, 0x20)]), by decide +kernel⟩,
    ⟨[], 0, (st [(HDR.ENABLE .timing3, 1), (TIMING3.TOD_CFG_EN, 1)]), by decide +kernel⟩,
    ⟨[0xA5, 0x5A, 1, 0x80] ++ List.replicate 18 0 ++ beBytes 2 (crc16 ([0xA5, 0x5A, 1, 0x80] ++ List.replicate 18 0)), 9999, (st [(HDR.ENABLE .timing3, 1), (TIMING3.TOD_CFG_EN, 1)]), by decide +kernel⟩,
    ⟨[0xA5, 0x5A, 1, 0x80] ++ List.replicate 18 0 ++ beBytes 2 (crc16 ([0xA5, 0x5A, 1, 0x80] ++ List.replicate 18 0)), 10000, (st [(HDR.ENABLE .timing3, 1), (TIMING3.TOD_CFG_EN, 1)]), by decide +kernel⟩,
    ⟨1, 2, ⟨List.replicate 12 0 ++ [0x88, 0xF7, 0, 2] ++ List.replicate 48 0, false, 7⟩, ⟨5, 6, 7⟩, (st [(HDR.ENABLE .ptp, 1), (PTP.PTP_CFG_L2_EN, 1), (PTP.PORT_PTP_MODE 10, 1), (LANEGRP.PORT_STAT_STATE 1 2, 3), (LANEGRP.hCfg 1 2, 9), (HDR.ENABLE (.tm 0), 1), (DMA.DMA_STAT_STATE 0, 1), (DMA.hKind 0, 1), (DMA.hRing 0, 4), (DMA.DOORBELLS_SQ_TAIL 0, 3)]), by decide +kernel⟩,
    ⟨1, 2, ⟨List.replicate 12 0 ++ [0x88, 0xF7, 0, 2] ++ List.replicate 48 0, false, 7⟩, ⟨5, 6, 7⟩, (st [(HDR.ENABLE .ptp, 1), (PTP.PTP_CFG_L2_EN, 1), (PTP.PORT_PTP_MODE 10, 1), (LANEGRP.PORT_STAT_STATE 1 2, 3), (LANEGRP.hCfg 1 2, 9), (HDR.ENABLE (.tm 0), 1)]), by decide +kernel⟩,
    ⟨⟨5, 6, 7⟩, [], [[1]], { (st [(HDR.ENABLE .ptp, 1)]) with ptpTx := [[], [1]] }, by decide +kernel⟩,
    ⟨⟨5, 6, 7⟩, [64, 0, 10, 2, 9, 0, 0, 0] ++ List.replicate 8 0 ++ List.replicate 64 1, [], 1, 2, List.replicate 64 1, { (stw (st [(HDR.ENABLE .ptp, 1), (PTP.PTP_CFG_L2_EN, 1), (PTP.PORT_PTP_MODE 10, 1), (LANEGRP.PORT_STAT_STATE 1 2, 3), (LANEGRP.hCfg 1 2, 9), (HDR.ENABLE (.tm 0), 1)]) [(portMapWord 0 21, 100 * 2 ^ 29)]) with ptpTx := [[64, 0, 10, 2, 9, 0, 0, 0] ++ List.replicate 8 0 ++ List.replicate 64 1] }, by decide +kernel⟩⟩

theorem test_meets_ScrubbingAndDram :
    (∃ (d : Fin 5) (r : Fin 16) (w : Nat) (s : State), s.inReset = false ∧ scrubRuns d s = true ∧ s.flag (HDR.FREEZE (memPage d)) = false ∧ scrubBehind d r s = true ∧ s.get (scrubFlds d r).pos = w ∧ w + 1 < regionWords d r)
    ∧ (∃ (d : Fin 5) (r : Fin 16) (w : Nat) (s : State), s.inReset = false ∧ scrubRuns d s = true ∧ s.flag (HDR.FREEZE (memPage d)) = false ∧ scrubBehind d r s = true ∧ s.get (scrubFlds d r).pos = w ∧ w + 1 = regionWords d r)
    ∧ (∃ (d : Fin 5) (r : Fin 16) (s : State), s.inReset = false ∧ regionWords d r ≠ 0 ∧ s.get (scrubFlds d r).leakTicks ≠ 0 ∧ s.get (scrubFlds d r).leakTicks ≤ s.get (scrubFlds d r).leak)
    ∧ (∃ (q : Fin 4) (s : State), s.inReset = false ∧ memAwake (Fin.ofNat 5 q.val) s = true ∧ s.flag (MEM.MEM_STAT_INIT_DONE q) = false)
    ∧ (∃ (q : Fin 4) (h : Fin 64) (s : State), s.inReset = false ∧ memAwake (Fin.ofNat 5 q.val) s = true)
    ∧ (∃ (q : Fin 4) (h : Fin 64) (arr : List Nat) (dbg : Bool) (s1 : State) (s : State), s.inReset = false ∧ memAwake (Fin.ofNat 5 q.val) s = true ∧ s1 = forFin 4 (fun k s => s.put (MEM.hFill q h k) (min 16 (s.get (MEM.hFill q h k) + arr.getD k.val 0))) s ∧ s1.get (MEM.hRefSlots q h) ≠ 0)
    ∧ (∃ (q : Fin 4) (h : Fin 64) (arr : List Nat) (dbg : Bool) (k : Fin 4) (s1 : State) (s : State), s.inReset = false ∧ memAwake (Fin.ofNat 5 q.val) s = true ∧ s1 = forFin 4 (fun k s => s.put (MEM.hFill q h k) (min 16 (s.get (MEM.hFill q h k) + arr.getD k.val 0))) s ∧ s1.get (MEM.hRefSlots q h) = 0 ∧ arbDecide q h dbg s1 = .forcedRefresh)
    ∧ (∃ (q : Fin 4) (h : Fin 64) (arr : List Nat) (dbg : Bool) (k : Fin 4) (s1 : State) (s : State), s.inReset = false ∧ memAwake (Fin.ofNat 5 q.val) s = true ∧ s1 = forFin 4 (fun k s => s.put (MEM.hFill q h k) (min 16 (s.get (MEM.hFill q h k) + arr.getD k.val 0))) s ∧ s1.get (MEM.hRefSlots q h) = 0 ∧ arbDecide q h dbg s1 = .forced k)
    ∧ (∃ (q : Fin 4) (h : Fin 64) (arr : List Nat) (dbg : Bool) (k : Fin 4) (s1 : State) (s : State), s.inReset = false ∧ memAwake (Fin.ofNat 5 q.val) s = true ∧ s1 = forFin 4 (fun k s => s.put (MEM.hFill q h k) (min 16 (s.get (MEM.hFill q h k) + arr.getD k.val 0))) s ∧ s1.get (MEM.hRefSlots q h) = 0 ∧ arbDecide q h dbg s1 = .client k)
    ∧ (∃ (q : Fin 4) (h : Fin 64) (arr : List Nat) (dbg : Bool) (k : Fin 4) (s1 : State) (s : State), s.inReset = false ∧ memAwake (Fin.ofNat 5 q.val) s = true ∧ s1 = forFin 4 (fun k s => s.put (MEM.hFill q h k) (min 16 (s.get (MEM.hFill q h k) + arr.getD k.val 0))) s ∧ s1.get (MEM.hRefSlots q h) = 0 ∧ arbDecide q h dbg s1 = .refresh)
    ∧ (∃ (q : Fin 4) (h : Fin 64) (arr : List Nat) (dbg : Bool) (k : Fin 4) (s1 : State) (s : State), s.inReset = false ∧ memAwake (Fin.ofNat 5 q.val) s = true ∧ s1 = forFin 4 (fun k s => s.put (MEM.hFill q h k) (min 16 (s.get (MEM.hFill q h k) + arr.getD k.val 0))) s ∧ s1.get (MEM.hRefSlots q h) = 0 ∧ arbDecide q h dbg s1 = .debug)
    ∧ (∃ (q : Fin 4) (h : Fin 64) (s : State), s.inReset = false ∧ memAwake (Fin.ofNat 5 q.val) s = true)
    ∧ (∃ (m : Master) (q : Fin 4) (v : Nat) (t : State) (s : State), s.inReset = false ∧ Accepts m (.mem q) 0x044 s ∧ t = (s.put (MEM.ARB_CFG0_PKT_RD q) (bits v 16 10)).put (MEM.ARB_CFG0_PKT_WR q) (bits v 0 10) ∧ arbCredit q 0 t + arbCredit q 1 t + arbCredit q 2 t + arbCredit q 3 t ≤ 1012)
    ∧ (∃ (m : Master) (q : Fin 4) (v : Nat) (t : State) (s : State), s.inReset = false ∧ Accepts m (.mem q) 0x048 s ∧ t = ((s.put (MEM.ARB_CFG1_WAIT_MAX q) (bits v 24 8)).put (MEM.ARB_CFG1_DMA q) (bits v 8 8)).put (MEM.ARB_CFG1_SCRUB q) (bits v 0 8) ∧ 1012 < arbCredit q 0 t + arbCredit q 1 t + arbCredit q 2 t + arbCredit q 3 t) :=
  ⟨⟨1, 2, 7, (st [(HDR.ENABLE (.mem 1), 1), (MEM.SCRUB_CFG_EN 1, 1), (MEM.SCRUB_POS 1 2, 7)]), by decide +kernel⟩,
    ⟨1, 12, 8191, (st [(HDR.ENABLE (.mem 1), 1), (MEM.SCRUB_CFG_EN 1, 1), (MEM.SCRUB_POS 1 12, 8191), (MEM.hLapTicks 1 12, 1000000)]), by decide +kernel⟩,
    ⟨1, 2, (st [(MEM.BKT_CFG_LEAK_TICKS 1 2, 5), (MEM.hLeak 1 2, 5)]), by decide +kernel⟩,
    ⟨1, (stw State.reset [(.quad 1 0 9, 7)]), by decide +kernel⟩,
    ⟨1, 9, State.reset, by decide +kernel⟩,
    ⟨1, 9, [20], false, (let s := st [(MEM.hRefSlots 1 9, 63)]; forFin 4 (fun k s => s.put (MEM.hFill 1 9 k) (min 16 (s.get (MEM.hFill 1 9 k) + ([20] : List Nat).getD k.val 0))) s), (st [(MEM.hRefSlots 1 9, 63)]), by decide +kernel⟩,
    ⟨1, 9, [], false, 0, (let s := st [(MEM.hRefresh 1 9, 8)]; forFin 4 (fun k s => s.put (MEM.hFill 1 9 k) (min 16 (s.get (MEM.hFill 1 9 k) + ([] : List Nat).getD k.val 0))) s), (st [(MEM.hRefresh 1 9, 8)]), by decide +kernel⟩,
    ⟨1, 9, [0, 0, 1], false, 2, (let s := st [(MEM.hCred 1 9 2, 3), (MEM.hWait 1 9 2, 200), (MEM.hWaitMax 1 9, 5)]; forFin 4 (fun k s => s.put (MEM.hFill 1 9 k) (min 16 (s.get (MEM.hFill 1 9 k) + ([0, 0, 1] : List Nat).getD k.val 0))) s), (st [(MEM.hCred 1 9 2, 3), (MEM.hWait 1 9 2, 200), (MEM.hWaitMax 1 9, 5)]), by decide +kernel⟩,
    ⟨1, 9, [0, 0, 1], false, 2, (let s := st [(MEM.hCred 1 9 2, 3), (MEM.hWaitMax 1 9, 5)]; forFin 4 (fun k s => s.put (MEM.hFill 1 9 k) (min 16 (s.get (MEM.hFill 1 9 k) + ([0, 0, 1] : List Nat).getD k.val 0))) s), (st [(MEM.hCred 1 9 2, 3), (MEM.hWaitMax 1 9, 5)]), by decide +kernel⟩,
    ⟨1, 9, [], false, 0, (let s := st [(MEM.hRefresh 1 9, 1)]; forFin 4 (fun k s => s.put (MEM.hFill 1 9 k) (min 16 (s.get (MEM.hFill 1 9 k) + ([] : List Nat).getD k.val 0))) s), (st [(MEM.hRefresh 1 9, 1)]), by decide +kernel⟩,
    ⟨1, 9, [0, 0, 1], true, 0, (let s := st [(MEM.hCred 1 9 2, 3), (MEM.hWaitMax 1 9, 5)]; forFin 4 (fun k s => s.put (MEM.hFill 1 9 k) (min 16 (s.get (MEM.hFill 1 9 k) + ([0, 0, 1] : List Nat).getD k.val 0))) s), (st [(MEM.hCred 1 9 2, 3), (MEM.hWaitMax 1 9, 5)]), by decide +kernel⟩,
    ⟨1, 9, State.reset, by decide +kernel⟩,
    ⟨.pcie, 1, 0x00050006, (State.reset.put (MEM.ARB_CFG0_PKT_RD 1) 5).put (MEM.ARB_CFG0_PKT_WR 1) 6, State.reset, by decide +kernel⟩,
    ⟨.pcie, 1, 0xFFFF, ((((st [(MEM.ARB_CFG0_PKT_RD 1, 900)]).put (MEM.ARB_CFG1_WAIT_MAX 1) 0).put (MEM.ARB_CFG1_DMA 1) 255).put (MEM.ARB_CFG1_SCRUB 1) 255), (st [(MEM.ARB_CFG0_PKT_RD 1, 900)]), by decide +kernel⟩⟩

theorem test_meets_IndirectDramAccess :
    (∃ (m : Master) (d : Fin 5) (v : Nat) (s : State), s.inReset = false ∧ Accepts m (memPage d) (if d.val < 4 then 0x054 else 0x194) s ∧ s.holds m (.page (memPage d)) = true ∧ bit v 30 = true)
    ∧ (∃ (m : Master) (d : Fin 5) (v : Nat) (s : State), s.inReset = false ∧ Accepts m (memPage d) (if d.val < 4 then 0x054 else 0x194) s ∧ s.holds m (.page (memPage d)) = true ∧ bit v 30 = false)
    ∧ (∃ (m : Master) (q : Fin 4) (s : State), s.inReset = false ∧ Accepts m (.mem q) 0x060 s ∧ s.holds m (.page (.mem q)) = true ∧ s.flag (MEM.DR_CMD_BUSY q) = false)
    ∧ (∃ (m : Master) (q : Fin 4) (s : State), s.inReset = false ∧ Accepts m (.mem q) 0x060 s ∧ s.holds m (.page (.mem q)) = true ∧ s.flag (MEM.DR_CMD_BUSY q) = false)
    ∧ (∃ (m : Master) (q : Fin 4) (s : State), s.inReset = false ∧ Accepts m (.mem q) 0x060 s ∧ s.holds m (.page (.mem q)) = true ∧ s.flag (MEM.DR_CMD_BUSY q) = false)
    ∧ (∃ (q : Fin 4) (l : Loc) (s : State), s.inReset = false ∧ s.flag (MEM.DR_CMD_BUSY q) = true ∧ s.flag (MEM.MEM_STAT_INIT_DONE q) = true ∧ s.flag (MEM.MEM_STAT_SELF_REFRESH q) = false ∧ s.get (MEM.hDrOp q) = 2 ∧ tierWord q (s.get (MEM.hDrAddr q)) = some l)
    ∧ (∃ (q : Fin 4) (l : Loc) (s : State), s.inReset = false ∧ s.flag (MEM.DR_CMD_BUSY q) = true ∧ s.flag (MEM.MEM_STAT_INIT_DONE q) = true ∧ s.flag (MEM.MEM_STAT_SELF_REFRESH q) = false ∧ s.get (MEM.hDrOp q) = 3 ∧ tierWord q (s.get (MEM.hDrAddr q)) = some l)
    ∧ (∃ (q : Fin 4) (l : Loc) (s : State), s.inReset = false ∧ s.flag (MEM.DR_CMD_BUSY q) = true ∧ s.flag (MEM.MEM_STAT_INIT_DONE q) = true ∧ s.flag (MEM.MEM_STAT_SELF_REFRESH q) = false ∧ s.get (MEM.hDrOp q) = 1 ∧ s.flag (MEM.hDrRaw q) = true ∧ tierWord q (s.get (MEM.hDrAddr q)) = some l) :=
  ⟨⟨.pcie, 1, 0xC0000033, (st [(HDR.HASP_HELD (.mem 1), 1), (HDR.HASP_OWNER (.mem 1), 1)]), by decide +kernel⟩,
    ⟨.pcie, 1, 0x80000033, (st [(HDR.HASP_HELD (.mem 1), 1), (HDR.HASP_OWNER (.mem 1), 1)]), by decide +kernel⟩,
    ⟨.pcie, 1, (st [(HDR.HASP_HELD (.mem 1), 1), (HDR.HASP_OWNER (.mem 1), 1)]), by decide +kernel⟩,
    ⟨.pcie, 1, (st [(HDR.HASP_HELD (.mem 1), 1), (HDR.HASP_OWNER (.mem 1), 1)]), by decide +kernel⟩,
    ⟨.pcie, 1, (st [(HDR.HASP_HELD (.mem 1), 1), (HDR.HASP_OWNER (.mem 1), 1)]), by decide +kernel⟩,
    ⟨1, .quad 1 1 0, (st [(MEM.DR_CMD_BUSY 1, 1), (MEM.MEM_STAT_INIT_DONE 1, 1), (MEM.hDrOp 1, 2), (MEM.hDrAddr 1, 8388608), (MEM.hDrData 1, 77)]), by decide +kernel⟩,
    ⟨1, .quad 1 0 5, (st [(MEM.DR_CMD_BUSY 1, 1), (MEM.MEM_STAT_INIT_DONE 1, 1), (MEM.hDrOp 1, 3), (MEM.hDrAddr 1, 5), (MEM.hDrData 1, 77)]), by decide +kernel⟩,
    ⟨1, .quad 1 0 5, (stw (st [(MEM.DR_CMD_BUSY 1, 1), (MEM.MEM_STAT_INIT_DONE 1, 1), (MEM.hDrOp 1, 1), (MEM.hDrAddr 1, 5), (MEM.hDrRaw 1, 1)]) [(.quad 1 0 5, 9)]), by decide +kernel⟩⟩

theorem test_meets_MonitorsAndHeaters :
    (∃ (d : Fin 5) (s : State), s.inReset = false ∧ monRuns d s = true ∧ s.flag (MON.hTrig d) = false ∧ s.flag (MON.MON_STAT_RUNNING d) = false)
    ∧ (∃ (d : Fin 5) (s : State), s.inReset = false ∧ monRuns d s = true ∧ s.flag (MON.hTrig d) = true ∧ s.flag (MON.hDue d) = true ∧ s.flag (MON.MON_STAT_RUNNING d) = false)
    ∧ (∃ (d : Fin 5) (s : State), s.inReset = false ∧ monRuns d s = true ∧ s.flag (MON.hTrig d) = true ∧ s.flag (MON.hDue d) = true ∧ s.flag (MON.MON_STAT_RUNNING d) = true)
    ∧ (∃ (d : Fin 5) (s : State), s.inReset = false ∧ monRuns d s = true ∧ s.flag (MON.hTrig d) = false ∧ s.flag (MON.MON_STAT_RUNNING d) = true ∧ monFreeDue d s = true)
    ∧ (∃ (d : Fin 5) (phase : Nat) (stream : List Bool) (s : State), s.inReset = false ∧ monRuns d s = true ∧ s.flag (MON.MON_STAT_RUNNING d) = true ∧ s.flag (MON.hDone d) = false ∧ monDwellOuts d phase stream s ≠ [])
    ∧ (∃ (d : Fin 5) (phase : Nat) (stream : List Bool) (s : State), s.inReset = false ∧ monRuns d s = true ∧ s.flag (MON.MON_STAT_RUNNING d) = true ∧ s.flag (MON.hDone d) = false ∧ monDwellOuts d phase stream s = [])
    ∧ (∃ (d : Fin 5) (s : State), s.inReset = false ∧ monRuns d s = true ∧ s.flag (MON.MON_STAT_RUNNING d) = true ∧ s.flag (MON.hDone d) = true)
    ∧ (∃ (m : Master) (d : Fin 5) (v : Nat) (s : State), s.inReset = false ∧ Accepts m (.mon d) 0x04C s)
    ∧ (∃ (m : Master) (q : Fin 4) (h : Fin 32) (w : Fin 3) (v : Nat) (s : State), s.inReset = false ∧ Accepts m (.htr q) (0x100 + 16 * h.val + 4 * w.val) s ∧ htrLoad q (htrStore q h w v s) ≤ 100 * s.get (HTR.HTR_CFG_TOT_LIM q))
    ∧ (∃ (m : Master) (q : Fin 4) (h : Fin 32) (w : Fin 3) (v : Nat) (s : State), s.inReset = false ∧ Accepts m (.htr q) (0x100 + 16 * h.val + 4 * w.val) s ∧ 100 * s.get (HTR.HTR_CFG_TOT_LIM q) < htrLoad q (htrStore q h w v s))
    ∧ (∃ (q : Fin 4) (h : Fin 32) (s : State), s.inReset = false ∧ s.get (HTR.CH_CFG_WD_TICKS q h) ≠ 0 ∧ s.get (HTR.CH_CFG_OWNER q h) ≠ 0 ∧ s.get (HTR.CH_CFG_WD_TICKS q h) ≤ s.get (HTR.hStale q h) ∧ qState q s = 0)
    ∧ (∃ (q : Fin 4) (h : Fin 32) (s : State), s.inReset = false ∧ qState q s ≠ 2)
    ∧ (∃ (q : Fin 4) (h : Fin 32) (s : State), s.inReset = false ∧ qState q s ≠ 2)
    ∧ (∃ (q : Fin 4) (s : State), s.inReset = false ∧ qState q s ≠ 2)
    ∧ (∃ (q : Fin 4) (s : State), s.inReset = false ∧ qState q s ≠ 2)
    ∧ (∃ (m : Master) (q : Fin 4) (h : Fin 32) (s : State), s.inReset = false ∧ Accepts m (.htr q) (0x10C + 16 * h.val) s)
    ∧ (∃ (m : Master) (q : Fin 4) (h : Fin 32) (s : State), s.inReset = false ∧ Accepts m (.htr q) (0x10C + 16 * h.val) s ∧ s.flag (HTR.CH_STAT_FAULTED q h) = true ∧ htrCondition q h s = false) :=
  ⟨⟨1, (st [(HDR.ENABLE (.mon 1), 1), (MON.hTrig 1, 0)]), by decide +kernel⟩,
    ⟨1, (st [(HDR.ENABLE (.mon 1), 1), (MON.hTrig 1, 1), (MON.hDue 1, 1)]), by decide +kernel⟩,
    ⟨1, (st [(HDR.ENABLE (.mon 1), 1), (MON.hTrig 1, 1), (MON.hDue 1, 1), (MON.MON_STAT_RUNNING 1, 1)]), by decide +kernel⟩,
    ⟨1, (st [(HDR.ENABLE (.mon 1), 1), (MON.hTrig 1, 0), (MON.MON_STAT_RUNNING 1, 1), (MON.MON_STAT_CUR 1, 3), (MON.hLast 1, 3)]), by decide +kernel⟩,
    ⟨1, 3, List.replicate 450 true, (st [(HDR.ENABLE (.mon 1), 1), (MON.MON_STAT_RUNNING 1, 1), (MON.hLast 1, 3), (MON.hDec 1, 1), (MON.hSeq 1 0, 2)]), by decide +kernel⟩,
    ⟨1, 3, [true, false], (st [(HDR.ENABLE (.mon 1), 1), (MON.MON_STAT_RUNNING 1, 1), (MON.hLast 1, 0)]), by decide +kernel⟩,
    ⟨1, (st [(HDR.ENABLE (.mon 1), 1), (MON.MON_STAT_RUNNING 1, 1), (MON.hDone 1, 1)]), by decide +kernel⟩,
    ⟨.pcie, 1, 5, (st [(MON.COUNT 1 0, 9)]), by decide +kernel⟩,
    ⟨.pcie, 1, 5, 0, 100, State.reset, by decide +kernel⟩,
    ⟨.pcie, 1, 5, 0, 500, (st [(HTR.HTR_CFG_TOT_LIM 1, 1), (HTR.CH_CFG_EN 1 5, 1), (HTR.CH_LIM_MAX 1 5, 6000)]), by decide +kernel⟩,
    ⟨1, 5, (st [(HTR.CH_CFG_WD_TICKS 1 5, 3), (HTR.CH_CFG_OWNER 1 5, 1), (HTR.hStale 1 5, 3)]), by decide +kernel⟩,
    ⟨1, 5, State.reset, by decide +kernel⟩,
    ⟨1, 5, State.reset, by decide +kernel⟩,
    ⟨1, State.reset, by decide +kernel⟩,
    ⟨1, State.reset, by decide +kernel⟩,
    ⟨.pcie, 1, 5, State.reset, by decide +kernel⟩,
    ⟨.pcie, 1, 5, (st [(HTR.CH_STAT_FAULTED 1 5, 1)]), by decide +kernel⟩⟩

theorem test_meets_TumblerArithmetic :
    (∃ (t : Fin 18) (x : Fin 2) (s : State), s.inReset = false ∧ TumbRuns t x 0x01 s ∧ TumbSeq t x (tumbRan t x s))
    ∧ (∃ (t : Fin 18) (x : Fin 2) (s : State), s.inReset = false ∧ TumbRuns t x 0x02 s ∧ TumbSeq t x (tumbRan t x s))
    ∧ (∃ (t : Fin 18) (x : Fin 2) (s : State), s.inReset = false ∧ TumbRuns t x 0x03 s ∧ TumbSeq t x (tumbRan t x s))
    ∧ (∃ (t : Fin 18) (x : Fin 2) (s : State), s.inReset = false ∧ TumbRuns t x 0x04 s ∧ TumbSeq t x (tumbRan t x s))
    ∧ (∃ (t : Fin 18) (x : Fin 2) (s : State), s.inReset = false ∧ TumbRuns t x 0x05 s ∧ TumbSeq t x (tumbRan t x s))
    ∧ (∃ (t : Fin 18) (x : Fin 2) (s : State), s.inReset = false ∧ TumbRuns t x 0x06 s ∧ TumbSeq t x (tumbRan t x s))
    ∧ (∃ (t : Fin 18) (x : Fin 2) (s : State), s.inReset = false ∧ TumbRuns t x 0x07 s ∧ TumbSeq t x (tumbRan t x s))
    ∧ (∃ (t : Fin 18) (x : Fin 2) (s : State), s.inReset = false ∧ TumbRuns t x 0x08 s ∧ TumbSeq t x (tumbRan t x s))
    ∧ (∃ (t : Fin 18) (x : Fin 2) (s : State), s.inReset = false ∧ TumbRuns t x 0x09 s ∧ TumbSeq t x (tumbRan t x s))
    ∧ (∃ (t : Fin 18) (x : Fin 2) (s : State), s.inReset = false ∧ TumbRuns t x 0x0A s ∧ TumbSeq t x (tumbRan t x s))
    ∧ (∃ (t : Fin 18) (x : Fin 2) (s : State), s.inReset = false ∧ TumbRuns t x 0x0B s ∧ TumbSeq t x (tumbRan t x s))
    ∧ (∃ (t : Fin 18) (x : Fin 2) (s : State), s.inReset = false ∧ TumbRuns t x 0x0C s ∧ TumbSeq t x (tumbRan t x s))
    ∧ (∃ (t : Fin 18) (x : Fin 2) (s : State), s.inReset = false ∧ TumbRuns t x 0x0D s ∧ TumbSeq t x (tumbRan t x s))
    ∧ (∃ (t : Fin 18) (x : Fin 2) (s : State), s.inReset = false ∧ TumbRuns t x 0x10 s ∧ TumbSeq t x (tumbRan t x s))
    ∧ (∃ (t : Fin 18) (x : Fin 2) (s : State), s.inReset = false ∧ TumbRuns t x 0x11 s ∧ TumbSeq t x (tumbRan t x s))
    ∧ (∃ (t : Fin 18) (x : Fin 2) (s : State), s.inReset = false ∧ TumbRuns t x 0x12 s ∧ TumbSeq t x (tumbRan t x s))
    ∧ (∃ (t : Fin 18) (x : Fin 2) (s : State), s.inReset = false ∧ TumbRuns t x 0x13 s ∧ TumbSeq t x (tumbRan t x s))
    ∧ (∃ (t : Fin 18) (x : Fin 2) (s : State), s.inReset = false ∧ TumbRuns t x 0x14 s ∧ TumbSeq t x (tumbRan t x s))
    ∧ (∃ (t : Fin 18) (x : Fin 2) (s : State), s.inReset = false ∧ TumbRuns t x 0x15 s ∧ TumbSeq t x (tumbRan t x s))
    ∧ (∃ (t : Fin 18) (x : Fin 2) (s : State), s.inReset = false ∧ TumbRuns t x 0x16 s ∧ TumbSeq t x (tumbRan t x s))
    ∧ (∃ (t : Fin 18) (x : Fin 2) (s : State), s.inReset = false ∧ TumbRuns t x 0x17 s ∧ TumbSeq t x (tumbRan t x s))
    ∧ (∃ (t : Fin 18) (x : Fin 2) (s : State), s.inReset = false ∧ TumbRuns t x 0x18 s ∧ TumbSeq t x (tumbRan t x s))
    ∧ (∃ (t : Fin 18) (x : Fin 2) (s : State), s.inReset = false ∧ TumbRuns t x 0x37 s ∧ TumbSeq t x (tumbRan t x s)) :=
  ⟨⟨3, 0, (stw (st [(TUMB.hState 3 0, 1), (TUMB.hT 3 0 2, 0x800000005), (TUMB.hT 3 0 3, 3)]) [(tumbProg 3 0, 71876608)]), by decide +kernel⟩,
    ⟨3, 0, (stw (st [(TUMB.hState 3 0, 1), (TUMB.hT 3 0 2, 0x800000005), (TUMB.hT 3 0 3, 3)]) [(tumbProg 3 0, 138985472)]), by decide +kernel⟩,
    ⟨3, 0, (stw (st [(TUMB.hState 3 0, 1), (TUMB.hT 3 0 2, 0x800000005), (TUMB.hT 3 0 3, 3)]) [(tumbProg 3 0, 206094336)]), by decide +kernel⟩,
    ⟨3, 0, (stw (st [(TUMB.hState 3 0, 1), (TUMB.hT 3 0 2, 0x800000005), (TUMB.hT 3 0 3, 3)]) [(tumbProg 3 0, 273203200)]), by decide +kernel⟩,
    ⟨3, 0, (stw (st [(TUMB.hState 3 0, 1), (TUMB.hT 3 0 2, 0x800000005), (TUMB.hT 3 0 3, 3)]) [(tumbProg 3 0, 340312064)]), by decide +kernel⟩,
    ⟨3, 0, (stw (st [(TUMB.hState 3 0, 1), (TUMB.hT 3 0 2, 0x800000005), (TUMB.hT 3 0 3, 3)]) [(tumbProg 3 0, 407420928)]), by decide +kernel⟩,
    ⟨3, 0, (stw (st [(TUMB.hState 3 0, 1), (TUMB.hT 3 0 2, 0x800000005), (TUMB.hT 3 0 3, 3)]) [(tumbProg 3 0, 474529792)]), by decide +kernel⟩,
    ⟨3, 0, (stw (st [(TUMB.hState 3 0, 1), (TUMB.hT 3 0 2, 0x800000005), (TUMB.hT 3 0 3, 3)]) [(tumbProg 3 0, 541638656)]), by decide +kernel⟩,
    ⟨3, 0, (stw (st [(TUMB.hState 3 0, 1), (TUMB.hT 3 0 2, 0x800000005), (TUMB.hT 3 0 3, 3)]) [(tumbProg 3 0, 608747520)]), by decide +kernel⟩,
    ⟨3, 0, (stw (st [(TUMB.hState 3 0, 1), (TUMB.hT 3 0 2, 0x800000005), (TUMB.hT 3 0 3, 3)]) [(tumbProg 3 0, 675856384)]), by decide +kernel⟩,
    ⟨3, 0, (stw (st [(TUMB.hState 3 0, 1), (TUMB.hT 3 0 2, 0x800000005), (TUMB.hT 3 0 3, 3)]) [(tumbProg 3 0, 742965248)]), by decide +kernel⟩,
    ⟨3, 0, (stw (st [(TUMB.hState 3 0, 1), (TUMB.hT 3 0 2, 0x800000005), (TUMB.hT 3 0 3, 3)]) [(tumbProg 3 0, 810074112)]), by decide +kernel⟩,
    ⟨3, 0, (stw (st [(TUMB.hState 3 0, 1), (TUMB.hT 3 0 2, 0x800000005), (TUMB.hT 3 0 3, 3)]) [(tumbProg 3 0, 877182976)]), by decide +kernel⟩,
    ⟨3, 0, (stw (st [(TUMB.hState 3 0, 1), (TUMB.hT 3 0 2, 0x800000005), (TUMB.hT 3 0 3, 3)]) [(tumbProg 3 0, 1078722557)]), by decide +kernel⟩,
    ⟨3, 0, (stw (st [(TUMB.hState 3 0, 1), (TUMB.hT 3 0 2, 0x800000005), (TUMB.hT 3 0 3, 3)]) [(tumbProg 3 0, 1145831421)]), by decide +kernel⟩,
    ⟨3, 0, (stw (st [(TUMB.hState 3 0, 1), (TUMB.hT 3 0 2, 0x800000005), (TUMB.hT 3 0 3, 3)]) [(tumbProg 3 0, 1212940285)]), by decide +kernel⟩,
    ⟨3, 0, (stw (st [(TUMB.hState 3 0, 1), (TUMB.hT 3 0 2, 0x800000005), (TUMB.hT 3 0 3, 3)]) [(tumbProg 3 0, 1280049149)]), by decide +kernel⟩,
    ⟨3, 0, (stw (st [(TUMB.hState 3 0, 1), (TUMB.hT 3 0 2, 0x800000005), (TUMB.hT 3 0 3, 3)]) [(tumbProg 3 0, 1347158013)]), by decide +kernel⟩,
    ⟨3, 0, (stw (st [(TUMB.hState 3 0, 1), (TUMB.hT 3 0 2, 0x800000005), (TUMB.hT 3 0 3, 3)]) [(tumbProg 3 0, 1414266877)]), by decide +kernel⟩,
    ⟨3, 0, (stw (st [(TUMB.hState 3 0, 1), (TUMB.hT 3 0 2, 0x800000005), (TUMB.hT 3 0 3, 3)]) [(tumbProg 3 0, 1481375741)]), by decide +kernel⟩,
    ⟨3, 0, (stw (st [(TUMB.hState 3 0, 1), (TUMB.hT 3 0 2, 0x800000005), (TUMB.hT 3 0 3, 3)]) [(tumbProg 3 0, 1548484605)]), by decide +kernel⟩,
    ⟨3, 0, (stw (st [(TUMB.hState 3 0, 1), (TUMB.hT 3 0 2, 0x800000005), (TUMB.hT 3 0 3, 3)]) [(tumbProg 3 0, 1614807045)]), by decide +kernel⟩,
    ⟨3, 0, (stw (st [(TUMB.hState 3 0, 1), (TUMB.hTicks 3, 9)]) [(tumbProg 3 0, 3695181824)]), by decide +kernel⟩⟩

theorem test_meets_TumblerDataAndAccumulators :
    (∃ (t : Fin 18) (x : Fin 2) (s : State), s.inReset = false ∧ TumbRuns t x 0x1B s ∧ TumbSeq t x (tumbRan t x s) ∧ -(2 ^ 71) ≤ s36 (tGet t x (fRa (tumbInstr t x s)) (tumbRan t x s)) * (2 ^ fSh (tumbInstr t x s) : Nat) ∧ s36 (tGet t x (fRa (tumbInstr t x s)) (tumbRan t x s)) * (2 ^ fSh (tumbInstr t x s) : Nat) < 2 ^ 71)
    ∧ (∃ (t : Fin 18) (x : Fin 2) (s : State), s.inReset = false ∧ TumbRuns t x 0x1C s ∧ TumbSeq t x (tumbRan t x s))
    ∧ (∃ (t : Fin 18) (x : Fin 2) (s : State), s.inReset = false ∧ TumbRuns t x 0x1D s ∧ TumbSeq t x (tumbRan t x s))
    ∧ (∃ (t : Fin 18) (x : Fin 2) (s : State), s.inReset = false ∧ TumbRuns t x 0x1E s ∧ TumbSeq t x (tumbRan t x s))
    ∧ (∃ (t : Fin 18) (x : Fin 2) (s : State), s.inReset = false ∧ TumbRuns t x 0x1F s ∧ TumbSeq t x (tumbRan t x s))
    ∧ (∃ (t : Fin 18) (x : Fin 2) (s : State), s.inReset = false ∧ TumbRuns t x 0x20 s ∧ TumbSeq t x ((tumbRan t x s).readWord (tumbData t (tumbAddr t x (tumbInstr t x s) (tumbRan t x s))) false).2.2 ∧ dataOk x (tumbAddr t x (tumbInstr t x s) (tumbRan t x s)) = true ∧ ((tumbRan t x s).readWord (tumbData t (tumbAddr t x (tumbInstr t x s) (tumbRan t x s))) false).1 = .ok)
    ∧ (∃ (t : Fin 18) (x : Fin 2) (s : State), s.inReset = false ∧ TumbRuns t x 0x22 s ∧ TumbSeq t x ((tumbRan t x s).readWord (tumbData t (tumbAddr t x (tumbInstr t x s) (tumbRan t x s))) false).2.2 ∧ dataOk x (tumbAddr t x (tumbInstr t x s) (tumbRan t x s)) = true ∧ ((tumbRan t x s).readWord (tumbData t (tumbAddr t x (tumbInstr t x s) (tumbRan t x s))) false).1 = .ok)
    ∧ (∃ (t : Fin 18) (x : Fin 2) (s : State), s.inReset = false ∧ TumbRuns t x 0x21 s ∧ TumbSeq t x (tumbRan t x s) ∧ dataOk x (tumbAddr t x (tumbInstr t x s) (tumbRan t x s)) = true)
    ∧ (∃ (t : Fin 18) (x : Fin 2) (s : State), s.inReset = false ∧ TumbRuns t x 0x23 s ∧ TumbSeq t x (tumbRan t x s) ∧ dataOk x (tumbAddr t x (tumbInstr t x s) (tumbRan t x s)) = true)
    ∧ (∃ (t : Fin 18) (x : Fin 2) (s : State), s.inReset = false ∧ TumbRuns t x 0x20 s ∧ dataOk x (tumbAddr t x (tumbInstr t x s) (tumbRan t x s)) = false)
    ∧ (∃ (t : Fin 18) (x : Fin 2) (s : State), s.inReset = false ∧ TumbRuns t x 0x21 s ∧ dataOk x (tumbAddr t x (tumbInstr t x s) (tumbRan t x s)) = false)
    ∧ (∃ (t : Fin 18) (x : Fin 2) (s : State), s.inReset = false ∧ TumbRuns t x 0x20 s ∧ dataOk x (tumbAddr t x (tumbInstr t x s) (tumbRan t x s)) = true ∧ ((tumbRan t x s).readWord (tumbData t (tumbAddr t x (tumbInstr t x s) (tumbRan t x s))) false).1 = .ue) :=
  ⟨⟨3, 0, (stw (st [(TUMB.hState 3 0, 1), (TUMB.hT 3 0 2, 0x800000005), (TUMB.hT 3 0 3, 3)]) [(tumbProg 3 0, 1812463619)]), by decide +kernel⟩,
    ⟨3, 0, (stw (st [(TUMB.hState 3 0, 1), (TUMB.hT 3 0 2, 0x800000005), (TUMB.hT 3 0 3, 3)]) [(tumbProg 3 0, 1879621632)]), by decide +kernel⟩,
    ⟨3, 0, (stw (st [(TUMB.hState 3 0, 1), (TUMB.hT 3 0 2, 0x800000005), (TUMB.hT 3 0 3, 3)]) [(tumbProg 3 0, 1946730496)]), by decide +kernel⟩,
    ⟨3, 0, (stw (st [(TUMB.hState 3 0, 1), (TUMB.hT 3 0 2, 0x800000005), (TUMB.hT 3 0 3, 3)]) [(tumbProg 3 0, 2013839360)]), by decide +kernel⟩,
    ⟨3, 0, (stw (st [(TUMB.hState 3 0, 1), (TUMB.hA 3 0 0, 99)]) [(tumbProg 3 0, 2084569090)]), by decide +kernel⟩,
    ⟨3, 0, (stw (st [(TUMB.hState 3 0, 1), (TUMB.hT 3 0 2, 0x800000005), (TUMB.hT 3 0 3, 3)]) [(tumbProg 3 0, 2151677957), (tumbData 3 5, 2 ^ 40 + 77)]), by decide +kernel⟩,
    ⟨3, 0, (stw (st [(TUMB.hState 3 0, 1), (TUMB.hT 3 0 2, 0x800000005), (TUMB.hT 3 0 3, 3)]) [(tumbProg 3 0, 2285895685), (tumbData 3 5, 2 ^ 40 + 77)]), by decide +kernel⟩,
    ⟨3, 0, (stw (st [(TUMB.hState 3 0, 1), (TUMB.hT 3 0 2, 0x800000005), (TUMB.hT 3 0 3, 3)]) [(tumbProg 3 0, 2222981125), (tumbData 3 5, 2 ^ 40 + 77)]), by decide +kernel⟩,
    ⟨3, 0, (stw (st [(TUMB.hState 3 0, 1), (TUMB.hA 3 0 1, 99)]) [(tumbProg 3 0, 2353004549), (tumbData 3 5, 2 ^ 40 + 77)]), by decide +kernel⟩,
    ⟨3, 0, (stw (st [(TUMB.hState 3 0, 1), (TUMB.hT 3 0 2, 0x800000005), (TUMB.hT 3 0 3, 3)]) [(tumbProg 3 0, 2151682048), (tumbData 3 5, 2 ^ 40 + 77)]), by decide +kernel⟩,
    ⟨3, 0, (stw (st [(TUMB.hState 3 0, 1), (TUMB.hT 3 0 2, 0x800000005), (TUMB.hT 3 0 3, 3)]) [(tumbProg 3 0, 2218790912), (tumbData 3 5, 2 ^ 40 + 77)]), by decide +kernel⟩,
    ⟨3, 0, { (stw (st [(TUMB.hState 3 0, 1), (TUMB.hT 3 0 2, 0x800000005), (TUMB.hT 3 0 3, 3)]) [(tumbProg 3 0, 2151677957)]) with mem := ((stw State.reset [(tumbProg 3 0, 2151677957)]).storeRaw (tumbData 3 5) 0 3).mem }, by decide +kernel⟩⟩

theorem test_meets_TumblerPageSpace :
    (∃ (t : Fin 18) (x : Fin 2) (s : State), s.inReset = false ∧ TumbRuns t x 0x24 s ∧ pageTrap t x (tumbAddr t x (tumbInstr t x s) (tumbRan t x s)) 4 false (tumbRan t x s) = none ∧ TumbSeq t x (tumbRan t x s))
    ∧ (∃ (t : Fin 18) (x : Fin 2) (s : State), s.inReset = false ∧ TumbRuns t x 0x26 s ∧ pageTrap t x (tumbAddr t x (tumbInstr t x s) (tumbRan t x s)) 8 false (tumbRan t x s) = none ∧ TumbSeq t x (tumbRan t x s))
    ∧ (∃ (t : Fin 18) (x : Fin 2) (cause : Nat) (s : State), s.inReset = false ∧ TumbRuns t x 0x24 s ∧ pageTrap t x (tumbAddr t x (tumbInstr t x s) (tumbRan t x s)) 4 false (tumbRan t x s) = some cause)
    ∧ (∃ (t : Fin 18) (x : Fin 2) (s : State), s.inReset = false ∧ TumbRuns t x 0x25 s ∧ pageTrap t x (tumbAddr t x (tumbInstr t x s) (tumbRan t x s)) 4 true (tumbRan t x s) = none ∧ TumbSeq t x (tumbRan t x s))
    ∧ (∃ (t : Fin 18) (x : Fin 2) (s : State), s.inReset = false ∧ TumbRuns t x 0x27 s ∧ pageTrap t x (tumbAddr t x (tumbInstr t x s) (tumbRan t x s)) 8 true (tumbRan t x s) = none ∧ TumbSeq t x (tumbRan t x s))
    ∧ (∃ (t : Fin 18) (x : Fin 2) (n : Nat) (s : State), s.inReset = false ∧ s.get (TUMB.hStall t x) ≠ 0 ∧ tumbState t x s = tsRunning ∧ postedTo t x (s.get (TUMB.hStAddr t x)) s = false ∧ stalledBy (.tumb t) s = false ∧ (readAt (.tumb t) (s.get (TUMB.hStAddr t x)) (if s.get (TUMB.hStall t x) = 1 then 4 else 8) s).isSome = true)
    ∧ (∃ (t : Fin 18) (x : Fin 2) (p : PostedWrite) (s : State), s.inReset = false ∧ stalledBy (.tumb t) s = false ∧ (x = 1 → (s.posted.filter fun p => p.t == t && p.x == 0) = []) ∧ (s.posted.filter fun p => p.t == t && p.x == x).head? = some p) :=
  ⟨⟨3, 0, (stw (st [(TUMB.hState 3 0, 1), (TUMB.hT 3 0 2, 0x800000005), (TUMB.hT 3 0 3, 3)]) [(tumbProg 3 0, 2420113456), (tumbData 3 5, 2 ^ 40 + 77)]), by decide +kernel⟩,
    ⟨3, 0, (stw (st [(TUMB.hState 3 0, 1), (TUMB.hT 3 0 2, 0x800000005), (TUMB.hT 3 0 3, 3)]) [(tumbProg 3 0, 2554331184), (tumbData 3 5, 2 ^ 40 + 77)]), by decide +kernel⟩,
    ⟨3, 0, 5, (stw (st [(TUMB.hState 3 0, 1), (TUMB.hT 3 0 2, 0x800000005), (TUMB.hT 3 0 3, 3)]) [(tumbProg 3 0, 2420113457), (tumbData 3 5, 2 ^ 40 + 77)]), by decide +kernel⟩,
    ⟨3, 0, (stw (st [(TUMB.hState 3 0, 1), (TUMB.hT 3 0 2, 0x01700030)]) [(tumbProg 3 0, 2487746560)]), by decide +kernel⟩,
    ⟨3, 0, (stw (st [(TUMB.hState 3 0, 1), (TUMB.hT 3 0 2, 0x01700030)]) [(tumbProg 3 0, 2621964288)]), by decide +kernel⟩,
    ⟨3, 0, 9, (st [(TUMB.hState 3 0, 1), (TUMB.hStall 3 0, 1), (TUMB.hStAddr 3 0, 0x30)]), by decide +kernel⟩,
    ⟨3, 0, ⟨3, 0, 0x30, 4, 9⟩, { State.reset with posted := [⟨3, 0, 0x30, 4, 9⟩] }, by decide +kernel⟩⟩

theorem test_meets_TumblerBranchesAndControl :
    (∃ (t : Fin 18) (x : Fin 2) (s : State), s.inReset = false ∧ TumbRuns t x 0x28 s ∧ (tGet t x (fRd (tumbInstr t x s)) (tumbRan t x s)) = (tGet t x (fRa (tumbInstr t x s)) (tumbRan t x s)) ∧ ((tumbPc t x (tumbRan t x s) : Int) + fImm (tumbInstr t x s)) / 4096 = (x.val : Int))
    ∧ (∃ (t : Fin 18) (x : Fin 2) (s : State), s.inReset = false ∧ TumbRuns t x 0x29 s ∧ (tGet t x (fRd (tumbInstr t x s)) (tumbRan t x s)) ≠ (tGet t x (fRa (tumbInstr t x s)) (tumbRan t x s)) ∧ ((tumbPc t x (tumbRan t x s) : Int) + fImm (tumbInstr t x s)) / 4096 = (x.val : Int))
    ∧ (∃ (t : Fin 18) (x : Fin 2) (s : State), s.inReset = false ∧ TumbRuns t x 0x2A s ∧ s36 (tGet t x (fRd (tumbInstr t x s)) (tumbRan t x s)) < s36 (tGet t x (fRa (tumbInstr t x s)) (tumbRan t x s)) ∧ ((tumbPc t x (tumbRan t x s) : Int) + fImm (tumbInstr t x s)) / 4096 = (x.val : Int))
    ∧ (∃ (t : Fin 18) (x : Fin 2) (s : State), s.inReset = false ∧ TumbRuns t x 0x2B s ∧ s36 (tGet t x (fRa (tumbInstr t x s)) (tumbRan t x s)) ≤ s36 (tGet t x (fRd (tumbInstr t x s)) (tumbRan t x s)) ∧ ((tumbPc t x (tumbRan t x s) : Int) + fImm (tumbInstr t x s)) / 4096 = (x.val : Int))
    ∧ (∃ (t : Fin 18) (x : Fin 2) (s : State), s.inReset = false ∧ TumbRuns t x 0x2C s ∧ (tGet t x (fRd (tumbInstr t x s)) (tumbRan t x s)) < (tGet t x (fRa (tumbInstr t x s)) (tumbRan t x s)) ∧ ((tumbPc t x (tumbRan t x s) : Int) + fImm (tumbInstr t x s)) / 4096 = (x.val : Int))
    ∧ (∃ (t : Fin 18) (x : Fin 2) (s : State), s.inReset = false ∧ TumbRuns t x 0x2D s ∧ (tGet t x (fRa (tumbInstr t x s)) (tumbRan t x s)) ≤ (tGet t x (fRd (tumbInstr t x s)) (tumbRan t x s)) ∧ ((tumbPc t x (tumbRan t x s) : Int) + fImm (tumbInstr t x s)) / 4096 = (x.val : Int))
    ∧ (∃ (t : Fin 18) (x : Fin 2) (s : State), s.inReset = false ∧ TumbRuns t x 0x28 s ∧ (tGet t x (fRd (tumbInstr t x s)) (tumbRan t x s)) ≠ (tGet t x (fRa (tumbInstr t x s)) (tumbRan t x s)) ∧ TumbSeq t x (tumbRan t x s))
    ∧ (∃ (t : Fin 18) (x : Fin 2) (s : State), s.inReset = false ∧ TumbRuns t x 0x29 s ∧ (tGet t x (fRd (tumbInstr t x s)) (tumbRan t x s)) = (tGet t x (fRa (tumbInstr t x s)) (tumbRan t x s)) ∧ TumbSeq t x (tumbRan t x s))
    ∧ (∃ (t : Fin 18) (x : Fin 2) (s : State), s.inReset = false ∧ TumbRuns t x 0x2A s ∧ s36 (tGet t x (fRa (tumbInstr t x s)) (tumbRan t x s)) ≤ s36 (tGet t x (fRd (tumbInstr t x s)) (tumbRan t x s)) ∧ TumbSeq t x (tumbRan t x s))
    ∧ (∃ (t : Fin 18) (x : Fin 2) (s : State), s.inReset = false ∧ TumbRuns t x 0x2B s ∧ s36 (tGet t x (fRd (tumbInstr t x s)) (tumbRan t x s)) < s36 (tGet t x (fRa (tumbInstr t x s)) (tumbRan t x s)) ∧ TumbSeq t x (tumbRan t x s))
    ∧ (∃ (t : Fin 18) (x : Fin 2) (s : State), s.inReset = false ∧ TumbRuns t x 0x2C s ∧ (tGet t x (fRa (tumbInstr t x s)) (tumbRan t x s)) ≤ (tGet t x (fRd (tumbInstr t x s)) (tumbRan t x s)) ∧ TumbSeq t x (tumbRan t x s))
    ∧ (∃ (t : Fin 18) (x : Fin 2) (s : State), s.inReset = false ∧ TumbRuns t x 0x2D s ∧ (tGet t x (fRd (tumbInstr t x s)) (tumbRan t x s)) < (tGet t x (fRa (tumbInstr t x s)) (tumbRan t x s)) ∧ TumbSeq t x (tumbRan t x s))
    ∧ (∃ (t : Fin 18) (x : Fin 2) (s : State), s.inReset = false ∧ TumbRuns t x 0x28 s ∧ (tGet t x (fRd (tumbInstr t x s)) (tumbRan t x s)) = (tGet t x (fRa (tumbInstr t x s)) (tumbRan t x s)) ∧ ((tumbPc t x (tumbRan t x s) : Int) + fImm (tumbInstr t x s)) / 4096 ≠ (x.val : Int))
    ∧ (∃ (t : Fin 18) (x : Fin 2) (s : State), s.inReset = false ∧ TumbRuns t x 0x2E s ∧ fTarget (tumbInstr t x s) / 4096 = x.val)
    ∧ (∃ (t : Fin 18) (x : Fin 2) (s : State), s.inReset = false ∧ TumbRuns t x 0x2F s ∧ (tGet t x (fRa (tumbInstr t x s)) (tumbRan t x s)) % 2 ^ 13 / 4096 = x.val)
    ∧ (∃ (t : Fin 18) (x : Fin 2) (s : State), s.inReset = false ∧ TumbRuns t x 0x30 s ∧ TumbSeq t x (tumbRan t x s))
    ∧ (∃ (t : Fin 18) (x : Fin 2) (s : State), s.inReset = false ∧ TumbRuns t x 0x31 s ∧ tumbPending t x (tumbRan t x s) &&& (bits (tumbInstr t x s) 0 8 ||| bits (tGet t x (fRa (tumbInstr t x s)) (tumbRan t x s)) 0 8) = 0 ∧ TumbSeq t x (tumbRan t x s))
    ∧ (∃ (t : Fin 18) (x : Fin 2) (s : State), s.inReset = false ∧ TumbRuns t x 0x31 s ∧ tumbPending t x (tumbRan t x s) &&& (bits (tumbInstr t x s) 0 8 ||| bits (tGet t x (fRa (tumbInstr t x s)) (tumbRan t x s)) 0 8) ≠ 0 ∧ TumbSeq t x (tumbRan t x s))
    ∧ (∃ (t : Fin 18) (x : Fin 2) (s : State), s.inReset = false ∧ TumbRuns t x 0x32 s ∧ TumbSeq t x (tumbRan t x s))
    ∧ (∃ (t : Fin 18) (x : Fin 2) (s : State), s.inReset = false ∧ TumbRuns t x 0x33 s)
    ∧ (∃ (t : Fin 18) (x : Fin 2) (s : State), s.inReset = false ∧ tumbIssues t x s = true ∧ (tumbFetch t x s).1 ≠ .ue ∧ tumbLegal (tumbInstr t x s) = false)
    ∧ (∃ (t : Fin 18) (x : Fin 2) (n : Fin 8) (s : State), s.inReset = false ∧ TumbRuns t x 0x34 s ∧ bits (tumbInstr t x s) 0 4 = n.val ∧ (x = 0 ∨ (tumbRan t x s).flag (HDR.CNT_USER (.tumb t)) = true) ∧ TumbSeq t x (tumbRan t x s))
    ∧ (∃ (t : Fin 18) (x : Fin 2) (s : State), s.inReset = false ∧ TumbRuns t x 0x34 s ∧ bits (tumbInstr t x s) 0 4 = 8 ∧ (x = 0 ∨ (tumbRan t x s).flag (HDR.CNT_USER (.tumb t)) = true) ∧ TumbSeq t x (tumbRan t x s))
    ∧ (∃ (t : Fin 18) (x : Fin 2) (s : State), s.inReset = false ∧ TumbRuns t x 0x35 s ∧ x = 0 ∧ TumbSeq t x (tumbRan t x s))
    ∧ (∃ (t : Fin 18) (x : Fin 2) (s : State), s.inReset = false ∧ TumbRuns t x 0x36 s ∧ x = 0 ∧ TumbSeq t x (tumbRan t x s)) :=
  ⟨⟨3, 0, (stw (st [(TUMB.hState 3 0, 1), (TUMB.hT 3 0 2, 5), (TUMB.hT 3 0 3, 5)]) [(tumbProg 3 0, 2693529607)]), by decide +kernel⟩,
    ⟨3, 0, (stw (st [(TUMB.hState 3 0, 1), (TUMB.hT 3 0 2, 4), (TUMB.hT 3 0 3, 5)]) [(tumbProg 3 0, 2760638471)]), by decide +kernel⟩,
    ⟨3, 0, (stw (st [(TUMB.hState 3 0, 1), (TUMB.hT 3 0 2, 4), (TUMB.hT 3 0 3, 5)]) [(tumbProg 3 0, 2827747335)]), by decide +kernel⟩,
    ⟨3, 0, (stw (st [(TUMB.hState 3 0, 1), (TUMB.hT 3 0 2, 6), (TUMB.hT 3 0 3, 5)]) [(tumbProg 3 0, 2894856199)]), by decide +kernel⟩,
    ⟨3, 0, (stw (st [(TUMB.hState 3 0, 1), (TUMB.hT 3 0 2, 4), (TUMB.hT 3 0 3, 5)]) [(tumbProg 3 0, 2961965063)]), by decide +kernel⟩,
    ⟨3, 0, (stw (st [(TUMB.hState 3 0, 1), (TUMB.hT 3 0 2, 6), (TUMB.hT 3 0 3, 5)]) [(tumbProg 3 0, 3029073927)]), by decide +kernel⟩,
    ⟨3, 0, (stw (st [(TUMB.hState 3 0, 1), (TUMB.hT 3 0 2, 4), (TUMB.hT 3 0 3, 5)]) [(tumbProg 3 0, 2693529607)]), by decide +kernel⟩,
    ⟨3, 0, (stw (st [(TUMB.hState 3 0, 1), (TUMB.hT 3 0 2, 5), (TUMB.hT 3 0 3, 5)]) [(tumbProg 3 0, 2760638471)]), by decide +kernel⟩,
    ⟨3, 0, (stw (st [(TUMB.hState 3 0, 1), (TUMB.hT 3 0 2, 6), (TUMB.hT 3 0 3, 5)]) [(tumbProg 3 0, 2827747335)]), by decide +kernel⟩,
    ⟨3, 0, (stw (st [(TUMB.hState 3 0, 1), (TUMB.hT 3 0 2, 4), (TUMB.hT 3 0 3, 5)]) [(tumbProg 3 0, 2894856199)]), by decide +kernel⟩,
    ⟨3, 0, (stw (st [(TUMB.hState 3 0, 1), (TUMB.hT 3 0 2, 6), (TUMB.hT 3 0 3, 5)]) [(tumbProg 3 0, 2961965063)]), by decide +kernel⟩,
    ⟨3, 0, (stw (st [(TUMB.hState 3 0, 1), (TUMB.hT 3 0 2, 4), (TUMB.hT 3 0 3, 5)]) [(tumbProg 3 0, 3029073927)]), by decide +kernel⟩,
    ⟨3, 0, (stw (st [(TUMB.hState 3 0, 1), (TUMB.hT 3 0 2, 5), (TUMB.hT 3 0 3, 5)]) [(tumbProg 3 0, 2693791743)]), by decide +kernel⟩,
    ⟨3, 0, (stw (st [(TUMB.hState 3 0, 1)]) [(tumbProg 3 0, 3091202125)]), by decide +kernel⟩,
    ⟨3, 0, (stw (st [(TUMB.hState 3 0, 1), (TUMB.hT 3 0 2, 77)]) [(tumbProg 3 0, 3154640896)]), by decide +kernel⟩,
    ⟨3, 0, (stw (st [(TUMB.hState 3 0, 1)]) [(tumbProg 3 0, 3221225472)]), by decide +kernel⟩,
    ⟨3, 0, (stw (st [(TUMB.hState 3 0, 1)]) [(tumbProg 3 0, 3292528645)]), by decide +kernel⟩,
    ⟨3, 0, (stw (st [(TUMB.hState 3 0, 1), (TUMB.hPend 3 0, 1)]) [(tumbProg 3 0, 3292528895)]), by decide +kernel⟩,
    ⟨3, 0, (stw (st [(TUMB.hState 3 0, 1)]) [(tumbProg 3 0, 3355443200)]), by decide +kernel⟩,
    ⟨3, 0, (stw (st [(TUMB.hState 3 0, 1)]) [(tumbProg 3 0, 3422552069)]), by decide +kernel⟩,
    ⟨3, 0, (stw (st [(TUMB.hState 3 0, 1)]) [(tumbProg 3 0, 4227858432)]), by decide +kernel⟩,
    ⟨3, 0, 2, (stw (st [(TUMB.hState 3 0, 1), (TUMB.hEvc 3 2, 9)]) [(tumbProg 3 0, 3493855234)]), by decide +kernel⟩,
    ⟨3, 0, (stw (st [(TUMB.hState 3 0, 1)]) [(tumbProg 3 0, 3493855240)]), by decide +kernel⟩,
    ⟨3, 0, (stw (st [(TUMB.hState 3 0, 1)]) [(tumbProg 3 0, 3556769792)]), by decide +kernel⟩,
    ⟨3, 0, (stw (st [(TUMB.hState 3 0, 1), (TUMB.CNT_CTRL_FREEZE 3, 1)]) [(tumbProg 3 0, 3623878656)]), by decide +kernel⟩⟩

theorem test_meets_TumblerCommands :
    (∃ (m : Master) (t : Fin 18) (x : Fin 2) (s : State), s.inReset = false ∧ Accepts m (.tumb t) 0x044 s ∧ pageOn (.tumb t) s = true ∧ tumbState t x s = tsHalted)
    ∧ (∃ (m : Master) (t : Fin 18) (x : Fin 2) (s : State), s.inReset = false ∧ Accepts m (.tumb t) 0x044 s ∧ pageOn (.tumb t) s = true ∧ (tumbState t x s = tsHalted ∨ tumbState t x s = tsTrapped))
    ∧ (∃ (m : Master) (t : Fin 18) (x : Fin 2) (s : State), s.inReset = false ∧ Accepts m (.tumb t) 0x044 s ∧ ((tumbState t x s = tsRunning ∧ s.get (TUMB.hStall t x) = 0) ∨ tumbState t x s = tsWaiting))
    ∧ (∃ (m : Master) (t : Fin 18) (x : Fin 2) (s : State), s.inReset = false ∧ Accepts m (.tumb t) 0x044 s ∧ tumbState t x s = tsRunning ∧ s.get (TUMB.hStall t x) ≠ 0)
    ∧ (∃ (t : Fin 18) (x : Fin 2) (s : State), s.inReset = false ∧ s.flag (TUMB.hAutoTick t x) = true ∧ tumbAuto t x (s.put (TUMB.hAutoTick t x) 0) = true)
    ∧ (∃ (t : Fin 18) (x : Fin 2) (s : State), s.inReset = false ∧ tumbState t x s = tsRunning ∧ s.flag (HDR.FREEZE (.tumb t)) = false ∧ tumbAwake t s = true ∧ wdogOver t x s = true)
    ∧ (∃ (m : Master) (t : Fin 18) (x : Fin 2) (s : State), s.inReset = false ∧ Accepts m (.tumb t) 0x068 s)
    ∧ (∃ (t : Fin 18) (x : Fin 2) (n : Nat) (s : State), s.inReset = false ∧ tumbState t x s = tsWaiting ∧ s.flag (HDR.FREEZE (.tumb t)) = false ∧ tumbAwake t s = true ∧ tumbWoken t x s = true ∧ (tumbCycles t n s).get (TUMB.hWait t x) = 1)
    ∧ (∃ (m : Master) (t : Fin 18) (w : Fin 8) (v : Nat) (s : State), s.inReset = false ∧ Accepts m (.tumb t) (0x180 + 8 * w.val) s ∧ tumbState t 1 s ≠ tsRunning ∧ tumbState t 1 s ≠ tsWaiting)
    ∧ (∃ (m : Master) (t : Fin 18) (w : Fin 8) (v : Nat) (s : State), s.inReset = false ∧ Accepts m (.tumb t) (0x184 + 8 * w.val) s ∧ tumbState t 1 s ≠ tsRunning ∧ tumbState t 1 s ≠ tsWaiting)
    ∧ (∃ (m : Master) (t : Fin 18) (on : Bool) (s : State), s.inReset = false ∧ Accepts m (.tumb t) 0x0C0 s)
    ∧ (∃ (m : Master) (t : Fin 18) (v : Nat) (s : State), s.inReset = false ∧ Accepts m (.tumb t) 0x0C0 s)
    ∧ (∃ (t : Fin 18) (n : Fin 8) (s : State), s.inReset = false ∧ s.flag (TUMB.EVC_CFG_STICK t n) = true ∧ 2 ^ 48 - 1 ≤ s.get (TUMB.hEvc t n) ∧ s.flag (TUMB.EVC_HI_OVF t n) = false)
    ∧ (∃ (t : Fin 18) (n : Fin 8) (s : State), s.inReset = false ∧ s.flag (TUMB.EVC_CFG_STICK t n) = false ∧ 2 ^ 48 ≤ s.get (TUMB.hEvc t n)) :=
  ⟨⟨.pcie, 3, 1, (st [(HDR.ENABLE (.tumb 3), 1), (TUMB.hState 3 1, 4)]), by decide +kernel⟩,
    ⟨.pcie, 3, 1, (st [(HDR.ENABLE (.tumb 3), 1), (TUMB.hState 3 1, 3)]), by decide +kernel⟩,
    ⟨.pcie, 3, 1, (st [(TUMB.hState 3 1, 2)]), by decide +kernel⟩,
    ⟨.pcie, 3, 1, (st [(TUMB.hState 3 1, 1), (TUMB.hStall 3 1, 1)]), by decide +kernel⟩,
    ⟨3, 0, (st [(TUMB.hAutoTick 3 0, 1), (TUMB.TUMB_CTRL_AUTO_C 3, 1), (HDR.ENABLE (.tumb 3), 1), (TUMB.hState 3 0, 4)]), by decide +kernel⟩,
    ⟨3, 0, (st [(TUMB.hState 3 0, 1), (TUMB.WDOG_WDOG_C 3, 1), (TUMB.hWd 3 0, 257)]), by decide +kernel⟩,
    ⟨.pcie, 3, 1, (st [(TUMB.hState 3 1, 2)]), by decide +kernel⟩,
    ⟨3, 0, 9, { (st [(TUMB.hState 3 0, 2), (TUMB.hWait 3 0, 1)]) with tickCount := 5 }, by decide +kernel⟩,
    ⟨.pcie, 3, 2, 0xC0000100, State.reset, by decide +kernel⟩,
    ⟨.pcie, 3, 2, 0x100, State.reset, by decide +kernel⟩,
    ⟨.pcie, 3, true, State.reset, by decide +kernel⟩,
    ⟨.pcie, 3, 5, (st [(TUMB.hEvc 3 2, 9)]), by decide +kernel⟩,
    ⟨3, 2, (st [(TUMB.EVC_CFG_STICK 3 2, 1), (TUMB.hEvc 3 2, 2 ^ 48 - 1)]), by decide +kernel⟩,
    ⟨3, 2, (st [(TUMB.hEvc 3 2, 2 ^ 48 + 5)]), by decide +kernel⟩⟩

theorem test_meets_BootAndRecovery :
    (∃ (sigs : List (Nat × Nat)) (flash : Bool) (ms : Nat) (s : State), s.inReset = false ∧ bootStage s = bsRom)
    ∧ (∃ (sigs : List (Nat × Nat)) (flash : Bool) (ms : Nat) (s : State), s.inReset = false ∧ bootStage s = bsStage1)
    ∧ (∃ (sigs : List (Nat × Nat)) (flash : Bool) (ms : Nat) (u : State) (s : State), s.inReset = false ∧ bootStage s = bsStage1 ∧ selectCopy copyFirmware ikFirmware (fun a j => sigs.contains (a, j)) flash s = (none, u))
    ∧ (∃ (sigs : List (Nat × Nat)) (flash : Bool) (ms : Nat) (s : State), s.inReset = false ∧ bootStage s = bsFirmware)
    ∧ (∃ (m : Master) (v : Nat) (s : State), s.inReset = false ∧ Accepts m .boot 0x064 s ∧ bootStage s = bsRecoveryRom)
    ∧ (∃ (m : Master) (v : Nat) (s : State), s.inReset = false ∧ Accepts m .boot 0x064 s ∧ bootStage s ≠ bsRecoveryRom)
    ∧ (∃ (m : Master) (sigs : List Nat) (s : State), s.inReset = false ∧ Accepts m .boot 0x068 s ∧ bootStage s = bsRecoveryRom)
    ∧ (∃ (m : Master) (s : State), s.inReset = false ∧ Accepts m .boot 0x05C s) :=
  ⟨⟨[], false, 5, State.reset, by decide +kernel⟩,
    ⟨[], false, 5, (st [(BOOT.BOOT_STAT_STAGE, 1)]), by decide +kernel⟩,
    ⟨[], false, 5, bootCause bcFlash (st [(BOOT.BOOT_STAT_STAGE, 1)]), (st [(BOOT.BOOT_STAT_STAGE, 1)]), by decide +kernel⟩,
    ⟨[], false, 5, (st [(BOOT.BOOT_STAT_STAGE, 2)]), by decide +kernel⟩,
    ⟨.pcie, 0x01020304, (st [(BOOT.BOOT_STAT_STAGE, 15)]), by decide +kernel⟩,
    ⟨.pcie, 0x01020304, State.reset, by decide +kernel⟩,
    ⟨.pcie, [], (st [(BOOT.BOOT_STAT_STAGE, 15)]), by decide +kernel⟩,
    ⟨.pcie, (st [(BOOT.DBG_STAT_SCOPE, 3)]), by decide +kernel⟩⟩

theorem test_meets_FuseCommands :
    (∃ (arg : Fin 256) (s : State), s.inReset = false ∧ Accepts .pcie .fuse 0x044 s ∧ s.holds .pcie (.page .fuse) = true ∧ s.flag FUSE.FUSE_STAT_BUSY = false ∧ arg.val ≤ 1 ∧ s.flag (FUSE.hOwnProg (Fin.ofNat 2 arg.val)) = false ∧ ownerDamaged (Fin.ofNat 2 arg.val) s = false)
    ∧ (∃ (arg : Fin 256) (s : State), s.inReset = false ∧ Accepts .pcie .fuse 0x044 s ∧ s.holds .pcie (.page .fuse) = true ∧ s.flag FUSE.FUSE_STAT_BUSY = false ∧ arg.val ≤ 1 ∧ (s.flag FUSE.FUSE_STAT_OWNER_COSIGN = false ∨ ownerValid (1 - Fin.ofNat 2 arg.val) s = true))
    ∧ (∃ (arg : Fin 256) (s : State), s.inReset = false ∧ Accepts .pcie .fuse 0x044 s ∧ s.holds .pcie (.page .fuse) = true ∧ s.flag FUSE.FUSE_STAT_BUSY = false ∧ arg.val ≤ 64 ∧ s.get FUSE.FUSE_STAT_ARB < arg.val ∧ (∀ v ∈ secversNow s, arg.val ≤ v) ∧ staging s = false)
    ∧ (∃ (arg : Fin 256) (s : State), s.inReset = false ∧ Accepts .pcie .fuse 0x044 s ∧ s.holds .pcie (.page .fuse) = true ∧ s.flag FUSE.FUSE_STAT_BUSY = false ∧ arg.val ≤ 64 ∧ arg.val ≤ s.get FUSE.FUSE_STAT_ARB)
    ∧ (∃ (arg : Fin 256) (s : State), s.inReset = false ∧ Accepts .pcie .fuse 0x044 s ∧ s.holds .pcie (.page .fuse) = true ∧ s.flag FUSE.FUSE_STAT_BUSY = false ∧ 64 < arg.val)
    ∧ (∃ (arg : Fin 256) (s : State), s.inReset = false ∧ Accepts .pcie .fuse 0x044 s ∧ s.holds .pcie (.page .fuse) = true ∧ s.flag FUSE.FUSE_STAT_BUSY = false ∧ 1 < arg.val)
    ∧ (∃ (arg : Fin 256) (s : State), s.inReset = false ∧ Accepts .pcie .fuse 0x044 s ∧ s.holds .pcie (.page .fuse) = true ∧ s.flag FUSE.FUSE_STAT_BUSY = false ∧ 1 < arg.val)
    ∧ (∃ (s : State), s.inReset = false ∧ Accepts .pcie .fuse 0x044 s ∧ s.holds .pcie (.page .fuse) = true ∧ s.flag FUSE.FUSE_STAT_BUSY = false ∧ s.flag FUSE.FUSE_STAT_KEK_SEED_SET = false)
    ∧ (∃ (s : State), s.inReset = false ∧ Accepts .pcie .fuse 0x044 s ∧ s.holds .pcie (.page .fuse) = true ∧ s.flag FUSE.FUSE_STAT_BUSY = false ∧ s.flag FUSE.FUSE_STAT_KEK_SEED_SET = true)
    ∧ (∃ (s : State), s.inReset = false ∧ Accepts .pcie .fuse 0x044 s ∧ s.holds .pcie (.page .fuse) = true ∧ s.flag FUSE.FUSE_STAT_BUSY = false ∧ ownerInUse s ≠ none)
    ∧ (∃ (s : State), s.inReset = false ∧ Accepts .pcie .fuse 0x044 s ∧ s.holds .pcie (.page .fuse) = true ∧ s.flag FUSE.FUSE_STAT_BUSY = false ∧ ownerInUse s = none)
    ∧ (∃ (s : State), s.inReset = false ∧ Accepts .pcie .fuse 0x044 s ∧ s.holds .pcie (.page .fuse) = true ∧ s.flag FUSE.FUSE_STAT_BUSY = false)
    ∧ (∃ (m : Master) (s : State), s.inReset = false ∧ Accepts m .fuse 0x044 s ∧ (m ≠ .pcie ∨ s.holds .pcie (.page .fuse) = false) ∧ s.flag FUSE.FUSE_STAT_BUSY = false)
    ∧ (∃ (s : State), s.inReset = false ∧ s.flag FUSE.FUSE_STAT_BUSY = true)
    ∧ (∃ (s : State), s.inReset = false ∧ s.flag FUSE.FUSE_STAT_BUSY = true ∧ s.get FUSE.hOp = 2)
    ∧ (∃ (s : State), s.inReset = false ∧ s.flag FUSE.FUSE_STAT_BUSY = true ∧ s.get FUSE.hOp = 3) :=
  ⟨⟨1, (st [(HDR.HASP_HELD .fuse, 1), (HDR.HASP_OWNER .fuse, 1)]), by decide +kernel⟩,
    ⟨1, (st [(HDR.HASP_HELD .fuse, 1), (HDR.HASP_OWNER .fuse, 1)]), by decide +kernel⟩,
    ⟨5, (st [(HDR.HASP_HELD .fuse, 1), (HDR.HASP_OWNER .fuse, 1)]), by decide +kernel⟩,
    ⟨0, (st [(HDR.HASP_HELD .fuse, 1), (HDR.HASP_OWNER .fuse, 1)]), by decide +kernel⟩,
    ⟨65, (st [(HDR.HASP_HELD .fuse, 1), (HDR.HASP_OWNER .fuse, 1)]), by decide +kernel⟩,
    ⟨2, (st [(HDR.HASP_HELD .fuse, 1), (HDR.HASP_OWNER .fuse, 1)]), by decide +kernel⟩,
    ⟨2, (st [(HDR.HASP_HELD .fuse, 1), (HDR.HASP_OWNER .fuse, 1)]), by decide +kernel⟩,
    ⟨(st [(HDR.HASP_HELD .fuse, 1), (HDR.HASP_OWNER .fuse, 1)]), by decide +kernel⟩,
    ⟨(st [(HDR.HASP_HELD .fuse, 1), (HDR.HASP_OWNER .fuse, 1), (FUSE.FUSE_STAT_KEK_SEED_SET, 1)]), by decide +kernel⟩,
    ⟨(st [(HDR.HASP_HELD .fuse, 1), (HDR.HASP_OWNER .fuse, 1), (FUSE.hOwnProg 0, 1), (FUSE.hOwnCrc 0, crc16 (List.replicate 32 0))]), by decide +kernel⟩,
    ⟨(st [(HDR.HASP_HELD .fuse, 1), (HDR.HASP_OWNER .fuse, 1)]), by decide +kernel⟩,
    ⟨(st [(HDR.HASP_HELD .fuse, 1), (HDR.HASP_OWNER .fuse, 1)]), by decide +kernel⟩,
    ⟨.ward 0, State.reset, by decide +kernel⟩,
    ⟨(st [(FUSE.FUSE_STAT_BUSY, 1), (FUSE.hOp, 6)]), by decide +kernel⟩,
    ⟨(st [(FUSE.FUSE_STAT_BUSY, 1), (FUSE.hOp, 2), (FUSE.hArg, 1)]), by decide +kernel⟩,
    ⟨(st [(FUSE.FUSE_STAT_BUSY, 1), (FUSE.hOp, 3), (FUSE.hArg, 9)]), by decide +kernel⟩⟩

theorem test_meets_PowerAndResets :
    (∃ (s : State), True)
    ∧ (∃ (rails : Nat) (s : State), rails % 0x200 ≠ 0x1FF ∧ bit rails 0 = true)
    ∧ (∃ (rails : Nat) (s : State), bit rails 0 = false)
    ∧ (∃ (s : State), True)
    ∧ (∃ (strap : Fin 4) (s : State), s.inReset = true ∧ s.flag PWR.hPwrOk = true)
    ∧ (∃ (m : Master) (key : Nat) (s : State), s.inReset = false ∧ Accepts m .pwr 0x050 s ∧ (m = .pcie ∨ m = .ward 0) ∧ key % 2 ^ 16 = 0xA55A)
    ∧ (∃ (m : Master) (key : Nat) (s : State), s.inReset = false ∧ Accepts m .pwr 0x050 s ∧ key % 2 ^ 16 ≠ 0xA55A)
    ∧ (∃ (m : Master) (key : Nat) (s : State), s.inReset = false ∧ Accepts m .pwr 0x050 s ∧ m ≠ .pcie ∧ m ≠ .ward 0) :=
  ⟨⟨State.reset, trivial⟩,
    ⟨0x1FD, State.reset, by decide +kernel⟩,
    ⟨0x1FE, State.reset, by decide +kernel⟩,
    ⟨State.reset, trivial⟩,
    ⟨2, { State.reset with inReset := true }, by decide +kernel⟩,
    ⟨.pcie, 0xA55A, State.reset, by decide +kernel⟩,
    ⟨.pcie, 0xA55B, State.reset, by decide +kernel⟩,
    ⟨.i2c, 0xA55A, State.reset, by decide +kernel⟩⟩

theorem test_meets_ParkingAndStandby :
    (∃ (m : Master) (v : Nat) (s : State), s.inReset = false ∧ Accepts m .pwr 0x040 s)
    ∧ (∃ (level : Bool) (s : State), s.inReset = false)
    ∧ (∃ (c : Fin 16) (s : State), s.inReset = false ∧ parkState c s = pkEnter ∧ (txState c s = txDark ∨ txState c s = txShuttered))
    ∧ (∃ (c : Fin 16) (u : State) (v : State) (s : State), s.inReset = false ∧ parkState c s = pkLeave ∧ u = ((s.put (PWR.hPark c) pkRun).clrBit PWR.PWR_STAT_PARKED c.val).raise .pwr 0 ∧ v = leaveOff c (if txMfPresent c u = true then txMfReturn c (txMfn c u) u else u) ∧ (u.get (PWR.hWas c) = txRampUp ∨ u.get (PWR.hWas c) = txLit ∨ u.get (PWR.hWas c) = txBurst))
    ∧ (∃ (c : Fin 16) (u : State) (v : State) (s : State), s.inReset = false ∧ parkState c s = pkLeave ∧ u = ((s.put (PWR.hPark c) pkRun).clrBit PWR.PWR_STAT_PARKED c.val).raise .pwr 0 ∧ v = leaveOff c (if txMfPresent c u = true then txMfReturn c (txMfn c u) u else u) ∧ u.get (PWR.hWas c) ≠ txRampUp ∧ u.get (PWR.hWas c) ≠ txLit ∧ u.get (PWR.hWas c) ≠ txBurst)
    ∧ (∃ (q : Fin 4) (s : State), s.inReset = false ∧ qState q s = 1 ∧ (∀ k : Fin 4, parkState (carOf q k) s = pkParked) ∧ htrTotal q s = 0)
    ∧ (∃ (q : Fin 4) (s : State), s.inReset = false ∧ qState q s = 3)
    ∧ (∃ (q : Fin 4) (k : Nat) (s : State), s.inReset = false ∧ qState q s = 0 ∧ s.get (PWR.hStagK q) < 4 ∧ 4 ≤ s.get (PWR.hStag q) ∧ nextLeaving q (s.get (PWR.hStagK q)) s = k ∧ k < 4)
    ∧ (∃ (s : State), s.inReset = false ∧ s.get PWR.PWR_STAT_DEV_STATE = 1 ∧ (∀ q : Fin 4, qState q s = 2) ∧ mbBusy s = false ∧ (∀ c : Fin 16, s.flag (CAL.NVM_STAT_STORE_BUSY c) = false) ∧ s.flag PWR.hKeepKeys = true)
    ∧ (∃ (s : State), s.inReset = false ∧ s.get PWR.PWR_STAT_DEV_STATE = 1 ∧ (∀ q : Fin 4, qState q s = 2) ∧ mbBusy s = false ∧ (∀ c : Fin 16, s.flag (CAL.NVM_STAT_STORE_BUSY c) = false) ∧ s.flag PWR.hKeepKeys = false)
    ∧ (∃ (ms : Nat) (s : State), s.inReset = false ∧ s.get PWR.PWR_STAT_DEV_STATE = 3 ∧ s.flag PWR.hSynthLock = true ∧ (∀ q : Fin 4, qState q s = 0 ∨ quadReq q s = true)) :=
  ⟨⟨.pcie, 8, State.reset, by decide +kernel⟩,
    ⟨true, State.reset, by decide +kernel⟩,
    ⟨3, (st [(PWR.hPark 3, 1), (PWR.PWR_CTRL_PARK, 8)]), by decide +kernel⟩,
    ⟨3, ((st [(PWR.hPark 3, 0), (PWR.hWas 3, 2)]).raise .pwr 0), (leaveOff 3 ((st [(PWR.hPark 3, 0), (PWR.hWas 3, 2)]).raise .pwr 0)), (st [(PWR.hPark 3, 3), (PWR.hWas 3, 2)]), by decide +kernel⟩,
    ⟨3, ((st [(PWR.hPark 3, 0)]).raise .pwr 0), (leaveOff 3 ((st [(PWR.hPark 3, 0)]).raise .pwr 0)), (st [(PWR.hPark 3, 3)]), by decide +kernel⟩,
    ⟨1, (st [(PWR.PWR_STAT_Q_STATE, 4), (PWR.PWR_CTRL_QSLEEP, 2), (PWR.hPark 4, 2), (PWR.hPark 5, 2), (PWR.hPark 6, 2), (PWR.hPark 7, 2)]), by decide +kernel⟩,
    ⟨1, (st [(PWR.PWR_STAT_Q_STATE, 12)]), by decide +kernel⟩,
    ⟨1, 1, (st [(PWR.hPark 5, 2), (PWR.hStagK 1, 0), (PWR.hStag 1, 4)]), by decide +kernel⟩,
    ⟨(st [(PWR.PWR_STAT_DEV_STATE, 1), (PWR.PWR_STAT_Q_STATE, 0xAA), (PWR.hKeepKeys, 1)]), by decide +kernel⟩,
    ⟨(st [(PWR.PWR_STAT_DEV_STATE, 1), (PWR.PWR_STAT_Q_STATE, 0xAA)]), by decide +kernel⟩,
    ⟨77, (st [(PWR.PWR_STAT_DEV_STATE, 3), (PWR.hSynthLock, 1)]), by decide +kernel⟩⟩

theorem test_meets_MailboxExchange :
    (∃ (s : State), s.inReset = false ∧ s.flag MBX.MB_STAT_READY = true ∧ mbBusy s = false ∧ s.flag MBX.MB_STAT_RESP_VALID = false)
    ∧ (∃ (s : State), s.inReset = false ∧ (s.flag MBX.MB_STAT_READY = false ∨ s.flag MBX.MB_STAT_BUSY = true ∨ s.flag MBX.MB_STAT_RESP_VALID = true))
    ∧ (∃ (s : State), s.inReset = false ∧ s.flag MBX.MB_STAT_READY = true ∧ s.flag MBX.MB_STAT_BUSY = false ∧ s.flag MBX.MB_STAT_RESP_VALID = false ∧ s.flag MBOX.hDiscard = true)
    ∧ (∃ (s : State), s.inReset = false ∧ s.flag PWR.hWard = true ∧ s.flag MBOX.hDone = true ∧ s.flag MBOX.hDiscard = true ∧ s.flag MBOX.hNext = true)
    ∧ (∃ (s : State), s.inReset = false)
    ∧ (∃ (s : State), s.inReset = false ∧ mbBusy s = true ∧ s.flag PWR.hWard = true ∧ s.flag MBOX.hDone = true ∧ s.flag MBOX.hDiscard = false)
    ∧ (∃ (s : State), s.inReset = false ∧ mbBusy s = true ∧ s.flag PWR.hWard = true ∧ s.flag MBOX.hDone = false ∧ mbServes (s.get MBOX.hOp) s = false ∧ s.flag MBOX.hDiscard = false)
    ∧ (∃ (s : State), s.inReset = false ∧ mbBusy s = true ∧ s.flag MBOX.hDone = false ∧ s.get MBOX.hOp = 1 ∧ s.flag PWR.hWard = true ∧ bootStage s = bsRunning ∧ ofLe (mbCmd 8 4 s) = 0)
    ∧ (∃ (s : State), s.inReset = false ∧ mbBusy s = true ∧ s.flag MBOX.hDone = false ∧ s.get MBOX.hOp = 2 ∧ s.flag PWR.hWard = true ∧ bootStage s = bsRunning ∧ ofLe (mbCmd 8 4 s) = 4)
    ∧ (∃ (sigs : List Nat) (s : State), s.inReset = false ∧ mbBusy s = true ∧ s.flag MBOX.hDone = false ∧ s.get MBOX.hOp = 16 ∧ s.flag PWR.hWard = true ∧ bootStage s = bsRunning ∧ ofLe (mbCmd 8 4 s) = 12 ∧ (mbPayload 12 s).getD 0 0 ≤ 17 ∧ (mbPayload 12 s).getD 1 0 ≤ 1 ∧ slice (mbPayload 12 s) 2 2 = [0, 0] ∧ ofLe (slice (mbPayload 12 s) 4 4) + ofLe (slice (mbPayload 12 s) 8 4) ≤ 33554432 ∧ tumbState (Fin.ofNat 18 ((mbPayload 12 s).getD 0 0)) (Fin.ofNat 2 ((mbPayload 12 s).getD 1 0)) s ≠ tsRunning ∧ tumbState (Fin.ofNat 18 ((mbPayload 12 s).getD 0 0)) (Fin.ofNat 2 ((mbPayload 12 s).getD 1 0)) s ≠ tsWaiting)
    ∧ (∃ (sigs : List (Nat × Nat)) (ok : Bool) (s : State), s.inReset = false ∧ mbBusy s = true ∧ s.flag MBOX.hDone = false ∧ s.get MBOX.hOp = 17 ∧ s.flag PWR.hWard = true ∧ bootStage s = bsRunning ∧ ofLe (mbCmd 8 4 s) = 8 ∧ ofLe (slice (mbPayload 8 s) 0 4) + ofLe (slice (mbPayload 8 s) 4 4) ≤ 33554432)
    ∧ (∃ (s : State), s.inReset = false ∧ mbBusy s = true ∧ s.flag MBOX.hDone = false ∧ s.get MBOX.hOp = 32 ∧ s.flag PWR.hWard = true ∧ bootStage s = bsRunning ∧ ofLe (mbCmd 8 4 s) = 32)
    ∧ (∃ (s : State), s.inReset = false ∧ mbBusy s = true ∧ s.flag MBOX.hDone = false ∧ s.get MBOX.hOp = 33 ∧ s.flag PWR.hWard = true ∧ bootStage s = bsRunning ∧ ofLe (mbCmd 8 4 s) = 0)
    ∧ (∃ (sig : Bool) (s : State), s.inReset = false ∧ mbBusy s = true ∧ s.flag MBOX.hDone = false ∧ s.get MBOX.hOp = 48 ∧ s.flag PWR.hWard = true ∧ bootStage s = bsRunning ∧ ofLe (mbCmd 8 4 s) = 7888 ∧ slice (mbPayload 32 s) 0 6 ≠ [0x54, 0x57, 0x44, 0x54, 1, 0])
    ∧ (∃ (s : State), s.inReset = false ∧ mbBusy s = true ∧ s.flag MBOX.hDone = false ∧ s.get MBOX.hOp = 48 ∧ s.flag PWR.hWard = true ∧ bootStage s = bsRunning ∧ ofLe (mbCmd 8 4 s) = 7888 ∧ slice (mbPayload 32 s) 0 6 = [0x54, 0x57, 0x44, 0x54, 1, 0] ∧ slice (mbPayload 32 s) 24 8 = List.replicate 8 0 ∧ s.flag FUSE.FUSE_STAT_DEBUG_DISABLE = false ∧ slice (mbPayload 32 s) 8 8 = serialBytes s ∧ slice (mbPayload 32 s) 16 8 = leBytes 4 (s.get BOOT.DBG_CHAL_LO) ++ leBytes 4 (s.get BOOT.DBG_CHAL_HI) ∧ tokenSlotBad ((mbPayload 32 s).getD 7 0) s = false ∧ (bit ((mbPayload 32 s).getD 6 0 % 8) 2 = false ∨ (mbPayload 32 s).getD 7 0 = 0))
    ∧ (∃ (code : Nat) (data : List Nat) (s : State), s.inReset = false)
    ∧ (∃ (n : Fin 2) (cause : Nat) (addr : Nat) (s : State), s.inReset = false ∧ s.flag PWR.hWard = true ∧ (n.val ≠ 0 ∨ mbBusy s = false)) :=
  ⟨⟨(st [(MBX.MB_STAT_READY, 1)]), by decide +kernel⟩,
    ⟨State.reset, by decide +kernel⟩,
    ⟨(st [(MBX.MB_STAT_READY, 1), (MBOX.hDiscard, 1)]), by decide +kernel⟩,
    ⟨(st [(MBX.MB_STAT_BUSY, 1), (MBOX.hDone, 1), (MBOX.hDiscard, 1), (MBOX.hNext, 1), (MBOX.hNextOp, 2)]), by decide +kernel⟩,
    ⟨(st [(MBX.MB_STAT_RESP_VALID, 1)]), by decide +kernel⟩,
    ⟨(st [(MBX.MB_STAT_BUSY, 1), (MBOX.hDone, 1)]), by decide +kernel⟩,
    ⟨(st [(MBX.MB_STAT_BUSY, 1), (MBOX.hOp, 0x99)]), by decide +kernel⟩,
    ⟨(st [(MBX.MB_STAT_BUSY, 1), (MBOX.hOp, 1), (BOOT.BOOT_STAT_STAGE, 3)]), by decide +kernel⟩,
    ⟨{ (st [(MBX.MB_STAT_BUSY, 1), (MBOX.hOp, 2), (BOOT.BOOT_STAT_STAGE, 3)]) with mem := ((State.reset.putList (bar2Key 0x20008) (leBytes 4 4))).mem }, by decide +kernel⟩,
    ⟨[], { (st [(MBX.MB_STAT_BUSY, 1), (MBOX.hOp, 0x10), (BOOT.BOOT_STAT_STAGE, 3)]) with mem := ((State.reset.putList (bar2Key 0x20008) (leBytes 4 12)).putList (bar2Key 0x20010) [3, 1, 0, 0, 0, 0, 0, 0, 64, 0, 0, 0]).mem }, by decide +kernel⟩,
    ⟨[], true, { (st [(MBX.MB_STAT_BUSY, 1), (MBOX.hOp, 0x11), (BOOT.BOOT_STAT_STAGE, 3)]) with mem := ((State.reset.putList (bar2Key 0x20008) (leBytes 4 8))).mem }, by decide +kernel⟩,
    ⟨{ (st [(MBX.MB_STAT_BUSY, 1), (MBOX.hOp, 0x20), (BOOT.BOOT_STAT_STAGE, 3)]) with mem := ((State.reset.putList (bar2Key 0x20008) (leBytes 4 32))).mem }, by decide +kernel⟩,
    ⟨(st [(MBX.MB_STAT_BUSY, 1), (MBOX.hOp, 0x21), (BOOT.BOOT_STAT_STAGE, 3)]), by decide +kernel⟩,
    ⟨true, { (st [(MBX.MB_STAT_BUSY, 1), (MBOX.hOp, 0x30), (BOOT.BOOT_STAT_STAGE, 3)]) with mem := ((State.reset.putList (bar2Key 0x20008) (leBytes 4 7888))).mem }, by decide +kernel⟩,
    ⟨{ (st [(MBX.MB_STAT_BUSY, 1), (MBOX.hOp, 0x30), (BOOT.BOOT_STAT_STAGE, 3)]) with mem := ((State.reset.putList (bar2Key 0x20008) (leBytes 4 7888)).putList (bar2Key 0x20010) ([0x54, 0x57, 0x44, 0x54, 1, 0, 1, 0] ++ serialBytes State.reset ++ leBytes 4 (State.reset.get BOOT.DBG_CHAL_LO) ++ leBytes 4 (State.reset.get BOOT.DBG_CHAL_HI))).mem }, by decide +kernel⟩,
    ⟨9, [1, 2], State.reset, by decide +kernel⟩,
    ⟨1, 2, 3, State.reset, by decide +kernel⟩⟩

theorem test_meets_DmaChannels :
    (∃ (n : Fin 16) (v : Nat) (s : State), s.inReset = false ∧ dmaState n s ≠ dsDisabled)
    ∧ (∃ (n : Fin 16) (v : Nat) (u : State) (s : State), s.inReset = false ∧ dmaState n s ≠ dsDisabled ∧ u = s.put (DMA.DOORBELLS_CQ_HEAD n) (bits v 0 12))
    ∧ (∃ (n : Fin 16) (desc : List Nat) (s : State), s.inReset = false ∧ dmaState n s = dsRun ∧ slotsLeft n s = true ∧ s.flag (DMA.DMA_STAT_BUSY n) = false ∧ s.flag (DMA.DMA_STAT_OWN_WAIT n) = false ∧ bit (ofLe ((List.range 4).map fun j => desc.getD (0 + j) 0 % 256)) 0 = false)
    ∧ (∃ (n : Fin 16) (desc : List Nat) (bad : Bool) (s : State), s.inReset = false ∧ dmaState n s = dsRun ∧ slotsLeft n s = true ∧ s.flag (DMA.DMA_STAT_BUSY n) = false ∧ s.flag (DMA.DMA_STAT_OWN_WAIT n) = false ∧ bit (ofLe ((List.range 4).map fun j => desc.getD (0 + j) 0 % 256)) 0 = true ∧ bit (ofLe ((List.range 4).map fun j => desc.getD (0 + j) 0 % 256)) 5 = false ∧ descInvalid (s.get (DMA.hKind n)) (ofLe ((List.range 4).map fun j => desc.getD (0 + j) 0 % 256)) (ofLe ((List.range 4).map fun j => desc.getD (4 + j) 0 % 256)) (ofLe ((List.range 8).map fun j => desc.getD (8 + j) 0 % 256)) (ofLe ((List.range 8).map fun j => desc.getD (16 + j) 0 % 256)) (ofLe ((List.range 4).map fun j => desc.getD (28 + j) 0 % 256)) = bad)
    ∧ (∃ (n : Fin 16) (data : List Nat) (s : State), s.inReset = false ∧ dmaState n s = dsRun ∧ s.flag (DMA.DMA_STAT_BUSY n) = true ∧ s.get (DMA.hKind n) = 0 ∧ s.flag (DMA.hEnded n) = false ∧ s.flag (DMA.hAborting n) = false ∧ s.flag (DMA.hPause n) = false ∧ s.get (DMA.hRead n) < s.get (DMA.hLen n) ∧ devAnswers n s = true ∧ bit (s.get (DMA.hCtrl n)) 1 = false ∧ 0 < burstSize n (s.get (DMA.hLen n)) s)
    ∧ (∃ (n : Fin 16) (data : List Nat) (g : Staged) (u : State) (s : State), s.inReset = false ∧ dmaState n s = dsRun ∧ s.flag (DMA.DMA_STAT_BUSY n) = true ∧ s.staged.find? (fun g => g.n == n) = some g ∧ devAnswers n s = true ∧ bit (s.get (DMA.hCtrl n)) 1 = true ∧ bit (s.get (DMA.hCtrl n)) 4 = false ∧ u = (({ s with staged := s.staged.erase g } : State).send (.hostWrite n (s.get (DMA.hHost n) + s.get (DMA.hMoved n)) g.bytes (bit (s.get (DMA.hCtrl n)) 2))).put (DMA.hMoved n) (s.get (DMA.hMoved n) + g.bytes.length))
    ∧ (∃ (n : Fin 16) (s : State), s.inReset = false ∧ dmaEnded n s = true ∧ cqFull n s = false)
    ∧ (∃ (n : Fin 16) (s : State), s.inReset = false ∧ dmaEnded n s = true ∧ cqFull n s = true)
    ∧ (∃ (n : Fin 16) (s : State), s.inReset = false ∧ dmaState n s = dsRun ∧ s.flag (DMA.DMA_STAT_BUSY n) = true)
    ∧ (∃ (n : Fin 16) (s : State), s.inReset = false ∧ dmaState n s = dsRun ∧ dmaEnded n s = true ∧ cqFull n s = false)
    ∧ (∃ (m : Master) (n : Fin 16) (s : State), s.inReset = false ∧ Accepts m (.dma n) 0x054 s ∧ dmaState n s = dsRun ∧ s.flag (DMA.DMA_STAT_BUSY n) = true)
    ∧ (∃ (m : Master) (n : Fin 16) (s : State), s.inReset = false ∧ Accepts m (.dma n) 0x054 s ∧ dmaState n s = dsRun ∧ s.flag (DMA.DMA_STAT_BUSY n) = false)
    ∧ (∃ (m : Master) (n : Fin 16) (s : State), s.inReset = false ∧ Accepts m (.dma n) 0x054 s ∧ dmaState n s = dsHalted) :=
  ⟨⟨3, 5, (st [(DMA.DMA_STAT_STATE 3, 1)]), by decide +kernel⟩,
    ⟨3, 5, st [(DMA.DMA_STAT_STATE 3, 1), (DMA.DOORBELLS_CQ_HEAD 3, 5)], (st [(DMA.DMA_STAT_STATE 3, 1)]), by decide +kernel⟩,
    ⟨3, [], (st [(DMA.DMA_STAT_STATE 3, 1), (DMA.hRing 3, 4), (DMA.DOORBELLS_SQ_TAIL 3, 1)]), by decide +kernel⟩,
    ⟨3, [1, 0, 0, 0, 64, 0, 0, 0, 0, 0, 0, 0, 0, 0, 0, 0, 0, 0, 0, 0, 0, 0, 0, 0x40, 7], false, (st [(DMA.DMA_STAT_STATE 3, 1), (DMA.hRing 3, 4), (DMA.DOORBELLS_SQ_TAIL 3, 1)]), by decide +kernel⟩,
    ⟨3, [1, 2], (st [(DMA.DMA_STAT_STATE 3, 1), (DMA.DMA_STAT_BUSY 3, 1), (DMA.hLen 3, 64)]), by decide +kernel⟩,
    ⟨3, [], ⟨3, [1, 2]⟩, ((st [(DMA.DMA_STAT_STATE 3, 1), (DMA.DMA_STAT_BUSY 3, 1), (DMA.hCtrl 3, 2)]).send (.hostWrite 3 0 [1, 2] false)).put (DMA.hMoved 3) 2, { (st [(DMA.DMA_STAT_STATE 3, 1), (DMA.DMA_STAT_BUSY 3, 1), (DMA.hCtrl 3, 2)]) with staged := [⟨3, [1, 2]⟩] }, by decide +kernel⟩,
    ⟨3, (st [(DMA.DMA_STAT_STATE 3, 1), (DMA.DMA_STAT_BUSY 3, 1), (DMA.hCq 3, 4), (DMA.hCtrl 3, 9)]), by decide +kernel⟩,
    ⟨3, (st [(DMA.DMA_STAT_STATE 3, 1), (DMA.DMA_STAT_BUSY 3, 1), (DMA.hCq 3, 4), (DMA.DOORBELLS_CQ_HEAD 3, 1)]), by decide +kernel⟩,
    ⟨3, (st [(DMA.DMA_STAT_STATE 3, 1), (DMA.DMA_STAT_BUSY 3, 1)]), by decide +kernel⟩,
    ⟨3, (st [(DMA.DMA_STAT_STATE 3, 1), (DMA.DMA_STAT_BUSY 3, 1), (DMA.hCq 3, 4)]), by decide +kernel⟩,
    ⟨.pcie, 3, (st [(DMA.DMA_STAT_STATE 3, 1), (DMA.DMA_STAT_BUSY 3, 1)]), by decide +kernel⟩,
    ⟨.pcie, 3, (st [(DMA.DMA_STAT_STATE 3, 1)]), by decide +kernel⟩,
    ⟨.pcie, 3, (st [(DMA.DMA_STAT_STATE 3, 2), (DMA.DMA_STAT_CAUSE 3, 4)]), by decide +kernel⟩⟩

theorem test_meets_HostLinks :
    (∃ (kind : Fin 3) (s : State), s.inReset = false)
    ∧ (∃ (speed : Fin 5) (width : Fin 4) (s : State), s.inReset = false)
    ∧ (∃ (s : State), s.inReset = false)
    ∧ (∃ (s : State), s.inReset = false)
    ∧ (∃ (s : State), s.inReset = false)
    ∧ (∃ (s : State), s.inReset = false)
    ∧ (∃ (addr : Nat) (u : State) (s : State), s.inReset = false ∧ s.flag PCIE.hIaBusy = false ∧ inWindows addr = false ∧ u = ((s.put PCIE.hIaAddr addr).putB PCIE.hIaBusy true).putB PCIE.hIaErr false)
    ∧ (∃ (addr : Nat) (data : Nat) (u : State) (s : State), s.inReset = false ∧ s.flag PCIE.hIaBusy = false ∧ inWindows addr = false ∧ u = ((s.put PCIE.hIaAddr addr).putB PCIE.hIaBusy true).putB PCIE.hIaErr false)
    ∧ (∃ (s : State), s.inReset = false ∧ s.flag PCIE.hIaBusy = true ∧ stalledBy .i2c s = false) :=
  ⟨⟨2, (st [(PCIE.LINK_STAT_DL_UP, 1)]), by decide +kernel⟩,
    ⟨4, 2, State.reset, by decide +kernel⟩,
    ⟨State.reset, by decide +kernel⟩,
    ⟨State.reset, by decide +kernel⟩,
    ⟨(st [(HDR.HASP_HELD .fuse, 1), (HDR.HASP_OWNER .fuse, 2)]), by decide +kernel⟩,
    ⟨(st [(HDR.HASP_HELD .fuse, 1), (HDR.HASP_OWNER .fuse, 0x3F)]), by decide +kernel⟩,
    ⟨0x30, st [(PCIE.hIaAddr, 0x30), (PCIE.hIaBusy, 1)], State.reset, by decide +kernel⟩,
    ⟨0x30, 9, st [(PCIE.hIaAddr, 0x30), (PCIE.hIaBusy, 1)], State.reset, by decide +kernel⟩,
    ⟨(st [(PCIE.hIaBusy, 1), (PCIE.hIaFail, 1)]), by decide +kernel⟩⟩

theorem test_meets_HeaderAndBusCommands :
    (∃ (m : Master) (p : Page) (v : Nat) (s : State), s.inReset = false ∧ Accepts m p 0x018 s)
    ∧ (∃ (m : Master) (p : Page) (on : Bool) (s : State), s.inReset = false ∧ Accepts m p 0x008 s)
    ∧ (∃ (m : Master) (p : Page) (on : Bool) (s : State), s.inReset = false ∧ Accepts m p 0x008 s)
    ∧ (∃ (m : Master) (p : Page) (s : State), s.inReset = false ∧ Accepts m p 0x008 s)
    ∧ (∃ (p : Page) (s : State), s.inReset = false ∧ s.flag (HDR.RESET_BUSY p) = true)
    ∧ (∃ (m : Master) (v : Fin 64) (s : State), s.inReset = false ∧ Accepts m .devInt (0x060 + 4 * (Fin.ofNat 2 (v.val / 32)).val) s)
    ∧ (∃ (v : Fin 64) (s : State), s.inReset = false)
    ∧ (∃ (s : State), s.inReset = false)
    ∧ (∃ (reqs : List BusReq) (s : State), s.inReset = false)
    ∧ (∃ (m : Master) (p : Page) (v : Nat) (s : State), s.inReset = false ∧ mayIssue m s = true ∧ stalledBy m s = false ∧ Page.ofAddr (p.base + 0x030) = some p ∧ s.flag (HDR.COPYING p) = false ∧ stopped p s = false ∧ (s.held.any fun w => w.page == p) = false ∧ inWindows (p.base + 0x030) = false ∧ (p.base + 0x030) % 4 = 0 ∧ p ≠ .mbx)
    ∧ (∃ (m : Master) (addr : Nat) (v : Nat) (u : State) (s : State), s.inReset = false ∧ mayIssue m s = true ∧ stalledBy m s = false ∧ readAt m addr 4 s = some (v, u))
    ∧ (∃ (m : Master) (addr : Nat) (s : State), s.inReset = false ∧ mayIssue m s = true ∧ stalledBy m s = false ∧ readAt m addr 4 s = none)
    ∧ (∃ (m : Master) (s : State), s.inReset = false ∧ mayIssue m s = true ∧ stalledBy m s = false)
    ∧ (∃ (m : Master) (e : TxStamp) (rest : List TxStamp) (s : State), s.inReset = false ∧ mayIssue m s = true ∧ stalledBy m s = false ∧ s.txts = e :: rest)
    ∧ (∃ (m : Master) (addr : Nat) (size : Nat) (data : Nat) (s : State), s.inReset = false ∧ mayIssue m s = true ∧ stalledBy m s = false ∧ inWindows addr = true)
    ∧ (∃ (m : Master) (addr : Nat) (size : Nat) (s : State), s.inReset = false ∧ mayIssue m s = true ∧ stalledBy m s = false ∧ inWindows addr = true ∧ (hitAt addr).any (fun h => aligned addr size && decide (4 ≤ size) && readStalls h s) = false)
    ∧ (∃ (p : Page) (s : State), s.inReset = false ∧ stopped p s = false) :=
  ⟨⟨.pcie, .fuse, 1, State.reset, by decide +kernel⟩,
    ⟨.pcie, .tsi 2, true, State.reset, by decide +kernel⟩,
    ⟨.pcie, .tsi 2, true, State.reset, by decide +kernel⟩,
    ⟨.pcie, .tsi 2, State.reset, by decide +kernel⟩,
    ⟨.tsi 2, (st [(HDR.RESET_BUSY (.tsi 2), 1)]), by decide +kernel⟩,
    ⟨.pcie, 3, { (st [(HDR.INT_RAW .pwr, 1), (HDR.INT_EN .pwr, 1), (HDR.ENABLE .pwr, 1), (INT.VEC_MAP_EN 5, 1), (INT.VEC_MAP_VECTOR 5, 3)]) with vecIn := 8 }, by decide +kernel⟩,
    ⟨5, State.reset, by decide +kernel⟩,
    ⟨(st [(MSIX.FUNC_MASKED, 1)]), by decide +kernel⟩,
    ⟨[⟨.pcie, .bar0, Page.base .fuse + 0x30, 4, false, 7⟩], State.reset, by decide +kernel⟩,
    ⟨.ward 1, .tsi 2, 99, State.reset, by decide +kernel⟩,
    ⟨.pcie, Page.base .fuse + 0x30, 0, State.reset, State.reset, by decide +kernel⟩,
    ⟨.pcie, Page.base .timing0 + 0x0C0, (st [(HDR.COPYING .timing0, 1)]), by decide +kernel⟩,
    ⟨.pcie, State.reset, by decide +kernel⟩,
    ⟨.pcie, ⟨3, 4, ⟨5, 6, 7⟩⟩, [], { (st [(PTP.TXTS0_OVF, 1)]) with txts := [⟨3, 4, ⟨5, 6, 7⟩⟩] }, by decide +kernel⟩,
    ⟨.pcie, 0x3800000, 8, 5, State.reset, by decide +kernel⟩,
    ⟨.pcie, 0x3800000, 8, State.reset, by decide +kernel⟩,
    ⟨.tsi 1, { State.reset with held := [⟨.tsi 1, ⟨.pcie, .bar0, Page.base (.tsi 1) + 0x30, 4, false, 7⟩, true, true⟩] }, by decide +kernel⟩⟩

theorem test_meets_HaspCommands :
    (∃ (m : Master) (p : Page) (lease : Fin 65536) (s : State), s.inReset = false ∧ mayIssue m s = true ∧ stalledBy m s = false ∧ s.flag (HaspId.held (.page p)) = false)
    ∧ (∃ (m : Master) (p : Page) (lease : Fin 65536) (s : State), s.inReset = false ∧ mayIssue m s = true ∧ stalledBy m s = false ∧ s.holds m (.page p) = true)
    ∧ (∃ (m : Master) (n : Fin 32) (lease : Fin 65536) (s : State), s.inReset = false ∧ Accepts m .hubctl (0x100 + 4 * n.val) s ∧ s.flag (HaspId.held (.res n)) = false)
    ∧ (∃ (m : Master) (p : Page) (s : State), s.inReset = false ∧ mayIssue m s = true ∧ stalledBy m s = false ∧ s.holds m (.page p) = true)
    ∧ (∃ (p : Page) (s : State), s.inReset = false ∧ mayIssue .debug s = true ∧ stalledBy .debug s = false ∧ s.heldByOther .debug (.page p) = true)
    ∧ (∃ (m : Master) (p : Page) (s : State), s.inReset = false ∧ mayIssue m s = true ∧ stalledBy m s = false ∧ m ≠ .debug ∧ s.heldByOther m (.page p) = true)
    ∧ (∃ (h : HaspId) (s : State), s.inReset = false ∧ s.flag PWR.hSynthLock = true ∧ s.flag (HaspId.held h) = true ∧ s.get (HaspId.lease h) = 1)
    ∧ (∃ (m : Master) (p : Page) (v : Nat) (s : State), s.inReset = false ∧ mayIssue m s = true ∧ stalledBy m s = false ∧ Page.ofAddr (p.base + 0x008) = some p ∧ inWindows (p.base + 0x008) = false ∧ s.flag PWR.hSynthLock = true ∧ s.holds m (.page p) = true ∧ s.get (HDR.HASP_LEASE p) = 1)
    ∧ (∃ (m : Master) (p : Page) (on : Bool) (s : State), s.inReset = false ∧ mayIssue m s = true ∧ stalledBy m s = false ∧ s.heldByOther m (.page p) = true) :=
  ⟨⟨.pcie, .fuse, 9, State.reset, by decide +kernel⟩,
    ⟨.pcie, .fuse, 9, (st [(HDR.HASP_HELD .fuse, 1), (HDR.HASP_OWNER .fuse, 1)]), by decide +kernel⟩,
    ⟨.pcie, 3, 9, State.reset, by decide +kernel⟩,
    ⟨.pcie, .fuse, (st [(HDR.HASP_HELD .fuse, 1), (HDR.HASP_OWNER .fuse, 1)]), by decide +kernel⟩,
    ⟨.fuse, (st [(HDR.HASP_HELD .fuse, 1), (HDR.HASP_OWNER .fuse, 1), (BOOT.DBG_STAT_SCOPE, 1)]), by decide +kernel⟩,
    ⟨.ward 0, .fuse, (st [(HDR.HASP_HELD .fuse, 1), (HDR.HASP_OWNER .fuse, 1)]), by decide +kernel⟩,
    ⟨.page .fuse, (st [(PWR.hSynthLock, 1), (HDR.HASP_HELD .fuse, 1), (HDR.HASP_OWNER .fuse, 1), (HDR.HASP_LEASE .fuse, 1)]), by decide +kernel⟩,
    ⟨.pcie, .fuse, 7, (st [(PWR.hSynthLock, 1), (HDR.HASP_HELD .fuse, 1), (HDR.HASP_OWNER .fuse, 1), (HDR.HASP_LEASE .fuse, 1)]), by decide +kernel⟩,
    ⟨.ward 0, .tsi 1, true, (st [(HDR.HASP_HELD (.tsi 1), 1), (HDR.HASP_OWNER (.tsi 1), 1)]), by decide +kernel⟩⟩

theorem test_meets_HingeCommands :
    (∃ (m : Master) (p : Page) (mode : Fin 8) (mfSrc : Fin 4) (mf : Nat) (s : State), s.inReset = false ∧ Accepts m p 0x024 s ∧ s.flag (HDR.PENDING p) = false)
    ∧ (∃ (m : Master) (p : Page) (mode : Fin 8) (mfSrc : Fin 4) (mf : Nat) (s : State), s.inReset = false ∧ Accepts m p 0x024 s ∧ s.flag (HDR.PENDING p) = true)
    ∧ (∃ (m : Master) (p : Page) (s : State), s.inReset = false ∧ Accepts m p 0x024 s)
    ∧ (∃ (p : Page) (s : State), s.inReset = false ∧ hingeDue p s = true ∧ hingeRefusal p s = none)
    ∧ (∃ (p : Page) (cause : Nat) (s : State), s.inReset = false ∧ hingeDue p s = true ∧ hingeRefusal p s = some cause)
    ∧ (∃ (p : Page) (s : State), s.inReset = false ∧ s.flag (HDR.COPYING p) = true) :=
  ⟨⟨.pcie, .tsi 1, 0, 2, 5, State.reset, by decide +kernel⟩,
    ⟨.pcie, .tsi 1, 0, 2, 5, (st [(HDR.PENDING (.tsi 1), 1)]), by decide +kernel⟩,
    ⟨.pcie, .tsi 1, (st [(HDR.PENDING (.tsi 1), 1)]), by decide +kernel⟩,
    ⟨.xqsw, (st [(HDR.PENDING .xqsw, 1)]), by decide +kernel⟩,
    ⟨.xqsw, 3, (stw (st [(HDR.PENDING .xqsw, 1)]) [(xqswEntry false 5, 2 ^ 63)]), by decide +kernel⟩,
    ⟨.tsi 1, (st [(HDR.COPYING (.tsi 1), 1)]), by decide +kernel⟩⟩

theorem test_meets_StepRunsFront :
    ∃ (c : Instr) (rest : List Instr) (s : State), s.pending = c :: rest :=
  ⟨.ack, [.submit], { State.reset with pending := [.ack, .submit] }, rfl⟩

theorem test_meets_EmptyQueueLetsTimePass :
    (∃ s : State, s.pending = [] ∧ s.inReset = false) ∧ ∃ s : State, s.pending = [] ∧ s.inReset = true :=
  ⟨⟨State.reset, rfl, rfl⟩, ⟨{ State.reset with inReset := true }, rfl, rfl⟩⟩

theorem test_meets_ResetHoldsTheEngine :
    ∃ (c : Instr) (s : State), s.inReset = true ∧ c ≠ .pwrOkRise ∧ (∀ rails, c ≠ .pwrOkFall rails) ∧ c ≠ .resetNAssert ∧ ∀ strap, c ≠ .resetRelease strap :=
  ⟨.ack, { State.reset with inReset := true }, rfl, by simp, by simp, by simp, by simp⟩

theorem test_meets_ChainSettledKept :
    ∃ s t : State, ChainSettled s ∧ step s = .next t :=
  ⟨State.reset, commit [] (forFin 16 txFrame State.reset), by unfold ChainSettled; decide +kernel, rfl⟩

theorem test_meets_HaspsGuardTheirPage :
    (∃ (m : Master) (p : Page) (s : State), s.inReset = false ∧ mayIssue m s = true ∧ stalledBy m s = false ∧ s.heldByOther m (.page p) = true
      ∧ stopped p s = false ∧ (s.held.any fun w => w.page == p) = false
      ∧ ∀ off ∈ [0x008, 0x024, 0x034, 0x040, 0xFFC, 0x010, 0x014, 0x018, 0x02C, 0x030], Page.ofAddr (p.base + off) = some p ∧ inWindows (p.base + off) = false ∧ (p.base + off) % 4 = 0)
    ∧ ∀ size ∈ [4, 8], ∃ (m : Master) (h : Hit) (addr : Nat) (s : State), s.inReset = false ∧ mayIssue m s = true ∧ stalledBy m s = false
      ∧ s.heldByOther m (.page h.page) = true ∧ inWindows addr = true ∧ hitAt addr = some h ∧ (size = 8 ∧ addr % 8 = 0 ∨ size = 4 ∧ addr % 4 = 0) :=
  ⟨⟨.i2c, .xqsw, st [(HDR.HASP_HELD .xqsw, 1), (HDR.HASP_OWNER .xqsw, 1)], by decide +kernel⟩,
    fun size hs => ⟨.i2c, (hitAt 0x3500000).getD ⟨.hist, .fuse, 0, false, .hub 0 0⟩, 0x3500000, st [(HDR.HASP_HELD ((hitAt 0x3500000).getD ⟨.hist, .fuse, 0, false, .hub 0 0⟩).page, 1), (HDR.HASP_OWNER ((hitAt 0x3500000).getD ⟨.hist, .fuse, 0, false, .hub 0 0⟩).page, 1)], by
      rcases List.mem_cons.mp hs with rfl | hs
      · decide +kernel
      · obtain rfl := List.mem_singleton.mp hs; decide +kernel⟩⟩

theorem test_meets_HaspReleaseRule :
    (∃ (m : Master) (h : HaspId) (s : State), s.inReset = false ∧ mayIssue m s = true ∧ stalledBy m s = false ∧ (∀ n, h = .res n → Accepts m .hubctl (HaspId.offset h) s) ∧ s.holds m h = true)
    ∧ (∃ (m : Master) (h : HaspId) (s : State), s.inReset = false ∧ mayIssue m s = true ∧ stalledBy m s = false ∧ (∀ n, h = .res n → Accepts m .hubctl (HaspId.offset h) s) ∧ s.heldByOther m h = true ∧ m ≠ .debug)
    ∧ (∃ (m : Master) (h : HaspId) (s : State), s.inReset = false ∧ mayIssue m s = true ∧ stalledBy m s = false ∧ (∀ n, h = .res n → Accepts m .hubctl (HaspId.offset h) s) ∧ s.heldByOther m h = true ∧ m = .debug ∧ ∀ n, HaspId.home h ≠ .timingX n)
    ∧ ∃ (m : Master) (h : HaspId) (s : State), s.inReset = false ∧ mayIssue m s = true ∧ stalledBy m s = false ∧ (∀ n, h = .res n → Accepts m .hubctl (HaspId.offset h) s) ∧ s.flag (HaspId.held h) = false :=
  ⟨⟨.pcie, .res 31, st [(HUBCTL.RES_HASP_HELD 31, 1), (HUBCTL.RES_HASP_OWNER 31, 1)], by decide +kernel⟩, ⟨.i2c, .page .fuse, st [(HDR.HASP_HELD .fuse, 1), (HDR.HASP_OWNER .fuse, 1)], by decide +kernel⟩,
    ⟨.debug, .page .fuse, st [(HDR.HASP_HELD .fuse, 1), (HDR.HASP_OWNER .fuse, 1), (BOOT.DBG_STAT_SCOPE, 1)], by decide +kernel⟩, ⟨.pcie, .page .fuse, State.reset, by decide +kernel⟩⟩

theorem test_meets_CorrectableErrorsStay :
    ∃ (d : Fin 5) (r : Fin 16) (v syn : Nat) (s : State), s.inReset = false ∧ scrubRuns d s = true ∧ s.flag (HDR.FREEZE (memPage d)) = false ∧ scrubBehind d r s = true
      ∧ eccDecode (s.rawData (regionLoc d r (s.get (scrubFlds d r).pos))) (s.rawCheck (regionLoc d r (s.get (scrubFlds d r).pos))) = (.ce, v, syn) :=
  ⟨1, 2, 0, 1, (st [(HDR.ENABLE (.mem 1), 1), (MEM.SCRUB_CFG_EN 1, 1)]).storeRaw (regionLoc 1 2 0) 0 1, by decide +kernel⟩

theorem test_meets_FetchReadsHalves :
    (∃ s : State, tumbPc 3 0 s / 2 = 2 ∧ tumbPc 3 0 s = 2 * 2) ∧ ∃ s : State, tumbPc 3 0 s / 2 = 2 ∧ tumbPc 3 0 s = 2 * 2 + 1 :=
  ⟨⟨st [(TUMB.hPc 3 0, 4)], by decide +kernel⟩, ⟨st [(TUMB.hPc 3 0, 5)], by decide +kernel⟩⟩

theorem test_meets_SecdedCode :
    ∃ (d : Nat) (i k : Fin 64) (j l : Fin 8), d < 2 ^ 64 ∧ i ≠ k ∧ j ≠ l :=
  ⟨2 ^ 64 - 1, 0, 63, 0, 7, by decide⟩

theorem test_meets_MemoryWords :
    ∃ (l : Loc) (s : State) (k : Nat), Memory.wf s.mem = true ∧ (k < l.key ∨ l.key + 9 ≤ k) :=
  ⟨.hub 0 5, State.reset, 0, by decide +kernel⟩

theorem test_meets_RegisterFields :
    ∃ f g : Fld, g.key ≠ f.key :=
  ⟨HDR.ENABLE .fuse, HDR.FREEZE .fuse, by decide⟩

theorem test_meets_ResetBusyClosesThePage :
    (∀ off ∈ [0x040, 0x100, 0xFFC], ∃ (m : Master) (p : Page) (s : State), s.inReset = false ∧ mayIssue m s = true ∧ stalledBy m s = false ∧ s.heldByOther m (.page p) = false
      ∧ s.flag (HDR.RESET_BUSY p) = true ∧ stopped p s = false ∧ (s.held.any fun w => w.page == p) = false
      ∧ Page.ofAddr (p.base + off) = some p ∧ inWindows (p.base + off) = false ∧ (p.base + off) % 4 = 0 ∧ 0x040 ≤ off
      ∧ ((resourceOf p off).elim false fun n => s.heldByOther m (.res n)) = false ∧ (isRwh p off && s.flag (HDR.COPYING p)) = false)
    ∧ ∃ (m : Master) (h : Hit) (addr : Nat) (s : State), s.inReset = false ∧ mayIssue m s = true ∧ stalledBy m s = false
      ∧ s.heldByOther m (.page h.page) = false ∧ s.flag (HDR.RESET_BUSY h.page) = true ∧ inWindows addr = true ∧ hitAt addr = some h ∧ addr % 8 = 0 :=
  ⟨fun off ho => ⟨.pcie, .hubctl, st [(HDR.RESET_BUSY .hubctl, 1)], by
      simp only [List.mem_cons, List.not_mem_nil, or_false] at ho
      rcases ho with rfl | rfl | rfl <;> decide +kernel⟩,
    ⟨.i2c, (hitAt 0x3500000).getD ⟨.hist, .fuse, 0, false, .hub 0 0⟩, 0x3500000, st [(HDR.RESET_BUSY ((hitAt 0x3500000).getD ⟨.hist, .fuse, 0, false, .hub 0 0⟩).page, 1)], by decide +kernel⟩⟩

theorem test_meets_ForcedInterrupts :
    ∃ (m : Master) (p : Page) (s : State), s.inReset = false ∧ Accepts m p 0x018 s ∧ ∀ n, p ≠ .timingX n :=
  ⟨.i2c, .fuse, State.reset, by decide +kernel⟩

theorem test_meets_LineCodesUndo :
    ∃ (cap : Nat) (l : List Bool), l.length ≤ cap :=
  ⟨7, [true, false], by decide⟩

theorem test_meets_SlotsOfAMultiframe :
    (∃ S H : Nat, 0 < S ∧ 2048 * H ≤ 5115 * S) ∧ (∃ M i j v w : Nat, i < M ∧ j < M ∧ isSegBit v = isSegBit w ∧ tribPlace M i v = tribPlace M j w) ∧ ∃ M : Nat, 0 < M :=
  ⟨⟨16, 32, by decide⟩, ⟨4, 3, 3, 257, 257, by decide⟩, ⟨1, by decide⟩⟩

end Sys2Proof.Tests
end

section
/-! PROOFS. The register model (chapter 02): a transaction alone on the register bus, writes that a hasp or a soft reset
drops, the writes of a hasp register, what RESET_N leaves of the hasps, and INT_FORCE. -/
namespace Sys2Proof.Machine

-- Proofs that run beside the tests above would each hold a thread while the kernel catches up with the model, and past some
-- forty threads the compile of the joined text has no memory for another.
set_option Elab.async false

/-! ## Addresses of pages -/

theorem quadBase_bounds {q : Nat} (h : q < 4) : quadBase q % 0x1000 = 0 ∧ quadBase q ≤ 0x0280_0000 := by
  unfold quadBase; omega

theorem carrierBase_bounds {c : Nat} (h : c < 16) : carrierBase c % 0x1000 = 0 ∧ carrierBase c ≤ 0x02F0_0000 := by
  unfold carrierBase quadBase; omega

/-- A page begins at a whole multiple of 4 KiB, below the keys of the implied state (R37, R38). `Page.base` is unfolded whole:
the equations of its cases, which Lean would make one by one, exceed the recursion depth. -/
theorem Page.base_bounds (p : Page) : p.base % 0x1000 = 0 ∧ p.base < 0x0500_0000 := by
  cases p
  case mon d =>
    unfold Page.base; dsimp only
    split
    · have := quadBase_bounds ‹_›; omega
    · omega
  case tumb t =>
    unfold Page.base; dsimp only
    split
    · have := carrierBase_bounds ‹_›; omega
    · omega
  case lanegrp g =>
    have := quadBase_bounds (show g.val / 8 < 4 by omega)
    unfold Page.base; dsimp only; omega
  case frm q | tsi q | tm q | ciph q | mem q | htr q | qint q =>
    have := quadBase_bounds q.isLt
    unfold Page.base; dsimp only; omega
  case conv c | txdsp c | rxdsp c | fec c | otu c | hub c | cal c | cint c =>
    have := carrierBase_bounds c.isLt
    unfold Page.base; dsimp only; omega
  case timingX n | dma n => unfold Page.base; dsimp only; omega
  all_goals decide

theorem offset_aligned {p : Page} {off : Nat} (h : (p.base + off) % 4 = 0) : off % 4 = 0 := by
  obtain ⟨hb, -⟩ := Page.base_bounds p
  omega

/-! ## Fields of the state -/

theorem flag_of_get {s t : State} {f : Fld} (h : t.get f = s.get f) : t.flag f = s.flag f := by
  rw [State.flag, State.flag, h]

theorem flag_put_other {f g : Fld} (h : f.key ≠ g.key) (v : Nat) (s : State) : (s.put f v).flag g = s.flag g :=
  flag_of_get (State.get_put_other s f g v h)

theorem get_putB_other {f g : Fld} (h : f.key ≠ g.key) (b : Bool) (s : State) : (s.putB f b).get g = s.get g :=
  State.get_put_other s f g b.toNat h

theorem flag_putB_other {f g : Fld} (h : f.key ≠ g.key) (b : Bool) (s : State) : (s.putB f b).flag g = s.flag g :=
  flag_of_get (get_putB_other h b s)

theorem get_clear_other {f g : Fld} (h : f.key ≠ g.key) (s : State) : (s.clear f).get g = s.get g :=
  State.get_put_other s f g f.reset h

/-- A loop of one more round. -/
theorem forN_succ {σ : Type} (n : Nat) (f : Nat → σ → σ) (s : σ) : forN (n + 1) f s = f n (forN n f s) := by
  simp only [forN, List.range_succ, List.foldl_append, List.foldl_cons, List.foldl_nil]

/-- Fields put one after another leave a field that is none of them. -/
theorem get_forL_put_other {l : List Fld} {f : Fld} (hf : ∀ g ∈ l, g.key ≠ f.key) (v : Fld → Nat) (s : State) :
    (forL l (fun g r => r.put g (v g)) s).get f = s.get f := by
  induction l generalizing s with
  | nil => rfl
  | cons g l ih =>
    change (forL l _ (s.put g (v g))).get f = _
    rw [ih fun k hk => hf k (List.mem_cons_of_mem _ hk), State.get_put_other _ _ _ _ (hf g List.mem_cons_self)]

/-! ## INT_RAW -/

@[simp] theorem HDR.INT_RAW_key (p : Page) : (HDR.INT_RAW p).key = 8 * (p.base + 0x010) := rfl

/-- Off sub-pages 4 to 15 of DEV.TIMING a cause is a bit of INT_RAW (R49, R520). -/
theorem raise_eq_setBit {p : Page} (hp : ∀ n, p ≠ .timingX n) (b : Nat) (s : State) : s.raise p b = s.setBit (HDR.INT_RAW p) b := by
  cases p with
  | timingX n => exact absurd rfl (hp n)
  | _ => rfl

/-- A latched cause changes INT_RAW alone. -/
theorem get_raise_other {p : Page} {f : Fld} (hf : f.key ≠ (HDR.INT_RAW p).key) (b : Nat) (s : State) :
    (s.raise p b).get f = s.get f := by
  by_cases hp : ∀ n, p ≠ .timingX n
  · rw [raise_eq_setBit hp]
    exact State.get_put_other _ _ _ _ hf.symm
  · simp only [ne_eq, not_forall, not_not] at hp
    obtain ⟨n, rfl⟩ := hp
    rfl

/-- A latched cause adds its bit to INT_RAW (R49). -/
theorem testBit_raise {p : Page} (hp : ∀ n, p ≠ .timingX n) (b : Nat) (s : State) {i : Nat} (hi : i < 32) :
    ((s.raise p b).get (HDR.INT_RAW p)).testBit i = ((s.get (HDR.INT_RAW p)).testBit i || decide (b = i)) := by
  rw [raise_eq_setBit hp, State.setBit, State.get_put_self]
  change ((s.get (HDR.INT_RAW p) ||| 2 ^ b) % 2 ^ 32).testBit i = _
  rw [Nat.testBit_mod_two_pow, decide_eq_true hi, Bool.true_and, Nat.testBit_or, Nat.testBit_two_pow]

/-- Causes latched one after another under a condition. -/
theorem testBit_forN_raise {p : Page} (hp : ∀ n, p ≠ .timingX n) (c : Nat → Bool) (n : Nat) (s : State) {i : Nat} (hi : i < 32) :
    ((forN n (fun b s => if c b then s.raise p b else s) s).get (HDR.INT_RAW p)).testBit i
      = ((s.get (HDR.INT_RAW p)).testBit i || (decide (i < n) && c i)) := by
  induction n with
  | zero => simp [forN]
  | succ n ih =>
    rw [forN_succ]
    by_cases hni : n = i
    · subst hni
      cases hc : c n <;> simp [testBit_raise hp, hi, ih, hc]
    · have hlt : i < n + 1 ↔ i < n := by omega
      cases hc : c n <;> simp [testBit_raise hp, hi, ih, hni, hlt]

/-! ## One transaction alone on the bus -/

theorem Master.mem_all (m : Master) : m ∈ Master.all := by
  cases m with
  | ward n => fin_cases n <;> simp [Master.all]
  | _ => simp [Master.all]

theorem Master.all_nodup : Master.all.Nodup := by decide

/-- A request that no 64-bit split concerns is one transaction (R39). -/
theorem txsOf_word {r : BusReq} (h : r.size ≠ 8) : txsOf r = [r] := by simp [txsOf, h]

/-- What master m presents of a single request in cycle k. -/
theorem presented_alone {r : BusReq} (h : txsOf r = [r]) (k : Nat) (m : Master) :
    (([r].filter fun r => r.m == m).flatMap txsOf)[k]? = if (m == r.m) = true then [r][k]? else none := by
  by_cases hm : m = r.m
  · rw [List.filter_cons_of_pos (by simp [hm]), if_pos (by simp [hm])]
    change (txsOf r ++ [])[k]? = _
    rw [h]; rfl
  · rw [List.filter_cons_of_neg (by simpa using Ne.symm hm), if_neg (by simpa using hm)]; rfl

/-- A request that is one transaction is presented in the first cycle (R65). -/
theorem cycleTxs_alone_first {r : BusReq} (h : txsOf r = [r]) : cycleTxs [r] 0 = [r] := by
  have hone : Master.all.filter (fun m => m == r.m) = [r.m] := by
    rw [List.filter_beq, List.count_eq_one_of_mem Master.all_nodup (Master.mem_all r.m)]; rfl
  unfold cycleTxs
  simp only [presented_alone h]
  rw [← List.filterMap_filter, hone]
  rfl

theorem cycleTxs_alone_later {r : BusReq} (h : txsOf r = [r]) (k : Nat) : cycleTxs [r] (k + 1) = [] :=
  List.filterMap_eq_nil_iff.mpr fun m _ => by rw [presented_alone h (k + 1) m]; simp

@[simp] theorem busCycle_nil (s : State) : busCycle [] s = s := rfl

/-- One accepted write meets no other (R68). -/
theorem collisions_le_one {acc : List ((Page × Nat) × Master)} (h : acc.length ≤ 1) (s : State) : collisions acc s = s := by
  match acc, h with
  | [], _ => rfl
  | [a], _ => simp [collisions, forL]

/-- A cycle of one write is that write. -/
theorem busCycle_write {r : BusReq} (h : r.isRead = false) (s : State) : busCycle [r] s = busTx true r s := by
  have hl : (([r].filter fun r => !r.isRead).filter clearsEvents ++ ([r].filter fun r => !r.isRead).filter fun r => !clearsEvents r)
      = [r] := by
    cases hc : clearsEvents r <;> simp [h, hc]
  have hw : (cycleWrites [r] s).1.length ≤ 1 ∧ (cycleWrites [r] s).2 = busTx true r s := by
    simp only [cycleWrites, List.foldl_cons, List.foldl_nil]
    split
    · split <;> simp
    · simp
  unfold busCycle
  simp only [hl]
  rw [show [r].filter (·.isRead) = [] by simp [h]]
  exact (collisions_le_one hw.1 _).trans hw.2

/-- REGISTER_WRITE of one write of at most 32 bits is that transaction (R65). -/
theorem exec_registerWrite_one {r : BusReq} {s : State} (hrun : s.inReset = false) (hr : r.isRead = false) (h8 : r.size ≠ 8) :
    exec (.registerWrite [r]) s = .next (commit s.pending (busTx true r s)) := by
  have h1 := txsOf_word h8
  have hb : busRun [r] s = busTx true r s := by
    change busCycle (cycleTxs [r] 1) (busCycle (cycleTxs [r] 0) s) = _
    rw [cycleTxs_alone_first h1, cycleTxs_alone_later h1, busCycle_nil, busCycle_write hr]
  exact (act_live s _ hrun).trans (by rw [hb])

/-- A BAR0 write that is issued and waits behind nothing takes its turn (R65, R83). -/
theorem busTx_write {m : Master} {s : State} (hi : mayIssue m s = true) (hs : stalledBy m s = false) (core : Bool)
    (addr size d : Nat) :
    busTx core ⟨m, .bar0, addr, size, false, d⟩ s = countPageDrop m core s (writeAt ⟨m, .bar0, addr, size, false, d⟩ core s) := by
  simp [busTx, hi, hs]

/-! ## Writes of registers by address -/

/-- An aligned 32-bit write of a mapped register goes to its page (R39, R40). -/
theorem writeAt_register {p : Page} {off : Nat} (hp : Page.ofAddr (p.base + off) = some p) (hw : inWindows (p.base + off) = false)
    (ha : (p.base + off) % 4 = 0) (m : Master) (core : Bool) (d : Nat) (s : State) :
    writeAt ⟨m, .bar0, p.base + off, 4, false, d⟩ core s = pageWrite ⟨m, .bar0, p.base + off, 4, false, d⟩ core p s := by
  simp [writeAt, hw, hp, aligned, ha]

/-- REGISTER_WRITE of one aligned 32-bit write of a mapped register, whose master waits for nothing. -/
theorem exec_registerWrite_page {m : Master} {p : Page} {off : Nat} {s : State} (hrun : s.inReset = false)
    (hi : mayIssue m s = true) (hs : stalledBy m s = false) (hp : Page.ofAddr (p.base + off) = some p)
    (hw : inWindows (p.base + off) = false) (ha : (p.base + off) % 4 = 0) (d : Nat) :
    exec (.registerWrite [⟨m, .bar0, p.base + off, 4, false, d⟩]) s
      = .next (commit s.pending (countPageDrop m true s (pageWrite ⟨m, .bar0, p.base + off, 4, false, d⟩ true p s))) := by
  rw [exec_registerWrite_one hrun rfl (by simp), busTx_write hi hs, writeAt_register hp hw ha]

/-- A register other than a page's own hasp, at which a hasp lies, is the resource hasp's of that offset (R54, R62). -/
theorem haspAt_eq_some {p : Page} {off : Nat} {h : HaspId} (h4 : off % 4 = 0) (ho : off ≠ 0x020) (hh : haspAt p off = some h) :
    p = .hubctl ∧ 0x100 ≤ off ∧ ∃ n, h = .res n ∧ HaspId.offset h = off := by
  unfold haspAt at hh
  rw [if_neg ho] at hh
  split at hh
  · next hr =>
    obtain ⟨hp, hlo, hhi⟩ := hr
    cases hh
    refine ⟨hp, hlo, _, rfl, ?_⟩
    simp only [HaspId.offset, Fin.ofNat]
    omega
  · cases hh

theorem haspAt_header {p : Page} {off : Nat} (hlt : off < 0x040) (ho : off ≠ 0x020) : haspAt p off = none := by
  unfold haspAt
  rw [if_neg ho, if_neg (by omega)]

/-- A write that the arbiter drops leaves the state that has logged it, whether a hasp lies at its register or not (R56,
R63). -/
theorem pageWrite_dropped {m : Master} {p : Page} {off : Nat} {s s' : State} (hi : mayIssue m s = true) (hs : stalledBy m s = false)
    (h4 : off % 4 = 0) (ho : off ≠ 0x020) (hd : arbiterDrops m p off s = some s') (core : Bool) (d : Nat) :
    pageWrite ⟨m, .bar0, p.base + off, 4, false, d⟩ core p s = s' := by
  unfold pageWrite
  simp only [Nat.add_sub_cancel_left]
  cases hh : haspAt p off with
  | none => simp only [hd]
  | some h =>
    obtain ⟨rfl, -, n, rfl, hoff⟩ := haspAt_eq_some h4 ho hh
    simp [haspCmd, hi, hs, HaspId.home, hoff, hd]

/-- The hasp of the page drops another master's write to a register that it guards (R56). -/
theorem arbiterDrops_guarded {m : Master} {p : Page} {off : Nat} {s : State} (hg : haspGuards off = true)
    (hh : s.heldByOther m (.page p) = true) :
    arbiterDrops m p off s = some (logErr p causeHaspDrop (masterId m) (s.get (HDR.HASP_OWNER p)) false off s) := by
  simp [arbiterDrops, hg, hh]

/-- A write that neither hasp of its register guards passes the arbiter (R56, R63). -/
theorem arbiterDrops_passes {m : Master} {p : Page} {off : Nat} {s : State} (hg : (haspGuards off && s.heldByOther m (.page p)) = false)
    (hr : ((resourceOf p off).elim false fun n => s.heldByOther m (.res n)) = false) : arbiterDrops m p off s = none := by
  unfold arbiterDrops
  rw [hg]
  cases hn : resourceOf p off with
  | none => simp
  | some n => rw [hn] at hr; simpa using hr

/-- A write that the arbiter lets through is dropped at a block register of a running page in soft reset (R47). -/
theorem pageWrite_resetBusy {m : Master} {p : Page} {off : Nat} {s : State} (hi : mayIssue m s = true) (hs : stalledBy m s = false)
    (h4 : off % 4 = 0) (ho : 0x040 ≤ off) (hd : arbiterDrops m p off s = none) (hb : s.flag (HDR.RESET_BUSY p) = true)
    (hc : stopped p s = false) (hq : (s.held.any fun w => w.page == p) = false)
    (hcp : (isRwh p off && s.flag (HDR.COPYING p)) = false) (core : Bool) (d : Nat) :
    pageWrite ⟨m, .bar0, p.base + off, 4, false, d⟩ core p s = logErr p causeResetBusy (masterId m) 0 false off s := by
  unfold pageWrite
  simp only [Nat.add_sub_cancel_left]
  cases hh : haspAt p off with
  | none =>
    simp only [hd, passedWrite, Nat.add_sub_cancel_left, hcp, Bool.false_and, Bool.false_eq_true, if_false]
    simp only [atPage, hc, hq, hb, ho]
    simp
  | some h =>
    obtain ⟨rfl, -, n, rfl, hoff⟩ := haspAt_eq_some h4 (by omega) hh
    simp [haspCmd, hi, hs, HaspId.home, hoff, hd, hb]

/-! ## Header registers -/

/-- No resource hasp protects a header register (R62). -/
theorem resourceOf_header {p : Page} {off : Nat} (h : off < 0x040) : resourceOf p off = none := by
  cases p <;> simp only [resourceOf]
  case timing0 => rw [if_neg (by omega)]
  case timing1 => rw [if_neg (by omega), if_neg (by omega)]
  case timing2 => rw [if_neg (by omega)]
  case timing3 => rw [if_neg (by omega), if_neg (by omega)]
  case ptp => rw [if_neg (by omega)]
  case pwr => rw [if_neg (by omega)]

theorem findReg_mem {off : Nat} {l : List RegD} {r : RegD} (h : findReg off l = some r) : r ∈ l ∧ r.off ≤ off := by
  induction l with
  | nil => cases h
  | cons a l ih =>
    unfold findReg at h
    generalize hit : List.any (List.range a.count2) _ = b at h
    cases b with
    | true =>
      cases h
      obtain ⟨j, -, hj⟩ := List.any_eq_true.mp hit
      have := of_decide_eq_true (Bool.and_eq_true_iff.mp hj).1
      exact ⟨List.mem_cons_self, by omega⟩
    | false =>
      obtain ⟨hm, ho⟩ := ih h
      exact ⟨List.mem_cons_of_mem _ hm, ho⟩

/-- The registers listed for a page below offset 0x040, those of BAR2, have no RWH field. -/
theorem regs_rwh_above_header (p : Page) : ∀ r ∈ Page.regs p, r.off < 0x040 → (r.fields.any fun f => f.acc == .rwh) = false := by
  cases p <;> (simp only [Page.regs]; decide)

/-- No header register is RWH (R52). -/
theorem isRwh_header {p : Page} {off : Nat} (h : off < 0x040) : isRwh p off = false := by
  unfold isRwh
  cases hr : regAt p off with
  | none => rfl
  | some r =>
    obtain ⟨hm, ho⟩ := findReg_mem hr
    exact regs_rwh_above_header p r hm (by omega)

/-- A write to a header register that no hasp guards has its effect on a running page (R27, R47, R56). -/
theorem pageWrite_header {m : Master} {p : Page} {off : Nat} {s : State} (hlt : off < 0x040) (ho : off ≠ 0x020)
    (hg : haspGuards off = false) (hc : stopped p s = false) (hq : (s.held.any fun w => w.page == p) = false) (core : Bool)
    (d : Nat) :
    pageWrite ⟨m, .bar0, p.base + off, 4, false, d⟩ core p s = headerEff m p off (d % 2 ^ 32) s := by
  have hd : arbiterDrops m p off s = none :=
    arbiterDrops_passes (by rw [hg]; rfl) (by rw [resourceOf_header hlt]; rfl)
  have h40 : decide (0x040 ≤ off) = false := by simpa using hlt
  unfold pageWrite
  simp only [Nat.add_sub_cancel_left, haspAt_header hlt ho, hd, passedWrite, isRwh_header hlt, Bool.false_and, Bool.false_eq_true,
    if_false]
  simp only [atPage, hc, hq, h40, Bool.and_false, Bool.or_false, Bool.false_eq_true, if_false, regEff, hlt, if_true]

/-! ## Table windows -/

/-- TABLE_WINDOW_WRITE at an address of a table, by a master that waits for nothing. -/
theorem exec_tableWindowWrite_hit {m : Master} {h : Hit} {addr : Nat} {s : State} (hrun : s.inReset = false)
    (hi : mayIssue m s = true) (hs : stalledBy m s = false) (hw : inWindows addr = true) (hh : hitAt addr = some h) (size d : Nat) :
    exec (.tableWindowWrite m addr size d) s = .next (commit s.pending (countPageDrop m true s
      (winCmd m h h.tab.hinged addr size d (fun d s => tabStore m h addr (size == 8) d s) s))) := by
  have hat : writeAt ⟨m, .bar0, addr, size, false, d⟩ true s
      = winCmd m h h.tab.hinged addr size d (fun d s => tabStore m h addr (size == 8) d s) s := by
    simp only [writeAt, windowWrite, hw, hh, if_true]
  refine (act_live s _ hrun).trans ?_
  rw [busTx_write hi hs, hat]

/-- A window write has a width and an alignment that the windows take (R88). -/
abbrev windowSized (addr size : Nat) : Prop := size = 8 ∧ addr % 8 = 0 ∨ size = 4 ∧ addr % 4 = 0

theorem windowSized_iff {addr size : Nat} :
    ((size == 8 && addr % 8 == 0) || (size == 4 && addr % 4 == 0)) = true ↔ windowSized addr size := by
  simp [windowSized]

/-- The hasp of a table's page drops another master's write to its windows (R56). -/
theorem winCmd_haspDrop {m : Master} {h : Hit} {addr size : Nat} {s : State} (hi : mayIssue m s = true)
    (hs : stalledBy m s = false) (hz : windowSized addr size) (hh : s.heldByOther m (.page h.page) = true) (hinged : Bool) (d : Nat)
    (eff : Nat → State → State) :
    winCmd m h hinged addr size d eff s = logWin h.page causeHaspDrop (masterId m) (s.get (HDR.HASP_OWNER h.page)) addr s := by
  unfold winCmd
  rw [hi, hs, windowSized_iff.mpr hz, hh]
  rfl

/-- The windows of a page in soft reset take no write (R47). -/
theorem winCmd_resetBusy {m : Master} {h : Hit} {addr size : Nat} {s : State} (hi : mayIssue m s = true)
    (hs : stalledBy m s = false) (hz : windowSized addr size) (hh : s.heldByOther m (.page h.page) = false)
    (hb : s.flag (HDR.RESET_BUSY h.page) = true) (hinged : Bool) (d : Nat) (eff : Nat → State → State) :
    winCmd m h hinged addr size d eff s = logWin h.page causeResetBusy (masterId m) 0 addr s := by
  unfold winCmd
  rw [hi, hs, windowSized_iff.mpr hz, hh, hb, Bool.or_true]
  rfl

/-! ## The fields of a hasp -/

section
variable (h : HaspId)

@[simp] theorem HaspId.held_key : (HaspId.held h).key = 8 * ((HaspId.home h).base + HaspId.offset h) + 31 := by
  cases h with
  | page p => rfl
  | res n => exact congrArg (8 * · + 31) (Nat.add_assoc _ _ _)
@[simp] theorem HaspId.broken_key : (HaspId.broken h).key = 8 * ((HaspId.home h).base + HaspId.offset h) + 30 := by
  cases h with
  | page p => rfl
  | res n => exact congrArg (8 * · + 30) (Nat.add_assoc _ _ _)
@[simp] theorem HaspId.owner_key : (HaspId.owner h).key = 8 * ((HaspId.home h).base + HaspId.offset h) + 24 := by
  cases h with
  | page p => rfl
  | res n => exact congrArg (8 * · + 24) (Nat.add_assoc _ _ _)
@[simp] theorem HaspId.lease_key : (HaspId.lease h).key = 8 * ((HaspId.home h).base + HaspId.offset h) := by
  cases h with
  | page p => rfl
  | res n => exact congrArg (8 * ·) (Nat.add_assoc _ _ _)
@[simp] theorem HaspId.held_width : (HaspId.held h).width = 1 := by cases h <;> rfl
@[simp] theorem HaspId.broken_width : (HaspId.broken h).width = 1 := by cases h <;> rfl
@[simp] theorem HaspId.owner_width : (HaspId.owner h).width = 6 := by cases h <;> rfl

/-- A field lies in the register of a hasp. -/
abbrev inHaspReg (f : Fld) : Prop :=
  8 * ((HaspId.home h).base + HaspId.offset h) ≤ f.key ∧ f.key < 8 * ((HaspId.home h).base + HaspId.offset h + 4)

theorem HaspId.held_mem : inHaspReg h (HaspId.held h) := by rw [inHaspReg, HaspId.held_key]; omega
theorem HaspId.broken_mem : inHaspReg h (HaspId.broken h) := by rw [inHaspReg, HaspId.broken_key]; omega
theorem HaspId.owner_mem : inHaspReg h (HaspId.owner h) := by rw [inHaspReg, HaspId.owner_key]; omega
theorem HaspId.lease_mem : inHaspReg h (HaspId.lease h) := by rw [inHaspReg, HaspId.lease_key]; omega

theorem HaspId.offset_ge : 0x020 ≤ HaspId.offset h := by
  cases h <;> simp only [HaspId.offset] <;> omega

end

/-! ## INT_FORCE -/

/-- INT_FORCE latches the causes that the page has, and those that every page has (R49, R51). -/
theorem testBit_intForceEff {p : Page} (hp : ∀ n, p ≠ .timingX n) (v : Nat) (s : State) {i : Nat} (hi : i < 32) :
    ((intForceEff p v s).get (HDR.INT_RAW p)).testBit i
      = ((s.get (HDR.INT_RAW p)).testBit i || (v.testBit i && (decide (i < blockCauses p) || decide (28 ≤ i)))) := by
  refine (testBit_forN_raise hp (fun b => v.testBit b && (decide (b < blockCauses p) || decide (28 ≤ b))) 32 s hi).trans ?_
  rw [decide_eq_true hi, Bool.true_and]

theorem get_intForceEff_other {p : Page} {f : Fld} (hf : f.key ≠ (HDR.INT_RAW p).key) (v : Nat) (s : State) :
    (intForceEff p v s).get f = s.get f :=
  forN_keeps 32 (fun s : State => s.get f) _ (fun b s => by split <;> simp [get_raise_other hf]) s

/-- No snapshot group holds a header register (R29). -/
theorem snapGroup_header {p : Page} {off : Nat} (h : off < 0x040) : snapGroup p off = none := by
  have hfirst : ∀ g ∈ snapGroups p, 0x040 ≤ g.1 := by
    cases p <;> (simp only [snapGroups]; decide)
  unfold snapGroup
  refine List.findSome?_eq_none_iff.mpr fun ⟨f, st, n, w⟩ hg => List.findSome?_eq_none_iff.mpr fun i _ => ?_
  have := hfirst _ hg
  dsimp only at this ⊢
  rw [if_neg (by intro hc; have := hc.1; omega)]

/-- INT_FORCE reads 0, and on the page of BAR2 its offset is reserved (R51, R52). -/
theorem readReg_intForce (p : Page) (s : State) : readReg p 0x018 s = 0 := by
  by_cases hp : p = .mbx
  · subst hp; rfl
  · rw [readReg, if_pos ⟨by decide, hp⟩]; rfl

/-! ## Hasp commands -/

/-- Master IDs fit OWNER. -/
theorem masterId_lt (m : Master) : masterId m < 2 ^ 6 := by
  cases m <;> simp only [masterId] <;> omega

/-- The end of ECC test mode changes no field of a hasp, and nothing before it in the page (R532). -/
theorem get_eccTestEnd {h : HaspId} {f : Fld} (hf : f.key < 8 * ((HaspId.home h).base + HaspId.offset h + 4)) (s : State) :
    (eccTestEnd h s).get f = s.get f := by
  have hab {b n : Nat} {g : Fld} (hn : 0x024 ≤ n) (hb : f.key < 8 * (b + 0x024)) (hg : 8 * (b + n) ≤ g.key) (u : State) :
      (u.clear g).get f = u.get f := get_clear_other (by omega) u
  unfold eccTestEnd
  split
  · iterate 3 rw [hab (n := 0x054) (by decide) hf (Nat.le_add_right _ _)]
  · iterate 3 rw [hab (n := 0x194) (by decide) hf (Nat.le_add_right _ _)]
  · rfl

/-- A cause of the page of a hasp changes no field of it. -/
theorem get_raise_hasp {h : HaspId} {f : Fld} (hf : inHaspReg h f) (b : Nat) (s : State) : (s.raise (HaspId.home h) b).get f = s.get f := by
  have hoff := HaspId.offset_ge h
  exact get_raise_other (by rw [HDR.INT_RAW_key]; omega) b s

/-- A write of a hasp register by a master that waits for nothing and, at a resource hasp, is accepted (R62, R66). -/
theorem haspCmd_accepts {m : Master} {h : HaspId} {s : State} (hi : mayIssue m s = true) (hs : stalledBy m s = false)
    (ha : ∀ n, h = .res n → Accepts m .hubctl (HaspId.offset h) s) (d : Nat) : haspCmd m h d s = haspWrite m h d s := by
  cases h with
  | page p => exact haspCmd_page hi hs d
  | res n => exact haspCmd_res (ha n rfl) d

theorem exec_haspRelease {m : Master} {h : HaspId} {s : State} (hrun : s.inReset = false) (hi : mayIssue m s = true)
    (hs : stalledBy m s = false) (ha : ∀ n, h = .res n → Accepts m .hubctl (HaspId.offset h) s) :
    exec (.haspRelease m h) s = .next (commit s.pending (haspRelease m h s)) :=
  (act_live s _ hrun).trans (by rw [haspCmd_accepts hi hs ha]; rfl)

theorem exec_haspAcquire {m : Master} {h : HaspId} {s : State} (hrun : s.inReset = false) (hi : mayIssue m s = true)
    (hs : stalledBy m s = false) (ha : ∀ n, h = .res n → Accepts m .hubctl (HaspId.offset h) s) (lease : Fin 65536) :
    exec (.haspAcquire m h lease) s = .next (commit s.pending (haspAcquire m h lease.val s)) := by
  have hrel : (2 ^ 23 + lease.val).testBit 22 = false := by
    rw [Nat.testBit_eq_decide_div_mod_eq, decide_eq_false_iff_not]; omega
  have hacq : (2 ^ 23 + lease.val).testBit 23 = true := by
    rw [Nat.testBit_eq_decide_div_mod_eq, decide_eq_true_iff]; omega
  have hlease : bits (2 ^ 23 + lease.val) 0 16 = lease.val := by
    unfold bits; omega
  refine (act_live s _ hrun).trans ?_
  rw [haspCmd_accepts hi hs ha, haspWrite, hrel, hacq, hlease]
  rfl

section
variable {m : Master} {h : HaspId} {s : State}

theorem holds_iff : s.holds m h = true ↔ s.flag (HaspId.held h) = true ∧ s.get (HaspId.owner h) = masterId m := by
  simp [State.holds]

theorem heldByOther_iff : s.heldByOther m h = true ↔ s.flag (HaspId.held h) = true ∧ s.get (HaspId.owner h) ≠ masterId m := by
  simp [State.heldByOther]

theorem haspRelease_free (hf : s.flag (HaspId.held h) = false) : haspRelease m h s = s := by
  simp [haspRelease, hf]

/-- A release by the owner leaves HELD and OWNER 0 (R57). -/
theorem haspRelease_owner (hh : s.holds m h = true) :
    (haspRelease m h s).flag (HaspId.held h) = false ∧ (haspRelease m h s).get (HaspId.owner h) = 0 := by
  obtain ⟨hheld, how⟩ := holds_iff.mp hh
  have hr : haspRelease m h s
      = eccTestEnd h (((s.putB (HaspId.held h) false).put (HaspId.owner h) 0).put (HaspId.lease h) 0) := by
    simp [haspRelease, hheld, how]
  rw [hr]
  constructor
  · rw [flag_of_get (get_eccTestEnd (HaspId.held_mem h).2 _), flag_put_other (by simp), flag_put_other (by simp)]
    exact State.flag_putB_self _ _ _ (by simp)
  · rw [get_eccTestEnd (HaspId.owner_mem h).2, State.get_put_other _ _ _ _ (by simp), State.get_put_self, Nat.zero_mod]

/-- Another master's release is dropped (R57). -/
theorem haspRelease_other (hh : s.heldByOther m h = true) (hm : m ≠ .debug) :
    haspRelease m h s = logErr (HaspId.home h) causeHaspDrop (masterId m) (s.get (HaspId.owner h)) false (HaspId.offset h) s := by
  obtain ⟨hheld, how⟩ := heldByOther_iff.mp hh
  simp [haspRelease, hheld, how, hm]

/-- The debug master's release of another's hasp is the automatic one (R57, R58). -/
theorem haspRelease_debug (hh : s.heldByOther .debug h = true) : haspRelease .debug h s = haspBreak h s := by
  obtain ⟨hheld, how⟩ := heldByOther_iff.mp hh
  simp [haspRelease, hheld, how]

end

section
variable (h : HaspId) (s : State)

/-- An automatic release clears HELD, sets BROKEN and keeps OWNER (R58). -/
theorem haspBreak_reads :
    (haspBreak h s).flag (HaspId.held h) = false ∧ (haspBreak h s).flag (HaspId.broken h) = true
      ∧ (haspBreak h s).get (HaspId.owner h) = s.get (HaspId.owner h) := by
  unfold haspBreak
  refine ⟨?held, ?broken, ?owner⟩
  case held =>
    rw [flag_of_get (get_eccTestEnd (HaspId.held_mem h).2 _), flag_of_get (get_raise_hasp (HaspId.held_mem h) _ _),
      flag_put_other (by simp), flag_putB_other (by simp)]
    exact State.flag_putB_self _ _ _ (by simp)
  case broken =>
    rw [flag_of_get (get_eccTestEnd (HaspId.broken_mem h).2 _), flag_of_get (get_raise_hasp (HaspId.broken_mem h) _ _),
      flag_put_other (by simp)]
    exact State.flag_putB_self _ _ _ (by simp)
  case owner =>
    rw [get_eccTestEnd (HaspId.owner_mem h).2, get_raise_hasp (HaspId.owner_mem h), State.get_put_other _ _ _ _ (by simp),
      get_putB_other (by simp), get_putB_other (by simp)]

/-- An automatic release latches HASP_BROKEN (R49, R58). -/
theorem haspBreak_latches (hp : ∀ n, HaspId.home h ≠ .timingX n) :
    ((haspBreak h s).get (HDR.INT_RAW (HaspId.home h))).testBit 28 = true := by
  have hoff := HaspId.offset_ge h
  unfold haspBreak
  rw [get_eccTestEnd (by rw [HDR.INT_RAW_key]; omega), testBit_raise hp _ _ (by decide)]
  exact Bool.or_true _

/-- The acquisition of a free hasp clears BROKEN and takes OWNER (R55). -/
theorem haspAcquire_free (hf : s.flag (HaspId.held h) = false) (m : Master) (lease : Nat) :
    (haspAcquire m h lease s).flag (HaspId.broken h) = false ∧ (haspAcquire m h lease s).get (HaspId.owner h) = masterId m := by
  have hq : haspAcquire m h lease s
      = (((s.putB (HaspId.held h) true).put (HaspId.owner h) (masterId m)).put (HaspId.lease h) lease).putB (HaspId.broken h) false := by
    simp [haspAcquire, hf]
  rw [hq]
  constructor
  · exact State.flag_putB_self _ _ _ (by simp)
  · rw [get_putB_other (by simp), State.get_put_other _ _ _ _ (by simp), State.get_put_self,
      HaspId.owner_width, Nat.mod_eq_of_lt (masterId_lt m)]

end

/-! ## RESET_N and the hasps -/

/-- A field that a reset does not keep reads its reset value (R669). -/
theorem get_resetState {f : Fld} (hf : ∀ g ∈ resetKept, g.key ≠ f.key) (s : State) : (resetState s).get f = f.reset := by
  unfold resetState
  rw [get_forL_put_other hf]
  rfl

/-- What a reset keeps lies among the block registers of a page, that page not being DEV.HUBCTL, or in implied state. -/
theorem resetKept_keys : ∀ g ∈ resetKept,
    0x4_0000_0000 ≤ g.key ∨ (0x200 ≤ g.key % 0x8000 ∧ ¬(0x8000 ≤ g.key ∧ g.key < 0x1_0000)) := by
  decide +kernel

/-- A reset keeps no field of a hasp (R64, R669). -/
theorem resetKept_not_hasp {h : HaspId} {f : Fld} (hf : inHaspReg h f) : ∀ g ∈ resetKept, g.key ≠ f.key := by
  intro g hg he
  obtain ⟨hlo, hhi⟩ := hf
  have hk := resetKept_keys g hg
  rw [he] at hk
  cases h with
  | page p =>
    obtain ⟨hmod, hlt⟩ := Page.base_bounds p
    simp only [HaspId.home, HaspId.offset] at hlo hhi
    omega
  | res n =>
    have hb : Page.hubctl.base = 0x1000 := rfl
    simp only [HaspId.home, HaspId.offset, hb] at hlo hhi
    omega

/-! ## The obligations -/

/-- Settles O48: the arbiter answers for the page before the register or the table is reached; a header register beside
CTRL, SHADOW_CTRL and CNT_USER is guarded by nothing and has its own effect. -/
theorem haspsGuardTheirPage : Obligations.HaspsGuardTheirPage := by
  unfold Obligations.HaspsGuardTheirPage
  refine ⟨?guarded, ?window, ?free⟩
  case guarded =>
    intro m p off d s hrun hi hs hh hp hw ha ho
    have hg : haspGuards off = true := by
      simp only [haspGuards, Bool.or_eq_true, beq_iff_eq, decide_eq_true_eq, or_assoc]; exact ho
    rw [exec_registerWrite_page hrun hi hs hp hw ha,
      pageWrite_dropped hi hs (offset_aligned ha) (by omega) (arbiterDrops_guarded hg hh)]
  case window =>
    intro m h addr size d s hrun hi hs hh hw hat hz
    rw [exec_tableWindowWrite_hit hrun hi hs hw hat, winCmd_haspDrop hi hs hz hh]
  case free =>
    intro m p off d s hrun hi hs _ hp hw ha ho hc hq
    have hg : haspGuards off = false := by rcases ho with rfl | rfl | rfl | rfl | rfl <;> rfl
    rw [exec_registerWrite_page hrun hi hs hp hw ha, pageWrite_header (by omega) (by omega) hg hc hq]

/-- Settles O49: a RELEASE splits on HELD, on the owner and on the debug master, and an ACQUIRE of a free hasp takes it. -/
theorem haspReleaseRule : Obligations.HaspReleaseRule := by
  unfold Obligations.HaspReleaseRule
  refine ⟨?owner, ?other, ?debug, ?free, ?acquire⟩
  case owner =>
    intro m h s hrun hi hs ha hh
    obtain ⟨hheld, how⟩ := haspRelease_owner hh
    exact ⟨_, exec_haspRelease hrun hi hs ha, (flag_of_get (get_commit _ _ _)).trans hheld, (get_commit _ _ _).trans how⟩
  case other =>
    intro m h s hrun hi hs ha hh hm
    rw [exec_haspRelease hrun hi hs ha, haspRelease_other hh hm]
  case debug =>
    rintro m h s hrun hi hs ha hh rfl hp
    obtain ⟨hheld, hbroken, how⟩ := haspBreak_reads h s
    refine ⟨_, by rw [exec_haspRelease hrun hi hs ha, haspRelease_debug hh], (flag_of_get (get_commit _ _ _)).trans hheld,
      (flag_of_get (get_commit _ _ _)).trans hbroken, (get_commit _ _ _).trans how, ?_⟩
    rw [get_commit]
    exact haspBreak_latches h s hp
  case free =>
    intro m h s hrun hi hs ha hf
    rw [exec_haspRelease hrun hi hs ha, haspRelease_free hf]
  case acquire =>
    intro m h lease s hrun hi hs ha hf
    obtain ⟨hbroken, how⟩ := haspAcquire_free h s hf m lease.val
    exact ⟨_, exec_haspAcquire hrun hi hs ha lease, (flag_of_get (get_commit _ _ _)).trans hbroken, (get_commit _ _ _).trans how⟩

/-- Settles O50: no field of a hasp is among those that a reset keeps, and each has the reset value 0. -/
theorem resetClearsHasps : Obligations.ResetClearsHasps := by
  unfold Obligations.ResetClearsHasps
  intro s
  have hz {h : HaspId} {f : Fld} (hf : inHaspReg h f) (h0 : f.reset = 0) (u : State) : (resetState u).get f = 0 :=
    (get_resetState (resetKept_not_hasp hf) u).trans h0
  exact ⟨_, rfl, fun h => ⟨hz (HaspId.held_mem h) (by cases h <;> rfl) _, hz (HaspId.broken_mem h) (by cases h <;> rfl) _,
    hz (HaspId.owner_mem h) (by cases h <;> rfl) _, hz (HaspId.lease_mem h) (by cases h <;> rfl) _⟩⟩

/-- Settles O57: what the arbiter lets through finds the page in soft reset, at its block registers, at its resource hasps
and at its windows. -/
theorem resetBusyClosesThePage : Obligations.ResetBusyClosesThePage := by
  unfold Obligations.ResetBusyClosesThePage
  refine ⟨?register, ?window⟩
  case register =>
    intro m p off d s hrun hi hs hh hb hc hq hp hw ha ho hr hcp
    have hd : arbiterDrops m p off s = none := arbiterDrops_passes (by rw [hh, Bool.and_false]) hr
    rw [exec_registerWrite_page hrun hi hs hp hw ha, pageWrite_resetBusy hi hs (offset_aligned ha) ho hd hb hc hq hcp]
  case window =>
    intro m h addr size d s hrun hi hs hh hb hw hat hz
    rw [exec_tableWindowWrite_hit hrun hi hs hw hat, winCmd_resetBusy hi hs hz hh hb]

/-- Settles O58: an accepted write latches bit by bit, and reading takes no snapshot. -/
theorem forcedInterrupts : Obligations.ForcedInterrupts := by
  unfold Obligations.ForcedInterrupts
  refine ⟨fun m p v s hrun hacc hp => ⟨commit s.pending (intForceEff p v s), ?_, fun b => ?_, fun f hf => ?_⟩, fun p s => ?_⟩
  · exact (act_live s _ hrun).trans (by rw [writeCmd_accepts hacc])
  · rw [get_commit, testBit_intForceEff hp v s b.isLt]
  · rw [get_commit, get_intForceEff_other hf]
  · rw [readWord32, snapGroup_header (by decide)]
    exact readReg_intForce p s

end Sys2Proof.Machine
end

section
/-! PROOFS. The memories (chapter 14): what leaves every byte of memory as it is, the words that the code delivers, what a
stored word reads, and the write-back of the scrubber. -/
namespace Sys2Proof.Machine

-- Proofs that run beside the tests above would each hold a thread while the kernel catches up with the model, and past some
-- forty threads the compile of the joined text has no memory for another.
set_option Elab.async false

/-! ## Records and counters of errors leave memory alone -/

@[simp] theorem bucketOver_mem (l : Loc) (s : State) : (bucketOver l s).mem = s.mem := by simp [bucketOver]

@[simp] theorem ErrLog.set_mem (g : ErrLog) (l : Loc) (syn : Nat) (scrub : Bool) (s : State) : (g.set l syn scrub s).mem = s.mem := by
  simp [ErrLog.set]

@[simp] theorem evcCount_mem (t : Fin 18) (ev : Nat) (sel : Fin 2 → Bool) (k : Nat) (s : State) :
    (evcCount t ev sel k s).mem = s.mem := by
  unfold evcCount
  split
  · rfl
  · exact forFin_keeps State.mem _ (fun _ s => by dsimp only; rw [apply_ite State.mem, State.put_mem, ite_self]) s

@[simp] theorem countCE_mem (l : Loc) (syn : Nat) (scrub : Bool) (s : State) : (countCE l syn scrub s).mem = s.mem := by
  unfold countCE
  cases l.tumb <;> simp

@[simp] theorem countUE_mem (l : Loc) (syn : Nat) (scrub : Bool) (s : State) : (countUE l syn scrub s).mem = s.mem := by
  unfold countUE
  dsimp only
  split <;> simp

@[simp] theorem countDrop_mem (cause a : Nat) (s : State) : (countDrop cause a s).mem = s.mem := by
  unfold countDrop
  split <;> simp

@[simp] theorem logErr_mem (p : Page) (cause a b : Nat) (win : Bool) (off : Nat) (s : State) :
    (logErr p cause a b win off s).mem = s.mem := by
  unfold logErr
  dsimp only
  split <;> simp

@[simp] theorem logAddr_mem (a : Nat) (s : State) : (logAddr a s).mem = s.mem := by
  unfold logAddr
  split <;> simp

@[simp] theorem logWin_mem (p : Page) (cause a b addr : Nat) (s : State) : (logWin p cause a b addr s).mem = s.mem := by
  simp [logWin]

@[simp] theorem unmapped_mem (m : Master) (addr : Nat) (s : State) : (unmapped m addr s).mem = s.mem := by simp [unmapped]

@[simp] theorem lapEnd_mem (d : Fin 5) (r : Fin 16) (s : State) : (lapEnd d r s).mem = s.mem := by simp [lapEnd]

/-! ## Reads leave memory alone -/

/-- A counted read changes no byte of memory, whatever it finds and whoever reads (R530, R538). -/
@[simp] theorem readWord_mem (s : State) (l : Loc) (scrub : Bool) : (s.readWord l scrub).2.2.mem = s.mem := by
  unfold State.readWord
  rcases eccDecode (s.rawData l) (s.rawCheck l) with ⟨k, d, syn⟩
  cases k <;> simp

@[simp] theorem windowWord_mem (m : Master) (h : Hit) (addr size : Nat) (s : State) : (windowWord m h addr size s).2.mem = s.mem := by
  have hr := readWord_mem s h.loc false
  unfold windowWord
  split
  · simp
  · rcases hw : s.readWord h.loc false with ⟨k, d, s'⟩
    rw [hw] at hr
    cases k <;> simpa using hr

@[simp] theorem windowRead_mem (m : Master) (addr size : Nat) (s : State) : (windowRead m addr size s).2.mem = s.mem := by
  unfold windowRead
  cases hitAt addr with
  | none => simp
  | some h =>
    dsimp only
    split
    · simp
    · split <;> simp

@[simp] theorem txtsPop_mem (s : State) : (txtsPop s).mem = s.mem := by simp [txtsPop]

@[simp] theorem readWord32_mem (p : Page) (off : Nat) (s : State) : (readWord32 p off s).2.mem = s.mem := by
  unfold readWord32
  rcases snapGroup p off with _ | ⟨first, w⟩
  · rfl
  · dsimp only
    split
    · dsimp only
      split <;> simp
    · rfl

/-- A BAR0 read that does not wait changes no byte of memory. -/
theorem readAt_mem {m : Master} {addr size v : Nat} {s t : State} (h : readAt m addr size s = some (v, t)) : t.mem = s.mem := by
  suffices hk : ∀ x ∈ readAt m addr size s, x.2.mem = s.mem from hk _ h
  unfold readAt
  split
  · cases hitAt addr with
    | none => simp
    | some h => dsimp only; split <;> simp
  · cases Page.ofAddr addr with
    | none => simp
    | some p =>
      dsimp only
      split
      · simp
      · split <;> simp

@[simp] theorem stall_mem (p : Page) (r : BusReq) (passed : Bool) (s : State) : (stall p r passed s).mem = s.mem := rfl

@[simp] theorem deliver_mem (r : BusReq) (v : Nat) (s : State) : (deliver r v s).mem = s.mem := by
  unfold deliver
  dsimp only
  split <;> simp

/-- A transaction that reads changes no byte of memory, also where it waits or is not issued. -/
theorem busTx_read_mem (core : Bool) {r : BusReq} (hr : r.isRead = true) (s : State) : (busTx core r s).mem = s.mem := by
  unfold busTx
  simp only [hr, if_true]
  split
  case isTrue => rfl
  split
  case isTrue => split <;> simp
  split
  case isTrue => simp
  cases hx : readAt r.m r.addr r.size s with
  | none => simp
  | some x => simpa using readAt_mem hx

/-- A command keeps the memory that its effect keeps. -/
theorem act_keeps_mem {s : State} {f : State → State} (hf : (f s).mem = s.mem) : ∃ t, act s f = .next t ∧ t.mem = s.mem := by
  cases h : s.inReset with
  | true => exact ⟨s, act_reset s f h, rfl⟩
  | false => exact ⟨_, act_live s f h, by rw [commit_mem, hf]⟩

/-! ## Words of memory by their bytes -/

theorem State.bytes_of_mem {s t : State} (h : t.mem = s.mem) (k n : Nat) : t.bytes k n = s.bytes k n := by
  induction n generalizing k with
  | zero => rfl
  | succ n ih => simp only [State.bytes, State.byte, ih, h]

theorem State.rawData_of_mem {s t : State} (h : t.mem = s.mem) (l : Loc) : t.rawData l = s.rawData l :=
  State.bytes_of_mem h _ _

theorem State.rawCheck_of_mem {s t : State} (h : t.mem = s.mem) (l : Loc) : t.rawCheck l = s.rawCheck l := by
  simp only [State.rawCheck, State.byte, h]

theorem State.bytes_lt (s : State) (k n : Nat) : s.bytes k n < 256 ^ n := by
  induction n generalizing k with
  | zero => simp [State.bytes]
  | succ n ih =>
    have hb := (s.byte k).isLt
    have hn := ih (k + 1)
    rw [State.bytes, Nat.pow_succ]
    omega

theorem State.rawData_lt (s : State) (l : Loc) : s.rawData l < 2 ^ 64 := s.bytes_lt l.key 8

/-- Bytes keep their values when a byte outside them is written. -/
theorem State.bytes_setByte_other (s : State) (j k n : Nat) (b : Byte) (h : j < k ∨ k + n ≤ j) :
    (s.setByte j b).bytes k n = s.bytes k n := by
  induction n generalizing k with
  | zero => rfl
  | succ n ih => rw [State.bytes, State.bytes, State.byte_setByte_other _ _ _ _ (by omega), ih _ (by omega)]

/-- Bytes that are set from a number read that number, cut to their width. -/
theorem State.bytes_setBytes_self (s : State) (k v n : Nat) : (s.setBytes k v n).bytes k n = v % 256 ^ n := by
  induction n generalizing s k v with
  | zero => simp [State.bytes, Nat.mod_one]
  | succ n ih =>
    rw [State.setBytes, State.bytes, ih, State.byte_setBytes_other _ _ _ _ _ (by omega), State.byte_setByte_self, BitVec.toNat_ofNat,
      Nat.pow_succ' (n := n)]
    exact Nat.mod_mul.symm

/-- A word reads the data that were stored in it. -/
theorem State.rawData_store_self (s : State) (l : Loc) (d : Nat) : (s.store l d).rawData l = d % 2 ^ 64 := by
  rw [State.rawData, State.store, State.storeRaw, State.bytes_setByte_other _ _ _ _ _ (by omega), State.bytes_setBytes_self]
  exact Nat.mod_mod _ _

/-! ## The SECDED code -/

theorem eccCheckFrom_lt (cols : List Nat) (h : ∀ c ∈ cols, c < 2 ^ 8) (d : Nat) : eccCheckFrom d cols < 2 ^ 8 := by
  induction cols generalizing d with
  | nil => exact Nat.two_pow_pos 8
  | cons c cs ih =>
    have hc := h c List.mem_cons_self
    exact Nat.xor_lt_two_pow (by split <;> omega) (ih (fun x hx => h x (List.mem_cons_of_mem _ hx)) _)

/-- The check of a word fits its 8 bits (R528). -/
theorem eccCheck_lt (d : Nat) : eccCheck d < 2 ^ 8 := eccCheckFrom_lt _ (by decide) d

/-- The check of a stored word is that of its data. -/
theorem State.rawCheck_store_self (s : State) (l : Loc) (d : Nat) : (s.store l d).rawCheck l = eccCheck (d % 2 ^ 64) := by
  rw [State.rawCheck, State.store, State.storeRaw, State.byte_setByte_self, BitVec.toNat_ofNat, Nat.mod_eq_of_lt (eccCheck_lt _)]

/-- A read delivers a word of 64 bits: what it corrects is one of them (R529). -/
theorem eccDecode_lt {d c v syn : Nat} {k : EccKind} (hd : d < 2 ^ 64) (h : eccDecode d c = (k, v, syn)) : v < 2 ^ 64 := by
  suffices (eccDecode d c).2.1 < 2 ^ 64 by rwa [h] at this
  unfold eccDecode
  dsimp only
  split
  · exact hd
  split
  · exact hd
  split
  next i hi =>
    obtain ⟨hlt, -⟩ := List.findIdx?_eq_some_iff_getElem.mp hi
    exact Nat.xor_lt_two_pow hd (Nat.pow_lt_pow_right (by decide) hlt)
  next => exact hd

/-! ## The scrubber -/

/-- The scrubber writes a word that it has corrected back (R544). -/
theorem scrubWord_corrected {d : Fin 5} {r : Fin 16} {w v syn : Nat} {s : State}
    (h : eccDecode (s.rawData (regionLoc d r w)) (s.rawCheck (regionLoc d r w)) = (.ce, v, syn)) :
    scrubWord d r w s = (countCE (regionLoc d r w) syn true s).store (regionLoc d r w) v := by
  simp [scrubWord, State.readWord, h]

/-- SCRUB_READ of a scrubber that is behind its pace leaves memory as the word it has passed leaves it (R543 to R545). -/
theorem exec_scrubRead_mem {d : Fin 5} {r : Fin 16} {s : State} (hrun : s.inReset = false) (hs : scrubRuns d s = true)
    (hf : s.flag (HDR.FREEZE (memPage d)) = false) (hb : scrubBehind d r s = true) :
    ∃ t, exec (.scrubRead d r) s = .next t ∧ t.mem = (scrubWord d r (s.get (scrubFlds d r).pos) s).mem := by
  refine ⟨_, act_live s _ hrun, ?_⟩
  simp only [commit_mem, hs, hf, hb, Bool.not_false, Bool.and_self, if_true]
  split <;> simp

/-- Settles O51: reads change records and counters alone, and the scrubber stores the word that it has corrected. -/
theorem correctableErrorsStay : Obligations.CorrectableErrorsStay := by
  unfold Obligations.CorrectableErrorsStay
  refine ⟨fun l s => readWord_mem s l false, fun m addr size s => act_keeps_mem (busTx_read_mem true rfl s), ?scrubber⟩
  case scrubber =>
    intro d r v syn s hrun hs hf hb hce
    obtain ⟨t, ht, hm⟩ := exec_scrubRead_mem hrun hs hf hb
    rw [scrubWord_corrected hce] at hm
    have hv : v % 2 ^ 64 = v := Nat.mod_eq_of_lt (eccDecode_lt (s.rawData_lt _) hce)
    refine ⟨t, ht, ?_, ?_⟩
    · rw [State.rawData_of_mem hm, State.rawData_store_self, hv]
    · rw [State.rawCheck_of_mem hm, State.rawCheck_store_self, hv]

end Sys2Proof.Machine
end

section
/-! PROOFS. The fetch of a Tumbler (chapter 15): bit fields of a number, and the half of a program word that the PC names. -/
namespace Sys2Proof.Machine

/-! ## Bit fields -/

theorem bits_lt (v lo w : Nat) : bits v lo w < 2 ^ w := Nat.mod_lt _ (Nat.two_pow_pos w)

/-- A number has no bits at or above its width. -/
theorem bits_above {v lo : Nat} (h : v < 2 ^ lo) (w : Nat) : bits v lo w = 0 := by
  rw [bits, Nat.div_eq_of_lt h, Nat.zero_mod]

/-! ## The fetched instruction -/

/-- The fetch delivers 32 bits of the program word PC / 2, from bit 32 on where the PC is odd (R563). -/
theorem tumbFetch_instr (t : Fin 18) (x : Fin 2) (s : State) :
    (tumbFetch t x s).2.1
      = bits (s.readWord (tumbProg t (tumbPc t x s / 2)) false).2.1 (32 * (tumbPc t x s % 2)) 32 := rfl

theorem tumbFetch_instr_lt (t : Fin 18) (x : Fin 2) (s : State) : (tumbFetch t x s).2.1 < 2 ^ 32 := by
  rw [tumbFetch_instr]
  exact bits_lt _ _ _

/-- An even PC names the low half of its program word (R563). -/
theorem tumbFetch_even {t : Fin 18} {x : Fin 2} {w : Nat} {s : State} (h : tumbPc t x s = 2 * w) :
    (tumbFetch t x s).2.1 = (s.readWord (tumbProg t w) false).2.1 % 2 ^ 32 := by
  have hword : 2 * w / 2 = w := by omega
  have hhalf : 2 * w % 2 = 0 := by omega
  rw [tumbFetch_instr, h, hword, hhalf, bits, Nat.mul_zero, Nat.pow_zero, Nat.div_one]

/-- An odd PC names the high half of its program word (R563). -/
theorem tumbFetch_odd {t : Fin 18} {x : Fin 2} {w : Nat} {s : State} (h : tumbPc t x s = 2 * w + 1) :
    (tumbFetch t x s).2.1 = (s.readWord (tumbProg t w) false).2.1 / 2 ^ 32 % 2 ^ 32 := by
  have hword : (2 * w + 1) / 2 = w := by omega
  have hhalf : (2 * w + 1) % 2 = 1 := by omega
  rw [tumbFetch_instr, h, hword, hhalf, bits, Nat.mul_one]

/-- Settles O52: the parity of the PC picks the half, and a half has no bits from 32 on. -/
theorem fetchReadsHalves : Obligations.FetchReadsHalves := by
  unfold Obligations.FetchReadsHalves
  intro t x w s _
  exact ⟨tumbFetch_even, tumbFetch_odd, bits_above (tumbFetch_instr_lt t x s) 4⟩

end Sys2Proof.Machine
end

section
/-! PROOFS. Laws that the proofs of the commands share: spellings of a field's update, loops of which each round concerns its
own index, and the frame of a page. -/
namespace Sys2Proof.Machine

set_option Elab.async false

/-! ## Spellings -/

@[simp] theorem State.putB_true (s : State) (f : Fld) : s.putB f true = s.put f 1 := rfl
@[simp] theorem State.putB_false (s : State) (f : Fld) : s.putB f false = s.put f 0 := rfl
@[simp] theorem State.raiseIf_true (s : State) (p : Page) (b : Nat) : s.raiseIf p b true = s.raise p b := rfl
@[simp] theorem State.raiseIf_false (s : State) (p : Page) (b : Nat) : s.raiseIf p b false = s := rfl

/-- A bit of a number by its quotient. -/
theorem bit_eq (v lo : Nat) : bit v lo = decide (v / 2 ^ lo % 2 = 1) := Nat.testBit_eq_decide_div_mod_eq

/-- A field below bit n does not see bit n added. -/
theorem bits_add_two_pow {lo w n : Nat} (h : lo + w ≤ n) (v : Nat) : bits (v + 2 ^ n) lo w = bits v lo w := by
  obtain ⟨k, rfl⟩ := Nat.exists_eq_add_of_le h
  unfold bits
  rw [Nat.pow_add, Nat.pow_add, Nat.mul_assoc, Nat.add_mul_div_left _ _ (Nat.two_pow_pos lo), Nat.add_mul_mod_self_left]

/-- A field below bit n does not see what is cut off from bit n on. -/
theorem bits_mod_two_pow {lo w n : Nat} (h : lo + w ≤ n) (v : Nat) : bits (v % 2 ^ n) lo w = bits v lo w := by
  obtain ⟨k, rfl⟩ := Nat.exists_eq_add_of_le h
  unfold bits
  rw [Nat.pow_add, Nat.pow_add, Nat.mul_assoc, Nat.mod_mul_right_div_self, Nat.mod_mul_right_mod]

/-- The bit added above a word of n bits is 1. -/
theorem bit_add_two_pow_self {v n : Nat} (h : v < 2 ^ n) : bit (v + 2 ^ n) n = true := by
  rw [bit_eq, Nat.add_div_right _ (Nat.two_pow_pos n), Nat.div_eq_of_lt h]
  rfl

/-- A field does not see a bit that is set outside it. -/
theorem bits_or_two_pow {lo w n : Nat} (h : n < lo ∨ lo + w ≤ n) (v : Nat) : bits (v ||| 2 ^ n) lo w = bits v lo w := by
  refine Nat.eq_of_testBit_eq fun i => ?_
  simp only [bits, Nat.testBit_mod_two_pow, Nat.testBit_div_two_pow, Nat.testBit_or, Nat.testBit_two_pow]
  by_cases hi : i < w
  · rw [decide_eq_false (p := n = i + lo) (by omega), Bool.or_false]
  · rw [decide_eq_false hi, Bool.false_and, Bool.false_and]

theorem bit_or_two_pow_self (v n : Nat) : bit (v ||| 2 ^ n) n = true := by simp [bit]

theorem bits_mod_width (v lo w : Nat) : bits v lo w % 2 ^ w = bits v lo w := Nat.mod_mod _ _

/-! ## Where pages lie (R37, R38)

Told apart by their bases, the fields of two pages have different keys. The equations of `Page.base` that Lean would make exceed the
recursion depth, so that they stand here. -/

theorem Page.base_devId : Page.devId.base = 0x0000_0000 := rfl
theorem Page.base_hubctl : Page.hubctl.base = 0x0000_1000 := rfl
theorem Page.base_devInt : Page.devInt.base = 0x0000_2000 := rfl
theorem Page.base_pwr : Page.pwr.base = 0x0000_3000 := rfl
theorem Page.base_timing0 : Page.timing0.base = 0x0001_0000 := rfl
theorem Page.base_timing1 : Page.timing1.base = 0x0001_1000 := rfl
theorem Page.base_timing2 : Page.timing2.base = 0x0001_2000 := rfl
theorem Page.base_timing3 : Page.timing3.base = 0x0001_3000 := rfl
theorem Page.base_ptp : Page.ptp.base = 0x0002_0000 := rfl
theorem Page.base_keyway : Page.keyway.base = 0x0003_0000 := rfl
theorem Page.base_boot : Page.boot.base = 0x0004_0000 := rfl
theorem Page.base_dma (n : Fin 16) : (Page.dma n).base = 0x0005_0000 + n.val * 0x1000 := rfl
theorem Page.base_pcie : Page.pcie.base = 0x0006_0000 := rfl
theorem Page.base_mbox : Page.mbox.base = 0x000A_0000 := rfl
theorem Page.base_fuse : Page.fuse.base = 0x000B_0000 := rfl
theorem Page.base_tsi (q : Fin 4) : (Page.tsi q).base = quadBase q.val + 0x01_0000 := rfl
theorem Page.base_tm (q : Fin 4) : (Page.tm q).base = quadBase q.val + 0x02_0000 := rfl
theorem Page.base_ciph (q : Fin 4) : (Page.ciph q).base = quadBase q.val + 0x03_0000 := rfl
theorem Page.base_mem (q : Fin 4) : (Page.mem q).base = quadBase q.val + 0x04_0000 := rfl
theorem Page.base_lanegrp (g : Fin 32) : (Page.lanegrp g).base = quadBase (g.val / 8) + 0x05_0000 + (g.val % 8) * 0x1000 := rfl
theorem Page.base_htr (q : Fin 4) : (Page.htr q).base = quadBase q.val + 0x07_0000 := rfl
theorem Page.base_conv (c : Fin 16) : (Page.conv c).base = carrierBase c.val := rfl
theorem Page.base_txdsp (c : Fin 16) : (Page.txdsp c).base = carrierBase c.val + 0x1_0000 := rfl
theorem Page.base_rxdsp (c : Fin 16) : (Page.rxdsp c).base = carrierBase c.val + 0x2_0000 := rfl
theorem Page.base_fec (c : Fin 16) : (Page.fec c).base = carrierBase c.val + 0x3_0000 := rfl
theorem Page.base_otu (c : Fin 16) : (Page.otu c).base = carrierBase c.val + 0x4_0000 := rfl
theorem Page.base_hub (c : Fin 16) : (Page.hub c).base = carrierBase c.val + 0x5_0000 := rfl
theorem Page.base_cal (c : Fin 16) : (Page.cal c).base = carrierBase c.val + 0x7_0000 := rfl

/-! ## Signed fields -/

/-- A two's-complement word stands for the integer that it was made from, where that fits (R6). -/
theorem toInt_ofInt {w : Nat} {i : Int} (hlo : -(2 ^ (w - 1) : Nat) ≤ i) (hhi : i < (2 ^ (w - 1) : Nat)) (hw : 0 < w) :
    toInt w (ofInt w i % 2 ^ w) = i := by
  have hpow : 2 ^ w = 2 * 2 ^ (w - 1) := by rw [← Nat.pow_succ']; congr 1; omega
  have hword : ((ofInt w i : Nat) : Int) = if 0 ≤ i then i else i + (2 ^ w : Nat) := by
    have hpos : (0 : Int) < (2 ^ w : Nat) := by exact_mod_cast Nat.two_pow_pos w
    rw [ofInt, Int.toNat_of_nonneg (Int.emod_nonneg _ (ne_of_gt hpos))]
    split
    · exact Int.emod_eq_of_lt ‹_› (by omega)
    · rw [← Int.add_emod_right]; exact Int.emod_eq_of_lt (by omega) (by omega)
  have hlt : ofInt w i < 2 ^ w := by split at hword <;> omega
  unfold toInt
  rw [Nat.mod_mod, Nat.mod_eq_of_lt hlt]
  split at hword <;> split <;> omega

theorem State.geti_of_get {s t : State} {f : Fld} (h : t.get f = s.get f) : t.geti f = s.geti f := by
  rw [State.geti, State.geti, h]

/-- A signed field reads what was put there, where it fits. -/
theorem State.geti_puti_self {f : Fld} {i : Int} (hlo : -(2 ^ (f.width - 1) : Nat) ≤ i) (hhi : i < (2 ^ (f.width - 1) : Nat))
    (hw : 0 < f.width) (s : State) : (s.puti f i).geti f = i := by
  rw [State.geti, State.puti, State.get_put_self, toInt_ofInt hlo hhi hw]

theorem State.geti_puti_other {f g : Fld} (h : f.key ≠ g.key) (i : Int) (s : State) : (s.puti f i).geti g = s.geti g :=
  State.geti_of_get (State.get_put_other s f g _ h)

/-! ## What a write leaves of the other fields

The simplifier's rules for a field with another key. For fields of the pages of one carrier or quadrant the keys are told apart by
`decide`, index by index. -/

section
variable {f g : Fld} {p : Page}

theorem get_incStick_other (h : f.key ≠ g.key) (n : Nat) (s : State) : (s.incStick f n).get g = s.get g :=
  State.get_put_other s f g _ h

theorem get_incWrap_other (h : f.key ≠ g.key) (n : Nat) (s : State) : (s.incWrap f n).get g = s.get g :=
  State.get_put_other s f g _ h

theorem get_setBit_other (h : f.key ≠ g.key) (b : Nat) (s : State) : (s.setBit f b).get g = s.get g :=
  State.get_put_other s f g _ h

theorem get_puti_other (h : f.key ≠ g.key) (i : Int) (s : State) : (s.puti f i).get g = s.get g :=
  State.get_put_other s f g _ h

theorem get_putiSat_other (h : f.key ≠ g.key) (i : Int) (s : State) : (s.putiSat f i).get g = s.get g :=
  State.get_put_other s f g _ h

theorem get_raiseIf_other (h : g.key ≠ (HDR.INT_RAW p).key) (b : Nat) (x : Bool) (s : State) : (s.raiseIf p b x).get g = s.get g := by
  cases x
  · rfl
  · exact get_raise_other h b s

theorem flag_raise_other (h : g.key ≠ (HDR.INT_RAW p).key) (b : Nat) (s : State) : (s.raise p b).flag g = s.flag g :=
  flag_of_get (get_raise_other h b s)

theorem flag_incStick_other (h : f.key ≠ g.key) (n : Nat) (s : State) : (s.incStick f n).flag g = s.flag g :=
  flag_of_get (get_incStick_other h n s)

theorem flag_incWrap_other (h : f.key ≠ g.key) (n : Nat) (s : State) : (s.incWrap f n).flag g = s.flag g :=
  flag_of_get (get_incWrap_other h n s)

theorem flag_clear_other (h : f.key ≠ g.key) (s : State) : (s.clear f).flag g = s.flag g := flag_of_get (get_clear_other h s)

theorem flag_puti_other (h : f.key ≠ g.key) (i : Int) (s : State) : (s.puti f i).flag g = s.flag g := flag_of_get (get_puti_other h i s)

theorem geti_put_other (h : f.key ≠ g.key) (v : Nat) (s : State) : (s.put f v).geti g = s.geti g :=
  State.geti_of_get (State.get_put_other s f g v h)

theorem geti_raise_other (h : g.key ≠ (HDR.INT_RAW p).key) (b : Nat) (s : State) : (s.raise p b).geti g = s.geti g :=
  State.geti_of_get (get_raise_other h b s)

end

/-! ## Loops -/

/-- After a loop each index reads what its own round makes of it. -/
theorem forFin_at {β : Type} {n : Nat} (g : Fin n → State → β) (f : Fin n → State → State) (r : Fin n → β → β)
    (hself : ∀ i s, g i (f i s) = r i (g i s)) (hother : ∀ i j s, i ≠ j → g j (f i s) = g j s) (j : Fin n) (s : State) :
    g j (forFin n f s) = r j (g j s) := by
  have hrest (l : List (Fin n)) (hj : j ∉ l) (u : State) : g j (l.foldl (fun u i => f i u) u) = g j u := by
    induction l generalizing u with
    | nil => rfl
    | cons i l ih =>
      have hi : i ≠ j := fun h => hj (h ▸ List.mem_cons_self)
      have hl : j ∉ l := fun h => hj (List.mem_cons_of_mem _ h)
      rw [List.foldl_cons, ih hl, hother i j u hi]
  suffices ∀ l : List (Fin n), l.Nodup → j ∈ l → ∀ u, g j (l.foldl (fun u i => f i u) u) = r j (g j u) from
    this _ (List.nodup_finRange n) (List.mem_finRange j) s
  intro l hl hj
  induction l with
  | nil => cases hj
  | cons i l ih =>
    obtain ⟨hi, hl⟩ := List.nodup_cons.mp hl
    intro u
    rw [List.foldl_cons]
    rcases List.mem_cons.mp hj with rfl | hm
    · rw [hrest l hi, hself]
    · rw [ih hl hm, hother i j u (fun h => hi (h ▸ hm))]

/-! ## The frame of a page -/

/-- The implied state of every page lies above the addresses of every page. -/
theorem Page.hidBase_above (p q : Page) : q.base + 0x1000 ≤ p.hidBase := by
  obtain ⟨-, hq⟩ := Page.base_bounds q
  unfold Page.hidBase
  omega

theorem get_put_offPage {f g : Fld} {p : Page} (hf : f.onPage p) (hg : ¬ g.onPage p) (v : Nat) (s : State) :
    (s.put f v).get g = s.get g :=
  State.get_put_other s f g v fun h => hg (by unfold Fld.onPage at hf ⊢; rwa [h] at hf)

theorem intRaw_onPage (p : Page) : (HDR.INT_RAW p).onPage p := .inl ⟨by rw [HDR.INT_RAW_key]; omega, by rw [HDR.INT_RAW_key]; omega⟩

theorem get_raise_offPage {g : Fld} {p : Page} (hg : ¬ g.onPage p) (b : Nat) (s : State) : (s.raise p b).get g = s.get g :=
  get_raise_other (fun h => hg (by have := intRaw_onPage p; unfold Fld.onPage at this ⊢; rwa [h])) b s

end Sys2Proof.Machine
end

section
/-! PROOFS. Commands and the interrupt chain (chapter 02, R90 to R94): what every command answers, what commit does, and that
every step leaves the chain in agreement with its pages. -/
namespace Sys2Proof.Machine

set_option Elab.async false

/-! ## What the chain reads -/

section
variable {s t : State} (h : t.cells = s.cells)
include h

-- The chain reads fields alone, so that it may read them in the state with the other's cells.
theorem summary0_of_cells : summary0 t = summary0 s := by
  change summary0 { s with cells := t.cells } = _
  rw [h]

theorem summary1_of_cells : summary1 t = summary1 s := by
  change summary1 { s with cells := t.cells } = _
  rw [h]

theorem vecInputs_of_cells : vecInputs t = vecInputs s := by
  change vecInputs { s with cells := t.cells } = _
  rw [h]

theorem sumOutputs_of_cells : sumOutputs t = sumOutputs s := by
  change sumOutputs { s with cells := t.cells } = _
  rw [h]

end

/-! ## The chain at reset -/

theorem get_reset (f : Fld) : State.reset.get f = f.reset := rfl

theorem bytes_reset (k n : Nat) : State.reset.bytes k n = 0 := by
  induction n generalizing k with
  | zero => rfl
  | succ n ih => rw [State.bytes, ih]; rfl

/-- No cause is latched in the reset state (R45, R49). -/
theorem srcOn_reset (p : Page) : srcOn State.reset p = false := by
  rw [srcOn, State.masked, get_reset, show (HDR.INT_RAW p).reset = 0 from rfl, Nat.zero_and]
  rfl

theorem mask_false (n : Nat) : mask n (fun _ => false) = 0 := foldl_keeps id _ (fun _ _ => rfl) _ 0

theorem cintOut_reset (c : Fin 16) : cintOut State.reset c = false := by
  simp [cintOut, cintSummary, srcOn_reset]

theorem qintOut_reset (q : Fin 4) : qintOut State.reset q = false := by
  simp [qintOut, qintSummary, cintOut_reset, srcOn_reset, mask_false]

theorem summary0_reset : summary0 State.reset = 0 := by
  simp [summary0, qintOut_reset, srcOn_reset, mask_false]

theorem summary1_reset : summary1 State.reset = 0 := by
  simp [summary1, srcOn_reset, mask_false]

theorem vecInputs_reset : vecInputs State.reset = 0 := by
  simp only [vecInputs, summary0_reset, summary1_reset]
  exact foldl_keeps id _ (fun _ _ => by simp) _ 0

theorem sumOutputs_reset : sumOutputs State.reset = 0 := by
  simp [sumOutputs, cintOut_reset, summary0_reset, mask_false]

/-! ## The messages of a settling -/

/-- A vector holds its message pending: it or the function is masked (R93). -/
def vecMasked (s : State) (v : Fin 64) : Bool := s.flag (MSIX.MASKED v) || s.flag MSIX.FUNC_MASKED

/-- The messages of the vectors of a list whose input has risen, in order (R93). -/
def vecMessages (rose : Nat) (l : List (Fin 64)) (s : State) : State :=
  l.foldl (fun s v => if rose.testBit v.val then vecMessage v s else s) s

theorem vecMessage_masked {v : Fin 64} {s : State} (h : vecMasked s v = true) :
    vecMessage v s = { s with vecPend := s.vecPend ||| 2 ^ v.val } := if_pos h

theorem vecMessage_open {v : Fin 64} {s : State} (h : vecMasked s v = false) : vecMessage v s = s.send (.msix v) :=
  if_neg (by simpa [vecMasked] using h)

theorem vecMasked_vecMessage (v w : Fin 64) (s : State) : vecMasked (vecMessage v s) w = vecMasked s w := by
  simp only [vecMasked, State.flag, State.get_of_cells _ _ _ (vecMessage_cells v s)]

theorem vecMessages_cons (rose : Nat) (v : Fin 64) (l : List (Fin 64)) (s : State) :
    vecMessages rose (v :: l) s = vecMessages rose l (if rose.testBit v.val then vecMessage v s else s) := rfl

theorem vecMasked_round (rose : Nat) (v w : Fin 64) (s : State) :
    vecMasked (if rose.testBit v.val then vecMessage v s else s) w = vecMasked s w := by
  split
  · exact vecMasked_vecMessage v w s
  · rfl

/-- Each open vector whose input has risen has sent its message once, in order. -/
theorem vecMessages_sent (rose : Nat) (l : List (Fin 64)) (s : State) :
    (vecMessages rose l s).sent
      = s.sent ++ (l.filter fun v => rose.testBit v.val && !vecMasked s v).map Output.msix := by
  induction l generalizing s with
  | nil => simp [vecMessages]
  | cons v l ih =>
    rw [vecMessages_cons, ih]
    simp only [vecMasked_round]
    cases hr : rose.testBit v.val with
    | false => simp [hr]
    | true => cases hm : vecMasked s v <;> simp [hr, hm, vecMessage_masked, vecMessage_open, State.send]

/-- Each masked vector whose input has risen holds its message pending. -/
theorem vecMessages_vecPend (rose : Nat) (l : List (Fin 64)) (s : State) (w : Fin 64) :
    (vecMessages rose l s).vecPend.testBit w.val
      = (s.vecPend.testBit w.val || (decide (w ∈ l) && rose.testBit w.val && vecMasked s w)) := by
  induction l generalizing s with
  | nil => simp [vecMessages]
  | cons v l ih =>
    have hw : v.val = w.val ↔ w = v := by omega
    rw [vecMessages_cons, ih, vecMasked_round]
    cases hr : rose.testBit v.val with
    | false => by_cases hv : w = v <;> simp_all
    | true =>
      cases hm : vecMasked s v with
      | false => by_cases hv : w = v <;> simp_all [vecMessage_open, State.send]
      | true => by_cases hv : w = v <;> simp_all [vecMessage_masked]

/-- The messages change what has been sent and the pending array, and nothing else. -/
theorem vecMessages_frame (rose : Nat) (l : List (Fin 64)) (s : State) :
    vecMessages rose l s = { s with sent := (vecMessages rose l s).sent, vecPend := (vecMessages rose l s).vecPend } := by
  induction l generalizing s with
  | nil => rfl
  | cons v l ih =>
    rw [vecMessages_cons]
    refine (ih _).trans ?_
    split
    · cases hm : vecMasked s v <;> simp [hm, vecMessage_masked, vecMessage_open, State.send]
    · rfl

/-! ## What commit does -/

/-- The inputs that have risen since the chain last settled. -/
def vecRose (s : State) : Nat := vecInputs s &&& (vecInputs s ^^^ s.vecIn)

theorem testBit_vecRose (s : State) (i : Nat) : (vecRose s).testBit i = ((vecInputs s).testBit i && !s.vecIn.testBit i) := by
  rw [vecRose, Nat.testBit_and, Nat.testBit_xor]
  cases (vecInputs s).testBit i <;> simp

theorem vecMessages_none (l : List (Fin 64)) (s : State) : vecMessages 0 l s = s :=
  foldl_keeps id _ (fun u v => by simp) l s

theorem vecMessages_cells (rose : Nat) (l : List (Fin 64)) (s : State) : (vecMessages rose l s).cells = s.cells := by
  rw [vecMessages_frame]

/-- The loop of a settling is skipped where no input has risen, and would change nothing then. -/
theorem settle_loop (s : State) :
    (if vecInputs s &&& (vecInputs s ^^^ s.vecIn) = 0 then s
      else forFin 64 (fun v u => if (vecInputs s &&& (vecInputs s ^^^ s.vecIn)).testBit v.val then vecMessage v u else u) s)
        = vecMessages (vecRose s) (List.finRange 64) s := by
  rw [← vecRose]
  split
  case isTrue h0 => rw [h0, vecMessages_none]
  case isFalse => unfold vecMessages forFin; rfl

/-- A settling is the messages of the inputs that have risen, and then the levels. -/
theorem settle_eq (s : State) : settle s = { vecMessages (vecRose s) (List.finRange 64) s with
    vecIn := vecInputs s
    sumPend := s.sumPend ||| sumTargets (sumOutputs s &&& (sumOutputs s ^^^ s.sumPrev))
    sumPrev := sumOutputs s
    alarm := (summary0 s &&& s.get INT.ALARM_EN0) != 0 || (summary1 s &&& s.get INT.ALARM_EN1) != 0 } := by
  have hc := vecMessages_cells (vecRose s) (List.finRange 64) s
  have hf := vecMessages_frame (vecRose s) (List.finRange 64) s
  unfold settle
  simp only [settle_loop, summary0_of_cells hc, summary1_of_cells hc, State.get_of_cells _ _ _ hc]
  rw [hf]

theorem commit_eq (q : List Instr) (s : State) : commit q s = { vecMessages (vecRose s) (List.finRange 64) s with
    vecIn := vecInputs s
    sumPend := s.sumPend ||| sumTargets (sumOutputs s &&& (sumOutputs s ^^^ s.sumPrev))
    sumPrev := sumOutputs s
    alarm := (summary0 s &&& s.get INT.ALARM_EN0) != 0 || (summary1 s &&& s.get INT.ALARM_EN1) != 0
    pending := q } := by
  rw [commit, settle_eq]

/-- ALARM_N is low where an enabled summary bit is 1 (R94). -/
theorem commit_alarm (q : List Instr) (s : State) :
    (commit q s).alarm = true ↔ summary0 s &&& s.get INT.ALARM_EN0 ≠ 0 ∨ summary1 s &&& s.get INT.ALARM_EN1 ≠ 0 := by
  simp [commit_eq]

/-- After commit the chain agrees with its pages. -/
theorem commit_chainSettled (q : List Instr) (s : State) : ChainSettled (commit q s) := by
  have hc := commit_cells q s
  intro _
  rw [vecInputs_of_cells hc, sumOutputs_of_cells hc, summary0_of_cells hc, summary1_of_cells hc, get_commit, get_commit]
  exact ⟨rfl, rfl, commit_alarm q s⟩

theorem chainSettled_of_reset {s : State} (h : s.inReset = true) : ChainSettled s := fun h' => by simp [h] at h'

theorem chainSettled_pending {s : State} (h : ChainSettled s) (q : List Instr) : ChainSettled { s with pending := q } := h

/-! ## Resets -/

theorem resetState_inReset (s : State) : (resetState s).inReset = true := by
  unfold resetState
  rw [forL_keeps State.inReset _ _ fun _ _ => State.put_inReset _ _ _]

theorem resetState_pending (s : State) : (resetState s).pending = s.pending := by
  unfold resetState
  rw [forL_keeps State.pending _ _ fun _ _ => State.put_pending _ _ _]

theorem blowOwner_pending (k : Fin 2) (key : Nat) (s : State) : (blowOwner k key s).pending = s.pending := by
  unfold blowOwner
  exact forFin_keeps State.pending _ (fun _ _ => State.put_pending _ _ _) s

/-- What a reset cuts short changes fuses and draws free values (R663). -/
theorem fuseCut_pending (s : State) : (fuseCut s).pending = s.pending := by
  unfold fuseCut
  split
  case isFalse => rfl
  case isTrue =>
    extract_lets op arg k key d part u
    have hu : u.pending = s.pending := rfl
    clear_value u part
    rw [← hu]
    split_ifs
    · exact (State.putFree_pending _ _).trans (blowOwner_pending k part u)
    all_goals rfl

theorem enterReset_inReset (cause : Nat) (s : State) : (enterReset cause s).inReset = true := resetState_inReset _

theorem enterReset_pending (cause : Nat) (s : State) : (enterReset cause s).pending = s.pending := by
  unfold enterReset
  simp only [resetState_pending, fuseCut_pending, State.put_pending, State.incStick_pending, apply_ite State.pending, ite_self]

/-! ## What a command answers -/

/-- A command answers through `act`, but for the four of the pins and rails, which act in reset too (R667, R668). -/
theorem exec_cases (c : Instr) (s : State) :
    (∃ f, exec c s = act s f) ∨ c = .pwrOkRise ∨ (∃ rails, c = .pwrOkFall rails) ∨ c = .resetNAssert
      ∨ ∃ strap, c = .resetRelease strap := by
  cases c
  case pwrOkRise => exact .inr (.inl rfl)
  case pwrOkFall rails => exact .inr (.inr (.inl ⟨rails, rfl⟩))
  case resetNAssert => exact .inr (.inr (.inr (.inl rfl)))
  case resetRelease strap => exact .inr (.inr (.inr (.inr ⟨strap, rfl⟩)))
  all_goals left; delta exec; dsimp only; exact ⟨_, rfl⟩

/-- The state that a command leaves: as it was, committed, or in reset, and with the commands that wait. -/
theorem exec_answers (c : Instr) (s : State) :
    ∃ t, exec c s = .next t ∧ t.pending = s.pending ∧ (t = s ∨ (∃ u, t = commit s.pending u) ∨ t.inReset = true) := by
  rcases exec_cases c s with ⟨f, hf⟩ | rfl | ⟨rails, rfl⟩ | rfl | ⟨strap, rfl⟩
  case inl =>
    rw [hf]
    cases h : s.inReset with
    | true => exact ⟨s, act_reset s f h, rfl, .inl rfl⟩
    | false => exact ⟨_, act_live s f h, rfl, .inr (.inl ⟨_, rfl⟩)⟩
  · exact ⟨_, rfl, rfl, .inr (.inl ⟨_, rfl⟩)⟩
  · change ∃ t, execPwrOkFall rails s = .next t ∧ _
    unfold execPwrOkFall
    split
    · exact ⟨s, rfl, rfl, .inl rfl⟩
    · exact ⟨_, rfl, enterReset_pending _ _, .inr (.inr (enterReset_inReset _ _))⟩
  · exact ⟨_, rfl, enterReset_pending _ _, .inr (.inr (enterReset_inReset _ _))⟩
  · change ∃ t, execResetRelease strap s = .next t ∧ _
    unfold execResetRelease
    split
    · exact ⟨_, rfl, rfl, .inr (.inl ⟨_, rfl⟩)⟩
    · exact ⟨s, rfl, rfl, .inl rfl⟩

/-- A command keeps the chain in agreement with its pages. -/
theorem exec_chainSettled {c : Instr} {s t : State} (hs : ChainSettled s) (h : exec c s = .next t) : ChainSettled t := by
  obtain ⟨u, hu, -, hk⟩ := exec_answers c s
  obtain rfl : u = t := by rw [hu] at h; exact Host.Outcome.next.inj h
  rcases hk with rfl | ⟨v, rfl⟩ | hr
  · exact hs
  · exact commit_chainSettled _ v
  · exact chainSettled_of_reset hr

theorem step_cons {c : Instr} {rest : List Instr} {s : State} (h : s.pending = c :: rest) :
    step s = exec c { s with pending := rest } := by
  rw [step, h]

theorem step_nil {s : State} (h : s.pending = []) : step s = act s (forFin 16 txFrame) := by
  rw [step, h]
  rfl

/-! ## The obligations -/

/-- Settles O41: the queue is not empty. -/
theorem stepRunsFront : Obligations.StepRunsFront := fun _ _ _ h => step_cons h

/-- Settles O42: on the empty queue a step is one more effect under `act`. -/
theorem emptyQueueLetsTimePass : Obligations.EmptyQueueLetsTimePass := by
  unfold Obligations.EmptyQueueLetsTimePass
  refine ⟨fun s hq hrun => ?_, fun s hq hr => ?_⟩
  · rw [step_nil hq, act_live _ _ hrun, hq]
  · rw [step_nil hq, act_reset _ _ hr]

/-- Settles O43. -/
theorem everyCommandAnswers : Obligations.EveryCommandAnswers := by
  unfold Obligations.EveryCommandAnswers
  intro c s
  obtain ⟨t, ht, hp, -⟩ := exec_answers c s
  exact ⟨t, ht, hp⟩

/-- Settles O44: every other command is an effect under `act`. -/
theorem resetHoldsTheEngine : Obligations.ResetHoldsTheEngine := by
  unfold Obligations.ResetHoldsTheEngine
  intro c s hr hrise hfall hassert hrelease
  rcases exec_cases c s with ⟨f, hf⟩ | h | ⟨rails, h⟩ | h | ⟨strap, h⟩
  · rw [hf, act_reset s f hr]
  · exact absurd h hrise
  · exact absurd h (hfall rails)
  · exact absurd h hassert
  · exact absurd h (hrelease strap)

/-- Settles O45: the reset state lists no register cell and no byte of memory, and its queues are empty. -/
theorem Reset.resetState : Obligations.ResetState := by
  unfold Obligations.ResetState
  refine ⟨get_reset, fun p => ?enable, fun h => ?hasps, fun q => ?quads, rfl, fun l => ⟨bytes_reset _ _, rfl⟩, rfl, rfl, rfl, rfl, rfl,
    rfl, rfl⟩
  case enable =>
    rw [State.flag, get_reset]
    cases p <;> simp [HDR.ENABLE, enableReset]
  case hasps => cases h <;> exact ⟨rfl, rfl⟩
  case quads => rw [qState, get_reset, show PWR.PWR_STAT_Q_STATE.reset = 0 from rfl, bits, Nat.zero_div, Nat.zero_mod]

/-- Settles O46: no page has a cause in the reset state. -/
theorem chainSettledAtReset : Obligations.ChainSettledAtReset := by
  unfold Obligations.ChainSettledAtReset
  intro _
  rw [vecInputs_reset, sumOutputs_reset, summary0_reset, summary1_reset]
  exact ⟨rfl, rfl, by simp [State.reset]⟩

/-- Settles O47: a command commits, resets, or changes nothing, and so does the passing of time. -/
theorem chainSettledKept : Obligations.ChainSettledKept := by
  unfold Obligations.ChainSettledKept
  intro s t hs h
  cases hq : s.pending with
  | nil =>
    rw [step_nil hq] at h
    cases hr : s.inReset with
    | true => rw [act_reset _ _ hr] at h; exact Host.Outcome.next.inj h ▸ hs
    | false => rw [act_live _ _ hr] at h; exact Host.Outcome.next.inj h ▸ commit_chainSettled _ _
  | cons c rest =>
    rw [step_cons hq] at h
    exact exec_chainSettled (chainSettled_pending hs rest) h

/-- Settles O56: the messages are those of the inputs that have risen. -/
theorem interruptChain : Obligations.InterruptChain := by
  unfold Obligations.InterruptChain
  intro q s
  refine ⟨rfl, commit_alarm q s, ?sent, fun v => ?vecPend, ?frame⟩
  case sent =>
    rw [commit_eq, vecMessages_sent]
    simp only [testBit_vecRose, vecMasked, Bool.not_or, Bool.and_assoc]
  case vecPend =>
    rw [commit_eq, vecMessages_vecPend, testBit_vecRose, decide_eq_true (List.mem_finRange v), Bool.true_and, vecMasked]
  case frame =>
    rw [commit_eq, vecMessages_frame]

end Sys2Proof.Machine
end

section
/-! PROOFS. The memory code, stored words and register fields (chapters 02 and 14): the code is linear and its columns have odd
weight, a stored word reads back, and a field that is put reads back. -/
namespace Sys2Proof.Machine

set_option Elab.async false

/-! ## The code is linear -/

theorem eccCheckFrom_zero (cols : List Nat) : eccCheckFrom 0 cols = 0 := by
  induction cols with
  | nil => rfl
  | cons c cs ih => simp [eccCheckFrom, ih]

/-- The check of a sum is the sum of the checks (R528). -/
theorem eccCheckFrom_xor (cols : List Nat) (a b : Nat) : eccCheckFrom (a ^^^ b) cols = eccCheckFrom a cols ^^^ eccCheckFrom b cols := by
  induction cols generalizing a b with
  | nil => simp [eccCheckFrom]
  | cons c cs ih =>
    have hdiv : (a ^^^ b) / 2 = a / 2 ^^^ b / 2 := Nat.xor_div_two_pow (n := 1)
    have hmod : (a ^^^ b) % 2 = 1 ↔ ¬(a % 2 = 1 ↔ b % 2 = 1) := by
      rw [Nat.xor_mod_two_eq]; omega
    simp only [eccCheckFrom, hdiv, ih, hmod]
    by_cases ha : a % 2 = 1 <;> by_cases hb : b % 2 = 1 <;> simp [ha, hb, Nat.xor_assoc, Nat.xor_left_comm]

/-- The check of a single bit is its column. -/
theorem eccCheckFrom_two_pow (cols : List Nat) (i : Nat) : eccCheckFrom (2 ^ i) cols = cols.getD i 0 := by
  induction cols generalizing i with
  | nil => rfl
  | cons c cs ih =>
    cases i with
    | zero => simp [eccCheckFrom, eccCheckFrom_zero]
    | succ i =>
      have hmod : 2 ^ (i + 1) % 2 = 0 := by rw [Nat.pow_succ]; omega
      have hdiv : 2 ^ (i + 1) / 2 = 2 ^ i := by rw [Nat.pow_succ]; omega
      simp [eccCheckFrom, hmod, hdiv, ih]

theorem eccCheck_flip (d i : Nat) : eccCheck (d ^^^ 2 ^ i) = eccCheck d ^^^ eccColumns.getD i 0 := by
  rw [eccCheck, eccCheckFrom_xor, eccCheckFrom_two_pow]
  rfl

/-! ## What a syndrome decides -/

/-- The number of bits of the 8 that are 1 is odd. -/
def oddWeight (n : Nat) : Bool := (List.range 8).foldr (fun i b => n.testBit i ^^ b) false

theorem oddWeight_xor (a b : Nat) : oddWeight (a ^^^ b) = (oddWeight a ^^ oddWeight b) := by
  unfold oddWeight
  induction List.range 8 with
  | nil => rfl
  | cons i l ih =>
    rw [List.foldr_cons, List.foldr_cons, List.foldr_cons, ih, Nat.testBit_xor, Bool.xor_assoc, Bool.xor_left_comm (b.testBit i),
      Bool.xor_assoc]

theorem oddWeight_column (i : Fin 64) : oddWeight (eccColumns.getD i.val 0) = true := by
  revert i; decide

theorem oddWeight_check (j : Fin 8) : oddWeight (2 ^ j.val) = true := by
  revert j; decide

/-- The columns are distinct, and none is that of a check bit (R528). -/
theorem eccColumns_search (i : Fin 64) :
    eccColumns.findIdx? (· == eccColumns.getD i.val 0) = some i.val
      ∧ ((List.range 8).any fun j => eccColumns.getD i.val 0 == 2 ^ j) = false ∧ eccColumns.getD i.val 0 ≠ 0 := by
  revert i; decide

section
variable {d c : Nat}

/-- The syndrome of a data bit names that bit (R529). -/
theorem eccDecode_data {i : Fin 64} (h : eccCheck d ^^^ c = eccColumns.getD i.val 0) :
    eccDecode d c = (.ce, d ^^^ 2 ^ i.val, eccColumns.getD i.val 0) := by
  obtain ⟨hfind, hany, hne⟩ := eccColumns_search i
  unfold eccDecode
  simp only [h, hne, hany, hfind, if_false, Bool.false_eq_true]

/-- The syndrome of a check bit leaves the data as they are (R529). -/
theorem eccDecode_check {j : Fin 8} (h : eccCheck d ^^^ c = 2 ^ j.val) : eccDecode d c = (.ce, d, 2 ^ j.val) := by
  have hany : ((List.range 8).any fun i => 2 ^ j.val == 2 ^ i) = true :=
    List.any_eq_true.mpr ⟨j.val, List.mem_range.mpr j.isLt, beq_self_eq_true _⟩
  unfold eccDecode
  simp only [h, hany, if_true, Nat.pow_eq_zero, OfNat.ofNat_ne_zero, false_and, if_false]

/-- A syndrome of even weight that is not 0 is that of no single bit (R529). -/
theorem eccDecode_even (hne : eccCheck d ^^^ c ≠ 0) (hev : oddWeight (eccCheck d ^^^ c) = false) : (eccDecode d c).1 = .ue := by
  have hany : ((List.range 8).any fun i => eccCheck d ^^^ c == 2 ^ i) = false := by
    rw [List.any_eq_false]
    intro j hj he
    have := oddWeight_check ⟨j, List.mem_range.mp hj⟩
    rw [beq_iff_eq.mp he] at hev
    simp_all
  have hfind : eccColumns.findIdx? (· == eccCheck d ^^^ c) = none := by
    rw [List.findIdx?_eq_none_iff]
    intro x hx
    obtain ⟨i, hi, rfl⟩ := List.getElem_of_mem hx
    have hodd := oddWeight_column ⟨i, hi⟩
    rw [List.getD_eq_getElem _ _ hi] at hodd
    exact beq_false_of_ne fun he => by rw [← he] at hev; simp_all
  unfold eccDecode
  simp only [hne, hany, hfind, if_false, Bool.false_eq_true]

end

/-- Two flips of bits of different odd columns have a syndrome of even weight that is not 0. -/
theorem even_of_two_odd {a b : Nat} (ha : oddWeight a = true) (hb : oddWeight b = true) (hab : a ≠ b) :
    a ^^^ b ≠ 0 ∧ oddWeight (a ^^^ b) = false :=
  ⟨fun h => hab (Nat.xor_eq_zero_iff.mp h), by rw [oddWeight_xor, ha, hb]; rfl⟩

theorem eccColumns_inj {i k : Fin 64} (h : eccColumns.getD i.val 0 = eccColumns.getD k.val 0) : i = k := by
  have hi := (eccColumns_search i).1
  rw [h, (eccColumns_search k).1] at hi
  exact Fin.ext (Option.some.inj hi).symm

theorem eccColumns_ne_check (i : Fin 64) (j : Fin 8) : eccColumns.getD i.val 0 ≠ 2 ^ j.val := by
  intro h
  have := List.any_eq_false.mp (eccColumns_search i).2.1 j.val (List.mem_range.mpr j.isLt)
  exact this (beq_iff_eq.mpr h)

/-- Settles O53: by linearity the syndrome of a word is the sum of the columns of its flipped bits. -/
theorem secdedCode : Obligations.SecdedCode := by
  unfold Obligations.SecdedCode
  intro d _
  have hdata (i : Nat) : eccCheck (d ^^^ 2 ^ i) ^^^ eccCheck d = eccColumns.getD i 0 := by
    rw [eccCheck_flip, Nat.xor_comm, Nat.xor_xor_cancel_left]
  have hcheck (j : Nat) : eccCheck d ^^^ (eccCheck d ^^^ 2 ^ j) = 2 ^ j := Nat.xor_xor_cancel_left _ _
  refine ⟨?clean, fun i => ?data, fun j => ?check, fun i k hik => ?dataData, fun i j => ?dataCheck, fun j k hjk => ?checkCheck⟩
  case clean => simp [eccDecode]
  case data => rw [eccDecode_data (hdata i), Nat.xor_xor_cancel_right]
  case check => exact eccDecode_check (hcheck j)
  case dataData =>
    have hsyn : eccCheck (d ^^^ 2 ^ i.val ^^^ 2 ^ k.val) ^^^ eccCheck d = eccColumns.getD i.val 0 ^^^ eccColumns.getD k.val 0 := by
      rw [eccCheck_flip, Nat.xor_right_comm, hdata]
    obtain ⟨hne, hev⟩ := even_of_two_odd (oddWeight_column i) (oddWeight_column k) (fun h => hik (eccColumns_inj h))
    exact eccDecode_even (hsyn ▸ hne) (hsyn ▸ hev)
  case dataCheck =>
    have hsyn : eccCheck (d ^^^ 2 ^ i.val) ^^^ (eccCheck d ^^^ 2 ^ j.val) = eccColumns.getD i.val 0 ^^^ 2 ^ j.val := by
      rw [← Nat.xor_assoc, hdata]
    obtain ⟨hne, hev⟩ := even_of_two_odd (oddWeight_column i) (oddWeight_check j) (eccColumns_ne_check i j)
    exact eccDecode_even (hsyn ▸ hne) (hsyn ▸ hev)
  case checkCheck =>
    have hsyn : eccCheck d ^^^ (eccCheck d ^^^ 2 ^ j.val ^^^ 2 ^ k.val) = 2 ^ j.val ^^^ 2 ^ k.val := by
      rw [← Nat.xor_assoc, hcheck]
    obtain ⟨hne, hev⟩ := even_of_two_odd (oddWeight_check j) (oddWeight_check k)
      (fun h => hjk (Fin.ext (Nat.pow_right_injective (Nat.le_refl 2) h)))
    exact eccDecode_even (hsyn ▸ hne) (hsyn ▸ hev)

/-! ## Stored words -/

theorem readWord_clean {s : State} {l : Loc} {d : Nat} (h : eccDecode (s.rawData l) (s.rawCheck l) = (.ok, d, 0)) :
    s.readWord l false = (.ok, d, s) := by
  simp [State.readWord, h]

/-- A word stored with its own check reads as clean. -/
theorem eccDecode_own (d : Nat) : eccDecode d (eccCheck d) = (.ok, d, 0) := by simp [eccDecode]

theorem setBytes_frame (s : State) (k v n : Nat) : s.setBytes k v n = { s with mem := (s.setBytes k v n).mem } := by
  induction n generalizing s k v with
  | zero => rfl
  | succ n ih => exact (ih (s.setByte k (BitVec.ofNat 8 v)) (k + 1) (v / 256)).trans rfl

theorem store_frame (s : State) (l : Loc) (d : Nat) : s.store l d = { s with mem := (s.store l d).mem } := by
  rw [State.store, State.storeRaw, State.setByte, setBytes_frame]

/-- Settles O54. -/
theorem memoryWords : Obligations.MemoryWords := by
  unfold Obligations.MemoryWords
  intro l d s
  have hdata := s.rawData_store_self l d
  have hcheck := s.rawCheck_store_self l d
  exact ⟨hdata, hcheck, readWord_clean (by rw [hdata, hcheck, eccDecode_own]), s.byte_store_other l d, store_memWf s l d, store_frame s l d⟩

/-! ## Register fields -/

/-- Settles O55. -/
theorem registerFields : Obligations.RegisterFields := by
  unfold Obligations.RegisterFields
  exact ⟨fun f v s => s.get_put_self f v, fun f g v s h => s.get_put_other f g v h.symm, fun _ _ _ => rfl, fun t x v s => ⟨rfl, rfl⟩⟩

end Sys2Proof.Machine
end

section
/-! PROOFS. The line (chapters 04, 08 and 09): whitening, scrambling and fill are undone, and the frames of a multiframe tile it. -/
namespace Sys2Proof.Machine

set_option Elab.async false

/-! ## Line codes -/

/-- The same stream added twice is gone (R149). -/
theorem whiten_whiten (st : Nat) (l : List Bool) : whiten st (whiten st l) = l := by
  induction l generalizing st with
  | nil => rfl
  | cons b l ih => rw [whiten, whiten, ih, Bool.xor_assoc, Bool.xor_self, Bool.xor_false]

theorem scrRun_scrRun (st : Nat) (l : List Nat) : scrRun st (scrRun st l) = l := by
  induction l generalizing st with
  | nil => rfl
  | cons b l ih => rw [scrRun, scrRun, ih, Nat.xor_xor_cancel_right]

/-- The scrambler leaves the first six octets (R310). -/
theorem scramble_take (l : List Nat) : (scramble l).take 6 = l.take 6 := by
  by_cases h : 6 ≤ l.length
  · rw [scramble, List.take_left' (List.length_take_of_le h)]
  · have hl : l.length ≤ 6 := by omega
    rw [scramble, List.drop_of_length_le hl, scrRun, List.append_nil, List.take_take, Nat.min_self]

theorem scramble_drop (l : List Nat) : (scramble l).drop 6 = scrRun 0xFFFF (l.drop 6) := by
  by_cases h : 6 ≤ l.length
  · rw [scramble, List.drop_left' (List.length_take_of_le h)]
  · have hl : l.length ≤ 6 := by omega
    rw [scramble, List.drop_of_length_le hl, scrRun, List.append_nil, List.drop_of_length_le (by simp)]

theorem scramble_scramble (l : List Nat) : scramble (scramble l) = l := by
  conv_lhs => rw [scramble]
  rw [scramble_take, scramble_drop, scrRun_scrRun, List.take_append_drop]

/-- Settles O59. -/
theorem lineCodesUndo : Obligations.LineCodesUndo := by
  unfold Obligations.LineCodesUndo
  refine ⟨whiten_whiten, fun l => ⟨scramble_scramble l, scramble_take l⟩, fun cap l => ⟨?drop, fun h => ?fills⟩⟩
  case drop => rw [dropFill, addFill, List.take_left]
  case fills => rw [addFill, List.length_append, List.length_map, List.length_range]; omega

/-! ## The frames of a multiframe -/

/-- A frame begins where the one before it ends (R303). -/
theorem frameStart_add_frameBits (S f : Nat) : frameStart S f + frameBits S f = frameStart S (f + 1) := by
  have hle : frameStart S f ≤ frameStart S (f + 1) :=
    Nat.div_le_div_right (Nat.mul_le_mul_right _ (Nat.le_succ f))
  rw [frameBits]; omega

theorem frameStart_end (S : Nat) : frameStart S 256 = mfBits S := Nat.mul_div_cancel_left _ (by decide)

section
variable {S H : Nat} (h : 2048 * H ≤ 5115 * S)
include h

/-- A frame has room for its overhead, and the frames before it for theirs (R304). -/
theorem overhead_fits (f : Nat) : 8 * H ≤ frameBits S f ∧ 8 * H * f ≤ frameStart S f := by
  have hprod : 2048 * H * f ≤ 5115 * S * f := Nat.mul_le_mul_right f h
  have hnext : (f + 1) * (1504740 * S) = f * (1504740 * S) + 1504740 * S := Nat.succ_mul _ _
  have hstart : f * (1504740 * S) = 1504740 * (S * f) := by ring
  have hover : 2048 * H * f = 256 * (8 * H * f) := by ring
  have hslots : 5115 * S * f = 5115 * (S * f) := by ring
  unfold frameBits frameStart mfBits
  rw [hnext]
  generalize f * (1504740 * S) = a at *
  generalize S * f = b at *
  generalize 8 * H * f = c at *
  omega

/-- The payload areas follow one another in the slot area (R340). -/
theorem areaStart_add_slotBits {f : Nat} (hf : f < 255) : areaStart S H f + slotBits S H f = areaStart S H (f + 1) := by
  obtain ⟨hroom, hstart⟩ := overhead_fits h f
  have htile := frameStart_add_frameBits S f
  have hnext : 8 * H * (f + 1) = 8 * H * f + 8 * H := Nat.mul_succ _ _
  rw [areaStart, areaStart, slotBits, if_neg (by omega), hnext]
  omega

theorem sum_slotBits {n : Nat} (hn : n ≤ 255) : ((List.range n).map fun f => slotBits S H f).sum = areaStart S H n := by
  induction n with
  | zero => simp [areaStart, frameStart]
  | succ n ih =>
    rw [List.range_succ, List.map_append, List.sum_append, ih (by omega), List.map_singleton, List.sum_singleton,
      areaStart_add_slotBits h (by omega)]

/-- Overhead and stuff leave 1,499,625 bits for every slot (R304, R305). -/
theorem sum_slotBits_multiframe : ((List.range 256).map fun f => slotBits S H f).sum = 1499625 * S := by
  obtain ⟨hroom, hstart⟩ := overhead_fits h 255
  have hlast : frameStart S 255 + frameBits S 255 = 1504740 * S := (frameStart_add_frameBits S 255).trans (frameStart_end S)
  have hbits : 5115 * S ≤ frameBits S 255 := by
    have : frameStart S 255 = 255 * (1504740 * S) / 256 := rfl
    omega
  rw [List.range_succ, List.map_append, List.sum_append, sum_slotBits h (Nat.le_refl _), List.map_singleton, List.sum_singleton, areaStart,
    slotBits, if_pos rfl, stuffBits]
  omega

end

/-! ## The bits of a slot -/

theorem channelPlace_inj {v w : Nat} (hs : isSegBit v = isSegBit w) (h : channelPlace v = channelPlace w) : v = w := by
  unfold channelPlace at h
  rw [hs] at h
  cases hw : isSegBit w with
  | true =>
    rw [hw] at hs h
    have hv := beq_iff_eq.mp hs
    have hw := beq_iff_eq.mp hw
    simp only [if_true] at h
    omega
  | false =>
    rw [hw] at hs h
    have hv := beq_eq_false_iff_ne.mp hs
    have hw := beq_eq_false_iff_ne.mp hw
    simp only [Bool.false_eq_true, if_false] at h
    omega

theorem tribPlace_inj {M i j v w : Nat} (hi : i < M) (hj : j < M) (hs : isSegBit v = isSegBit w)
    (h : tribPlace M i v = tribPlace M j w) : i = j ∧ v = w := by
  unfold tribPlace at h
  have hplace : channelPlace v = channelPlace w := by
    simpa [Nat.mul_add_div (by omega : 0 < M), Nat.div_eq_of_lt hi, Nat.div_eq_of_lt hj] using congrArg (· / M) h
  rw [hplace] at h
  exact ⟨Nat.add_left_cancel h, channelPlace_inj hs hplace⟩

/-- The data bit of a slot that has a given place in its channel (R341). -/
theorem channelPlace_data (p : Nat) : isSegBit (p / 128 * 129 + p % 128) = false ∧ channelPlace (p / 128 * 129 + p % 128) = p := by
  have hseg : isSegBit (p / 128 * 129 + p % 128) = false := by rw [isSegBit, beq_eq_false_iff_ne]; omega
  refine ⟨hseg, ?_⟩
  rw [channelPlace, hseg, if_neg (by decide)]
  omega

/-- Settles O60. -/
theorem slotsOfAMultiframe : Obligations.SlotsOfAMultiframe := by
  unfold Obligations.SlotsOfAMultiframe
  refine ⟨fun S f => ⟨?start, frameStart_end S, frameStart_add_frameBits S f⟩,
    fun S H h => ⟨sum_slotBits_multiframe h, fun f hf => areaStart_add_slotBits h hf⟩,
    fun M i j v w hi hj hs h => tribPlace_inj hi hj hs h, fun M n hM => ?onto⟩
  case start => rw [frameStart, Nat.zero_mul, Nat.zero_div]
  case onto =>
    obtain ⟨hseg, hplace⟩ := channelPlace_data (n / M)
    exact ⟨n % M, _, Nat.mod_lt n hM, hseg, by rw [tribPlace, hplace, Nat.div_add_mod]⟩

end Sys2Proof.Machine
end

section
/-! PROOFS. What an effect leaves alone: the registers of other pages, and all that is no register. -/
namespace Sys2Proof.Machine

set_option Elab.async false

/-! ## Effects on the registers of a page -/

section
variable {ps : List Page} {p : Page} {s t u : State}

theorem OnlyPages.refl (ps : List Page) (s : State) : OnlyPages ps s s := fun _ _ => rfl

theorem OnlyPages.trans (h : OnlyPages ps s t) (h' : OnlyPages ps t u) : OnlyPages ps s u := fun f hf => (h' f hf).trans (h f hf)

theorem OnlyPages.of_cells (h : OnlyPages ps s t) (hc : u.cells = t.cells) : OnlyPages ps s u :=
  fun f hf => (State.get_of_cells t u f hc).trans (h f hf)

theorem OnlyPages.put (h : OnlyPages ps s t) {f : Fld} (hp : p ∈ ps) (hf : f.onPage p) (v : Nat) : OnlyPages ps s (t.put f v) :=
  fun g hg => (get_put_offPage hf (hg p hp) v t).trans (h g hg)

theorem OnlyPages.raise (h : OnlyPages ps s t) (hp : p ∈ ps) (b : Nat) : OnlyPages ps s (t.raise p b) :=
  fun g hg => (get_raise_offPage (hg p hp) b t).trans (h g hg)

theorem OnlyPages.raiseIf (h : OnlyPages ps s t) (hp : p ∈ ps) (b : Nat) (x : Bool) : OnlyPages ps s (t.raiseIf p b x) := by
  cases x
  · exact h
  · exact h.raise hp b

theorem OnlyPages.forFin {n : Nat} {f : Fin n → State → State} (h : OnlyPages ps s t) (hf : ∀ i v, OnlyPages ps v (f i v)) :
    OnlyPages ps s (forFin n f t) :=
  h.trans fun g hg => forFin_keeps (fun v => v.get g) f (fun i v => hf i v g hg) t

theorem OnlyPages.commit (h : OnlyPages ps s t) (q : List Instr) : OnlyPages ps s (commit q t) := h.of_cells (commit_cells q t)

end

/-! ## Effects on registers alone -/

/-- Nothing but register cells differs. -/
def CellsOnly (s t : State) : Prop := t = { s with cells := t.cells }

section
variable {s t u : State}

theorem CellsOnly.refl (s : State) : CellsOnly s s := rfl

theorem CellsOnly.trans (h : CellsOnly s t) (h' : CellsOnly t u) : CellsOnly s u := by
  unfold CellsOnly at *
  rw [h', h]

theorem CellsOnly.put (h : CellsOnly s t) (f : Fld) (v : Nat) : CellsOnly s (t.put f v) := h.trans rfl

theorem CellsOnly.raise (h : CellsOnly s t) (p : Page) (b : Nat) : CellsOnly s (t.raise p b) := by
  cases p with
  | timingX n => exact h
  | _ => exact h.put _ _

theorem CellsOnly.raiseIf (h : CellsOnly s t) (p : Page) (b : Nat) (x : Bool) : CellsOnly s (t.raiseIf p b x) := by
  cases x
  · exact h
  · exact h.raise p b

theorem CellsOnly.forFin {n : Nat} {f : Fin n → State → State} (h : CellsOnly s t) (hf : ∀ i v, CellsOnly v (f i v)) :
    CellsOnly s (forFin n f t) := by
  unfold Machine.forFin
  generalize List.finRange n = l
  induction l generalizing t with
  | nil => exact h
  | cons i l ih => exact ih (h.trans (hf i t))

/-- An effect on registers alone, with what follows in the interrupt chain. -/
theorem CellsOnly.registersOnly (h : CellsOnly s t) : RegistersOnly s (Machine.commit s.pending t) := by
  unfold RegistersOnly
  rw [commit_eq, vecMessages_frame, vecMessages_sent]
  unfold CellsOnly at h
  rw [h]

end

end Sys2Proof.Machine
end

section
/-! PROOFS. Words of the memories: what a store leaves of the other words, and effects on registers and memory. -/
namespace Sys2Proof.Machine

set_option Elab.async false

/-! ## Words -/

theorem Loc.key_aligned (l : Loc) : l.key % 16 = 0 := by
  cases l <;> exact Nat.mul_mod_left _ _

theorem State.word_of_mem {s t : State} (h : t.mem = s.mem) (l : Loc) : t.word l = s.word l := by
  have hbytes (k n : Nat) : t.bytes k n = s.bytes k n := by
    induction n generalizing k with
    | zero => rfl
    | succ n ih => rw [State.bytes, State.bytes, ih, State.byte, State.byte, h]
  rw [State.word, State.word, State.rawData, State.rawData, State.rawCheck, State.rawCheck, hbytes, State.byte, State.byte, h]

@[simp] theorem State.word_store_self (s : State) (l : Loc) (d : Nat) : (s.store l d).word l = d % 2 ^ 64 := by
  rw [State.word, State.rawData_store_self, State.rawCheck_store_self, eccDecode_own]

theorem State.bytes_congr {s t : State} {k n : Nat} (h : ∀ j, k ≤ j → j < k + n → t.byte j = s.byte j) : t.bytes k n = s.bytes k n := by
  induction n generalizing k with
  | zero => rfl
  | succ n ih =>
    rw [State.bytes, State.bytes, h k (Nat.le_refl k) (by omega), ih fun j hlo hhi => h j (by omega) (by omega)]

/-- A store leaves every other word. -/
theorem State.word_store_other {l m : Loc} (h : l.key ≠ m.key) (d : Nat) (s : State) : (s.store l d).word m = s.word m := by
  have hl := l.key_aligned
  have hm := m.key_aligned
  have hbyte (j : Nat) (hlo : m.key ≤ j) (hhi : j < m.key + 9) : (s.store l d).byte j = s.byte j :=
    State.byte_store_other s l d j (by omega)
  have hdata : (s.store l d).rawData m = s.rawData m := State.bytes_congr fun j hlo hhi => hbyte j hlo (by omega)
  have hcheck : (s.store l d).rawCheck m = s.rawCheck m := by
    rw [State.rawCheck, State.rawCheck, hbyte _ (by omega) (by omega)]
  rw [State.word, State.word, hdata, hcheck]

@[simp] theorem State.word_put (s : State) (f : Fld) (v : Nat) (l : Loc) : (s.put f v).word l = s.word l := State.word_of_mem rfl l
@[simp] theorem State.word_putB (s : State) (f : Fld) (b : Bool) (l : Loc) : (s.putB f b).word l = s.word l := State.word_of_mem rfl l
@[simp] theorem State.word_raise (s : State) (p : Page) (b : Nat) (l : Loc) : (s.raise p b).word l = s.word l :=
  State.word_of_mem (State.raise_mem s p b) l
@[simp] theorem word_commit (q : List Instr) (s : State) (l : Loc) : (commit q s).word l = s.word l :=
  State.word_of_mem (commit_mem q s) l

/-- Words stored one after another at places of their own. -/
theorem word_forN_store {a : Nat → Loc} (v : Nat → Nat) {n : Nat} (ha : ∀ i j, i < n → j < n → i ≠ j → (a i).key ≠ (a j).key)
    (s : State) {k : Nat} (hk : k < n) : (forN n (fun i t => t.store (a i) (v i)) s).word (a k) = v k % 2 ^ 64 := by
  suffices ∀ m ≤ n, k < m → (forN m (fun i t => t.store (a i) (v i)) s).word (a k) = v k % 2 ^ 64 from this n (Nat.le_refl n) hk
  intro m hm hkm
  induction m with
  | zero => omega
  | succ m ih =>
    rw [forN_succ]
    by_cases hlast : k = m
    · rw [hlast, State.word_store_self]
    · rw [State.word_store_other (ha m k (by omega) (by omega) (Ne.symm hlast)), ih (by omega) (by omega)]

/-! ## Effects on registers and memory -/

theorem OnlyPages.forN_store {ps : List Page} {s t : State} (h : OnlyPages ps s t) (n : Nat) (a : Nat → Loc) (v : Nat → Nat) :
    OnlyPages ps s (forN n (fun i u => u.store (a i) (v i)) t) :=
  h.of_cells (forN_keeps n State.cells _ (fun i u => State.store_cells u (a i) (v i)) t)

/-- Nothing but register cells and memory differs. -/
def CellsAndMemory (s t : State) : Prop := t = { s with cells := t.cells, mem := t.mem }

section
variable {s t u : State}

theorem CellsAndMemory.trans (h : CellsAndMemory s t) (h' : CellsAndMemory t u) : CellsAndMemory s u := by
  unfold CellsAndMemory at *
  rw [h', h]

theorem CellsOnly.andMemory (h : CellsOnly s t) : CellsAndMemory s t := by
  unfold CellsOnly at h
  unfold CellsAndMemory
  rw [h]

theorem CellsAndMemory.put (h : CellsAndMemory s t) (f : Fld) (v : Nat) : CellsAndMemory s (t.put f v) := h.trans rfl

theorem CellsAndMemory.raise (h : CellsAndMemory s t) (p : Page) (b : Nat) : CellsAndMemory s (t.raise p b) :=
  h.trans ((CellsOnly.refl t).raise p b).andMemory

theorem CellsAndMemory.store (h : CellsAndMemory s t) (l : Loc) (d : Nat) : CellsAndMemory s (t.store l d) :=
  h.trans ((store_frame t l d).trans (by rw [State.store_cells]))

theorem CellsAndMemory.forN {n : Nat} {f : Nat → State → State} (h : CellsAndMemory s t) (hf : ∀ i v, CellsAndMemory v (f i v)) :
    CellsAndMemory s (forN n f t) := by
  induction n with
  | zero => exact h
  | succ n ih => rw [forN_succ]; exact ih.trans (hf n _)

/-- An effect on registers and memory, with what follows in the interrupt chain. -/
theorem CellsAndMemory.registersAndMemory (h : CellsAndMemory s t) : RegistersAndMemory s (commit s.pending t) := by
  unfold RegistersAndMemory
  rw [commit_eq, vecMessages_frame, vecMessages_sent]
  unfold CellsAndMemory at h
  rw [h]

end

end Sys2Proof.Machine
end

section
/-! PROOFS. The line converters and their calibration (chapter 03). -/
namespace Sys2Proof.Machine

set_option Elab.async false

/-! ## The transmitter -/

/-- A transmitter that was in no power loop changes its state alone, and the count toward relighting begins again (R120). -/
theorem setTx_of_dark {c : Fin 16} {s : State} (h : txLoop (txState c s) = false) (st : Nat) :
    setTx c st s = (s.put (CONV.TX_STAT_STATE c) st).put (CONV.hRelight c) 0 := by
  rw [setTx, h]
  rfl

/-- A ramp from the dark starts 30 dB below TARGET (R117). -/
theorem rampFromDark_of_dark {c : Fin 16} {s : State} (h : txLoop (txState c s) = false) :
    rampFromDark c s = rampTimes c (((s.put (CONV.TX_STAT_STATE c) txRampUp).put (CONV.hRelight c) 0).puti (CONV.hLevel c)
      (s.geti (CONV.TX_TARGET_TARGET c) * 100000 - 30000000)) := by
  rw [rampFromDark, setTx_of_dark h]
  rfl

/-- Settles O1: each hypothesis decides a branch of the command's effect. -/
theorem transmitterCommands : Obligations.TransmitterCommands := by
  unfold Obligations.TransmitterCommands
  refine ⟨?txOn, ?txOff, ?rampUpDone, ?rampDownDone, ?autoRelight, ?txTargetWrite, ?laserEnWrite⟩
  case txOn =>
    intro m c s hrun hacc hen hpage hpark hdark hlight
    have hst : txState c s = txDark := hdark
    show execTxOn m c s = _
    rw [execTxOn, act_live _ _ hrun, writeCmd_accepts hacc, ← rampFromDark_of_dark (by rw [hst]; rfl)]
    change _ = Host.Outcome.next (commit s.pending (rampFromDark c s))
    simp [txCmdEff, bit_eq, txOn, hen, pageOn, hpage, notParking, hpark, hst, hlight]
  case txOff =>
    intro m c s hrun hacc hst
    have hne : txState c s ≠ txShuttered := by rcases hst with h | h | h <;> (rw [txState, h]; decide)
    show execTxOff m c s = _
    rw [execTxOff, act_live _ _ hrun, writeCmd_accepts hacc]
    rw [txCmdEff, if_pos (by decide), txOff, if_neg hne]
    exact congrArg _ (congrArg _ (if_pos hst))
  case rampUpDone =>
    intro c s hrun hst hfreeze hlevel
    have hd : txLoop (txState c s) = false := by rw [txState, hst]; rfl
    show execRampUpDone c s = _
    rw [execRampUpDone, act_live _ _ hrun]
    simp [txState, hst, hfreeze, hlevel, txTarget, setTx_of_dark hd]
  case rampDownDone =>
    intro c s hrun hst hfreeze hlevel
    have hd : txLoop (txState c s) = false := by rw [txState, hst]; rfl
    show execRampDownDone c s = _
    rw [execRampDownDone, act_live _ _ hrun]
    simp [txState, hst, hfreeze, hlevel, txTarget, setTx_of_dark hd]
  case autoRelight =>
    intro c s hrun hst hauto hen hpage hpark hlight hcount
    have hd : txLoop (txState c s) = false := by rw [txState, hst]; rfl
    show execAutoRelight c s = _
    rw [execAutoRelight, act_live _ _ hrun]
    simp [txState, hst, hauto, hen, pageOn, hpage, notParking, hpark, hlight, hcount, rampFromDark_of_dark hd]
  case txTargetWrite =>
    intro m c v s hrun hacc hlit hburst
    have hkey : (CONV.TX_TARGET_TARGET c).key ≠ (CONV.TX_STAT_STATE c).key := by
      simp only [Fld.key, CONV.TX_TARGET_TARGET, CONV.TX_STAT_STATE]; omega
    show execTxTargetWrite m c v s = _
    rw [execTxTargetWrite, act_live _ _ hrun, writeCmd_accepts hacc]
    simp [txTargetEff, txTargetEff.rampTimesIfLit, txState, State.get_put_other _ _ _ _ hkey, txLoop, hlit, hburst]
  case laserEnWrite =>
    intro m c relight s hrun hacc
    show execLaserEnWrite m c true relight s = _
    rw [execLaserEnWrite, act_live _ _ hrun, writeCmd_accepts hacc]
    cases relight <;> rfl

/-! ## Detectors -/

/-- Settles O2. -/
theorem laserAndReceiverDetectors : Obligations.LaserAndReceiverDetectors := by
  unfold Obligations.LaserAndReceiverDetectors
  refine ⟨?pwrDevSet, ?pwrDevClear, ?lightRises, ?lightFalls, ?rxOverloadChange, ?sigAbsentSet, ?sigAbsentClear⟩
  case pwrDevSet =>
    intro c s hrun hst hlit hdev hflag
    have hloop : txLoop (txState c s) = true := by rcases hst with h | h <;> (rw [txState, h]; rfl)
    show execPwrDevSet c s = _
    rw [execPwrDevSet, act_live _ _ hrun]
    simp [hloop, hlit, hdev, hflag]
  case pwrDevClear =>
    intro c s hrun hok
    show execPwrDevClear c s = _
    rw [execPwrDevClear, act_live _ _ hrun]
    simp [hok]
  case lightRises =>
    intro c s hrun hlight
    show execLaserLightChange c true s = _
    rw [execLaserLightChange, act_live _ _ hrun]
    simp [hlight]
  case lightFalls =>
    intro c s hrun hlight hst
    have hkeep : txState c ((s.put (CONV.LASER_STAT_LIGHT c) 0).raise (.conv c) 0) = txState c s :=
      (get_raise_other (by simp only [Fld.key, CONV.TX_STAT_STATE, HDR.INT_RAW]; omega) _ _).trans
        (State.get_put_other _ _ _ _ (by simp only [Fld.key, CONV.TX_STAT_STATE, CONV.LASER_STAT_LIGHT]; omega))
    show execLaserLightChange c false s = _
    rw [execLaserLightChange, act_live _ _ hrun]
    simp [hlight, hkeep, show txState c s = txDark ∨ txState c s = txShuttered from hst]
  case rxOverloadChange =>
    intro c s hrun hpwr hflag
    show execRxOverloadChange c s = _
    rw [execRxOverloadChange, act_live _ _ hrun]
    simp [hpwr, hflag]
  case sigAbsentSet =>
    intro c s hrun hflag
    show execSigAbsentSet c s = _
    rw [execSigAbsentSet, act_live _ _ hrun]
    simp [hflag]
  case sigAbsentClear =>
    intro c s hrun hflag
    show execSigAbsentClear c s = _
    rw [execSigAbsentClear, act_live _ _ hrun]
    simp [hflag]

/-! ## Records of a calibration

A record spells SEQ in four bytes (R134), and NVM_STAT shows it in a field of 24 bits. -/

/-- A stored record of carrier 3 without payload, whose SEQ is the largest that NVM_STAT can show. -/
def lastShownRecord : List Nat :=
  let body := calMagic ++ leBytes 2 1 ++ [3, 0] ++ leBytes 4 0xFFFFFF ++ List.replicate 20 0
  body ++ leBytes 4 (crc32c body)

/-- The record that carrier 3 stores next. -/
def recordToStore : CalRecord := ⟨3, false, 1, false, false, 0, 7, 0, 0, ⟨[], [], []⟩⟩

/-- Carrier 3 with that record in use, in copy A, and another store in progress. -/
def lastShownSeq : State :=
  State.putList (flashKey (calAddr 3 false)) lastShownRecord
    { (State.reset.put (CAL.hRecValid 3) 1).put (CAL.NVM_STAT_STORE_BUSY 3) 1 with storing := [recordToStore] }

theorem nextSeq_lastShownSeq : nextSeq 3 lastShownSeq = 2 ^ 24 := by decide +kernel

/-- That record stored. -/
def lastShownSeqStored : State :=
  commit lastShownSeq.pending (storeNext 3 recordToStore (storeRecord 3 recordToStore lastShownSeq))

theorem exec_nvmStoreDone {c : Fin 16} {r : CalRecord} {s : State} (hrun : s.inReset = false)
    (hr : s.storing.find? (fun (x : CalRecord) => x.carrier == c) = some r) :
    exec (.nvmStoreDone c true) s = .next (commit s.pending (storeNext c r (storeRecord c r s))) := by
  show execNvmStoreDone c true s = _
  rw [execNvmStoreDone, act_live _ _ hrun, hr]
  rfl

theorem exec_lastShownSeq : exec (.nvmStoreDone 3 true) lastShownSeq = .next lastShownSeqStored :=
  exec_nvmStoreDone (by decide +kernel) (by decide +kernel)

theorem get_seq_lastShownSeqStored : lastShownSeqStored.get (CAL.NVM_STAT_SEQ 3) = 0 := by decide +kernel

/-- Refutes O3: a store that ends well shows its SEQ modulo 2^24, so that the SEQ after 0xFFFFFF shows as 0. -/
theorem not_correctionAndCalibration : ¬ Obligations.CorrectionAndCalibration := by
  unfold Obligations.CorrectionAndCalibration
  rintro ⟨-, -, -, -, -, -, -, -, -, -, hends⟩
  obtain ⟨t, ht, -, -, hseq, -⟩ := hends 3 recordToStore lastShownSeq (by decide +kernel) (by decide +kernel)
  obtain rfl : lastShownSeqStored = t := Host.Outcome.next.inj (exec_lastShownSeq.symm.trans ht)
  rw [get_seq_lastShownSeqStored, nextSeq_lastShownSeq] at hseq
  exact absurd hseq (by decide)

end Sys2Proof.Machine
end

section
/-! PROOFS. The exchange of loading tables (chapters 04 and 07). -/
namespace Sys2Proof.Machine

set_option Elab.async false

theorem carMode_msgSeen {c : Fin 16} {s : State} (typ : Nat) : carMode c (msgSeen c typ s) = carMode c s := by
  simp (disch := (clear * - c; decide +kernel +revert)) only [carMode, msgSeen, State.get_put_other]

theorem mfnRx_msgSeen {c : Fin 16} {s : State} (typ : Nat) : (msgSeen c typ s).get (OTU.MFN_RX c) = s.get (OTU.MFN_RX c) := by
  simp (disch := (clear * - c; decide +kernel +revert)) only [msgSeen, State.get_put_other]

theorem txMfn_msgSeen {c : Fin 16} {s : State} (typ : Nat) : txMfn c (msgSeen c typ s) = txMfn c s := by
  simp (disch := (clear * - c; decide +kernel +revert)) only [txMfn, msgSeen, State.get_put_other]

theorem leafLo_msgSeen {c : Fin 16} {s : State} (typ : Nat) : leafLo c (msgSeen c typ s) = leafLo c s := by
  simp (disch := (clear * - c; decide +kernel +revert)) only [leafLo, msgSeen, State.get_put_other]

theorem leafHi_msgSeen {c : Fin 16} {s : State} (typ : Nat) : leafHi c (msgSeen c typ s) = leafHi c s := by
  simp (disch := (clear * - c; decide +kernel +revert)) only [leafHi, msgSeen, State.get_put_other]

theorem fbAge_msgSeen {c : Fin 16} {s : State} (typ : Nat) : (msgSeen c typ s).get (TXDSP.hFbAge c) = s.get (TXDSP.hFbAge c) := by
  simp (disch := (clear * - c; decide +kernel +revert)) only [msgSeen, State.get_put_other]

theorem fbReqs_msgSeen {c : Fin 16} {s : State} (typ : Nat) : (msgSeen c typ s).get (TXDSP.hFbReqs c) = s.get (TXDSP.hFbReqs c) := by
  simp (disch := (clear * - c; decide +kernel +revert)) only [msgSeen, State.get_put_other]

/-- What a second FALLBACK_REQ within 8 multiframes leaves. -/
def fallbackRequested (c : Fin 16) (s : State) : State :=
  (((msgSeen c ltFallbackReq s).put (TXDSP.hFbAge c) 0).put (TXDSP.hFbPend c) 1).put (TXDSP.hFbCnt c) 0

/-- What FALLBACK_NOW leaves. -/
def fallbackOrdered (c : Fin 16) (v : Nat) (s : State) : State :=
  ((((s.put (TXDSP.LOAD_CTRL_AUTO_ACCEPT c) (bits v 31 1)).put (TXDSP.LOAD_CTRL_MIN_LEAD c) (bits v 16 8)).put
    (TXDSP.LOAD_CTRL_FB_AUTO c) (bits v 0 16)).put (TXDSP.hFbPend c) 1).put (TXDSP.hFbCnt c) 0

theorem fbFlds_onPage (c : Fin 16) : (TXDSP.hFbCnt c).onPage (.txdsp c) ∧ (TXDSP.hFbPend c).onPage (.txdsp c) ∧ (TXDSP.hFbAge c).onPage (.txdsp c)
    ∧ (TXDSP.LOAD_STAT_LAST_RX_TYPE c).onPage (.txdsp c) ∧ (TXDSP.LOAD_CTRL_AUTO_ACCEPT c).onPage (.txdsp c)
    ∧ (TXDSP.LOAD_CTRL_MIN_LEAD c).onPage (.txdsp c) ∧ (TXDSP.LOAD_CTRL_FB_AUTO c).onPage (.txdsp c) := by
  decide +kernel +revert

theorem fallbackRequested_onlyPages (c : Fin 16) (s : State) : OnlyPages [.txdsp c] s (fallbackRequested c s) := by
  obtain ⟨hcnt, hpend, hage, htype, -⟩ := fbFlds_onPage c
  have hp : Page.txdsp c ∈ [Page.txdsp c] := List.mem_singleton_self _
  exact (((((OnlyPages.refl _ s).put hp hcnt _).put hp htype _).put hp hage _).put hp hpend _).put hp hcnt _

theorem fallbackOrdered_onlyPages (c : Fin 16) (v : Nat) (s : State) : OnlyPages [.txdsp c] s (fallbackOrdered c v s) := by
  obtain ⟨hcnt, hpend, -, -, hacc, hlead, hauto⟩ := fbFlds_onPage c
  have hp : Page.txdsp c ∈ [Page.txdsp c] := List.mem_singleton_self _
  exact (((((OnlyPages.refl _ s).put hp hacc _).put hp hlead _).put hp hauto _).put hp hpend _).put hp hcnt _

theorem fallbackRequested_cellsOnly (c : Fin 16) (s : State) : CellsOnly s (fallbackRequested c s) :=
  (((((CellsOnly.refl s).put _ _).put _ _).put _ _).put _ _).put _ _

theorem fallbackOrdered_cellsOnly (c : Fin 16) (v : Nat) (s : State) : CellsOnly s (fallbackOrdered c v s) :=
  (((((CellsOnly.refl s).put _ _).put _ _).put _ _).put _ _).put _ _

/-- Settles O4. -/
theorem loadingExchange : Obligations.LoadingExchange := by
  unfold Obligations.LoadingExchange
  refine ⟨?propose, ?accept, ?reject, ?state, ?pairedNoAccept, ?invalidLoadingMsg, ?fallbackReq, ?fbAutoTimeout, ?hubFallbackReq,
    ?fallbackNow, ?txFallback, ?orderRx, ?orderRxIgnored, ?orderTx, ?freqShiftWrite⟩
  case propose =>
    intro c m s hrun hacts hpresent hans hreason
    show execPropose c m s = _
    rw [execPropose, onMsg, act_live _ _ hrun]
    simp (disch := (clear * - c; decide +kernel +revert)) [hacts, hpresent, hans, hreason, onPropose, msgSeen, flag_put_other]
  case accept =>
    intro c m s hrun hacts hlead hlead' hreq hseq hmf
    show execAccept c m s = _
    rw [execAccept, onMsg, act_live _ _ hrun]
    simp (disch := (clear * - c; decide +kernel +revert)) [hacts, hlead, hlead', hreq, hseq, hmf, msgSeen, matchesRequest,
      State.get_put_other, flag_put_other]
  case reject =>
    intro c m s hrun hacts hreq hseq hmf
    show execReject c m s = _
    rw [execReject, onMsg, act_live _ _ hrun]
    simp (disch := (clear * - c; decide +kernel +revert)) [hacts, hreq, hseq, hmf, msgSeen, matchesRequest, State.get_put_other,
      flag_put_other]
  case state =>
    intro c m s hrun hacts
    show execState c m s = _
    rw [execState, onMsg, act_live _ _ hrun, if_pos hacts, msgSeen]
  case pairedNoAccept =>
    intro c s hrun hpending hmode hacc hmf
    show execPairedNoAccept c s = _
    rw [execPairedNoAccept, act_live _ _ hrun]
    simp [hpending, hmode, hacc, hmf, modePaired]
  case invalidLoadingMsg =>
    intro c raw s hrun hacts hvalid
    show execInvalidLoadingMsg c raw s = _
    rw [execInvalidLoadingMsg, onMsg, act_live _ _ hrun]
    simp [hacts, hvalid, msgError]
  case fallbackReq =>
    intro c s hrun hacts hhub hage
    have hexec : exec (.fallbackReq c) s = .next (commit s.pending (fallbackRequested c s)) := by
      show execFallbackReq c s = _
      rw [isHub, ← carMode_msgSeen ltFallbackReq] at hhub
      rw [← fbAge_msgSeen ltFallbackReq] at hage
      have hacts' : msgsAct c ((msgSeen c ltFallbackReq s).put (TXDSP.hFbAge c) 0) = true := by
        rw [← hacts]
        simp (disch := (clear * - c; decide +kernel +revert)) only [msgsAct, msgSeen, State.get_put_other]
      rw [execFallbackReq, onMsg, act_live _ _ hrun, if_pos hacts]
      simp [isHub, hhub, hage, fallBack, hacts', fallbackRequested]
    refine ⟨_, hexec, ?_, ?_, ?_, ?_, (fallbackRequested_onlyPages c s).commit _,
      (fallbackRequested_cellsOnly c s).registersOnly⟩
    all_goals simp (disch := (clear * - c; decide +kernel +revert)) [State.flag, fallbackRequested, msgSeen, State.get_put_other]
    rfl
  case fbAutoTimeout =>
    intro c s hrun hacts hhub hauto hcount
    show execFbAutoTimeout c s = _
    rw [execFbAutoTimeout, act_live _ _ hrun]
    simp [hacts, hhub, hauto, hcount, fallBack]
  case hubFallbackReq =>
    intro c s hrun hacts hhub
    show execFallbackReq c s = _
    rw [execFallbackReq, onMsg, act_live _ _ hrun]
    rw [isHub, ← carMode_msgSeen ltFallbackReq] at hhub
    simp [hacts, isHub, hhub, State.incWrap, fbReqs_msgSeen]
    rfl
  case fallbackNow =>
    intro m c v s hrun hacts hacc
    have hacts' : msgsAct c (((s.put (TXDSP.LOAD_CTRL_AUTO_ACCEPT c) (bits v 31 1)).put (TXDSP.LOAD_CTRL_MIN_LEAD c) (bits v 16 8)).put
        (TXDSP.LOAD_CTRL_FB_AUTO c) (bits v 0 16)) = true := by
      rw [← hacts]
      simp (disch := (clear * - c; decide +kernel +revert)) only [msgsAct, State.get_put_other]
    have hexec : exec (.fallbackNow m c v) s = .next (commit s.pending (fallbackOrdered c v s)) := by
      show execFallbackNow m c v s = _
      rw [execFallbackNow, act_live _ _ hrun, writeCmd_accepts hacc]
      have hbits {lo w : Nat} (h : 30 < lo ∨ lo + w ≤ 30) : bits (v ||| 2 ^ 30) lo w = bits v lo w := bits_or_two_pow h v
      rw [loadCtrlEff, bit_or_two_pow_self, hbits (by decide), hbits (by decide), hbits (by decide), if_pos rfl, fallBack, if_pos hacts']
      rfl
    refine ⟨_, hexec, ?_, ?_, ?_, ?_, ?_, (fallbackOrdered_onlyPages c v s).commit _,
      (fallbackOrdered_cellsOnly c v s).registersOnly⟩
    all_goals simp (disch := (clear * - c; decide +kernel +revert)) [State.flag, fallbackOrdered, State.get_put_other]
    all_goals exact bits_mod_width v _ _
  case txFallback =>
    intro c s hrun hpend hruns
    show execTxFallback c s = _
    rw [execTxFallback, act_live _ _ hrun]
    simp [hpend, hruns]
  case orderRx =>
    intro c m s hrun hacts hok hsame
    show execOrderRx c m s = _
    rw [execOrderRx, onMsg, act_live _ _ hrun, if_pos hacts]
    simp only [mfnRx_msgSeen, hok, hsame, if_true, Bool.false_eq_true, if_false, State.putB_true]
  case orderRxIgnored =>
    intro c m s hrun hacts hleaf
    show execOrderRx c m s = _
    have hnot (t n : Nat) (rows : List Nat) : orderOk c t n rows (msgSeen c ltOrderRx s) = false := by
      rw [isLeaf, ← carMode_msgSeen ltOrderRx] at hleaf
      simp only [orderOk, isLeaf, hleaf, Bool.false_and]
    rw [execOrderRx, onMsg, act_live _ _ hrun, if_pos hacts]
    simp only [hnot, Bool.false_eq_true, if_false, msgError]
  case orderTx =>
    intro c m s hrun hacts hok hsame
    show execOrderTx c m s = _
    rw [execOrderTx, onMsg, act_live _ _ hrun, if_pos hacts]
    simp only [txMfn_msgSeen, leafLo_msgSeen, leafHi_msgSeen, hok, hsame, if_true, Bool.false_eq_true, if_false, State.putB_true]
  case freqShiftWrite =>
    intro m c v s hrun hacc
    show execFreqShiftWrite m c v s = _
    rw [execFreqShiftWrite, act_live _ _ hrun, writeCmd_accepts hacc, freqShiftEff]

end Sys2Proof.Machine
end

section
/-! PROOFS. Acquisition, subcarriers and captures (chapter 05). -/
namespace Sys2Proof.Machine

set_option Elab.async false

/-- OOR follows the offset that is shown (R195). -/
theorem flag_oor_freqFollow (c : Fin 16) (s : State) :
    (freqFollow c s).flag (RXDSP.FREQ_STAT_OOR c) = decide (5000 < |s.geti (RXDSP.FREQ_STAT_OFS c)|) :=
  State.flag_putB_self _ _ _ (show 0 < 1 from Nat.one_pos)

theorem flag_valid_freqFollow (c : Fin 16) (s : State) :
    (freqFollow c s).flag (RXDSP.FREQ_STAT_VALID c) = s.flag (RXDSP.FREQ_STAT_VALID c) := by
  apply flag_of_get
  simp (disch := (clear * - c; decide +kernel +revert)) only [freqFollow, get_putB_other, get_raiseIf_other]

/-- An offset within ±8,000 MHz is shown as it is. -/
theorem geti_ofs_put (c : Fin 16) {v : Int} (h : |v| ≤ 8000) (s : State) :
    ((s.puti (RXDSP.FREQ_STAT_OFS c) v).put (RXDSP.FREQ_STAT_VALID c) 1).geti (RXDSP.FREQ_STAT_OFS c) = v := by
  have hv := abs_le.mp h
  have hw : (RXDSP.FREQ_STAT_OFS c).width = 16 := rfl
  rw [geti_put_other (by clear * - c; decide +kernel +revert)]
  exact State.geti_puti_self (by rw [hw]; push_cast; omega) (by rw [hw]; push_cast; omega) (by rw [hw]; decide) s

/-- The cause of a stage that fails is its number (R208). -/
theorem stageCause_self {zr : Bool} {n : Nat} (hlo : 2 ≤ n) (hhi : n ≤ 6) (hzr : zr = false ∨ n ≠ 6) : stageCause zr n = some n := by
  obtain hlt | rfl := Nat.lt_or_eq_of_le hhi
  · interval_cases n <;> rfl
  · rw [stageCause, hzr.resolve_right (by decide)]; rfl

/-- An offset within ±8,000 MHz is taken (R195). -/
theorem freqUpdate_valid {c : Fin 16} {v : Int} {s : State} (hfreeze : s.flag (HDR.FREEZE (.rxdsp c)) = false) (h : |v| ≤ 8000) :
    freqUpdate c v s = freqFollow c ((s.puti (RXDSP.FREQ_STAT_OFS c) v).put (RXDSP.FREQ_STAT_VALID c) 1) := by
  rw [freqUpdate, hfreeze, if_neg Bool.false_ne_true, if_pos h]
  rfl

/-- Settles O7. -/
theorem acquisitionAndCarrierState : Obligations.AcquisitionAndCarrierState := by
  unfold Obligations.AcquisitionAndCarrierState
  refine ⟨?stage1Ends, ?stage2Ends, ?stage3Ends, ?stage4Ends, ?stage4EndsAtHub,
    ?stage5Ends, ?stage6Ends, ?stage7Ends, ?stage8Ends, ?acqStageLimit, ?acqTimeout, ?degradeClear,
    ?reacq, ?oos, ?restoreCarrier⟩
  case stage1Ends =>
    intro c b v s hrun hLineClk h hRxStatSigAbsent hLaserStatInRange
    show execAcqStageComplete c b v s = _
    rw [execAcqStageComplete, rxAct, act_live _ _ hrun]
    simp [hLineClk, h, hRxStatSigAbsent, hLaserStatInRange, stageDone]
  case stage2Ends =>
    intro c b v s hrun hclk hfreeze hstage hofs
    show execAcqStageComplete c b v s = _
    have hofs' : |v| ≤ 8000 := hofs.trans (by decide)
    have hvalid : ((s.puti (RXDSP.FREQ_STAT_OFS c) v).put (RXDSP.FREQ_STAT_VALID c) 1).flag (RXDSP.FREQ_STAT_VALID c) = true :=
      State.flag_putB_self _ _ true Nat.one_pos
    rw [execAcqStageComplete, rxAct, act_live _ _ hrun]
    simp [hclk, hstage, stageDone, freqUpdate_valid hfreeze hofs', flag_valid_freqFollow, hvalid, flag_oor_freqFollow,
      geti_ofs_put c hofs', hofs]
  case stage3Ends =>
    intro c b v s hrun hLineClk hFreeze h
    show execAcqStageComplete c b v s = _
    rw [execAcqStageComplete, rxAct, act_live _ _ hrun]
    simp [hLineClk, hFreeze, h, stageDone]
  case stage4Ends =>
    intro c b v s hrun hLineClk h hIsHub h2
    show execAcqStageComplete c b v s = _
    rw [execAcqStageComplete, rxAct, act_live _ _ hrun]
    simp [hLineClk, h, hIsHub, h2, stageDone]
  case stage4EndsAtHub =>
    intro c b v s hrun hLineClk h hIsHub
    show execAcqStageComplete c b v s = _
    rw [execAcqStageComplete, rxAct, act_live _ _ hrun]
    simp [hLineClk, h, hIsHub, stageDone]
  case stage5Ends =>
    intro c b v s hrun hLineClk h h2
    show execAcqStageComplete c b v s = _
    rw [execAcqStageComplete, rxAct, act_live _ _ hrun]
    simp [hLineClk, h, h2, stageDone]
  case stage6Ends =>
    intro c b v s hrun hLineClk h
    show execAcqStageComplete c b v s = _
    rw [execAcqStageComplete, rxAct, act_live _ _ hrun]
    simp [hLineClk, h, stageDone]
  case stage7Ends =>
    intro c b v s hrun hLineClk h hFrmState
    show execAcqStageComplete c b v s = _
    rw [execAcqStageComplete, rxAct, act_live _ _ hrun]
    simp [hLineClk, h, hFrmState, stageDone]
  case stage8Ends =>
    intro c b v s hrun hLineClk h hAcqCtrlVerifyMf
    show execAcqStageComplete c b v s = _
    rw [execAcqStageComplete, rxAct, act_live _ _ hrun]
    simp [hLineClk, h, hAcqCtrlVerifyMf, stageDone]
  case acqStageLimit =>
    intro c b s hrun hlo hhi hzr
    show execAcqStageLimit c b s = _
    rw [execAcqStageLimit, act_live _ _ hrun, stageCause_self hlo hhi hzr]
  case acqTimeout =>
    intro c b s hrun h h2 hAcqCtrlAcqTimeout
    show execAcqTimeout c b s = _
    rw [execAcqTimeout, act_live _ _ hrun]
    simp [h, h2, hAcqCtrlAcqTimeout, lcTimeout]
  case degradeClear =>
    intro c b s hrun h h2 hDegradeCause
    show execDegradeClear c b s = _
    rw [execDegradeClear, act_live _ _ hrun]
    simp [h, h2, hDegradeCause, stDeg, stIn]
  case reacq =>
    intro m c s hrun hacc
    show execReacq m c s = _
    rw [execReacq, act_live _ _ hrun, writeCmd_accepts hacc]
    simp [rxCmdEff, bit_eq]
  case oos =>
    intro m c s hrun hacc
    show execOos m c s = _
    rw [execOos, act_live _ _ hrun, writeCmd_accepts hacc]
    simp [rxCmdEff, bit_eq]
  case restoreCarrier =>
    intro m c s hrun hacc
    show execRestoreCarrier m c s = _
    rw [execRestoreCarrier, act_live _ _ hrun, writeCmd_accepts hacc]
    simp [rxCmdEff, bit_eq]

theorem ofInt_lt (w : Nat) (i : Int) : ofInt w i < 2 ^ w := by
  have hpos : (0 : Int) < (2 ^ w : Nat) := by exact_mod_cast Nat.two_pow_pos w
  have := Int.emod_lt_of_pos i hpos
  have := Int.emod_nonneg i (ne_of_gt hpos)
  unfold ofInt
  omega

/-! ## Subcarriers -/

/-- A row of the subcarrier table, OpenZR+ mode leaving only row 0, is on or off by the table and the mode alone. -/
theorem rxRowOn_congr {c i : Fin 16} {s t : State} (hmode : t.get (RXDSP.hMode c) = s.get (RXDSP.hMode c)) (hmem : t.mem = s.mem) :
    rxRowOn c i t = rxRowOn c i s := by
  rw [rxRowOn, rxRowOn, hmode, State.word_of_mem hmem]

theorem get_trigger_other {c : Fin 16} {f : Fld} (h : (RXDSP.hTrig c).key ≠ f.key) (kind sel : Nat) (s : State) :
    (trigger c kind sel s).get f = s.get f := by
  unfold trigger
  split
  · exact State.get_put_other _ _ _ _ h
  · rfl

theorem trigger_mem (c : Fin 16) (kind sel : Nat) (s : State) : (trigger c kind sel s).mem = s.mem := by
  unfold trigger
  split <;> rfl

/-- A subcarrier without lock, before its units are looked at. -/
def scDark (c i : Fin 16) (s : State) : State :=
  trigger c 2 i.val ((onPath c i (fun p => { p with snr := none })
    (((s.put (RXDSP.SC_STAT0_SC_LOCK c i) 0).put (RXDSP.SC_STAT0_VALID c i) 0).put (RXDSP.hSnrTicks c i) 0)).put (RXDSP.hSinceLock c i) 0)

theorem get_onPath (c i : Fin 16) (f : ScPath → ScPath) (s : State) (g : Fld) : (onPath c i f s).get g = s.get g := rfl

theorem rxRowOn_scDark (c i : Fin 16) (s : State) : rxRowOn c i (scDark c i s) = rxRowOn c i s := by
  apply rxRowOn_congr
  · simp (disch := (clear * - c i; decide +kernel +revert)) only [scDark, get_trigger_other, get_onPath, State.get_put_other]
  · exact trigger_mem _ _ _ _

/-- The fall of SC_LOCK (R197). -/
theorem scFall_locked {c i : Fin 16} {s : State} (h : s.flag (RXDSP.SC_STAT0_SC_LOCK c i) = true) : scFall c i s
    = if rxRowOn c i s then forL (unitsOfSc c i (scDark c i s)) (fun b s => scCheck c b s) ((scDark c i s).raise (.rxdsp c) 6)
      else scDark c i s := by
  rw [scFall, scLock, if_pos h, ← rxRowOn_scDark]
  rfl

theorem scRow_iff {c i : Fin 16} {s : State} : scRow c i s = true ↔ isZr (s.get (RXDSP.hMode c)) = false ∨ i = 0 := by
  simp [scRow]

/-- EQ_RESET with bit 0 alone. -/
theorem eqCmdEff_one (c : Fin 16) (s : State) : eqCmdEff c 1 s = eqReset c 0 s := by
  have hone (g : Fin 16 → State → State) : forFin 16 (fun i s => if (1 : Nat).testBit i.val then g i s else s) s = g 0 s := rfl
  exact hone _

/-! ## Captures -/

/-- Digits of w bits, the lowest first, spell a number of n·w bits. -/
theorem foldl_digits_lt {w : Nat} {d : Nat → Nat} (h : ∀ k, d k < 2 ^ w) (n : Nat) :
    (List.range n).foldl (fun a k => a + d k * 2 ^ (w * k)) 0 < 2 ^ (w * n) := by
  induction n with
  | zero => exact Nat.one_pos
  | succ n ih =>
    rw [List.range_succ, List.foldl_append, List.foldl_cons, List.foldl_nil, Nat.mul_succ, Nat.pow_add, Nat.mul_comm (2 ^ (w * n))]
    calc _ < 2 ^ (w * n) + d n * 2 ^ (w * n) := Nat.add_lt_add_right ih _
      _ = (d n + 1) * 2 ^ (w * n) := by rw [Nat.add_mul, Nat.one_mul, Nat.add_comm]
      _ ≤ 2 ^ w * 2 ^ (w * n) := Nat.mul_le_mul_right _ (h n)

/-- Digits of w bits, the highest first, spell a number of n·w bits. -/
theorem foldl_digits_down_lt {w m : Nat} {d : Nat → Nat} (h : ∀ k, d k < 2 ^ w) :
    (List.range (m + 1)).foldl (fun a k => a + d k * 2 ^ (w * m - w * k)) 0 < 2 ^ (w * (m + 1)) := by
  suffices ∀ n ≤ m + 1, (List.range n).foldl (fun a k => a + d k * 2 ^ (w * m - w * k)) 0 + 2 ^ (w * (m + 1 - n)) ≤ 2 ^ (w * (m + 1)) by
    have h := this (m + 1) (Nat.le_refl _)
    rw [Nat.sub_self, Nat.mul_zero, Nat.pow_zero] at h
    exact h
  intro n hn
  induction n with
  | zero => simp
  | succ n ih =>
    have hexp : w * m - w * n = w * (m - n) := (Nat.mul_sub w m n).symm
    have hstep : m + 1 - n = (m - n) + 1 := by omega
    have ih := ih (by omega)
    rw [hstep, Nat.mul_succ, Nat.pow_add, Nat.mul_comm (2 ^ (w * (m - n)))] at ih
    rw [List.range_succ, List.foldl_append, List.foldl_cons, List.foldl_nil, hexp, Nat.add_sub_add_right, Nat.add_assoc, ← Nat.succ_mul]
    exact (Nat.add_le_add_left (Nat.mul_le_mul_right _ (h n)) _).trans ih

theorem dataWord_lt (src n : Nat) (xs : List Int) : dataWord src n xs < 2 ^ 64 := by
  unfold dataWord
  split
  · exact foldl_digits_lt (w := 8) (fun k => ofInt_lt 8 (xs.getD (8 * n + k) 0)) 8
  · split
    · exact foldl_digits_down_lt (w := 16) (m := 3) (fun k => ofInt_lt 16 (xs.getD (4 * n + k) 0))
    · exact ofInt_lt 64 _

theorem tapCapture_lt (c : Fin 16) (n : Nat) (s : State) : tapCapture c n s < 2 ^ 64 := by
  have hword {a b c d : Nat} (ha : a < 65536) (hb : b < 65536) (hc : c < 65536) (hd : d < 65536) :
      a * 2 ^ 48 + b * 2 ^ 32 + c * 2 ^ 16 + d < 2 ^ 64 := by omega
  exact hword (ofInt_lt 16 _) (ofInt_lt 16 _) (ofInt_lt 16 _) (ofInt_lt 16 _)

theorem captureWordOf_lt (c : Fin 16) (n : Nat) (xs : List Int) (s : State) : captureWordOf c n xs s < 2 ^ 64 := by
  unfold captureWordOf
  split
  · exact tapCapture_lt c n s
  · exact dataWord_lt _ n xs

theorem captureLen_le (c : Fin 16) (s : State) : captureLen c s ≤ 32768 := by
  unfold captureLen
  dsimp only
  split_ifs <;> omega

/-- The captured words stand in the buffer of the carrier (R204). -/
theorem word_putCapture (c : Fin 16) (xs : List Int) (s : State) {k n : Nat} (hk : k < n) :
    (putCapture c n xs s).word (captureWord c k) = captureWordOf c k xs s := by
  have hkeys (i j : Nat) (hi : i < n) (hj : j < n) (hij : i ≠ j) : (captureWord c i).key ≠ (captureWord c j).key := by
    simp only [captureWord, ctbl, Loc.key]
    omega
  exact (word_forN_store (fun i => captureWordOf c i xs s) hkeys s hk).trans (Nat.mod_eq_of_lt (captureWordOf_lt c k xs s))

theorem get_putCapture (c : Fin 16) (n : Nat) (xs : List Int) (s : State) (f : Fld) : (putCapture c n xs s).get f = s.get f :=
  forN_keeps n (fun t => t.get f) _ (fun _ t => State.get_store t _ _ f) s

theorem putCapture_onlyPages (ps : List Page) (c : Fin 16) (n : Nat) (xs : List Int) (s : State) : OnlyPages ps s (putCapture c n xs s) :=
  (OnlyPages.refl ps s).forN_store n _ _

theorem putCapture_cellsAndMemory (c : Fin 16) (n : Nat) (xs : List Int) (s : State) : CellsAndMemory s (putCapture c n xs s) :=
  (CellsOnly.refl s).andMemory.forN fun _ v => (CellsOnly.refl v).andMemory.store _ _

/-- The fields of CAP_CTRL as written. -/
def capturePut (c : Fin 16) (v : Nat) (s : State) : State :=
  (((s.put (RXDSP.CAP_CTRL_SRC c) (bits v 28 2)).put (RXDSP.CAP_CTRL_TRIG c) (bits v 25 3)).put (RXDSP.CAP_CTRL_SEL c) (bits v 16 4)).put
    (RXDSP.CAP_CTRL_LEN c) (bits v 0 16)

/-- What an accepted ARM leaves. -/
def captureArmed (c : Fin 16) (v : Nat) (s : State) : State :=
  (((((capturePut c v s).put (RXDSP.CAP_STAT_ARMED c) 1).put (RXDSP.CAP_STAT_DONE c) 0).put (RXDSP.CAP_STAT_ABORTED c) 0).put
    (RXDSP.CAP_STAT_RUNNING c) 0).putB (RXDSP.hTrig c) (bits v 25 3 == 0)

/-- What an ABORT leaves of a capture with n words in the buffer. -/
def captureStopped (c : Fin 16) (v n : Nat) (xs : List Int) (s : State) : State :=
  capturePut c v (((((putCapture c n xs s).put (RXDSP.CAP_STAT_ARMED c) 0).put (RXDSP.CAP_STAT_RUNNING c) 0).put
    (RXDSP.CAP_STAT_ABORTED c) 1).put (RXDSP.CAP_STAT_WORDS c) n)

/-- What the end of a capture leaves. -/
def captureEnded (c : Fin 16) (n : Nat) (xs : List Int) (s : State) : State :=
  ((((putCapture c n xs s).put (RXDSP.CAP_STAT_RUNNING c) 0).put (RXDSP.CAP_STAT_DONE c) 1).put (RXDSP.CAP_STAT_WORDS c) n).raise
    (.rxdsp c) 8

theorem capturePut_flds (c : Fin 16) (s : State) {v w : Nat} (h : ∀ lo n, lo + n ≤ 30 → bits w lo n = bits v lo n) :
    capturePut c w s = capturePut c v s := by
  rw [capturePut, h 28 2 (by decide), h 25 3 (by decide), h 16 4 (by decide), h 0 16 (by decide)]
  rfl

/-- The bits that a command sets over CAP_CTRL leave its fields. -/
theorem bits_capCtrl (v : Nat) {n : Nat} (hn : 30 ≤ n) (lo w : Nat) (h : lo + w ≤ 30) :
    bits (v % 2 ^ 30 + 2 ^ n) lo w = bits v lo w := by
  rw [bits_add_two_pow (h.trans hn), bits_mod_two_pow h]

theorem bit_capArm (v : Nat) : bit (v % 2 ^ 30 + 2 ^ 31) 30 = false ∧ bit (v % 2 ^ 30 + 2 ^ 31) 31 = true := by
  constructor
  · rw [bit_eq, decide_eq_false]
    omega
  · exact bit_add_two_pow_self (by omega)

theorem capCtrlEff_arm {c : Fin 16} {v : Nat} {s : State} (harmed : s.flag (RXDSP.CAP_STAT_ARMED c) = false) (htrig : bits v 25 3 < 5) :
    capCtrlEff c (v % 2 ^ 30 + 2 ^ 31) [] s = captureArmed c v s := by
  obtain ⟨habort, harm⟩ := bit_capArm v
  have hbits := bits_capCtrl v (n := 31) (by decide)
  have harmed' : (capturePut c v s).flag (RXDSP.CAP_STAT_ARMED c) = false := by
    simp (disch := (clear * - c; decide +kernel +revert)) only [capturePut, flag_put_other, harmed]
  unfold capCtrlEff
  rw [habort, harm, hbits 28 2 (by decide), hbits 25 3 (by decide), hbits 16 4 (by decide), hbits 0 16 (by decide)]
  change (if (true && !(capturePut c v s).flag (RXDSP.CAP_STAT_ARMED c) && decide (bits v 25 3 < 5)) = true then captureArmed c v s
    else capturePut c v s) = captureArmed c v s
  rw [harmed', decide_eq_true htrig]
  rfl

/-- A capture that an ABORT stops: a running one keeps the words that it has. -/
theorem capCtrlEff_abort {c : Fin 16} (v : Nat) (xs : List Int) {n : Nat} {s : State}
    (h : (s.flag (RXDSP.CAP_STAT_ARMED c) || s.flag (RXDSP.CAP_STAT_RUNNING c)) = true)
    (hn : n = if s.flag (RXDSP.CAP_STAT_RUNNING c) then min (captureLen c s) (wholeWords (s.get (RXDSP.CAP_CTRL_SRC c)) xs) else 0) :
    capCtrlEff c (v % 2 ^ 30 + 2 ^ 30) xs s = captureStopped c v n xs s := by
  have habort : bit (v % 2 ^ 30 + 2 ^ 30) 30 = true := bit_add_two_pow_self (by omega)
  have hbits := bits_capCtrl v (n := 30) (by decide)
  unfold capCtrlEff
  rw [habort, if_pos rfl, if_pos h, hbits 28 2 (by decide), hbits 25 3 (by decide), hbits 16 4 (by decide), hbits 0 16 (by decide), ← hn]
  rfl

theorem capFlds_onPage (c : Fin 16) : ∀ f ∈ [RXDSP.CAP_CTRL_SRC c, RXDSP.CAP_CTRL_TRIG c, RXDSP.CAP_CTRL_SEL c, RXDSP.CAP_CTRL_LEN c,
    RXDSP.CAP_STAT_ARMED c, RXDSP.CAP_STAT_RUNNING c, RXDSP.CAP_STAT_DONE c, RXDSP.CAP_STAT_ABORTED c, RXDSP.CAP_STAT_WORDS c,
    RXDSP.hTrig c], f.onPage (.rxdsp c) := by decide +kernel +revert

theorem OnlyPages.capturePut {c : Fin 16} {s t : State} (h : OnlyPages [.rxdsp c] s t) (v : Nat) :
    OnlyPages [.rxdsp c] s (capturePut c v t) := by
  have hf := capFlds_onPage c
  have hp := List.mem_singleton_self (Page.rxdsp c)
  exact (((h.put hp (hf _ (by simp)) _).put hp (hf _ (by simp)) _).put hp (hf _ (by simp)) _).put hp (hf _ (by simp)) _

theorem captureArmed_onlyPages (c : Fin 16) (v : Nat) (s : State) : OnlyPages [.rxdsp c] s (captureArmed c v s) := by
  have hf := capFlds_onPage c
  have hp := List.mem_singleton_self (Page.rxdsp c)
  exact ((((((OnlyPages.refl _ s).capturePut v).put hp (hf _ (by simp)) _).put hp (hf _ (by simp)) _).put hp (hf _ (by simp)) _).put hp
    (hf _ (by simp)) _).put hp (hf _ (by simp)) _

theorem captureStopped_onlyPages (c : Fin 16) (v n : Nat) (xs : List Int) (s : State) :
    OnlyPages [.rxdsp c] s (captureStopped c v n xs s) := by
  have hf := capFlds_onPage c
  have hp := List.mem_singleton_self (Page.rxdsp c)
  exact (((((putCapture_onlyPages _ c n xs s).put hp (hf _ (by simp)) _).put hp (hf _ (by simp)) _).put hp (hf _ (by simp)) _).put hp
    (hf _ (by simp)) _).capturePut v

theorem captureEnded_onlyPages (c : Fin 16) (n : Nat) (xs : List Int) (s : State) :
    OnlyPages [.rxdsp c] s (captureEnded c n xs s) := by
  have hf := capFlds_onPage c
  have hp := List.mem_singleton_self (Page.rxdsp c)
  exact ((((putCapture_onlyPages _ c n xs s).put hp (hf _ (by simp)) _).put hp (hf _ (by simp)) _).put hp (hf _ (by simp)) _).raise hp 8

theorem CellsOnly.capturePut {c : Fin 16} {s t : State} (h : CellsOnly s t) (v : Nat) : CellsOnly s (capturePut c v t) :=
  (((h.put _ _).put _ _).put _ _).put _ _

theorem captureArmed_cellsOnly (c : Fin 16) (v : Nat) (s : State) : CellsOnly s (captureArmed c v s) :=
  ((((((CellsOnly.refl s).capturePut v).put _ _).put _ _).put _ _).put _ _).put _ _

theorem captureStopped_cellsOnly (c : Fin 16) (v : Nat) (xs : List Int) (s : State) : CellsOnly s (captureStopped c v 0 xs s) :=
  (((((CellsOnly.refl s).put _ _).put _ _).put _ _).put _ _).capturePut v

theorem captureStopped_cellsAndMemory (c : Fin 16) (v n : Nat) (xs : List Int) (s : State) :
    CellsAndMemory s (captureStopped c v n xs s) :=
  ((((putCapture_cellsAndMemory c n xs s).put _ _).put _ _).put _ _).put _ _ |>.trans ((CellsOnly.refl _).capturePut v).andMemory

theorem captureEnded_cellsAndMemory (c : Fin 16) (n : Nat) (xs : List Int) (s : State) : CellsAndMemory s (captureEnded c n xs s) :=
  ((((putCapture_cellsAndMemory c n xs s).put _ _).put _ _).put _ _).raise _ 8

/-- Settles O8. -/
theorem subcarrierLocksAndCaptures : Obligations.SubcarrierLocksAndCaptures := by
  unfold Obligations.SubcarrierLocksAndCaptures
  refine ⟨?scUnlockRowOff, ?scUnlockRowOn, ?scLock, ?eqReset, ?eqResetMask, ?sing, ?singHeld, ?cycleSlip, ?trUnlock,
    ?freqOutOfRange, ?freqInRange, ?freqInvalid, ?snrValid, ?captureArm, ?captureAbortArmed, ?captureAbortRunning,
    ?captureTrigger, ?captureDone⟩
  case scUnlockRowOff =>
    intro c i s hrun hclk hlock hrow
    show execScUnlock c i s = _
    rw [execScUnlock, rxAct, act_live _ _ hrun, if_pos hclk, scFall_locked hlock, hrow]
    rfl
  case scUnlockRowOn =>
    intro c i s hrun hclk hlock hrow
    show execScUnlock c i s = _
    rw [execScUnlock, rxAct, act_live _ _ hrun, if_pos hclk, scFall_locked hlock, hrow]
    rfl
  case scLock =>
    intro c i s hrun hclk hlock hmode
    show execScLock c i s = _
    rw [execScLock, rxAct, act_live _ _ hrun]
    simp [hclk, scLock, hlock, scRow_iff.mpr hmode]
  case eqReset =>
    intro m c s hrun hacc
    show execEqReset m c 1 s = _
    rw [execEqReset, act_live _ _ hrun, writeCmd_accepts hacc, eqCmdEff_one, eqReset]
  case eqResetMask =>
    intro m c v s hrun hacc
    show execEqReset m c v s = _
    rw [execEqReset, act_live _ _ hrun, writeCmd_accepts hacc]
    simp [eqCmdEff]
  case sing =>
    intro c i s hrun hclk hmode hfrozen hrow
    show execSing c i s = _
    rw [execSing, rxAct, act_live _ _ hrun]
    simp [hclk, scRow_iff.mpr hmode, hfrozen, hrow]
  case singHeld =>
    intro c i s hrun hclk hmode hhold
    show execSing c i s = _
    rw [execSing, rxAct, act_live _ _ hrun]
    simp [hclk, scRow_iff.mpr hmode, hhold]
  case cycleSlip =>
    intro c i k s hrun hclk hmode hk
    show execCycleSlip c ⟨i, k⟩ s = _
    rw [execCycleSlip, rxAct, act_live _ _ hrun]
    simp [hclk, scRow_iff.mpr hmode, hk]
  case trUnlock =>
    intro c s hrun hLineClk hIsHub hTrStatLock
    show execTrUnlock c s = _
    rw [execTrUnlock, rxAct, act_live _ _ hrun]
    simp [hLineClk, hIsHub, hTrStatLock, trFall, lcTrUnlock]
  case freqOutOfRange =>
    intro c ofs s hrun hclk hfreeze hofs hout
    show execFreqRange c ofs s = _
    rw [execFreqRange, rxAct, act_live _ _ hrun]
    simp [hclk, freqEstimate, freqUpdate_valid hfreeze hofs, flag_oor_freqFollow, geti_ofs_put c hofs, hout]
  case freqInRange =>
    intro c ofs s hrun hclk hfreeze hofs
    show execFreqRange c ofs s = _
    have hofs' : |ofs| ≤ 8000 := hofs.trans (by decide)
    rw [execFreqRange, rxAct, act_live _ _ hrun]
    simp [hclk, freqEstimate, freqUpdate_valid hfreeze hofs', flag_oor_freqFollow, geti_ofs_put c hofs', not_lt.mpr hofs]
  case freqInvalid =>
    intro c ofs s hrun hclk hfreeze hofs hoor
    show execFreqRange c ofs s = _
    rw [execFreqRange, rxAct, act_live _ _ hrun]
    simp (disch := (clear * - c; decide +kernel +revert)) [hclk, freqEstimate, freqUpdate, hfreeze, not_le.mpr hofs, flag_put_other, hoor]
  case snrValid =>
    intro c i s hrun hLineClk hScStat0ScLock hSnrCtrlAvg
    show execSnrValid c i s = _
    rw [execSnrValid, rxAct, act_live _ _ hrun]
    simp [hLineClk, hScStat0ScLock, hSnrCtrlAvg, scLock]
  case captureArm =>
    intro m c v s hrun hacc harmed htrig
    have hexec : exec (.captureArm m c v) s = .next (commit s.pending (captureArmed c v s)) := by
      show execCaptureArm m c v s = _
      rw [execCaptureArm, act_live _ _ hrun, writeCmd_accepts hacc, capCtrlEff_arm harmed htrig]
    refine ⟨_, hexec, ?_, ?_, ?_, ?_, ?_, ?_, ?_, (captureArmed_onlyPages c v s).commit _,
      (captureArmed_cellsOnly c v s).registersOnly⟩
    all_goals
      simp (disch := (clear * - c; decide +kernel +revert)) only [State.flag, get_commit, captureArmed, capturePut, State.get_put_other,
        get_putB_other, State.get_put_self]
    exacts [rfl, rfl, rfl, bits_mod_width v _ _, bits_mod_width v _ _, bits_mod_width v _ _, bits_mod_width v _ _]
  case captureAbortArmed =>
    intro m c v xs s hrun hacc harmed hrunning
    have hexec : exec (.captureAbort m c v xs) s = .next (commit s.pending (captureStopped c v 0 xs s)) := by
      show execCaptureAbort m c v xs s = _
      rw [execCaptureAbort, act_live _ _ hrun, writeCmd_accepts hacc,
        capCtrlEff_abort v xs (n := 0) (by rw [harmed]; rfl) (by rw [hrunning]; rfl)]
    refine ⟨_, hexec, ?_, ?_, ?_, (captureStopped_onlyPages c v 0 xs s).commit _,
      (captureStopped_cellsOnly c v xs s).registersOnly⟩
    all_goals
      simp (disch := (clear * - c; decide +kernel +revert)) only [State.flag, get_commit, captureStopped, capturePut, State.get_put_other,
        State.get_put_self]
    exacts [rfl, rfl, rfl]
  case captureAbortRunning =>
    intro m c v xs n s hrun hacc hrunning hn
    have hexec : exec (.captureAbort m c v xs) s = .next (commit s.pending (captureStopped c v n xs s)) := by
      show execCaptureAbort m c v xs s = _
      rw [execCaptureAbort, act_live _ _ hrun, writeCmd_accepts hacc,
        capCtrlEff_abort v xs (n := n) (by rw [hrunning, Bool.or_true]) (by rw [hrunning, if_pos rfl, hn])]
    have hlt : n < 2 ^ 16 := by have := captureLen_le c s; omega
    refine ⟨_, hexec, ?_, ?_, ?_, fun k hk => ?stoppedWord, (captureStopped_onlyPages c v n xs s).commit _,
      (captureStopped_cellsAndMemory c v n xs s).registersAndMemory⟩
    case stoppedWord => simp only [word_commit, captureStopped, capturePut, State.word_put, word_putCapture c xs s hk]
    all_goals
      simp (disch := (clear * - c; decide +kernel +revert)) only [State.flag, get_commit, captureStopped, capturePut, State.get_put_other,
        State.get_put_self]
    exacts [rfl, rfl, Nat.mod_eq_of_lt hlt]
  case captureTrigger =>
    intro c s hrun hLineClk hCapStatArmed hTrig
    show execCaptureTrigger c s = _
    rw [execCaptureTrigger, rxAct, act_live _ _ hrun]
    simp [hLineClk, hCapStatArmed, hTrig]
  case captureDone =>
    intro c xs s hrun hclk hrunning
    have hexec : exec (.captureDone c xs) s = .next (commit s.pending (captureEnded c (captureLen c s) xs s)) := by
      show execCaptureDone c xs s = _
      rw [execCaptureDone, rxAct, act_live _ _ hrun, if_pos hclk, if_pos hrunning]
      rfl
    have hlt : captureLen c s < 2 ^ 16 := Nat.lt_of_le_of_lt (captureLen_le c s) (by decide)
    refine ⟨_, hexec, ?_, ?_, ?_, fun k hk => ?endedWord, ?endedCause, (captureEnded_onlyPages c _ xs s).commit _,
      (captureEnded_cellsAndMemory c _ xs s).registersAndMemory⟩
    case endedWord => simp only [word_commit, captureEnded, State.word_raise, State.word_put, word_putCapture c xs s hk]
    case endedCause =>
      rw [get_commit, captureEnded, testBit_raise (by intro n h; cases h) 8 _ (by decide), decide_eq_true rfl, Bool.or_true]
    all_goals
      simp (disch := (clear * - c; decide +kernel +revert)) only [State.flag, get_commit, captureEnded, get_raise_other,
        State.get_put_other,
        State.get_put_self]
    exacts [rfl, rfl, Nat.mod_eq_of_lt hlt]

end Sys2Proof.Machine
end

section
/-! PROOFS. Codewords and framing (chapters 06 and 08). -/
namespace Sys2Proof.Machine

set_option Elab.async false

/-! ## Codewords -/

theorem get_cntAdd_other {f g : Fld} (h : f.key ≠ g.key) (n : Nat) (s : State) : (s.cntAdd f n).get g = s.get g := by
  unfold State.cntAdd
  dsimp only
  split
  · exact State.get_put_other _ _ _ _ h
  · exact State.get_put_other _ _ _ _ h

/-- What the counts of a codeword write (R228, R234). -/
def fecCountFlds (c : Fin 16) : List Fld :=
  [FEC.hTickCorr c, FEC.hTickDec c] ++ (List.finRange 6).map (FEC.hRun c) ++ (List.finRange 16).map (FEC.hHist c)

theorem get_countNative_other {c : Fin 16} {f : Fld} (hf : ∀ g ∈ fecCountFlds c, g.key ≠ f.key) (llr : List Int) (d : Decoded)
    (s : State) : (countNative c llr d s).get f = s.get f := by
  have hcorr := hf (FEC.hTickCorr c) (by simp [fecCountFlds])
  have hdec := hf (FEC.hTickDec c) (by simp [fecCountFlds])
  have hrun (k : Fin 6) := hf (FEC.hRun c k) (by simp [fecCountFlds])
  have hhist (k : Fin 16) := hf (FEC.hHist c k) (by simp [fecCountFlds])
  have hcode (len corr : Nat) (iter : Option Nat) : (countCodeword c len corr iter s).get f = s.get f := by
    unfold countCodeword
    cases iter <;> simp only [get_cntAdd_other (hhist _), get_cntAdd_other (hrun _), State.get_put_other _ _ _ _ hcorr,
      State.get_put_other _ _ _ _ hdec]
  unfold countNative
  dsimp only
  split
  · rw [get_cntAdd_other (hrun 3), hcode]
  · exact hcode _ _ _

theorem hNconv_not_counted (c : Fin 16) : ∀ g ∈ fecCountFlds c, g.key ≠ (FEC.hNconv c).key := by decide +kernel +revert

theorem rxZr_put {c : Fin 16} {f : Fld} (h : f.key ≠ (RXDSP.hMode c).key) (v : Nat) (s : State) : rxZr c (s.put f v) = rxZr c s := by
  rw [rxZr, State.get_put_other _ _ _ _ h, rxZr]

/-! ## Candidates -/

theorem candPos_lt (v : Nat) : candPos v < 1099511627776 := Nat.mod_lt _ (Nat.two_pow_pos 40)

/-- Settles O5. -/
theorem framingAndCodewords : Obligations.FramingAndCodewords := by
  unfold Obligations.FramingAndCodewords
  refine ⟨?candidateOpens, ?candidateRejected, ?frameConfirmed, ?frameDiscarded, ?framerAligned, ?framerAlignedZr, ?framerLoss,
    ?framerMfnMismatch, ?burstCodeword, ?nativeCodeword, ?huntCodeword, ?ofecBlock, ?cwLockAcquired, ?cwLockAcquiredZr, ?cwLockLost,
    ?outerLockAcquired, ?outerLockLost, ?fecDegSet, ?fecDegClr⟩
  case frameConfirmed =>
    intro c i v fs s hrun hclk hstate hcand hconf
    show execFrameConfirm c i [(candPos v, fs)] s = _
    rw [execFrameConfirm, rxAct, act_live _ _ hrun]
    simp [hclk, hstate, hcand, candPos_lt, hconf]
  case frameDiscarded =>
    intro c i v fs s hrun hclk hstate hcand hconf
    show execFrameConfirm c i [(candPos v, fs)] s = _
    rw [execFrameConfirm, rxAct, act_live _ _ hrun]
    simp [hclk, hstate, hcand, Nat.mod_eq_of_lt (candPos_lt v), hconf]
  case burstCodeword =>
    intro c b llr s hrun hruns hzr hlock hlen
    show execCodewordDecode c b (.burst llr) s = _
    have hlock' : (if (decodeLlr c llr s).iter.isSome = true then s.put (HUB.hCapCws c b) (s.get (HUB.hCapCws c b) + 1) else s).flag
        (FEC.FEC_STAT_CW_LOCK c) = true := by
      split
      · rw [flag_put_other (by clear * - c b; decide +kernel +revert), hlock]
      · exact hlock
    rw [execCodewordDecode, act_live _ _ hrun]
    simp only [hruns, hzr, burstCodeword, if_pos hlen, hlock', if_true, Bool.not_true, Bool.false_eq_true, if_false]
  case nativeCodeword =>
    intro c b cand llr blocks s hrun hruns hzr hlock hcand
    show execCodewordDecode c b (.native cand llr blocks) s = _
    have hhere : (isHub c s || s.get (FEC.hCand c b) == cand) = true := by simpa using hcand
    rw [execCodewordDecode, act_live _ _ hrun]
    simp only [hruns, hzr, hlock, hhere, get_countNative_other (hNconv_not_counted c), if_true, Bool.not_true, Bool.false_eq_true, if_false]
  case cwLockAcquired =>
    intro c s hrun hruns hlock hzr hconv
    show execCwLockAcquired c s = _
    rw [execCwLockAcquired, act_live _ _ hrun]
    simp (disch := (clear * - c; decide +kernel +revert)) [hruns, hlock, hzr, hconv, rxZr_put]
  case cwLockAcquiredZr =>
    intro c s hrun hruns hlock hzr hstage
    show execCwLockAcquired c s = _
    rw [execCwLockAcquired, act_live _ _ hrun]
    simp (disch := (clear * - c; decide +kernel +revert)) [hruns, hlock, hzr, hstage, rxZr_put]
  case candidateOpens =>
    intro c i pos fas oh s hrun hLineClk hOtuRuns hFecStatCwLock hRxZr hI hFrmState hOpensCandidate h
    show execFrameCandidate c i pos fas oh s = _
    rw [execFrameCandidate, rxAct, act_live _ _ hrun]
    simp [hLineClk, hOtuRuns, hFecStatCwLock, hRxZr, hI, hFrmState, hOpensCandidate, h]
  case candidateRejected =>
    intro c i pos fas oh s hrun hLineClk hOtuRuns hFecStatCwLock hRxZr hI hFrmState hOpensCandidate h
    show execFrameCandidate c i pos fas oh s = _
    rw [execFrameCandidate, rxAct, act_live _ _ hrun]
    simp [hLineClk, hOtuRuns, hFecStatCwLock, hRxZr, hI, hFrmState, hOpensCandidate, h]
  case framerAligned =>
    intro c i s hrun hLineClk hOtuRuns hFecStatCwLock hRxZr hFrmState hMet
    show execFramerAligned c i s = _
    rw [execFramerAligned, rxAct, act_live _ _ hrun]
    simp [hLineClk, hOtuRuns, hFecStatCwLock, hRxZr, hFrmState, hMet]
  case framerAlignedZr =>
    intro c s hrun hLineClk hOtuRuns hFecStatCwLock hRxZr hFrmState
    show execFramerAligned c 0 s = _
    rw [execFramerAligned, rxAct, act_live _ _ hrun]
    simp [hLineClk, hOtuRuns, hFecStatCwLock, hRxZr, hFrmState]
  case framerLoss =>
    intro c i s hrun hLineClk hFrmState hErr
    show execFramerLoss c i s = _
    rw [execFramerLoss, rxAct, act_live _ _ hrun]
    simp [hLineClk, hFrmState, hErr]
  case framerMfnMismatch =>
    intro c i s hrun hLineClk hFrmState hMis
    show execFramerMfnMismatch c i s = _
    rw [execFramerMfnMismatch, rxAct, act_live _ _ hrun]
    simp [hLineClk, hFrmState, hMis, streamAligned]
  case huntCodeword =>
    intro c b cand llr blocks s hrun hFecRuns hRxZr hFecStatCwLock
    show execCodewordDecode c b (.native cand llr blocks) s = _
    rw [execCodewordDecode, act_live _ _ hrun]
    simp [hFecRuns, hRxZr, hFecStatCwLock, huntCodeword]
  case ofecBlock =>
    intro c b len corr n s hrun hFecRuns hRxZr hFecStatCwLock
    show execCodewordDecode c b (.ofec len corr (some n)) s = _
    rw [execCodewordDecode, act_live _ _ hrun]
    simp [hFecRuns, hRxZr, hFecStatCwLock]
  case cwLockLost =>
    intro c s hrun hLineClk hFecStatCwLock hNconv
    show execCwLockLost c s = _
    rw [execCwLockLost, rxAct, act_live _ _ hrun]
    simp [hLineClk, hFecStatCwLock, hNconv]
  case outerLockAcquired =>
    intro c s hrun hLineClk hFecStatCwLock hFecStatOuterLock hGoodBlk h
    show execOuterLockAcquired c s = _
    rw [execOuterLockAcquired, rxAct, act_live _ _ hrun]
    simp [hLineClk, hFecStatCwLock, hFecStatOuterLock, hGoodBlk, h]
  case outerLockLost =>
    intro c s hrun hLineClk hFecStatOuterLock hBadBlk
    show execOuterLockLost c s = _
    rw [execOuterLockLost, rxAct, act_live _ _ hrun]
    simp [hLineClk, hFecStatOuterLock, hBadBlk]
  case fecDegSet =>
    intro c s hrun hDegEvaluated hFecStatDeg hDegTimeSetTicks
    show execFecDegSet c s = _
    rw [execFecDegSet, act_live _ _ hrun]
    simp [hDegEvaluated, hFecStatDeg, hDegTimeSetTicks]
  case fecDegClr =>
    intro c s hrun hDegEvaluated hFecStatDeg hDegTimeClrTicks
    show execFecDegClr c s = _
    rw [execFecDegClr, act_live _ _ hrun]
    simp [hDegEvaluated, hFecStatDeg, hDegTimeClrTicks]


end Sys2Proof.Machine
end

section
/-! PROOFS. Received frames, and what is sent (chapters 07 and 08). -/
namespace Sys2Proof.Machine

set_option Elab.async false

/-- A frame is errored unless FAS and MFAS are as they must be (R318). -/
theorem ite_errored {a : Bool} {p : Prop} [Decidable (a = false ∨ ¬ p)] [Decidable (a = true ∧ p)] (x : Nat) :
    (if a = false ∨ ¬ p then x else 0) = if a = true ∧ p then 0 else x := by
  cases a <;> by_cases hp : p <;> simp [hp]

/-- Settles O6. -/
theorem receivedOverhead : Obligations.ReceivedOverhead := by
  unfold Obligations.ReceivedOverhead
  refine ⟨?framedFrame, ?alignedFrame, ?multiframeBegins, ?msaFrame, ?ttiAccepted, ?lof, ?lofLossEvent, ?lom, ?statDefectChange,
    ?bdiDefectChange⟩
  case framedFrame =>
    intro c i octets arr s hrun hclk hstate hmfas hzr
    show execFrameReceived c i (.native octets arr) s = _
    rw [execFrameReceived, rxAct, act_live _ _ hrun]
    simp (disch := (clear * - c i; decide +kernel +revert)) [hclk, hstate, hmfas, hzr, streamAligned, State.get_put_other,
      ite_errored]
  case alignedFrame =>
    intro c i octets arr s hrun hclk hstate hmfas hzr
    show execFrameReceived c i (.native octets arr) s = _
    rw [execFrameReceived, rxAct, act_live _ _ hrun]
    simp (disch := (clear * - c i; decide +kernel +revert)) [hclk, hstate, hmfas, hzr, streamAligned, frameArr, State.get_put_other,
      ite_errored]
  case multiframeBegins =>
    intro c i octets arr s hrun hclk hstate hmfas hzr
    show execFrameReceived c i (.native octets arr) s = _
    rw [execFrameReceived, rxAct, act_live _ _ hrun]
    simp (disch := (clear * - c i; decide +kernel +revert)) [hclk, hstate, hmfas, hzr, streamAligned, frameArr, State.get_put_other,
      ite_errored]
  case msaFrame =>
    intro c i oh sm pm s hrun hLineClk hFrmState hMfas hRxZr
    show execFrameReceived c i (.msa oh sm pm) s = _
    rw [execFrameReceived, rxAct, act_live _ _ hrun]
    simp (disch := (clear * - c i; decide +kernel +revert)) [hLineClk, hFrmState, hMfas, hRxZr, ohFas, ohMfas, streamAligned,
      takePayload, State.get_put_other]
  case ttiAccepted =>
    intro c i s hrun hLineClk hFrmState hTtiRun
    show execTtiAccepted c i s = _
    rw [execTtiAccepted, rxAct, act_live _ _ hrun]
    simp [hLineClk, hFrmState, hTtiRun, streamAligned]
  case lof =>
    intro c i s hrun hLineClk hOtuRuns hOof hLof hI h
    show execLof c i s = _
    rw [execLof, rxAct, act_live _ _ hrun]
    simp [hLineClk, hOtuRuns, hOof, hLof, hI, h, carState, stCal]
  case lofLossEvent =>
    intro c i s hrun hLineClk hOtuRuns hOof hLof hI h
    show execLof c i s = _
    rw [execLof, rxAct, act_live _ _ hrun]
    simp [hLineClk, hOtuRuns, hOof, hLof, hI, h, carState]
  case lom =>
    intro c i s hrun hLineClk hFrmState hFromAl hLom hFrmCfgLomMf h
    show execLom c i s = _
    rw [execLom, rxAct, act_live _ _ hrun]
    simp [hLineClk, hFrmState, hFromAl, hLom, hFrmCfgLomMf, h, carState]
  case statDefectChange =>
    intro c i s hrun hLineClk hFrmState
    show execStatDefectChange c i s = _
    rw [execStatDefectChange, rxAct, act_live _ _ hrun]
    simp [hLineClk, hFrmState, streamAligned]
  case bdiDefectChange =>
    intro c i s hrun hLineClk hFrmState
    show execBdiDefectChange c i s = _
    rw [execBdiDefectChange, rxAct, act_live _ _ hrun]
    simp [hLineClk, hFrmState, streamAligned]

/-- Settles O13. -/
theorem transmitFrames : Obligations.TransmitFrames := by
  unfold Obligations.TransmitFrames
  refine ⟨?txMultiframeStart, ?branchFrameSend⟩
  case txMultiframeStart =>
    intro c d pay s hrun hOtuRuns
    show execTxMultiframeStart c ⟨d, pay⟩ s = _
    rw [execTxMultiframeStart, act_live _ _ hrun]
    simp [hOtuRuns]
  case branchFrameSend =>
    intro c b s hrun hOtuRuns hIsHub hB hBrFrame
    show execBranchFrameSend c b s = _
    rw [execBranchFrameSend, act_live _ _ hrun]
    simp [hOtuRuns, hIsHub, hB, hBrFrame]

end Sys2Proof.Machine
end

section
/-! PROOFS. The Keyway (chapter 12). -/
namespace Sys2Proof.Machine

set_option Elab.async false

/-! ## What a command of the Keyway begins with (R470) -/

/-- What the beginning of a command writes. -/
def kwBegunFlds : List Fld :=
  [KEYWAY.KW_STAT_BUSY, KEYWAY.KW_STAT_RESULT, KEYWAY.KW_STAT_CAUSE, KEYWAY.hOp, KEYWAY.hArg, KEYWAY.hRes, KEYWAY.hCause]

theorem get_kwBegun_other {f : Fld} (hf : ∀ g ∈ kwBegunFlds, g.key ≠ f.key) (op : Nat) (s : State) : (kwBegun op s).get f = s.get f := by
  simp only [kwBegunFlds, List.forall_mem_cons] at hf
  obtain ⟨hbusy, hresult, hcause, hop, harg, hres, hcause', -⟩ := hf
  simp only [kwBegun, State.get_put_other _ _ _ _ hcause', State.get_put_other _ _ _ _ hres, State.get_put_other _ _ _ _ harg,
    State.get_put_other _ _ _ _ hop, State.get_put_other _ _ _ _ hcause, State.get_put_other _ _ _ _ hresult,
    State.get_put_other _ _ _ _ hbusy]

theorem kwBegun_mem (op : Nat) (s : State) : (kwBegun op s).mem = s.mem := by
  rw [kwBegun, State.put_mem, State.put_mem, State.put_mem, State.put_mem, State.put_mem, State.put_mem, State.put_mem]

/-- What a command of the Keyway does once it has begun. -/
def kwRun (op : Nat) (s : State) : State :=
  match op with
  | 1 => kwImportKek s
  | 2 => kwEraseKek s
  | 3 => kwImportKey s
  | 4 => kwEraseKey s
  | 5 => kwRetirePrev s
  | 6 => kwSave s
  | 7 => kwRestore s
  | _ => kwDiscard s

/-- A command of an enabled Keyway that is not busy begins and runs. -/
theorem kwCmdEff_idle {op : Nat} {s : State} (hlo : op ≠ 0) (hhi : op ≤ 8) (hon : pageOn .keyway s = true)
    (hbusy : s.flag KEYWAY.KW_STAT_BUSY = false) : kwCmdEff op s = kwRun op (kwBegun op s) := by
  have hop : op % 16 = op := Nat.mod_eq_of_lt (by omega)
  have htaken : ¬ (op = 0 ∨ 8 < op ∨ (!pageOn .keyway s) = true) := by rw [hon]; simp; omega
  unfold kwCmdEff
  rw [hop, if_neg htaken, hbusy, if_neg Bool.false_ne_true]
  rfl

/-! ## What the commands read -/

theorem asWord_of_mem {s t : State} (h : t.mem = s.mem) (q : Fin 4) (a : Fin 1024) (w : Nat) : asWord q a w t = asWord q a w s :=
  State.word_of_mem h _

theorem slotStat_of_mem {s t : State} (h : t.mem = s.mem) (q : Fin 4) (k : Fin 1024) : slotStat q k t = slotStat q k s :=
  State.word_of_mem h _

theorem slotUsers_of_mem {s t : State} (h : t.mem = s.mem) (q : Fin 4) (k : Fin 1024) : slotUsers q k t = slotUsers q k s := by
  have hword : t.word = s.word := funext (State.word_of_mem h)
  rw [slotUsers, slotUsers, asLive, asLive, State.live, State.live, h, hword]

theorem kwBuf_kwBegun (op : Nat) (s : State) : kwBuf (kwBegun op s) = kwBuf s := by
  have hw (w : Fin 32) : ∀ g ∈ kwBegunFlds, g.key ≠ (KEYWAY.KW_BUF w).key := by decide +kernel +revert
  simp only [kwBuf, get_kwBegun_other (hw _)]

theorem kwLen_kwBegun (op : Nat) (s : State) : (kwBegun op s).get KEYWAY.KW_STAT_LEN = s.get KEYWAY.KW_STAT_LEN :=
  get_kwBegun_other (by decide +kernel) op s

/-- The saved record of an association is none of what a command begins with. -/
theorem saved_not_begun (r : Fin 16384) : (∀ g ∈ kwBegunFlds, g.key ≠ (KEYWAY.hSvValid r).key)
    ∧ (∀ g ∈ kwBegunFlds, g.key ≠ (KEYWAY.hSvSerial r).key) ∧ ∀ g ∈ kwBegunFlds, g.key ≠ (KEYWAY.hSvFloor r).key := by
  have hab := Page.hidBase_above .keyway .keyway
  simp only [kwBegunFlds, List.forall_mem_cons, Fld.key, KEYWAY.KW_STAT_BUSY, KEYWAY.KW_STAT_RESULT, KEYWAY.KW_STAT_CAUSE, KEYWAY.hOp,
    KEYWAY.hArg, KEYWAY.hRes, KEYWAY.hCause, KEYWAY.hSvValid, KEYWAY.hSvSerial, KEYWAY.hSvFloor, List.not_mem_nil, false_implies,
    implies_true, and_true]
  omega

/-- The argument of a command stays while its saved record is written. -/
theorem kwWrap_saved (r : Fin 16384) (x : Nat) (s : State) :
    kwWrap (((s.incWrap (KEYWAY.hSvSerial r) 1).put (KEYWAY.hSvValid r) 1).put (KEYWAY.hSvFloor r) x) = kwWrap s := by
  have hkeys : (KEYWAY.hSvSerial r).key ≠ KEYWAY.hArg.key ∧ (KEYWAY.hSvValid r).key ≠ KEYWAY.hArg.key
      ∧ (KEYWAY.hSvFloor r).key ≠ KEYWAY.hArg.key := by
    simp only [Fld.key, KEYWAY.hArg, KEYWAY.hSvValid, KEYWAY.hSvSerial, KEYWAY.hSvFloor]
    omega
  obtain ⟨hserial, hvalid, hfloor⟩ := hkeys
  rw [kwWrap, State.get_put_other _ _ _ _ hfloor, State.get_put_other _ _ _ _ hvalid, get_incWrap_other hserial, kwWrap]

/-- RESTORE of a record that passes every check is applied (R466). -/
theorem kwRestore_applies {q : Fin 4} {a : Fin 1024} {b : List Nat} {r : Fin 16384} {s : State} (hq : q = kwQuad s) (ha : a = kwPlace s)
    (hb : b = (kwBuf s).take 64) (hlen : s.get KEYWAY.KW_STAT_LEN = 64) (hmagic : b.take 4 = [0x54, 0x53, 0x41, 0x43])
    (hver : ofLe (slice b 4 2) = 1) (hcrc : ofLe (slice b 60 4) = crc32c (b.take 60)) (hoff : adEn (asWord q a 0 s) = false)
    (hrx : adRx (asWord q a 0 s) = bit (b.getD 6 0) 0) (hr : ofLe (slice b 8 2) = r.val) (hvalid : s.flag (KEYWAY.hSvValid r) = true)
    (hserial : ofLe (slice b 12 4) = s.get (KEYWAY.hSvSerial r))
    (hfloor : adRx (asWord q a 0 s) = true ∨ s.get (KEYWAY.hSvFloor r) ≤ ofLe (slice b 24 8))
    (hkey : slotLoaded q (adSlot (asWord q a 0 s)) s = true) : kwRestore s = restoreApply q a b none s := by
  have hrec : (Fin.ofNat 16384 r.val : Fin 16384) = r := Fin.ofNat_val_eq_self r
  have hlt : ¬ 16384 ≤ r.val := Nat.not_le.mpr r.isLt
  have hfloor' (h : adRx (asWord q a 0 s) = false) : ¬ ofLe (slice b 24 8) < s.get (KEYWAY.hSvFloor r) :=
    Nat.not_lt.mpr (hfloor.resolve_left (by rw [h]; exact Bool.false_ne_true))
  unfold kwRestore
  simp only [← hq, ← ha, ← hb, hlen, hmagic, hver, hcrc, hoff, ← hrx, hr, hrec, hvalid, ← hserial, hkey]
  simp [hlt]
  exact fun hrx' hbelow => absurd hbelow (hfloor' hrx')

/-- Settles O17. -/
theorem keywayOperations : Obligations.KeywayOperations := by
  unfold Obligations.KeywayOperations
  refine ⟨?importKek, ?eraseKek, ?importKey, ?eraseKeyInUse, ?eraseKeyFree, ?retirePrev, ?save, ?restore, ?discard, ?keyImportCommit,
    ?keyEraseCommit, ?saveComplete, ?keywayCmdDone⟩
  case importKek =>
    intro m s hrun hacc hon hbusy hlo hhi hkek hloaded
    show execImportKek m s = _
    rw [execImportKek, act_live _ _ hrun, writeCmd_accepts hacc, kwCmdEff_idle (by decide) (by decide) hon hbusy, kwRun, kwImportKek,
      if_neg (by omega), hloaded]
    cases keyUnwrap (kekOf 0 (kwBegun 1 s)) kwDefault ((kwBuf (kwBegun 1 s)).take 40) <;> rfl
  case eraseKek =>
    intro m s hrun hacc hon hbusy hlo hhi
    show execEraseKek m s = _
    rw [execEraseKek, act_live _ _ hrun, writeCmd_accepts hacc, kwCmdEff_idle (by decide) (by decide) hon hbusy, kwRun, kwEraseKek,
      if_neg (by omega)]
  case importKey =>
    intro m s hrun hacc hon hbusy hloaded husers
    show execImportKey m s = _
    rw [execImportKey, act_live _ _ hrun, writeCmd_accepts hacc, kwCmdEff_idle (by decide) (by decide) hon hbusy, kwRun, kwImportKey]
    have husers' (key : Nat) : slotUsers (kwQuad (kwBegun 3 s)) (kwPlace (kwBegun 3 s))
        (((kwBegun 3 s).put (CIPH.hNew (kwQuad (kwBegun 3 s)) (kwPlace (kwBegun 3 s))) key).put
          (CIPH.hStage (kwQuad (kwBegun 3 s)) (kwPlace (kwBegun 3 s))) 1) ≠ [] := by
      rwa [slotUsers_of_mem (s := s) (by rw [State.put_mem, State.put_mem, kwBegun_mem])]
    rw [hloaded]
    cases keyUnwrap (kekOf (kwKek (kwBegun 3 s)) (kwBegun 3 s)) kwDefault ((kwBuf (kwBegun 3 s)).take 40) with
    | none => rfl
    | some key => exact congrArg (fun u => Host.Outcome.next (commit s.pending u)) (if_neg (husers' key))
  case eraseKeyInUse =>
    intro m s hrun hacc hon hbusy husers
    show execEraseKey m s = _
    rw [execEraseKey, act_live _ _ hrun, writeCmd_accepts hacc, kwCmdEff_idle (by decide) (by decide) hon hbusy, kwRun, kwEraseKey]
    rw [← slotUsers_of_mem (t := (kwBegun 4 s).put (CIPH.hStage (kwQuad (kwBegun 4 s)) (kwPlace (kwBegun 4 s))) 2)
      (by rw [State.put_mem, kwBegun_mem])] at husers
    simp only [if_neg husers]
  case eraseKeyFree =>
    intro m s hrun hacc hon hbusy husers
    show execEraseKey m s = _
    rw [execEraseKey, act_live _ _ hrun, writeCmd_accepts hacc, kwCmdEff_idle (by decide) (by decide) hon hbusy, kwRun, kwEraseKey]
    rw [← slotUsers_of_mem (t := (kwBegun 4 s).put (CIPH.hStage (kwQuad (kwBegun 4 s)) (kwPlace (kwBegun 4 s))) 2)
      (by rw [State.put_mem, kwBegun_mem])] at husers
    simp only [if_pos husers]
  case retirePrev =>
    intro m q k s hrun hacc hon hbusy hq hk
    show execRetirePrev m s = _
    have hstat := slotStat_of_mem (kwBegun_mem 5 s) q k
    rw [execRetirePrev, act_live _ _ hrun, writeCmd_accepts hacc, kwCmdEff_idle (by decide) (by decide) hon hbusy, kwRun, kwRetirePrev,
      ← hq, ← hk]
    simp only [slotLoaded, slotGen, slotWear, hstat]
  case save =>
    intro m q k s hrun hacc hon hbusy hq hk hen
    show execSave m s = _
    rw [execSave, act_live _ _ hrun, writeCmd_accepts hacc, kwCmdEff_idle (by decide) (by decide) hon hbusy, kwRun, kwSave, ← hq, ← hk,
      asWord_of_mem (kwBegun_mem 6 s), hen]
    rfl
  case restore =>
    intro m q a b r s hrun hacc hon hbusy hq ha hb hlen hmagic hver hcrc hoff hrx hr hvalid hserial hfloor hkey
    show execRestore m s = _
    obtain ⟨hvalid', hserial', hfloor'⟩ := saved_not_begun r
    rw [← kwBuf_kwBegun 7] at hb
    rw [← kwLen_kwBegun 7] at hlen
    rw [← asWord_of_mem (kwBegun_mem 7 s)] at hoff hrx hfloor hkey
    rw [← flag_of_get (get_kwBegun_other hvalid' 7 s)] at hvalid
    rw [← get_kwBegun_other hserial' 7 s] at hserial
    rw [← get_kwBegun_other hfloor' 7 s] at hfloor
    rw [slotLoaded, ← slotStat_of_mem (kwBegun_mem 7 s)] at hkey
    rw [execRestore, act_live _ _ hrun, writeCmd_accepts hacc, kwCmdEff_idle (by decide) (by decide) hon hbusy, kwRun,
      kwRestore_applies hq ha hb hlen hmagic hver hcrc hoff hrx hr hvalid hserial hfloor hkey]
  case discard =>
    intro m s hrun hacc hon hbusy
    show execDiscard m s = _
    rw [execDiscard, act_live _ _ hrun, writeCmd_accepts hacc, kwCmdEff_idle (by decide) (by decide) hon hbusy, kwRun, kwDiscard]
    · rfl
    all_goals intro h; cases h
  case keyImportCommit =>
    intro q k s hrun hbusy hop hq hk hstage htook
    show execKeyImportCommit s = _
    rw [execKeyImportCommit, act_live _ _ hrun]
    simp only [← hq, ← hk, hbusy, hop, hstage, htook, and_self, if_true]
  case keyEraseCommit =>
    intro q k s hrun hbusy hop hq hk hstage htook
    show execKeyEraseCommit s = _
    rw [execKeyEraseCommit, act_live _ _ hrun]
    simp only [← hq, ← hk, hbusy, hop, hstage, htook, and_self, if_true]
  case saveComplete =>
    intro q a r s1 b s hrun hbusy hop hres hq ha hr hsaving hs1 hb
    show execSaveComplete s = _
    rw [execSaveComplete, act_live _ _ hrun]
    subst hs1 hb
    simp only [← hq, ← ha, hbusy, hop, hres, hsaving, and_self, if_true, Bool.false_eq_true, false_and, if_false, ← hr, State.putB_true,
      kwWrap_saved]
  case keywayCmdDone =>
    rintro _ s hrun hbusy rfl hres
    show execKeywayCmdDone s = _
    rw [execKeywayCmdDone, act_live _ _ hrun]
    simp only [hbusy, hres, ne_eq, not_false_eq_true, and_self, if_true, State.putB_false]

end Sys2Proof.Machine
end

section
/-! PROOFS. Hubs and leaves (chapter 07). -/
namespace Sys2Proof.Machine

set_option Elab.async false

theorem CellsOnly.mem {s t : State} (h : CellsOnly s t) : t.mem = s.mem := by
  unfold CellsOnly at h
  rw [h]

theorem CellsOnly.leafGrants {s t : State} (h : CellsOnly s t) : t.leafGrants = s.leafGrants := by
  unfold CellsOnly at h
  rw [h]

theorem CellsOnly.grants {s t : State} (h : CellsOnly s t) : t.grants = s.grants := by
  unfold CellsOnly at h
  rw [h]

theorem commit_leafGrants (q : List Instr) (s : State) : (commit q s).leafGrants = s.leafGrants :=
  settle_keeps State.leafGrants (fun v s => by unfold vecMessage; split <;> rfl) (fun _ _ _ _ _ => rfl) s

theorem commit_grants (q : List Instr) (s : State) : (commit q s).grants = s.grants :=
  settle_keeps State.grants (fun v s => by unfold vecMessage; split <;> rfl) (fun _ _ _ _ _ => rfl) s

/-! ## The cycles of a leaf -/

theorem cycleFlds_onPage (c : Fin 16) : ∀ f ∈ [HUB.LEAF_STAT_GRANTS c, HUB.hAns c, HUB.LEAF_EQD c, HUB.hEqdDue c, HUB.hFix c,
    HUB.hFixMax c, HUB.hFixAcc c, HUB.hFixMaxAcc c, HUB.hLeafGcn c], f.onPage (.hub c) := by decide +kernel +revert

theorem leafCycle_cellsOnly (c : Fin 16) (g : Nat) (s : State) : CellsOnly s (leafCycle c g s) := by
  have hans := ((CellsOnly.refl s).put (HUB.LEAF_STAT_GRANTS c) (s.get (HUB.hAns c))).put (HUB.hAns c) 0
  unfold leafCycle
  dsimp only
  split
  · exact CellsOnly.refl s
  · split
    · exact ((((((hans.put _ _).put _ _).put _ _).put _ _).put _ _).put _ _).put _ _
    · exact ((((hans.put _ _).put _ _).put _ _).put _ _).put _ _

theorem leafCycle_onlyPages (c : Fin 16) (g : Nat) (s : State) : OnlyPages [.hub c] s (leafCycle c g s) := by
  have hf := cycleFlds_onPage c
  have hp := List.mem_singleton_self (Page.hub c)
  have hans := ((OnlyPages.refl [.hub c] s).put hp (hf (HUB.LEAF_STAT_GRANTS c) (by simp)) (s.get (HUB.hAns c))).put hp
    (hf (HUB.hAns c) (by simp)) 0
  have hend {u : State} (h : OnlyPages [.hub c] s u) (a b : Nat) : OnlyPages [.hub c] s
      (((((u.put (HUB.hFix c) a).put (HUB.hFixMax c) b).put (HUB.hFixAcc c) 0).put (HUB.hFixMaxAcc c) 0).put (HUB.hLeafGcn c) g) :=
    ((((h.put hp (hf _ (by simp)) a).put hp (hf _ (by simp)) b).put hp (hf _ (by simp)) 0).put hp (hf _ (by simp)) 0).put hp
      (hf _ (by simp)) g
  unfold leafCycle
  dsimp only
  split
  · exact OnlyPages.refl _ s
  · split
    · exact hend ((hans.put hp (hf _ (by simp)) _).put hp (hf _ (by simp)) _) _ _
    · exact hend hans _ _

/-- The state with other grants of the leaves. -/
def withLeafGrants (l : List LeafGrant) (s : State) : State := { s with leafGrants := l }

theorem get_withLeafGrants (l : List LeafGrant) (s : State) (f : Fld) : (withLeafGrants l s).get f = s.get f := rfl

theorem withLeafGrants_mem (l : List LeafGrant) (s : State) : (withLeafGrants l s).mem = s.mem := rfl

/-- A GRANTS message without grants (R290). -/
theorem execGrants_none {c : Fin 16} {raw : List Nat} {s : State} (hrun : s.inReset = false) (hhears : leafHears c s = true)
    (hok : hubMsgOk 0x10 raw = true) (hnone : raw.getD 13 0 = 0) :
    exec (.grants c raw) s = .next (commit s.pending (withLeafGrants ((leafCycle c (ofBe (slice raw 2 2)) s).leafGrants.filter
      (fun x => x.c != c || decide (mfLead (ofBe (slice raw 2 2)) x.gcn ≤ 64))) (leafCycle c (ofBe (slice raw 2 2)) s))) := by
  show execGrants c raw s = _
  rw [execGrants, act_live _ _ hrun, hhears, hok, hnone]
  simp only [withLeafGrants, Nat.min_zero, List.range_zero, List.filterMap_nil, List.filter_nil, List.append_nil, forL, List.foldl_nil,
    Bool.and_self, if_true]

/-! ## The contexts of a hub -/

/-- A host's write of word 0 of a leaf context reaches it. -/
theorem ctxCmd_accepts {m : Master} {c : Fin 16} {s : State} (ha : AcceptsWindow m (.hub c) s) (r : Fin 256) {d : Nat} (hd : d < 2 ^ 64) :
    ctxCmd m c r d s = ctxWord0 m c r true d s := by
  have halign : ctxAddr c r 0 % 8 = 0 := by
    simp only [ctxAddr, carrierAddr]
    omega
  rw [ctxCmd, winCmd_accepts (h := ⟨.leafCtx, .hub c, 4 * r.val, false,
    leafWord c r.val 0⟩) ha _ _ _ _ _ (by rw [halign]; rfl) rfl rfl, winApply, mergeWord, if_pos rfl, Nat.mod_eq_of_lt hd]
  rfl

/-- The state with other grants outstanding. -/
def withGrants (l : List Grant) (s : State) : State := { s with grants := l }

theorem get_withGrants (l : List Grant) (s : State) (f : Fld) : (withGrants l s).get f = s.get f := rfl

theorem withGrants_mem (l : List Grant) (s : State) : (withGrants l s).mem = s.mem := rfl

theorem withGrants_assigned (c : Fin 16) (k : Nat) (l : List Grant) (s : State) :
    withGrants ((withGrants l s).grants ++ assignCycle c k (withGrants l s)) (withGrants l s) =
    (let t : State := { s with grants := l }; { t with grants := t.grants ++ assignCycle c k t }) := rfl

/-- The cycle takes its number, and the branches begin anew (R271). -/
def cycleNumbered (c : Fin 16) (n : Nat) (s : State) : State :=
  forFin 16 (fun b s => s.put (HUB.hRot c b) 0) (((s.put (HUB.hCycFirst c) 0).put (HUB.hCyc c) n).put (HUB.HUB_STAT_GCN c) n)

/-- The cycle that a hub begins (R271, R278), the grants more than 64 cycles back forgotten. -/
def hubCycle (c : Fin 16) (n : Nat) (s : State) : State :=
  withGrants (s.grants.filter fun x => x.c != c || decide (mfLead (n + 1) x.gcn ≤ 64)) (cycleNumbered c n s)

theorem get_cycleNumbered {c : Fin 16} {f : Fld} (hrot : ∀ b, (HUB.hRot c b).key ≠ f.key) (n : Nat) (s : State) :
    (cycleNumbered c n s).get f
      = (((s.put (HUB.hCycFirst c) 0).put (HUB.hCyc c) n).put (HUB.HUB_STAT_GCN c) n).get f :=
  forFin_keeps (fun u => u.get f) (fun b s => s.put (HUB.hRot c b) 0) (fun b u => State.get_put_other u _ f 0 (hrot b)) _

theorem cycleNumbered_cellsOnly (c : Fin 16) (n : Nat) (s : State) : CellsOnly s (cycleNumbered c n s) :=
  ((((CellsOnly.refl s).put _ _).put _ _).put _ _).forFin fun _ v => (CellsOnly.refl v).put _ _

theorem carState_hubCycle (c : Fin 16) (n : Nat) (s : State) : carState c (hubCycle c n s) = carState c s := by
  have hrot (b : Fin 16) : (HUB.hRot c b).key ≠ (RXDSP.CARRIER_STAT_STATE c).key := by clear * - c b; decide +kernel +revert
  rw [carState, hubCycle, get_withGrants, get_cycleNumbered hrot, carState]
  simp (disch := (clear * - c; decide +kernel +revert)) only [State.get_put_other]

theorem get_gcn_hubCycle (c : Fin 16) (n : Nat) (s : State) : (hubCycle c n s).get (HUB.HUB_STAT_GCN c) = n % 65536 := by
  have hrot (b : Fin 16) : (HUB.hRot c b).key ≠ (HUB.HUB_STAT_GCN c).key := by clear * - c b; decide +kernel +revert
  rw [hubCycle, get_withGrants, get_cycleNumbered hrot, State.get_put_self]
  rfl

theorem hubCycle_mem (c : Fin 16) (n : Nat) (s : State) : (hubCycle c n s).mem = s.mem := by
  rw [hubCycle, withGrants_mem, (cycleNumbered_cellsOnly c n s).mem]

theorem hubCycle_onlyPages (c : Fin 16) (n : Nat) (s : State) : OnlyPages [.hub c] s (hubCycle c n s) := by
  have hf : (HUB.hCycFirst c).onPage (.hub c) ∧ (HUB.hCyc c).onPage (.hub c) ∧ (HUB.HUB_STAT_GCN c).onPage (.hub c)
      ∧ ∀ b, (HUB.hRot c b).onPage (.hub c) := by clear * - c; decide +kernel +revert
  obtain ⟨hfirst, hcyc, hgcn, hrot⟩ := hf
  have hp := List.mem_singleton_self (Page.hub c)
  have hnumbered : OnlyPages [.hub c] s (cycleNumbered c n s) :=
    ((((OnlyPages.refl _ s).put hp hfirst 0).put hp hcyc n).put hp hgcn n).forFin
      fun b v => (OnlyPages.refl _ v).put hp (hrot b) 0
  intro f hoff
  rw [hubCycle, get_withGrants]
  exact hnumbered f hoff

/-- What a grant cycle does once it has its number: it forgets grants, and assigns those of the next cycle. -/
def cycleGrants (c : Fin 16) (n : Nat) (s : State) : State :=
  let t := withGrants (s.grants.filter fun x => x.c != c || decide (mfLead (n + 1) x.gcn ≤ 64)) s
  if carState c t = stCal then t else withGrants (t.grants ++ assignCycle c (n + 1) t) t

theorem cycleGrants_eq (c : Fin 16) (n : Nat) (s : State) : cycleGrants c n s =
    (let s := { s with grants := s.grants.filter fun x => x.c != c || decide (mfLead (n + 1) x.gcn ≤ 64) }
     if carState c s = stCal then s else { s with grants := s.grants ++ assignCycle c (n + 1) s }) := rfl

theorem execGrantCycleStart_eq {c : Fin 16} {n : Nat} {s : State} (hrun : s.inReset = false) (hhub : isHub c s = true)
    (hmf : s.flag (HUB.hCycFirst c) = true → s.get (HUB.hMf c) ≠ 2 ^ 64 - 1)
    (hn : n = if s.flag (HUB.hCycFirst c) then 0 else s.get (HUB.hCyc c) + 1) :
    exec (.grantCycleStart c) s = .next (commit s.pending (cycleGrants c n (cycleNumbered c n s))) := by
  have hacts : (isHub c s && !(s.flag (HUB.hCycFirst c) && s.get (HUB.hMf c) == 2 ^ 64 - 1)) = true := by
    rw [hhub]
    cases hfirst : s.flag (HUB.hCycFirst c)
    · rfl
    · rw [Bool.true_and, beq_false_of_ne (hmf hfirst)]; rfl
  show execGrantCycleStart c s = _
  rw [execGrantCycleStart, act_live _ _ hrun, if_pos hacts, ← hn, State.putB_false]
  exact congrArg (fun t => Host.Outcome.next (commit s.pending t)) (cycleGrants_eq c n (cycleNumbered c n s)).symm

theorem cycleGrants_numbered (c : Fin 16) (n : Nat) (s : State) : cycleGrants c n (cycleNumbered c n s)
    = if s.get (RXDSP.CARRIER_STAT_STATE c) = stCal then hubCycle c n s
      else withGrants ((hubCycle c n s).grants ++ assignCycle c (n + 1) (hubCycle c n s)) (hubCycle c n s) := by
  have hgrants : (cycleNumbered c n s).grants = s.grants := (cycleNumbered_cellsOnly c n s).grants
  rw [cycleGrants, hgrants, ← hubCycle, carState_hubCycle, carState]

/-- The grant cycle that a hub begins (R271). -/
theorem execGrantCycleStart_begins {c : Fin 16} {n : Nat} {s : State} (hrun : s.inReset = false) (hhub : isHub c s = true)
    (hmf : s.flag (HUB.hCycFirst c) = true → s.get (HUB.hMf c) ≠ 2 ^ 64 - 1)
    (hn : n = if s.flag (HUB.hCycFirst c) then 0 else s.get (HUB.hCyc c) + 1) :
    exec (.grantCycleStart c) s = .next (commit s.pending (if s.get (RXDSP.CARRIER_STAT_STATE c) = stCal then hubCycle c n s
      else withGrants ((hubCycle c n s).grants ++ assignCycle c (n + 1) (hubCycle c n s)) (hubCycle c n s))) := by
  rw [execGrantCycleStart_eq hrun hhub hmf hn, cycleGrants_numbered]

/-- Settles O9. -/
theorem leafMessagesAndContexts : Obligations.LeafMessagesAndContexts := by
  unfold Obligations.LeafMessagesAndContexts
  refine ⟨?grantsNone, ?grantsNew, ?range, ?activate, ?deactivate, ?noDs, ?leafDsReturn, ?burstTransmit, ?leafCtxEnable,
    ?leafCtxDisable, ?deact, ?clrFlags, ?leafCtxStale, ?firstCycle, ?laterCycle, ?cycleInCalibration⟩
  case grantsNone =>
    intro c raw s hrun hhears hok hnone
    have hcycle := leafCycle_cellsOnly c (ofBe (slice raw 2 2)) s
    refine ⟨_, execGrants_none hrun hhears hok hnone, ?_, ?_, ?_⟩
    · rw [commit_leafGrants, hcycle.leafGrants, withLeafGrants]
    · rw [commit_mem, withLeafGrants_mem, hcycle.mem]
    · refine OnlyPages.commit (fun f hf => ?_) _
      rw [get_withLeafGrants]
      exact leafCycle_onlyPages c _ s f hf
  case grantsNew =>
    intro c raw g s hrun hLeafHears hHubMsgOk hG
    show execGrants c raw s = _
    rw [execGrants, act_live _ _ hrun]
    simp [hLeafHears, hHubMsgOk, hG]
  case range =>
    intro c raw k eqd q s hrun hcmd hstate
    show execRange c raw k s = _
    rw [execRange, act_live _ _ hrun, hcmd]
    simp (disch := (clear * - c; decide +kernel +revert)) [leafState, State.get_put_other, hstate, leafMove, lfUnranged, lfRanged]
  case activate =>
    intro c raw k eqd q s hrun hcmd hstate
    show execActivate c raw k s = _
    rw [execActivate, act_live _ _ hrun, hcmd]
    simp (disch := (clear * - c; decide +kernel +revert)) [leafState, State.get_put_other, hstate, leafMove, lfRanged, lfActive]
  case deactivate =>
    intro c raw k eqd q s hrun hcmd hstate
    show execDeactivate c raw k s = _
    rw [execDeactivate, act_live _ _ hrun, hcmd]
    simp (disch := (clear * - c; decide +kernel +revert)) [leafState, State.get_put_other, hstate, leafUnranged, leafMove, lfActive,
      lfUnranged]
  case noDs =>
    intro c s hrun hIsLeaf hLfUnranged hLeafDsOk
    show execNoDs c s = _
    rw [execNoDs, act_live _ _ hrun]
    simp [hIsLeaf, hLfUnranged, hLeafDsOk, leafState]
  case leafDsReturn =>
    intro c s hrun h hLeafDsOk h2 hSyncUpdate
    show execLeafDsReturn c s = _
    rw [execLeafDsReturn, act_live _ _ hrun]
    simp [h, hLeafDsOk, h2, hSyncUpdate, leafState, lfNoDs, lfRanged, lfActive]
  case burstTransmit =>
    intro c x backlog guard s hrun hgrants hc hgcn hkind hburst hsync hstate htx hsends
    show execBurstTransmit c x.gcn x.index backlog guard s = _
    have hfind : s.leafGrants.find? (fun y => y.c == c && y.gcn == x.gcn % 65536 && y.index == x.index) = some x := by
      simp [hgrants, hc, Nat.mod_eq_of_lt hgcn]
    have hnone : s.leafGrants.filter (fun y => !(y == x)) = [] := by simp [hgrants]
    have hanswers (u : State) (hu : u.get (HUB.LEAF_STAT_STATE c) = lfActive) : leafAnswers c x u = true := by
      simp [leafAnswers, hkind, leafState, hu]
    have hsends (u : State) (hu : u = withLeafGrants [] s) : (leafBurst c u && u.flag (HUB.LEAF_STAT_SYNC c) && leafAnswers c x u
        && txState c u == txBurst && lineSends c u) = true := by
      subst hu
      rw [show leafBurst c (withLeafGrants [] s) = true from hburst, show (withLeafGrants [] s).flag _ = true from hsync,
        hanswers (withLeafGrants [] s) hstate, show txState c (withLeafGrants [] s) = txBurst from htx,
          show lineSends c (withLeafGrants [] s) = true from hsends]
      rfl
    rw [execBurstTransmit, act_live _ _ hrun, hfind]
    dsimp only
    rw [hnone, if_pos (hsends { s with leafGrants := [] } rfl), hkind]
    rfl
  case leafCtxEnable =>
    intro m c r v s hrun hacc hempty
    show execLeafCtxEnable m c r v s = _
    have hen : bit (2 ^ 63 + v % 2 ^ 61) 63 = true ∧ bit (2 ^ 63 + v % 2 ^ 61) 62 = false := by
      simp only [bit_eq, decide_eq_true_eq, decide_eq_false_iff_not]
      omega
    rw [execLeafCtxEnable, act_live _ _ hrun, ctxCmd_accepts hacc r (by omega)]
    simp only [ctxWord0, hempty, hen, if_true, Bool.not_true, Bool.false_eq_true, if_false]
  case leafCtxDisable =>
    intro m c r v s hrun hacc hused
    show execLeafCtxDisable m c r v s = _
    have hen : bit (v % 2 ^ 61) 63 = false ∧ bit (v % 2 ^ 61) 62 = false := by
      simp only [bit_eq, decide_eq_false_iff_not]
      omega
    rw [execLeafCtxDisable, act_live _ _ hrun, ctxCmd_accepts hacc r (by omega)]
    simp only [ctxWord0, if_neg hused, hen, if_true, Bool.not_false, Bool.false_eq_true, if_false]
  case deact =>
    intro m c r v s hrun hacc hused
    show execDeact m c r v s = _
    have hen : bit (2 ^ 63 + 2 ^ 61 + v % 2 ^ 61) 63 = true ∧ bit (2 ^ 63 + 2 ^ 61 + v % 2 ^ 61) 62 = false
        ∧ bit (2 ^ 63 + 2 ^ 61 + v % 2 ^ 61) 61 = true := by
      simp only [bit_eq, decide_eq_true_eq, decide_eq_false_iff_not]
      omega
    rw [execDeact, act_live _ _ hrun, ctxCmd_accepts hacc r (by omega)]
    simp only [ctxWord0, if_neg hused, hen, if_true, Bool.not_true, Bool.false_eq_true, if_false]
  case clrFlags =>
    intro m c r v s hrun hacc hused
    show execClrFlags m c r v s = _
    have hen : bit (2 ^ 63 + 2 ^ 62 + v % 2 ^ 61) 63 = true ∧ bit (2 ^ 63 + 2 ^ 62 + v % 2 ^ 61) 62 = true
        ∧ bit (2 ^ 63 + 2 ^ 62 + v % 2 ^ 61) 61 = false := by
      simp only [bit_eq, decide_eq_true_eq, decide_eq_false_iff_not]
      omega
    rw [execClrFlags, act_live _ _ hrun, ctxCmd_accepts hacc r (by omega)]
    simp only [ctxWord0, if_neg hused, hen, if_true, Bool.not_true, Bool.false_eq_true, if_false]
  case leafCtxStale =>
    intro c r s hrun hCtxState hLeafPolCtxAge hLeafPolCtxAge2
    show execLeafCtxStale c r s = _
    rw [execLeafCtxStale, act_live _ _ hrun]
    simp [hCtxState, hLeafPolCtxAge, hLeafPolCtxAge2, cxActive]
  case firstCycle =>
    intro c s hrun hhub hfirst hmf hstate
    rw [execGrantCycleStart_begins (n := 0) hrun hhub (fun _ => hmf) (by rw [hfirst]; rfl), if_neg hstate, hubCycle]
    exact congrArg (fun t => Host.Outcome.next (commit s.pending t)) (withGrants_assigned c 1 _ (cycleNumbered c 0 s))
  case laterCycle =>
    intro c n s hrun hhub hfirst hn hstate
    rw [execGrantCycleStart_begins (n := n) hrun hhub (fun h => by rw [hfirst] at h; cases h) (by rw [hfirst]; exact hn),
      if_neg hstate, hubCycle]
    exact congrArg (fun t => Host.Outcome.next (commit s.pending t)) (withGrants_assigned c (n + 1) _ (cycleNumbered c n s))
  case cycleInCalibration =>
    intro c s hrun hhub hfirst hstate
    have hexec := execGrantCycleStart_begins (n := s.get (HUB.hCyc c) + 1) hrun hhub (fun h => by rw [hfirst] at h; cases h)
      (by rw [hfirst, if_neg Bool.false_ne_true])
    rw [if_pos hstate] at hexec
    exact ⟨_, hexec, (get_commit _ _ _).trans (get_gcn_hubCycle c _ s), commit_grants _ _, (commit_mem _ _).trans (hubCycle_mem c _ s),
      (hubCycle_onlyPages c _ s).commit _⟩

end Sys2Proof.Machine
end

section
/-! PROOFS. Clocks that come and go (chapter 13). -/
namespace Sys2Proof.Machine

set_option Elab.async false

/-! ## The gap of a line clock

The return of a line clock stores the mark of its gap as it stands, 0 or 1. -/

/-- The reset state with a mark of carrier 0's gap that is neither 0 nor 1. -/
def wideGap : State := { State.reset with cells := [((OTU.hClkGap 0).key, 2)] }

theorem exec_clkPresentSet_wideGap : exec (.clkPresentSet (.line 0)) wideGap = .next (commit [] (clkSet (.line 0) true wideGap)) := by
  show execClkPresentSet (.line 0) wideGap = _
  rw [execClkPresentSet, act_live _ _ rfl]
  rfl

theorem get_gap_clkSet_wideGap : (clkSet (.line 0) true wideGap).get (OTU.hClkGap 0) = 1 := by decide +kernel

theorem get_gap_wideGap_present : (wideGap.put (RXDSP.hLineClk 0) 1).get (OTU.hClkGap 0) = 2 := by decide +kernel

/-- Refutes O19: where the cell of a line clock's gap holds 2, which no step stores, the return of the clock makes it 1, while the
clause leaves it. -/
theorem not_timeCommandsAndTicks : ¬ Obligations.TimeCommandsAndTicks := by
  unfold Obligations.TimeCommandsAndTicks
  rintro ⟨-, -, -, -, -, -, -, -, -, -, hset, -⟩
  have hstate := Host.Outcome.next.inj (exec_clkPresentSet_wideGap.symm.trans (hset 0 wideGap rfl))
  have hgap := congrArg (fun t => t.get (OTU.hClkGap 0)) hstate
  rw [get_commit, get_commit, get_gap_clkSet_wideGap, get_gap_wideGap_present] at hgap
  exact absurd hgap (by decide)

end Sys2Proof.Machine
end

section
/-! PROOFS. Time and references (chapter 13). -/
namespace Sys2Proof.Machine

set_option Elab.async false

/-! ## References -/

/-- A loop may read `t.tickCount` where nothing in it changes that count. -/
theorem forFin_tickCount {n : Nat} (fld : Fin n → Fld) (v : Nat → Fin n → Nat) {now : Nat} {s : State} (hnow : s.tickCount = now) :
    forFin n (fun k t => t.put (fld k) (v t.tickCount k)) s = forFin n (fun k t => t.put (fld k) (v now k)) s := by
  have hfold (l : List (Fin n)) (t : State) (ht : t.tickCount = now) :
      l.foldl (fun t k => t.put (fld k) (v t.tickCount k)) t = l.foldl (fun t k => t.put (fld k) (v now k)) t := by
    induction l generalizing t with
    | nil => rfl
    | cons k l ih =>
      rw [List.foldl_cons, List.foldl_cons, ht]
      exact ih _ ht
  exact hfold _ s hnow

theorem get_hUpdN_forFin (v : State → Fin 64 → Nat) (s : State) :
    (forFin 64 (fun k t => t.put (TIMING1.hUpd k) (v t k)) s).get TIMING1.hUpdN = s.get TIMING1.hUpdN :=
  forFin_keeps (fun t => t.get TIMING1.hUpdN) (fun k t => t.put (TIMING1.hUpd k) (v t k))
    (fun k t => State.get_put_other t _ _ _ (by clear * - k; decide +kernel +revert)) s

/-- Settles O18. -/
theorem referenceConditions : Obligations.ReferenceConditions := by
  unfold Obligations.ReferenceConditions
  refine ⟨?refFault, ?refFaultClear, ?refFaultClearActive, ?refQualified, ?refCfgWrite, ?update, ?invalid, ?ref6Timeout⟩
  case refFault =>
    intro n k s hrun hFaultApplies hFaultSeen
    show execRefFault n k s = _
    have hseen : (faultSeen n k s).getD true = true := by
      cases hs : faultSeen n k s with
      | none => rfl
      | some b => cases b <;> simp_all
    rw [execRefFault, act_live _ _ hrun, hFaultApplies, hseen]
    rfl
  case refFaultClear =>
    intro n k s hrun hN hFaultOver hRefNoClk
    show execRefFaultClear n k s = _
    rw [execRefFaultClear, act_live _ _ hrun]
    simp [hN, hFaultOver, hRefNoClk]
  case refFaultClearActive =>
    intro n k s hrun hN hFaultOver hRefNoClk
    show execRefFaultClear n k s = _
    have hclk : (refNoClk n (s.putB (faultFlag n k).1 (!(faultFlag n k).2))).getD false = false := by
      cases hs : refNoClk n (s.putB (faultFlag n k).1 (!(faultFlag n k).2)) with
      | none => rfl
      | some b => cases b <;> simp_all
    rw [execRefFaultClear, act_live _ _ hrun, if_neg hN, if_pos hFaultOver]
    dsimp only
    rw [hclk, if_neg Bool.false_ne_true, State.putB_true]
  case refQualified =>
    intro n s hrun hRefFaulty hRefStatQualified hWtrLeft
    show execRefQualified n s = _
    rw [execRefQualified, act_live _ _ hrun]
    simp [hRefFaulty, hRefStatQualified, hWtrLeft]
  case refCfgWrite =>
    intro m n v s hrun hacc
    show execRefCfgWrite m n v s = _
    rw [execRefCfgWrite, act_live _ _ hrun, writeCmd_accepts hacc]
  case update =>
    intro m n s hrun hacc hUpdN
    show execUpdate m s = _
    rw [execUpdate, act_live _ _ hrun, writeCmd_accepts hacc, ref6Eff, if_neg (by decide : ¬ bit 1 1 = true),
      if_pos (by decide : bit 1 0 = true)]
    dsimp only
    generalize toInt 48 (s.get TIMING1.REF6_OFS_HI * 2 ^ 32 + s.get TIMING1.REF6_OFS_LO) = ofs
    rw [get_hUpdN_forFin, get_puti_other (by decide), hUpdN, State.putB_true, State.putB_true,
      forFin_tickCount TIMING1.hUpd (fun now k => (now :: (List.finRange 64).map fun k => (s.puti TIMING1.hRef6Ofs ofs).get
        (TIMING1.hUpd k)).getD k.val 0) (s := s.puti TIMING1.hRef6Ofs ofs) 
        (State.puti_tickCount s _ ofs)]
  case invalid =>
    intro m s hrun hacc
    show execInvalid m s = _
    rw [execInvalid, act_live _ _ hrun, writeCmd_accepts hacc]
    simp [ref6Eff, bit_eq]
  case ref6Timeout =>
    intro s hrun hRefStatActive hRef6CfgRef6Timeout
    show execRef6Timeout s = _
    rw [execRef6Timeout, act_live _ _ hrun]
    simp [hRefStatActive, hRef6CfgRef6Timeout]

/-- Settles O20. -/
theorem dpllStates : Obligations.DpllStates := by
  unfold Obligations.DpllStates
  refine ⟨?dpllModeWrite, ?dpllModeHoldover, ?dpllBwStep, ?dpllLocked, ?hoValidSet, ?holdoverExpiry, ?synthReachesXo,
    ?coreSynthLock⟩
  case dpllModeWrite =>
    intro m v s1 s hrun hacc hS1 hPageOn hBits
    show execDpllModeWrite m v s = _
    rw [execDpllModeWrite, act_live _ _ hrun, writeCmd_accepts hacc, dpllCtrlEff]
    rw [← hS1, hPageOn, hBits]
    rfl
  case dpllModeHoldover =>
    intro m v s1 s hrun hacc hS1 hPageOn hBits hValid hDpllState
    show execDpllModeWrite m v s = _
    rw [execDpllModeWrite, act_live _ _ hrun, writeCmd_accepts hacc, dpllCtrlEff]
    rw [← hS1, hPageOn, hBits, hValid, if_pos hDpllState]
    rfl
  case dpllBwStep =>
    intro k s hrun hDpllState hDpllStatBwStep hK hDwell hPhaseOk
    show execDpllBwStep s = _
    rw [execDpllBwStep, act_live _ _ hrun]
    simp [hDpllState, hDpllStatBwStep, hK, hDwell, hPhaseOk, dpAcq]
  case dpllLocked =>
    intro s hrun hDpllState hDpllStatBwStep hQualLockTicks
    show execDpllLocked s = _
    rw [execDpllLocked, act_live _ _ hrun]
    simp [hDpllState, hDpllStatBwStep, hQualLockTicks, dpAcq, dpLocked]
  case hoValidSet =>
    intro s hrun hDpllState hDpllStatHoValid hHoCfgHoMin
    show execHoValidSet s = _
    rw [execHoValidSet, act_live _ _ hrun]
    simp [hDpllState, hDpllStatHoValid, hHoCfgHoMin, dpLocked, setHoValid]
  case holdoverExpiry =>
    intro s hrun hDpllState hHoCfgHoMax hHoCfgHoMax2
    show execHoldoverExpiry s = _
    rw [execHoldoverExpiry, act_live _ _ hrun]
    simp [hDpllState, hHoCfgHoMax, hHoCfgHoMax2, dpHold]
  case synthReachesXo =>
    intro s hrun hSynth hFreq
    show execSynthReachesXo s = _
    rw [execSynthReachesXo, act_live _ _ hrun, if_pos ⟨hSynth, hFreq⟩]
  case coreSynthLock =>
    intro ns s hrun hSynthRun hSynthLock
    show execCoreSynthLock ns s = _
    rw [execCoreSynthLock, act_live _ _ hrun, hSynthRun, hSynthLock]
    simp only [State.putB_true]
    rfl

/-- Settles O21. -/
theorem timingOutputs : Obligations.TimingOutputs := by
  unfold Obligations.TimingOutputs
  refine ⟨?outputEnable, ?pull, ?stopPull, ?pullDone, ?realign, ?outputEdge⟩
  case outputEnable =>
    intro m o v s hrun hacc
    show execOutputEnable m o v s = _
    rw [execOutputEnable, act_live _ _ hrun, writeCmd_accepts hacc]
  case pull =>
    intro m n s hrun hacc
    show execPull m n s = _
    rw [execPull, act_live _ _ hrun, writeCmd_accepts hacc]
    simp [clkoCmdEff, bit_eq]
  case stopPull =>
    intro m n s hrun hacc
    show execStopPull m n s = _
    rw [execStopPull, act_live _ _ hrun, writeCmd_accepts hacc]
    simp [clkoCmdEff, bit_eq]
  case pullDone =>
    intro n s hrun hPulling hMis
    show execPullDone n s = _
    rw [execPullDone, act_live _ _ hrun]
    dsimp only
    rw [hPulling, decide_eq_true hMis, State.putB_false]
    rfl
  case realign =>
    intro m p s hrun hacc
    show execRealign m p s = _
    rw [execRealign, act_live _ _ hrun, writeCmd_accepts hacc]
    simp [realignEff, bit_eq]
  case outputEdge =>
    intro p k a per d s hrun hRealign hPulseAt hSynthLock hPageOn hEn hMis hMis2 hEdge
    show execOutputEdge p k s = _
    rw [execOutputEdge, act_live _ _ hrun, hPulseAt]
    dsimp only
    rw [hRealign, hSynthLock, hPageOn, hEn, hEdge, if_neg Bool.false_ne_true, decide_eq_true ⟨hMis, hMis2⟩]
    rfl

end Sys2Proof.Machine
end

section
/-! PROOFS. Time transfer and PTP (chapter 13). -/
namespace Sys2Proof.Machine

set_option Elab.async false

/-- Settles O22. -/
theorem timeTransferAndPtp : Obligations.TimeTransferAndPtp := by
  unfold Obligations.TimeTransferAndPtp
  refine ⟨?timeMessage, ?todMessage, ?todMessageOutside, ?todMessageGood, ?ptpFrameReceive, ?ptpFrameDropped, ?ptpTxRecord,
    ?ptpTxRecordStamped⟩
  case timeMessage =>
    intro c i l s hrun hPageOn hOsmN hL hNonzero
    show execTimeMessage c i s = _
    rw [execTimeMessage, act_live _ _ hrun, hPageOn, hOsmN, beq_self_eq_true, Bool.and_self, if_pos rfl, ← hL]
    dsimp only
    rw [hNonzero, if_neg Bool.false_ne_true]
  case todMessage =>
    intro l us s hrun hPageOn hTodCfgEn hTodOk
    show execTodMessage l us s = _
    rw [execTodMessage, act_live _ _ hrun, hPageOn, hTodCfgEn, Bool.and_self, if_pos rfl, hTodOk, Bool.not_false, if_pos rfl,
      State.putB_false, todErrCrc]
  case todMessageOutside =>
    intro l us s hrun hPageOn hTodCfgEn hTodOk hUs
    show execTodMessage l us s = _
    rw [execTodMessage, act_live _ _ hrun, hPageOn, hTodCfgEn, Bool.and_self, if_pos rfl, hTodOk, if_neg (by decide), if_pos hUs,
      todErrSeq]
  case todMessageGood =>
    intro l us s hrun hPageOn hTodCfgEn hTodOk hlo hhi hTodSeen hBit
    show execTodMessage l us s = _
    rw [execTodMessage, act_live _ _ hrun, hPageOn, hTodCfgEn, Bool.and_self, if_pos rfl, hTodOk, if_neg (by decide), if_neg (by omega)]
    dsimp only
    rw [hTodSeen, hBit]
    rfl
  case ptpFrameReceive =>
    intro g n fr ts s hrun hPtpTaken hPtpRoom
    show execPtpFrameReceive g n fr ts s = _
    rw [execPtpFrameReceive, act_live _ _ hrun]
    simp [hPtpTaken, hPtpRoom]
  case ptpFrameDropped =>
    intro g n fr ts s hrun hPtpTaken hPtpRoom
    show execPtpFrameReceive g n fr ts s = _
    rw [execPtpFrameReceive, act_live _ _ hrun]
    simp [hPtpTaken, hPtpRoom]
  case ptpTxRecord =>
    intro ts r rest s hrun htx hPageOn hPortState
    show execPtpTxRecord ts s = _
    rw [execPtpTxRecord, act_live _ _ hrun, htx]
    dsimp only
    rw [hPageOn, if_neg (by decide)]
    exact congrArg (fun t => Host.Outcome.next (commit s.pending t)) (if_pos (Or.inl hPortState))
  case ptpTxRecordStamped =>
    intro ts r rest g n b s hrun htx hPageOn hG hN hPortState hPortUse hPortTs hOneStep hStamp hB hNormalRoom
    show execPtpTxRecord ts s = _
    have hup : ¬ (portState g n { s with ptpTx := rest } ≠ ptUp ∨ portUse g n { s with ptpTx := rest } ≠ usePkt) := fun h =>
      h.elim (fun h => h hPortState) (fun h => h hPortUse)
    have hts : portTs g n { s with ptpTx := rest } = true := hPortTs
    rw [execPtpTxRecord, act_live _ _ hrun, htx]
    dsimp only
    rw [hPageOn, if_neg (by decide), ← hG, ← hN, ← hB, if_neg hup, hOneStep, hStamp, hts, Bool.false_and, if_neg Bool.false_ne_true,
      hNormalRoom]
    rfl

end Sys2Proof.Machine
end

section
/-! PROOFS. Hinges (chapter 02). -/
namespace Sys2Proof.Machine

set_option Elab.async false

/-! ## The control word of a hinge (R76) -/

theorem bits_armWord {mode src mf : Nat} (hmode : mode < 8) (hsrc : src < 4) :
    bit (2 ^ 31 + mode * 2 ^ 27 + src * 2 ^ 22 + mf % 2 ^ 16) 30 = false
      ∧ bit (2 ^ 31 + mode * 2 ^ 27 + src * 2 ^ 22 + mf % 2 ^ 16) 31 = true
      ∧ bits (2 ^ 31 + mode * 2 ^ 27 + src * 2 ^ 22 + mf % 2 ^ 16) 27 3 = mode
      ∧ bits (2 ^ 31 + mode * 2 ^ 27 + src * 2 ^ 22 + mf % 2 ^ 16) 0 16 = mf % 2 ^ 16 := by
  simp only [bit_eq, bits, decide_eq_true_eq, decide_eq_false_iff_not]
  omega

/-- A page named alone that is due is all that is due. -/
theorem hingesDue_singleton {p : Page} {s : State} (h : hingeDue p s = true) : hingesDue [p] s = [(p, hingeRefusal p s)] := by
  cases hl : loadingPage p <;> simp [hingesDue, h, hl]

theorem execHingeTake_singleton {p : Page} {s : State} (hrun : s.inReset = false) (h : hingeDue p s = true) :
    exec (.hingeTake [p] []) s = .next (commit s.pending (hingeAct (p, hingeRefusal p s) s)) := by
  show execHingeTake [p] [] s = _
  rw [execHingeTake, act_live _ _ hrun, hingesDue_singleton h]
  rfl

/-- Settles O40. -/
theorem hingeCommands : Obligations.HingeCommands := by
  unfold Obligations.HingeCommands
  refine ⟨?hingeArm, ?hingeArmPending, ?hingeCancel, ?hingeTake, ?hingeRefused, ?copyForwardDone⟩
  case hingeArm =>
    intro m p mode mfSrc mf s hrun hacc hPending
    show execHingeArm m p mode mfSrc mf s = _
    obtain ⟨hcancel, harm, hmode, hmf⟩ := bits_armWord (mf := mf) mode.isLt mfSrc.isLt
    rw [execHingeArm]
    rw [act_live _ _ hrun, writeCmd_accepts hacc, shadowCtrlEff, hcancel, harm, hPending, hmode, hmf]
    rfl
  case hingeArmPending =>
    intro m p mode mfSrc mf s hrun hacc hPending
    show execHingeArm m p mode mfSrc mf s = _
    obtain ⟨hcancel, harm, -, -⟩ := bits_armWord (mf := mf) mode.isLt mfSrc.isLt
    rw [execHingeArm]
    rw [act_live _ _ hrun, writeCmd_accepts hacc, shadowCtrlEff, hcancel, harm, hPending]
    rfl
  case hingeCancel =>
    intro m p s hrun hacc
    show execHingeCancel m p s = _
    rw [execHingeCancel, act_live _ _ hrun, writeCmd_accepts hacc]
    simp [shadowCtrlEff, bit_eq]
  case hingeTake =>
    intro p s hrun hdue hRefusal
    have hpend : s.flag (HDR.PENDING p) = true := by
      unfold hingeDue at hdue
      simp_all
    rw [execHingeTake_singleton hrun hdue, hRefusal, hingeAct, if_pos hpend]
  case hingeRefused =>
    intro p cause s hrun hdue hRefusal
    rw [execHingeTake_singleton hrun hdue, hRefusal, hingeAct]
  case copyForwardDone =>
    intro p s hrun hCopying
    show execCopyForwardDone p s = _
    rw [execCopyForwardDone, act_live _ _ hrun]
    simp [hCopying]

end Sys2Proof.Machine
end

section
/-! PROOFS. Host links (chapter 17). -/
namespace Sys2Proof.Machine

set_option Elab.async false

/-- Settles O37. -/
theorem hostLinks : Obligations.HostLinks := by
  unfold Obligations.HostLinks
  refine ⟨?pcieFunctionReset, ?linkUp, ?aerErrorUncorrectable, ?aerErrorCorrectable, ?i2cBusTimeout, ?testLogicReset, ?i2cIaRead, ?i2cIaWrite,
    ?i2cIaDone⟩
  case pcieFunctionReset =>
    intro kind s hrun
    show execPcieFunctionReset kind s = _
    rw [execPcieFunctionReset, act_live _ _ hrun]
  case linkUp =>
    intro speed width s hrun
    show execLinkUp speed width s = _
    rw [execLinkUp, act_live _ _ hrun]
  case aerErrorUncorrectable =>
    intro s hrun
    show execAerError true s = _
    rw [execAerError, act_live _ _ hrun]
    simp []
  case aerErrorCorrectable =>
    intro s hrun
    show execAerError false s = _
    rw [execAerError, act_live _ _ hrun]
    simp []
  case i2cBusTimeout =>
    intro s hrun
    show execI2cBusTimeout s = _
    rw [execI2cBusTimeout, act_live _ _ hrun]
  case testLogicReset =>
    intro s hrun
    show execTestLogicReset s = _
    rw [execTestLogicReset, act_live _ _ hrun]
  case i2cIaRead =>
    intro addr u s hrun hIaBusy hInWindows hU
    show execI2cIaRead addr s = _
    rw [execI2cIaRead, act_live _ _ hrun]
    simp [hIaBusy, hInWindows, hU, iaStart, masterId]
  case i2cIaWrite =>
    intro addr data u s hrun hIaBusy hInWindows hU
    show execI2cIaWrite addr data s = _
    rw [execI2cIaWrite, act_live _ _ hrun]
    simp [hIaBusy, hInWindows, hU, iaStart, masterId]
  case i2cIaDone =>
    intro s hrun hIaBusy hStalledBy
    show execI2cIaDone s = _
    rw [execI2cIaDone, act_live _ _ hrun]
    simp [hIaBusy, hStalledBy]

end Sys2Proof.Machine
end

section
/-! PROOFS. The DRAM tier (chapter 14). -/
namespace Sys2Proof.Machine

set_option Elab.async false

/-! ## Operations of the DRAM tier -/

/-- The owner's command with no operation in progress is captured (R535). -/
theorem drCmdEff_owner {m : Master} {q : Fin 4} {s : State} (hown : s.holds m (.page (.mem q)) = true)
    (hidle : s.flag (MEM.DR_CMD_BUSY q) = false) {v : Nat} (hlo : v ≠ 0) (hhi : v < 4) :
    drCmdEff m q v s = ((((((s.put (MEM.DR_CMD_BUSY q) 1).put (MEM.hDrOp q) v).put (MEM.hDrAddr q) (s.get (MEM.DR_ADDR q))).put
      (MEM.hDrChk q) (s.get (MEM.DR_CHK q))).put (MEM.hDrData q) (s.get (MEM.DR_DATA_HI q) * 2 ^ 32 + s.get (MEM.DR_DATA_LO q))).put
      (MEM.hDrRaw q) (s.get (MEM.ECC_TEST_RAW q))) := by
  have hop : bits v 0 2 = v := by
    simp only [bits]
    omega
  rw [drCmdEff, ownerOnly, if_pos hown, hidle, hop, beq_false_of_ne hlo]
  simp (disch := (clear * - q; decide +kernel +revert)) only [Bool.or_self, Bool.false_eq_true, if_false, State.putB_true,
    State.get_put_other]

/-- Settles O24. -/
theorem indirectDramAccess : Obligations.IndirectDramAccess := by
  unfold Obligations.IndirectDramAccess
  refine ⟨?eccTestWrite, ?eccTestWriteDisarmed, ?read, ?write, ?writeRaw, ?drDoneWrite, ?drDoneWriteRaw, ?drDoneRawRead⟩
  case eccTestWrite =>
    intro m d v s hrun hacc h hBit
    show execEccTestWrite m d v s = _
    rw [execEccTestWrite, act_live _ _ hrun, writeCmd_accepts hacc]
    simp [h, hBit, eccTestEff, ownerOnly]
  case eccTestWriteDisarmed =>
    intro m d v s hrun hacc h hBit
    show execEccTestWrite m d v s = _
    rw [execEccTestWrite, act_live _ _ hrun, writeCmd_accepts hacc]
    simp [h, hBit, eccTestEff, ownerOnly]
  case read =>
    intro m q s hrun hacc hown hDrCmdBusy
    show execRead m q s = _
    rw [execRead, act_live _ _ hrun, writeCmd_accepts hacc, drCmdEff_owner hown hDrCmdBusy (by decide) (by decide)]
  case write =>
    intro m q s hrun hacc hown hDrCmdBusy
    show execWrite m q s = _
    rw [execWrite, act_live _ _ hrun, writeCmd_accepts hacc, drCmdEff_owner hown hDrCmdBusy (by decide) (by decide)]
  case writeRaw =>
    intro m q s hrun hacc hown hDrCmdBusy
    show execWriteRaw m q s = _
    rw [execWriteRaw, act_live _ _ hrun, writeCmd_accepts hacc, drCmdEff_owner hown hDrCmdBusy (by decide) (by decide)]
  case drDoneWrite =>
    intro q l s hrun hDrCmdBusy hMemStatInitDone hMemStatSelfRefresh hDrOp hDrAddr
    show execDrDone q s = _
    rw [execDrDone, act_live _ _ hrun]
    simp [hDrCmdBusy, hMemStatInitDone, hMemStatSelfRefresh, hDrOp, hDrAddr, drOperate]
  case drDoneWriteRaw =>
    intro q l s hrun hDrCmdBusy hMemStatInitDone hMemStatSelfRefresh hDrOp hDrAddr
    show execDrDone q s = _
    rw [execDrDone, act_live _ _ hrun]
    simp [hDrCmdBusy, hMemStatInitDone, hMemStatSelfRefresh, hDrOp, hDrAddr, drOperate]
  case drDoneRawRead =>
    intro q l s hrun hDrCmdBusy hMemStatInitDone hMemStatSelfRefresh hDrOp hDrRaw hDrAddr
    show execDrDone q s = _
    rw [execDrDone, act_live _ _ hrun]
    simp [hDrCmdBusy, hMemStatInitDone, hMemStatSelfRefresh, hDrOp, hDrRaw, hDrAddr, drOperate, drData]

end Sys2Proof.Machine
end

section
/-! PROOFS. Boot (chapter 18). -/
namespace Sys2Proof.Machine

set_option Elab.async false

/-- Settles O31. -/
theorem bootAndRecovery : Obligations.BootAndRecovery := by
  unfold Obligations.BootAndRecovery
  refine ⟨?romStageEnds, ?stage1Ends, ?stage1EndsInRecovery, ?firmwareStageEnds, ?rcvData, ?rcvDataElsewhere, ?go, ?lock⟩
  case romStageEnds =>
    intro sigs flash ms s hrun hBootStage
    show execBootStageComplete sigs flash ms s = _
    rw [execBootStageComplete, act_live _ _ hrun]
    dsimp only
    rw [if_pos hBootStage]
    rfl
  case stage1Ends =>
    intro sigs flash ms s hrun hBootStage
    show execBootStageComplete sigs flash ms s = _
    rw [execBootStageComplete, act_live _ _ hrun]
    simp [hBootStage, bsRom, bsStage1]
  case stage1EndsInRecovery =>
    intro sigs flash ms u s hrun hBootStage hSelectCopy
    show execBootStageComplete sigs flash ms s = _
    have hrom : ¬ bootStage s = bsRom := by rw [hBootStage]; decide
    rw [execBootStageComplete, act_live _ _ hrun]
    dsimp only
    rw [if_neg hrom, if_pos hBootStage, stage1Ends, hSelectCopy]
  case firmwareStageEnds =>
    intro sigs flash ms s hrun hBootStage
    show execBootStageComplete sigs flash ms s = _
    rw [execBootStageComplete, act_live _ _ hrun]
    simp [hBootStage, bsRom, bsStage1, bsFirmware]
  case rcvData =>
    intro m v s hrun hacc hBootStage
    show execRcvData m v s = _
    rw [execRcvData, act_live _ _ hrun, writeCmd_accepts hacc]
    simp [hBootStage, rcvDataEff, rcvOnly, bsRecoveryRom]
  case rcvDataElsewhere =>
    intro m v s hrun hacc hBootStage
    show execRcvData m v s = _
    rw [execRcvData, act_live _ _ hrun, writeCmd_accepts hacc]
    simp [hBootStage, rcvDataEff, rcvOnly]
  case go =>
    intro m sigs s hrun hacc hBootStage
    show execGo m sigs s = _
    rw [execGo, act_live _ _ hrun, writeCmd_accepts hacc, rcvCmdEff, rcvOnly, if_pos hBootStage]
    dsimp only
    cases verifyImage (regionBytes (.hub 4 0) 0 262144 s) 262144 ikStage1 none (fun j => sigs.contains j) s <;> rfl
  case lock =>
    intro m s hrun hacc
    show execLock m s = _
    rw [execLock, act_live _ _ hrun, writeCmd_accepts hacc]
    simp [dbgCmdEff, bit_eq]

end Sys2Proof.Machine
end

section
/-! PROOFS. Monitors and heaters (chapter 16). -/
namespace Sys2Proof.Machine

set_option Elab.async false

/-- Settles O25. -/
theorem monitorsAndHeaters : Obligations.MonitorsAndHeaters := by
  unfold Obligations.MonitorsAndHeaters
  refine ⟨?passStartsFree, ?passStartsTriggered, ?passOverrun, ?passStartsBackToBack, ?monDwellEnd, ?monDwellEndEmpty, ?monPassEnd, ?accClr,
    ?heaterSetptWrite, ?heaterSetptRejected, ?stale, ?htrOpen, ?short, ?trip, ?supply, ?forceSafe, ?faultedClear⟩
  case passStartsFree =>
    intro d s hrun hMonRuns hTrig hMonStatRunning
    show execMonPassStart d s = _
    rw [execMonPassStart, act_live _ _ hrun]
    simp [hMonRuns, hTrig, hMonStatRunning, monFreeDue]
  case passStartsTriggered =>
    intro d s hrun hMonRuns hTrig hDue hMonStatRunning
    show execMonPassStart d s = _
    rw [execMonPassStart, act_live _ _ hrun]
    simp (disch := (clear * - d; decide +kernel +revert)) [hMonRuns, hTrig, hDue, hMonStatRunning, flag_put_other]
  case passOverrun =>
    intro d s hrun hMonRuns hTrig hDue hMonStatRunning
    show execMonPassStart d s = _
    rw [execMonPassStart, act_live _ _ hrun]
    simp (disch := (clear * - d; decide +kernel +revert)) [hMonRuns, hTrig, hDue, hMonStatRunning, flag_put_other]
  case passStartsBackToBack =>
    intro d s hrun hMonRuns hTrig hMonStatRunning hMonFreeDue
    show execMonPassStart d s = _
    rw [execMonPassStart, act_live _ _ hrun]
    simp [hMonRuns, hTrig, hMonStatRunning, hMonFreeDue]
  case monDwellEnd =>
    intro d phase stream s hrun hMonRuns hMonStatRunning hDone hMonDwellOuts
    show execMonDwellEnd d ⟨phase, stream⟩ s = _
    rw [execMonDwellEnd, act_live _ _ hrun]
    simp [hMonRuns, hMonStatRunning, hDone, hMonDwellOuts, monResult]
  case monDwellEndEmpty =>
    intro d phase stream s hrun hMonRuns hRunning hDone hOuts
    show execMonDwellEnd d ⟨phase, stream⟩ s = _
    rw [execMonDwellEnd, act_live _ _ hrun, hMonRuns, hRunning, hDone, hOuts]
    rfl
  case monPassEnd =>
    intro d s hrun hMonRuns hRunning hDone
    show execMonPassEnd d s = _
    rw [execMonPassEnd, act_live _ _ hrun, hMonRuns, hRunning, hDone]
    rfl
  case accClr =>
    intro m d v s hrun hacc
    show execAccClr m d v s = _
    rw [execAccClr, act_live _ _ hrun, writeCmd_accepts hacc]
    simp [accClrEff]
  case heaterSetptWrite =>
    intro m q h w v s hrun hacc hHtrCfgTotLim
    show execHeaterSetptWrite m q h w v s = _
    rw [execHeaterSetptWrite, act_live _ _ hrun, writeCmd_accepts hacc, htrWriteEff, if_neg (Nat.not_lt.mpr hHtrCfgTotLim)]
    dsimp only
    rw [State.putB_false]
  case heaterSetptRejected =>
    intro m q h w v s hrun hacc hHtrCfgTotLim
    show execHeaterSetptWrite m q h w v s = _
    rw [execHeaterSetptWrite, act_live _ _ hrun, writeCmd_accepts hacc]
    simp [hHtrCfgTotLim, htrWriteEff]
  case stale =>
    intro q h s hrun hWd hOwner hTicks hQState
    show execStale q h s = _
    rw [execStale, act_live _ _ hrun, if_neg (by omega)]
  case htrOpen =>
    intro q h s hrun hQState
    show execOpen q h s = _
    rw [execOpen, act_live _ _ hrun]
    simp [hQState, hcOpen]
  case short =>
    intro q h s hrun hQState
    show execShort q h s = _
    rw [execShort, act_live _ _ hrun]
    simp [hQState, hcShort]
  case trip =>
    intro q s hrun hQState
    show execTrip q s = _
    rw [execTrip, act_live _ _ hrun]
    simp [hQState, hcTrip]
  case supply =>
    intro q s hrun hQState
    show execSupply q s = _
    rw [execSupply, act_live _ _ hrun]
    simp [hQState, hcSupply]
  case forceSafe =>
    intro m q h s hrun hacc
    show execForceSafe m q h s = _
    rw [execForceSafe, act_live _ _ hrun, writeCmd_accepts hacc]
    simp [chStatEff, bit_eq, hcForced]
  case faultedClear =>
    intro m q h s hrun hacc hChStatFaulted hHtrCondition
    show execFaultedClear m q h s = _
    rw [execFaultedClear, act_live _ _ hrun, writeCmd_accepts hacc]
    simp [hChStatFaulted, hHtrCondition, chStatEff, bit_eq, htrClear]

end Sys2Proof.Machine
end

section
/-! PROOFS. Tributaries (chapter 09). -/
namespace Sys2Proof.Machine

set_option Elab.async false

/-! ## Force commands (R359) -/

/-- A command other than the reserved one reaches the tributary that it names. -/
theorem protCmdEff_stored {q : Fin 4} {t : Fin 256} {v : Nat} {s : State} (ht : v % 256 = t.val)
    (hen : tdEn (tribDesc q true t s) = true) (hprot : tdProt (tribDesc q true t s) = true) (hcmd : bits v 30 2 ≠ 3) :
    protCmdEff q v s = tribSync q t (selForce q t (s.put (TSI.hForce q t) (bits v 30 2))) := by
  have hname : Fin.ofNat 256 (v % 256) = t := by
    apply Fin.ext
    rw [Fin.val_ofNat, ht, Nat.mod_eq_of_lt t.isLt]
  rw [protCmdEff]
  rw [hname, hen, hprot, bne_iff_ne.mpr hcmd]
  rfl

/-- Settles O12. -/
theorem tributarySelectionAndConditions : Obligations.TributarySelectionAndConditions := by
  unfold Obligations.TributarySelectionAndConditions
  refine ⟨?protSwitch, ?protRevert, ?protSwitchApply, ?forceA, ?forceB, ?clear, ?msimChange, ?oduflexAligned, ?oduflexLoss,
    ?oduflexStatChange, ?oduflexStatOther, ?queueSlip, ?queueSlipCross⟩
  case protSwitch =>
    intro q t s hrun hSelFree hForce hSf hSf2 hHoldoff
    show execProtSwitch q t s = _
    have hmoves : selSide q t s ≠ 1 - selSide q t s := by omega
    rw [execProtSwitch, act_live _ _ hrun]
    dsimp only
    rw [hSelFree, hForce, hSf, hSf2, decide_eq_true hHoldoff, selDecide, if_neg hmoves]
    rfl
  case protRevert =>
    intro q t s hrun hSelFree hForce hRevert hSelSide hSf hFree
    show execProtRevert q t s = _
    have hmoves : ¬ selSide q t s = 0 := by omega
    have hfree : bit (s.get (TSI.hSf q t)) 0 = false := hSf
    rw [execProtRevert, act_live _ _ hrun, hSelFree, hForce, hRevert, hSelSide, hfree, decide_eq_true hFree, selDecide, if_neg hmoves]
    rfl
  case protSwitchApply =>
    intro q t s hrun hSelFree hNext
    show execProtSwitchApply q t s = _
    rw [execProtSwitchApply, act_live _ _ hrun]
    simp [hSelFree, hNext]
  case forceA =>
    intro m q t s hrun hacc hTdEn hTdProt
    show execForceA m q t s = _
    have hcmd : bits (2 ^ 30 + t.val) 30 2 = 1 := by simp only [bits]; omega
    rw [execForceA, act_live _ _ hrun, writeCmd_accepts hacc, protCmdEff_stored (by omega) hTdEn hTdProt (by rw [hcmd]; decide), hcmd]
  case forceB =>
    intro m q t s hrun hacc hTdEn hTdProt
    show execForceB m q t s = _
    have hcmd : bits (2 ^ 31 + t.val) 30 2 = 2 := by simp only [bits]; omega
    rw [execForceB, act_live _ _ hrun, writeCmd_accepts hacc, protCmdEff_stored (by omega) hTdEn hTdProt (by rw [hcmd]; decide), hcmd]
  case clear =>
    intro m q t s hrun hacc hTdEn hTdProt
    show execClear m q t s = _
    have hcmd : bits t.val 30 2 = 0 := by simp only [bits]; omega
    have hnone : (s.put (TSI.hForce q t) 0).get (TSI.hForce q t) = 0 := by rw [State.get_put_self, Nat.zero_mod]
    rw [execClear, act_live _ _ hrun, writeCmd_accepts hacc, protCmdEff_stored (by omega) hTdEn hTdProt (by rw [hcmd]; decide), hcmd]
    simp [selForce, hnone]
  case msimChange =>
    intro q t x cycles s hrun h hTdEn h2 hMsim
    show execMsimChange q t x cycles s = _
    rw [execMsimChange, act_live _ _ hrun]
    simp [h, hTdEn, h2, hMsim]
  case oduflexAligned =>
    intro q t x s hrun hTdEn hSideEntries
    show execOduflexAligned q t x s = _
    rw [execOduflexAligned, act_live _ _ hrun]
    simp [hTdEn, hSideEntries]
  case oduflexLoss =>
    intro q t x s hrun hTdEn
    show execOduflexLoss q t x s = _
    rw [execOduflexLoss, act_live _ _ hrun]
    simp [hTdEn, oduflexLoss]
  case oduflexStatChange =>
    intro q t x n s hrun hTdEn hN
    show execOduflexStatChange q t x n s = _
    rw [execOduflexStatChange, act_live _ _ hrun]
    simp [hTdEn, hN]
  case oduflexStatOther =>
    intro q t x n s hrun hTdEn hN
    show execOduflexStatChange q t x n s = _
    rw [execOduflexStatChange, act_live _ _ hrun, if_pos hTdEn, if_neg (by omega)]
  case queueSlip =>
    intro q words s hrun
    show execQueueSlip ⟨.tsi q, words⟩ s = _
    rw [execQueueSlip, act_live _ _ hrun]
  case queueSlipCross =>
    intro words s hrun
    show execQueueSlip ⟨.xqsw, words⟩ s = _
    rw [execQueueSlip, act_live _ _ hrun]

end Sys2Proof.Machine
end

section
/-! PROOFS. Client ports and lanes (chapter 10). -/
namespace Sys2Proof.Machine

set_option Elab.async false

/-! ## Configuration of ports -/

/-- What a write of PORT_CFG stores (R377). -/
def portCfgPut (g : Fin 32) (n : Fin 8) (v : Nat) (s : State) : State :=
  (((s.put (LANEGRP.PORT_CFG_EN g n) (bits v 31 1)).put (LANEGRP.PORT_CFG_USE g n) (bits v 29 2)).put
    (LANEGRP.PORT_CFG_RATE g n) (bits v 27 2)).put (LANEGRP.PORT_CFG_TS_EN g n) (bits v 26 1)

theorem portCfgEff_eq (g : Fin 32) (n : Fin 8) (v : Nat) (s : State) : portCfgEff g n v s =
    if !bit v 31 then portMove g n ptDisabled (portCfgPut g n v s)
    else if !s.flag (LANEGRP.PORT_CFG_EN g n) && (portCfgPut g n v s).flag (HDR.ENABLE (.lanegrp g)) then
      portStart g n (portCfgPut g n v s)
    else portCfgPut g n v s := rfl

theorem flag_enable_portCfgPut {g : Fin 32} {n : Fin 8} (v : Nat) (s : State) :
    (portCfgPut g n v s).flag (HDR.ENABLE (.lanegrp g)) = s.flag (HDR.ENABLE (.lanegrp g)) := by
  simp (disch := (clear * - g n; decide +kernel +revert)) only [portCfgPut, flag_put_other]

/-! ## The alignment of a port lost (R387) -/

theorem alignFlds_onPage {g : Fin 32} {n : Fin 8} : (LANEGRP.PORT_STAT_STATE g n).key ≠ (LANEGRP.PORT_STAT_LANES_ALIGNED g n).key
    ∧ (HDR.INT_RAW (.lanegrp g)).key ≠ (LANEGRP.PORT_STAT_LANES_ALIGNED g n).key
    ∧ (LANEGRP.PORT_STAT_HI_SER g n).key ≠ (LANEGRP.PORT_STAT_LANES_ALIGNED g n).key := by
  decide +kernel +revert

theorem and_mod_two_pow_and_self (a b n : Nat) : (a &&& b) % 2 ^ n &&& a = (a &&& b) % 2 ^ n := by
  refine Nat.eq_of_testBit_eq fun i => ?_
  simp only [Nat.testBit_and, Nat.testBit_mod_two_pow]
  cases a.testBit i <;> simp

/-- The state of an UP port that has lost its alignment. -/
def alignLost (g : Fin 32) (n : Fin 8) (s : State) : State :=
  (portLoss g n (s.draw 8).2).put (LANEGRP.PORT_STAT_LANES_ALIGNED g n)
    (s.get (LANEGRP.PORT_STAT_LANES_ALIGNED g n) &&& (s.draw 8).1)

theorem portLoss_up {g : Fin 32} {n : Fin 8} {s : State} (hup : portState g n s = ptUp) :
    portLoss g n s = (((s.put (LANEGRP.PORT_STAT_STATE g n) ptAligning).raise (.lanegrp g) 0).put
      (LANEGRP.PORT_STAT_HI_SER g n) 0).put (LANEGRP.PORT_STAT_RF_RX g n) 0 := by
  have hmoves : ¬ portState g n s = ptAligning := by rw [hup]; decide
  rw [portLoss, if_pos hup, portMove, if_neg hmoves, if_neg (by decide), if_pos rfl, State.putB_false, State.putB_false]

/-! ## The checker's counts cleared (R396) -/

/-- What a write of PRBS_CTRL stores. -/
def prbsCtrlPut (g : Fin 32) (r : Fin 8) (v : Nat) (s : State) : State :=
  (((s.put (LANEGRP.PRBS_CTRL_TX_EN g r) (bits v 31 1)).put (LANEGRP.PRBS_CTRL_RX_EN g r) (bits v 30 1)).put
    (LANEGRP.PRBS_CTRL_PATTERN g r) (bits v 28 2)).put (LANEGRP.PRBS_CTRL_MANUAL g r) (bits v 27 1)

/-- That write with CLR. -/
def prbsCleared (g : Fin 32) (r : Fin 8) (v : Nat) (s : State) : State :=
  prbsClear g r (if bit v 30 && bits v 28 2 != 3 then prbsCtrlPut g r v s else prbsLocked g r false (prbsCtrlPut g r v s))

theorem prbsCtrlEff_clr {g : Fin 32} {r : Fin 8} {v : Nat} (s : State) (hclr : bit v 26 = true) :
    prbsCtrlEff g r v s = prbsCleared g r v s := by
  rw [prbsCtrlEff, hclr, Bool.or_true, if_pos rfl]
  rfl

theorem prbsFlds_onPage {g : Fin 32} {r : Fin 8} : ∀ f ∈ [LANEGRP.PRBS_CTRL_TX_EN g r, LANEGRP.PRBS_CTRL_RX_EN g r,
    LANEGRP.PRBS_CTRL_PATTERN g r, LANEGRP.PRBS_CTRL_MANUAL g r, LANEGRP.PRBS_ERR_LO g r, LANEGRP.PRBS_ERR_HI_COUNT g r,
    LANEGRP.PRBS_ERR_HI_SATURATED g r, LANEGRP.PRBS_ERR_HI_LOCKED g r], f.onPage (.lanegrp g) := by decide +kernel +revert

theorem prbsCleared_onlyPages (g : Fin 32) (r : Fin 8) (v : Nat) (s : State) : OnlyPages [.lanegrp g] s (prbsCleared g r v s) := by
  have hf := prbsFlds_onPage (g := g) (r := r)
  have hp := List.mem_singleton_self (Page.lanegrp g)
  have hput : OnlyPages [.lanegrp g] s (prbsCtrlPut g r v s) :=
    ((((OnlyPages.refl _ s).put hp (hf _ (by simp)) _).put hp (hf _ (by simp)) _).put hp (hf _ (by simp)) _).put hp (hf _ (by simp)) _
  have hclear {u : State} (h : OnlyPages [.lanegrp g] s u) : OnlyPages [.lanegrp g] s (prbsClear g r u) :=
    ((h.put hp (hf _ (by simp)) _).put hp (hf _ (by simp)) _).put hp (hf _ (by simp)) _
  unfold prbsCleared
  split
  · exact hclear hput
  · exact hclear ((hput.raiseIf hp 4 _).put hp (hf _ (by simp)) _)

theorem prbsCleared_cellsOnly (g : Fin 32) (r : Fin 8) (v : Nat) (s : State) : CellsOnly s (prbsCleared g r v s) := by
  have hput : CellsOnly s (prbsCtrlPut g r v s) := ((((CellsOnly.refl s).put _ _).put _ _).put _ _).put _ _
  have hclear {u : State} (h : CellsOnly s u) : CellsOnly s (prbsClear g r u) := ((h.put _ _).put _ _).put _ _
  unfold prbsCleared
  split
  · exact hclear hput
  · exact hclear ((hput.raiseIf _ 4 _).put _ _)

theorem get_pattern_prbsCleared {g : Fin 32} {r : Fin 8} (v : Nat) (s : State) :
    (prbsCleared g r v s).get (LANEGRP.PRBS_CTRL_PATTERN g r) = bits v 28 2 := by
  have hpattern : (prbsCtrlPut g r v s).get (LANEGRP.PRBS_CTRL_PATTERN g r) = bits v 28 2 := by
    simp (disch := (clear * - g r; decide +kernel +revert)) only [prbsCtrlPut, State.get_put_other, State.get_put_self]
    exact bits_mod_width v _ _
  unfold prbsCleared
  split
  · simp (disch := (clear * - g r; decide +kernel +revert)) only [prbsClear, State.putB_false, State.get_put_other, hpattern]
  · simp (disch := (clear * - g r; decide +kernel +revert)) only [prbsClear, prbsLocked, State.putB_false, State.get_put_other,
      get_raiseIf_other, hpattern]

/-- Settles O11. -/
theorem clientPortsAndLanes : Obligations.ClientPortsAndLanes := by
  unfold Obligations.ClientPortsAndLanes
  refine ⟨?portEnable, ?portDisable, ?portUp, ?portAlignLoss, ?portAlignLossReads, ?hiSer, ?hiSerClears, ?remoteFault, ?laneCtrlWrite,
    ?laneRestart, ?laneSlip, ?txEqWrite, ?txEqRejected, ?cdrLockAcquired, ?cdrLockLost, ?eqConv, ?prbsClr, ?prbsLock, ?prbsUnlock⟩
  case portEnable =>
    intro m g n v s hrun hacc hEn hEnable
    show execPortEnable m g n v s = _
    have hfields (lo w : Nat) (h : lo + w ≤ 31) : bits (v % 2 ^ 31 + 2 ^ 31) lo w = bits v lo w := by
      rw [bits_add_two_pow h, bits_mod_two_pow h]
    have hen : bit (v % 2 ^ 31 + 2 ^ 31) 31 = true := bit_add_two_pow_self (Nat.mod_lt _ (by decide))
    have hen' : bits (v % 2 ^ 31 + 2 ^ 31) 31 1 = 1 := by simp only [bits]; omega
    rw [execPortEnable, act_live _ _ hrun, writeCmd_accepts hacc, portCfgEff_eq, hEn, hen, flag_enable_portCfgPut, hEnable, portCfgPut,
      hen',
      hfields 29 2 (by decide), hfields 27 2 (by decide), hfields 26 1 (by decide)]
    rfl
  case portDisable =>
    intro m g n v s hrun hacc
    show execPortDisable m g n v s = _
    have hen : bit (v % 2 ^ 31) 31 = false := by simp only [bit_eq, decide_eq_false_iff_not]; omega
    have hen' : bits (v % 2 ^ 31) 31 1 = 0 := by simp only [bits]; omega
    rw [execPortDisable, act_live _ _ hrun, writeCmd_accepts hacc, portCfgEff, hen, if_pos (by decide), hen',
      bits_mod_two_pow (by decide),
      bits_mod_two_pow (by decide), bits_mod_two_pow (by decide)]
  case portUp =>
    intro g n s hrun hState hLanes hEnable
    show execPortUp g n s = _
    have hall : (portLanes g n s).all (fun r => laneOn g r s && s.flag (LANEGRP.LANE_STAT_CDR_LOCK g r)
        && s.flag (LANEGRP.LANE_STAT_EQ_CONV g r)) = true := by
      rw [List.all_eq_true]
      intro r hr
      obtain ⟨hen, hlock, hconv⟩ := hLanes r hr
      rw [laneOn, hen, hlock, hconv, hEnable]
      rfl
    have hmoves : ¬ portState g n s = ptUp := by rw [portState, hState]; decide
    rw [execPortUp, act_live _ _ hrun, if_pos ⟨hState, hall⟩, portMove, if_neg hmoves, if_pos rfl]
  case portAlignLoss =>
    intro g n s hrun hLaneStatClkPresent hPortStatState
    show execPortAlignLoss g n s = _
    rw [execPortAlignLoss, laneAct, act_live _ _ hrun]
    simp [hLaneStatClkPresent, hPortStatState, portState, ptUp]
  case portAlignLossReads =>
    intro g n s hrun hclk hState
    obtain ⟨hstate, hraw, hser⟩ := alignFlds_onPage (g := g) (n := n)
    have hup : portState g n s = ptUp := hState
    have hexec : exec (.portAlignLoss g n) s = .next (commit s.pending (alignLost g n s)) := by
      show execPortAlignLoss g n s = _
      rw [execPortAlignLoss, laneAct, act_live _ _ hrun, if_pos hclk, if_pos hup, alignLost]
    have hloss := portLoss_up (s := (s.draw 8).2) hup
    refine ⟨_, hexec, ?_, ?_, ?_, ?_⟩
    · rw [get_commit, alignLost, State.get_put_other _ _ _ _ hstate.symm, hloss]
      simp (disch := (clear * - g n; decide +kernel +revert)) only [State.get_put_other, get_raise_other, State.get_put_self]
      rfl
    · rw [State.flag, get_commit, alignLost, State.get_put_other _ _ _ _ hser.symm, hloss]
      simp (disch := (clear * - g n; decide +kernel +revert)) only [State.get_put_other, State.get_put_self, Nat.zero_mod,
        bne_self_eq_false]
    · rw [get_commit, alignLost, State.get_put_self]
      exact and_mod_two_pow_and_self _ _ _
    · rw [get_commit, alignLost, State.get_put_other _ _ _ _ hraw.symm, hloss]
      simp (disch := (clear * - g n; decide +kernel +revert)) only [State.get_put_other]
      rw [testBit_raise (by simp) 0 _ (by decide), decide_eq_true rfl, Bool.or_true]
  case hiSer =>
    intro g n s hrun hLaneStatClkPresent hPortOn hPortStatHiSer
    show execHiSer g n true s = _
    rw [execHiSer, laneAct, act_live _ _ hrun]
    simp [hLaneStatClkPresent, hPortOn, hPortStatHiSer]
  case hiSerClears =>
    intro g n s hrun hLaneStatClkPresent hPortOn
    show execHiSer g n false s = _
    rw [execHiSer, laneAct, act_live _ _ hrun]
    simp [hLaneStatClkPresent, hPortOn]
  case remoteFault =>
    intro g n on s hrun hclk hState
    show execRemoteFault g n on s = _
    rw [execRemoteFault, laneAct, act_live _ _ hrun, if_pos hclk, if_pos (show portState g n s = ptUp from hState), State.putB]
  case laneCtrlWrite =>
    intro m g r v s hrun hacc hEn hEnable hpage hBits
    show execLaneCtrlWrite m g r v s = _
    have hwas : laneOn g r s = false := by rw [laneOn, hEn, Bool.false_and]
    have hen (u : State) : (u.put (LANEGRP.LANE_CTRL_EN g r) 1).flag (LANEGRP.LANE_CTRL_EN g r) = true := by
      rw [State.flag, State.get_put_self]
      rfl
    rw [hBits] at hpage
    rw [execLaneCtrlWrite, act_live _ _ hrun, writeCmd_accepts hacc, laneCtrlEff, hwas, hBits, laneOn, hen, hpage, Bool.and_self,
      if_pos rfl]
    rfl
  case laneRestart =>
    intro m g r s hrun hacc
    show execLaneRestart m g r s = _
    rw [execLaneRestart, act_live _ _ hrun, writeCmd_accepts hacc]
    simp [laneCmdEff, bit_eq]
  case laneSlip =>
    intro m g r s hrun hacc hLaneCtrlEn hEnable hPortOfLane
    show execLaneSlip m g r s = _
    rw [execLaneSlip, act_live _ _ hrun, writeCmd_accepts hacc]
    simp [hLaneCtrlEn, hEnable, hPortOfLane, laneCmdEff, bit_eq, laneOn]
  case txEqWrite =>
    intro m g r v s hrun hacc hTxEqOk
    show execTxEqWrite m g r v s = _
    rw [execTxEqWrite, act_live _ _ hrun, writeCmd_accepts hacc]
    simp [hTxEqOk, txEqEff]
  case txEqRejected =>
    intro m g r v s hrun hacc hTxEqOk
    show execTxEqWrite m g r v s = _
    rw [execTxEqWrite, act_live _ _ hrun, writeCmd_accepts hacc]
    simp [hTxEqOk, txEqEff]
  case cdrLockAcquired =>
    intro g r s hrun hLaneStatClkPresent hLaneCtrlEn hEnable
    show execCdrLockAcquired g r s = _
    rw [execCdrLockAcquired, laneAct, act_live _ _ hrun]
    simp [hLaneStatClkPresent, hLaneCtrlEn, hEnable, laneOn]
  case cdrLockLost =>
    intro g r s hrun hclk hlock hon
    show execCdrLockLost g r s = _
    have hon' : laneOn g r s = true := by
      rw [← hon]
      simp (disch := (clear * - g r; decide +kernel +revert)) only [laneOn, flag_put_other]
    rw [execCdrLockLost, laneAct, act_live _ _ hrun, if_pos hclk, cdrFall, if_pos hlock, hon', State.raiseIf_true, State.putB_false]
  case eqConv =>
    intro g r s hrun hLaneStatClkPresent hLaneOn hLaneStatCdrLock hMode
    show execEqConv g r s = _
    rw [execEqConv, laneAct, act_live _ _ hrun]
    simp [hLaneStatClkPresent, hLaneOn, hLaneStatCdrLock, hMode]
  case prbsClr =>
    intro m g r v s hrun hacc
    have hexec : exec (.prbsClr m g r v) s = .next (commit s.pending (prbsCleared g r (v ||| 2 ^ 26) s)) := by
      show execPrbsClr m g r v s = _
      rw [execPrbsClr, act_live _ _ hrun, writeCmd_accepts hacc, prbsCtrlEff_clr s (bit_or_two_pow_self v 26)]
    have hpattern := get_pattern_prbsCleared (g := g) (r := r) (v ||| 2 ^ 26) s
    rw [bits_or_two_pow (by decide)] at hpattern
    refine ⟨_, hexec, ?_, ?_, ?_, (get_commit _ _ _).trans hpattern, (prbsCleared_onlyPages g r _ s).commit _,
      (prbsCleared_cellsOnly g r _ s).registersOnly⟩
    all_goals
      simp (disch := (clear * - g r; decide +kernel +revert)) only [State.flag, get_commit, prbsCleared, prbsClear, State.putB_false,
        State.get_put_other, State.get_put_self, Nat.zero_mod, bne_self_eq_false]
  case prbsLock =>
    intro g r s hrun hLaneStatClkPresent hPrbsRuns hPrbsErrHiLocked
    show execPrbsLock g r s = _
    rw [execPrbsLock, act_live _ _ hrun]
    simp [hPrbsRuns, hPrbsErrHiLocked, prbsLocked]
  case prbsUnlock =>
    intro g r s hrun hLaneStatClkPresent hPrbsErrHiLocked
    show execPrbsUnlock g r s = _
    rw [execPrbsUnlock, laneAct, act_live _ _ hrun]
    simp [hLaneStatClkPresent, hPrbsErrHiLocked, prbsLocked]

end Sys2Proof.Machine
end

section
/-! PROOFS. Bursts (chapter 07). -/
namespace Sys2Proof.Machine

set_option Elab.async false

/-! ## The receiver before a burst (R285) -/

/-- The receiver takes dispersion, frequency, head and taps of the granted leaf's context. -/
def burstPreset (c b : Fin 16) (x : Grant) (s : State) : State :=
  ((((s.put (HUB.hRxTia c b) (bits (ctxW c (ctxRow b x.slot) 2 s) 8 8)).put (HUB.hRxCd c b)
    (bits (ctxW c (ctxRow b x.slot) 2 s) 16 16)).put (HUB.hRxFreq c b)
    (if ctxValid c (ctxRow b x.slot) s then bits (ctxW c (ctxRow b x.slot) 3 s) 48 16 else 0)).put (HUB.hRxHead c b)
    (expHead x s)).put (HUB.hRxTaps c b) (if ctxValid c (ctxRow b x.slot) s && !geLong x.entry then 1 + x.slot.val else 0)

/-- The state at the guard of a grant. -/
def guardStarted (c b : Fin 16) (x : Grant) (s : State) : State :=
  (if s.flag (HDR.FREEZE (.conv c)) then burstPreset c b x s
    else (burstPreset c b x s).put (CONV.RX_STAT_TIA_GAIN c) (min 96 (bits (ctxW c (ctxRow b x.slot) 2 s) 8 8))).put
    (CONV.RX_STAT_AGC_HOLD c) 1

theorem expHead_put (x : Grant) (f : Fld) (v : Nat) (s : State) : expHead x (s.put f v) = expHead x s := by
  rw [expHead, branchAct, State.word_put, expHead, branchAct]

theorem flag_freeze_burstPreset {c b : Fin 16} (x : Grant) (s : State) :
    (burstPreset c b x s).flag (HDR.FREEZE (.conv c)) = s.flag (HDR.FREEZE (.conv c)) := by
  simp (disch := (clear * - c b; decide +kernel +revert)) only [burstPreset, flag_put_other]

theorem execBurstGuardStart_granted {c b : Fin 16} {g : Nat} {i : Fin 64} {x : Grant} {s : State} (hrun : s.inReset = false)
    (hfind : findGrant c b g i s = some x) (hkind : x.kind ≠ 2) :
    exec (.burstGuardStart c b g i) s = .next (commit s.pending (guardStarted c b x s)) := by
  show execBurstGuardStart c b g i s = _
  rw [execBurstGuardStart, act_live _ _ hrun, hfind]
  dsimp only
  rw [if_neg hkind, expHead_put, expHead_put, expHead_put, State.putB_true, ← burstPreset, flag_freeze_burstPreset, guardStarted]

theorem guardFlds_onPage {c b : Fin 16} : (∀ f ∈ [HUB.hRxTia c b, HUB.hRxCd c b, HUB.hRxFreq c b, HUB.hRxHead c b, HUB.hRxTaps c b],
    f.onPage (.hub c)) ∧ (CONV.RX_STAT_TIA_GAIN c).onPage (.conv c) ∧ (CONV.RX_STAT_AGC_HOLD c).onPage (.conv c) := by
  decide +kernel +revert

theorem guardStarted_onlyPages (c b : Fin 16) (x : Grant) (s : State) : OnlyPages [.hub c, .conv c] s (guardStarted c b x s) := by
  obtain ⟨hf, hgain, hhold⟩ := guardFlds_onPage (c := c) (b := b)
  have hhub : Page.hub c ∈ [Page.hub c, .conv c] := by simp
  have hconv : Page.conv c ∈ [Page.hub c, .conv c] := by simp
  have hpreset : OnlyPages [.hub c, .conv c] s (burstPreset c b x s) :=
    (((((OnlyPages.refl _ s).put hhub (hf _ (by simp)) _).put hhub (hf _ (by simp)) _).put hhub (hf _ (by simp)) _).put hhub
      (hf _ (by simp)) _).put hhub (hf _ (by simp)) _
  unfold guardStarted
  split
  · exact hpreset.put hconv hhold 1
  · exact (hpreset.put hconv hgain _).put hconv hhold 1

theorem guardStarted_cellsOnly (c b : Fin 16) (x : Grant) (s : State) : CellsOnly s (guardStarted c b x s) := by
  have hpreset : CellsOnly s (burstPreset c b x s) := (((((CellsOnly.refl s).put _ _).put _ _).put _ _).put _ _).put _ _
  unfold guardStarted
  split
  · exact hpreset.put _ _
  · exact (hpreset.put _ _).put _ _

/-! ## What a missed burst counts -/

theorem get_modify (l : Loc) (f : Nat → Nat) (s : State) (g : Fld) : (s.modify l f).get g = s.get g :=
  State.get_of_cells s _ g (State.modify_cells s l f)

theorem get_burstBad {c b : Fin 16} {r : Fin 256} {f : Fld} (h : (HUB.hBrGood c b).key ≠ f.key) (s : State) :
    (burstBad c b r s).get f = s.get f := by
  unfold burstBad
  split
  · exact State.get_put_other _ _ _ _ h
  · rfl

theorem missFlds_apart {c b : Fin 16} {r : Fin 256} :
    (HUB.hBrGood c b).key ≠ (HUB.hConsec c r).key ∧ (HUB.hBrGood c b).key ≠ (HUB.hRangeMiss c r).key
      ∧ (HUB.hCnt c 1).key ≠ (HUB.hConsec c r).key ∧ (HUB.hCnt c 1).key ≠ (HUB.hRangeMiss c r).key
      ∧ (HUB.hConsec c r).key ≠ (HUB.hRangeMiss c r).key := by
  simp only [Fld.key, HUB.hBrGood, HUB.hConsec, HUB.hRangeMiss, HUB.hCnt]
  omega

theorem cntAdd_grants (f : Fld) (n : Nat) (s : State) : (s.cntAdd f n).grants = s.grants := by
  unfold State.cntAdd
  dsimp only
  split <;> rfl

/-- Settles O10. -/
theorem burstReception : Obligations.BurstReception := by
  unfold Obligations.BurstReception
  refine ⟨?burstGuardStart, ?burstCaptureStart, ?burstCaptureAbandon, ?burstRecapture, ?burstRecapturePayload, ?burstRecaptureWeak,
    ?burstHeader, ?burstHeaderGood, ?burstEnd, ?burstEndLearns, ?burstEndBadCodeword, ?burstMissing, ?burstMissingDiscovery⟩
  case burstGuardStart =>
    intro c b g i x s hrun hFind hkind
    have hgain (v : Nat) : min 96 v % 2 ^ 8 = min 96 v := Nat.mod_eq_of_lt (lt_of_le_of_lt (Nat.min_le_left _ _) (by decide))
    have hfreq (v : Bool) (w : Nat) : (if v then bits w 48 16 else 0) % 2 ^ 16 = if v then bits w 48 16 else 0 := by
      cases v
      · rfl
      · exact bits_mod_width w 48 16
    refine ⟨_, execBurstGuardStart_granted hrun hFind hkind, ?_, ?_, ?_, ?_, ?_, ?_, (guardStarted_onlyPages c b x s).commit _,
      (guardStarted_cellsOnly c b x s).registersOnly⟩
    all_goals
      rw [guardStarted]
      split
    all_goals
      simp (disch := (clear * - c b; decide +kernel +revert)) only [State.flag, get_commit, burstPreset, State.get_put_other,
        State.get_put_self]
    exacts [hgain _, bits_mod_width _ 8 8, bits_mod_width _ 8 8, hfreq _ _, hfreq _ _, bits_mod_width _ 16 16, bits_mod_width _ 16 16,
      rfl, rfl]
  case burstCaptureStart =>
    intro c b g i x head pow s hrun hLineClk hCap hFindGrant hInWindow
    show execBurstCaptureStart c b g i head pow s = _
    rw [execBurstCaptureStart, rxAct, act_live _ _ hrun]
    simp [hLineClk, hCap, hFindGrant, hInWindow]
  case burstCaptureAbandon =>
    intro c b s hrun hLineClk hCap
    show execBurstCaptureAbandon c b s = _
    rw [execBurstCaptureAbandon, rxAct, act_live _ _ hrun]
    simp [hLineClk, hCap]
  case burstRecapture =>
    intro c b head pow x s hrun hclk hCap hhead hGrant hbefore hstrong
    show execBurstRecapture c b head pow s = _
    rw [execBurstRecapture, rxAct, act_live _ _ hrun, if_pos hclk, hCap, if_neg (by omega), hGrant]
    dsimp only
    rw [if_pos rfl, if_pos ⟨hbefore, decide_eq_true hstrong⟩]
  case burstRecapturePayload =>
    intro c b head pow x s hrun hclk hCap hhead hGrant hstrong
    show execBurstRecapture c b head pow s = _
    rw [execBurstRecapture, rxAct, act_live _ _ hrun, if_pos hclk, hCap, if_neg (by omega), hGrant, if_neg (by decide),
      if_pos (decide_eq_true hstrong), cntAdd_grants]
  case burstRecaptureWeak =>
    intro c b head pow s hrun hclk hCap hhead hweak
    show execBurstRecapture c b head pow s = _
    rw [execBurstRecapture, rxAct, act_live _ _ hrun, if_pos hclk, hCap, if_neg (by omega), if_neg (by decide),
      decide_eq_false (by omega),
      if_neg Bool.false_ne_true]
  case burstHeader =>
    intro c b h s hrun hLineClk hCap hHdrOk
    show execBurstHeader c b h s = _
    rw [execBurstHeader, rxAct, act_live _ _ hrun]
    simp [hLineClk, hCap, hHdrOk]
  case burstHeaderGood =>
    intro c b h s hrun hLineClk hCap hHdrOk
    show execBurstHeader c b h s = _
    rw [execBurstHeader, rxAct, act_live _ _ hrun]
    simp [hLineClk, hCap, hHdrOk]
  case burstEnd =>
    intro c b tphase taps lr s hrun hLineClk hCap hCapGrant
    show execBurstEnd c b tphase taps lr s = _
    rw [execBurstEnd, rxAct, act_live _ _ hrun]
    simp [hLineClk, hCap, hCapGrant]
  case burstEndLearns =>
    intro c b tphase taps lr x r cws s hrun hclk hCap hGrant hkind hR hcws hgood hFreeze
    show execBurstEnd c b tphase taps lr s = _
    have hall : ¬ s.get (HUB.hCapCws c b) < cws := by omega
    have hmost : 90 * cws ≤ 100 * s.get (HUB.hCapCws c b) := by omega
    have hfreeze : ((dropGrant x s).put (HUB.hCap c b) 0).flag (HDR.FREEZE (.hub c)) = false := by
      rw [flag_put_other (by clear * - c b; decide +kernel +revert)]
      exact hFreeze
    rw [execBurstEnd, rxAct, act_live _ _ hrun, if_pos hclk, if_pos hCap, hGrant]
    dsimp only
    rw [if_neg hkind, if_neg hkind, ← hR, ← hcws, if_neg hall, hfreeze, if_neg Bool.false_ne_true, if_pos hmost]
  case burstEndBadCodeword =>
    intro c b tphase taps lr x r cws s hrun hclk hCap hGrant hkind hR hcws hbad hFreeze
    show execBurstEnd c b tphase taps lr s = _
    have hsome : s.get (HUB.hCapCws c b) < cws := by omega
    have hmost : ¬ 90 * cws ≤ 100 * s.get (HUB.hCapCws c b) := by omega
    have hfreeze : (burstBad c b r ((dropGrant x s).put (HUB.hCap c b) 0)).flag (HDR.FREEZE (.hub c)) = false := by
      rw [flag_of_get (get_burstBad (by clear * - c b; decide +kernel +revert) _),
        flag_put_other (by clear * - c b; decide +kernel +revert)]
      exact hFreeze
    rw [execBurstEnd, rxAct, act_live _ _ hrun, if_pos hclk, if_pos hCap, hGrant]
    dsimp only
    rw [if_neg hkind, if_neg hkind, ← hR, ← hcws, if_pos hsome, hfreeze, if_neg Bool.false_ne_true, if_neg hmost]
  case burstMissing =>
    intro c b g i x r s hrun hFind hkind hExcused hState hR
    show execBurstMissing c b g i s = _
    obtain ⟨hgood, hgood', hcnt, hcnt', hconsec⟩ := missFlds_apart (c := c) (b := b) (r := r)
    have hdrop (f : Fld) : (dropGrant x s).get f = s.get f := rfl
    have hlive : ¬ (x.kind = 2 ∨ carState c (dropGrant x s) = stCal) := fun h => h.elim hkind hState
    rw [execBurstMissing, act_live _ _ hrun, hFind]
    dsimp only
    rw [if_neg hlive, ← hR, hExcused, if_neg Bool.false_ne_true, State.get_put_other _ _ _ _ hconsec, get_modify, get_modify,
      get_cntAdd_other hcnt, get_cntAdd_other hcnt', get_burstBad hgood, get_burstBad hgood', hdrop, hdrop]
  case burstMissingDiscovery =>
    intro c b g i x s hrun hFindGrant h
    show execBurstMissing c b g i s = _
    rw [execBurstMissing, act_live _ _ hrun]
    simp [hFindGrant, h, carState, stCal]

end Sys2Proof.Machine
end

section
/-! PROOFS. Reads that count what they find. -/
namespace Sys2Proof.Machine

set_option Elab.async false

/-! ## A counted read of a quadrant's tables

It changes registers of the memory page alone (R538). -/

theorem quadCntFlds_onPage (q : Fin 4) (r : Fin 16) (w : Nat) : ∀ f ∈ [(Loc.quad q r w).level, (Loc.quad q r w).over,
    (Loc.quad q r w).ceCnt, (Loc.quad q r w).ueCnt, (Loc.quad q r w).ueOverrun], f.onPage (.mem q) := by
  simp only [Loc.level, Loc.over, Loc.ceCnt, Loc.ueCnt, Loc.ueOverrun]
  clear w
  decide +kernel +revert

/-- The fields of an error record. -/
def ErrLog.flds (g : ErrLog) : List Fld := [g.valid, g.scrub, g.region, g.syndrome, g.addr]

theorem quadLogFlds_onPage (q : Fin 4) (r : Fin 16) (w : Nat) : (∀ f ∈ (Loc.quad q r w).ceLog.flds, f.onPage (.mem q))
    ∧ ∀ f ∈ (Loc.quad q r w).ueLog.flds, f.onPage (.mem q) := by
  simp only [ErrLog.flds, Loc.ceLog, Loc.ueLog]
  clear w r
  decide +kernel +revert

theorem OnlyPages.errLog {s t : State} {p : Page} {g : ErrLog} (h : OnlyPages [p] s t)
    (hg : ∀ f ∈ g.flds, f.onPage p) (l : Loc) (syn : Nat) (scrub : Bool) :
    OnlyPages [p] s (g.set l syn scrub t) := by
  have hp := List.mem_singleton_self p
  exact ((((h.put hp (hg _ (by simp [ErrLog.flds])) _).put hp (hg _ (by simp [ErrLog.flds])) _).put hp
    (hg _ (by simp [ErrLog.flds])) _).put hp (hg _ (by simp [ErrLog.flds])) _).put hp (hg _ (by simp [ErrLog.flds])) _

theorem CellsOnly.errLog {s t : State} (h : CellsOnly s t) (g : ErrLog) (l : Loc) (syn : Nat) (scrub : Bool) :
    CellsOnly s (g.set l syn scrub t) :=
  ((((h.put _ _).put _ _).put _ _).put _ _).put _ _

theorem countCE_onlyPages {q : Fin 4} {r : Fin 16} (hr : r.val < 12) (w syn : Nat) (scrub : Bool) (s : State) :
    OnlyPages [.mem q] s (countCE (.quad q r w) syn scrub s) := by
  have hf := quadCntFlds_onPage q r w
  have hp := List.mem_singleton_self (Page.mem q)
  have htumb : (Loc.quad q r w).tumb = none := by
    rw [Loc.tumb, if_neg (by omega)]
  unfold countCE
  rw [htumb]
  exact (((((OnlyPages.refl [.mem q] s).put hp (hf _ (by simp)) _).put hp (hf _ (by simp)) _).errLog
    (quadLogFlds_onPage q r w).1 _ syn scrub).raiseIf hp 0 _).put hp (hf _ (by simp)) _

theorem countUE_onlyPages {q : Fin 4} {r : Fin 16} (w syn : Nat) (scrub : Bool) (s : State) :
    OnlyPages [.mem q] s (countUE (.quad q r w) syn scrub s) := by
  have hf := quadCntFlds_onPage q r w
  have hp := List.mem_singleton_self (Page.mem q)
  unfold countUE
  dsimp only
  split
  · exact (((OnlyPages.refl [.mem q] s).put hp (hf _ (by simp)) _).raise hp 1).put hp (hf _ (by simp)) _
  · exact (((OnlyPages.refl [.mem q] s).put hp (hf _ (by simp)) _).raise hp 1).errLog (quadLogFlds_onPage q r w).2 _ syn scrub

theorem readWord_onlyPages {q : Fin 4} {r : Fin 16} (hr : r.val < 12) (w : Nat) (scrub : Bool) (s : State) :
    OnlyPages [.mem q] s (s.readWord (.quad q r w) scrub).2.2 := by
  unfold State.readWord
  split
  · exact OnlyPages.refl _ s
  · exact countCE_onlyPages hr w _ scrub s
  · exact countUE_onlyPages w _ scrub s

theorem readWord_cellsOnly {q : Fin 4} {r : Fin 16} (hr : r.val < 12) (w : Nat) (scrub : Bool) (s : State) :
    CellsOnly s (s.readWord (.quad q r w) scrub).2.2 := by
  have htumb : (Loc.quad q r w).tumb = none := by
    rw [Loc.tumb, if_neg (by omega)]
  unfold State.readWord
  split
  · exact CellsOnly.refl s
  · unfold countCE
    rw [htumb]
    exact (((((CellsOnly.refl s).put _ _).put _ _).errLog _ _ _ _).raiseIf _ 0 _).put _ _
  · unfold countUE
    dsimp only
    split
    · exact (((CellsOnly.refl s).put _ _).raise _ 1).put _ _
    · exact (((CellsOnly.refl s).put _ _).raise _ 1).errLog _ _ _ _

/-- Block reads of a quadrant's tables leave every register but those of the memory page. -/
theorem get_blockReads {q : Fin 4} {f : Fld} (hf : ¬ f.onPage (.mem q)) {ls : List Loc}
    (hls : ∀ l ∈ ls, ∃ w, l = .quad q 5 w) (s : State) : (blockReads ls s).get f = s.get f := by
  induction ls generalizing s with
  | nil => rfl
  | cons l ls ih =>
    obtain ⟨w, rfl⟩ := hls l List.mem_cons_self
    have hfirst : (s.readWord (.quad q 5 w) false).2.2.get f = s.get f :=
      readWord_onlyPages (r := 5) (by decide) w false s f (fun p hp => by rw [List.mem_singleton.mp hp]; exact hf)
    exact (ih (fun l hl => hls l (List.mem_cons_of_mem _ hl)) _).trans hfirst

theorem blockReads_mem (ls : List Loc) (s : State) : (blockReads ls s).mem = s.mem := by
  induction ls generalizing s with
  | nil => rfl
  | cons l ls ih => exact (ih _).trans (readWord_mem s l false)

end Sys2Proof.Machine
end

section
/-! PROOFS. Frames toward client ports (chapter 11). -/
namespace Sys2Proof.Machine

set_option Elab.async false

/-! ## Frames toward a client port -/

/-- What becomes of a good frame for the entry e of port n, once the tables are read (R433). -/
def egressTaken (q : Fin 4) (n e : Nat) (fr : EthFrame) (s : State) : State :=
  if !bit e 63 || portState (portGroup q n) (portFirst n) s == ptDisabled || portUse (portGroup q n) (portFirst n) s != usePkt
      || !bit (portMap q n 0 s) 63 then s.cntAdd (TM.hCnt q cClsDisc) 1
  else if portShut q (Fin.ofNat 64 n) s then s.cntAdd (TM.hCnt q cNotupDisc) 1
  else toFifo q (Fin.ofNat 64 n) fr.bytes s

theorem execEgressFrameReceive_good {q : Fin 4} {fr : EthFrame} {s : State} (hrun : s.inReset = false) (hon : pageOn (.tm q) s = true)
    (hgood : frameBad fr = false) {e : Nat} (he : e = s.word (egressWord q (outerTag fr.bytes).1)) {n : Nat} (hn : n = bits e 57 6) :
    exec (.egressFrameReceive q fr) s = .next (commit s.pending (egressTaken q n e fr
      (blockReads [egressWord q (outerTag fr.bytes).1, portMapWord q (2 * n), portMapWord q (2 * n + 1)] s))) := by
  have hport : (Fin.ofNat 64 n).val = n := by
    rw [Fin.val_ofNat, Nat.mod_eq_of_lt]
    rw [hn]
    exact Nat.mod_lt _ (by decide)
  show execEgressFrameReceive q fr s = _
  rw [execEgressFrameReceive, act_live _ _ hrun, hon, hgood]
  dsimp only
  rw [← he, ← hn, hport]
  rfl

theorem laneFlds_offMem {q : Fin 4} {g : Fin 32} {n : Fin 8} : ¬ (LANEGRP.PORT_STAT_STATE g n).onPage (.mem q)
    ∧ ¬ (LANEGRP.hCfg g n).onPage (.mem q) ∧ ¬ (LANEGRP.PORT_STAT_RF_RX g n).onPage (.mem q) := by
  decide +kernel +revert

/-- The words that a frame toward port n meets. -/
def egressWords (q : Fin 4) (fr : EthFrame) (n : Nat) : List Loc :=
  [egressWord q (outerTag fr.bytes).1, portMapWord q (2 * n), portMapWord q (2 * n + 1)]

theorem get_egressReads {q : Fin 4} {f : Fld} (hf : ¬ f.onPage (.mem q)) (fr : EthFrame) (n : Nat) (s : State) :
    (blockReads (egressWords q fr n) s).get f = s.get f := by
  refine get_blockReads hf (fun l hl => ?_) s
  simp only [egressWords, List.mem_cons, List.not_mem_nil, or_false] at hl
  obtain rfl | rfl | rfl := hl <;> exact ⟨_, rfl⟩

theorem portFacts_egressReads (q : Fin 4) (fr : EthFrame) (n k : Nat) (s : State) :
    (∀ g m, portState g m (blockReads (egressWords q fr n) s) = portState g m s)
      ∧ (∀ g m, portUse g m (blockReads (egressWords q fr n) s) = portUse g m s)
      ∧ (∀ i w, portMap q i w (blockReads (egressWords q fr n) s) = portMap q i w s)
      ∧ portShut q (Fin.ofNat 64 k) (blockReads (egressWords q fr n) s) = portShut q (Fin.ofNat 64 k) s := by
  have hstate g m : portState g m (blockReads (egressWords q fr n) s) = portState g m s :=
    get_egressReads laneFlds_offMem.1 fr n s
  refine ⟨hstate, fun g m => ?_, fun i w => State.word_of_mem (blockReads_mem _ _) _, ?_⟩
  · rw [portUse, get_egressReads laneFlds_offMem.2.1, portUse]
  · rw [portShut, hstate, flag_of_get (get_egressReads laneFlds_offMem.2.2 fr n s), portShut]

/-! ## Frames out of a port's FIFOs -/

/-- The state without a frame of a FIFO. -/
def withoutEgress (f : EgrFrame) (s : State) : State := { s with egress := s.egress.erase f }

theorem portShut_withoutEgress (q : Fin 4) (i : Fin 64) (f : EgrFrame) (s : State) :
    portShut q i (withoutEgress f s) = portShut q i s := rfl

theorem execEgressFrameSend_first {g : Fin 32} {n : Fin 8} {f : EgrFrame} (ue : Bool) {s : State} (hrun : s.inReset = false)
    (hfirst : (fifo (groupQuad g) (Fin.ofNat 64 (portIndex g n)) true s ++ fifo (groupQuad g) (Fin.ofNat 64 (portIndex g n)) false s).head?
      = some f) (hon : pageOn (.tm (groupQuad g)) s = true) :
    exec (.egressFrameSend g n ue) s = .next (commit s.pending (
      if portShut (groupQuad g) (Fin.ofNat 64 (portIndex g n)) (withoutEgress f s) then
        (withoutEgress f s).cntAdd (TM.hCnt (groupQuad g) 4) 1
      else if ue then ((withoutEgress f s).send (.clientFrame (groupQuad g) (Fin.ofNat 64 (portIndex g n)) f.bytes true)).cntAdd
        (TM.hCnt (groupQuad g) 2) 1
      else (withoutEgress f s).send (.clientFrame (groupQuad g) (Fin.ofNat 64 (portIndex g n)) f.bytes false))) := by
  show execEgressFrameSend g n ue s = _
  rw [execEgressFrameSend, act_live _ _ hrun]
  dsimp only
  rw [hfirst, hon]
  rfl

/-- Settles O15. -/
theorem egressFrames : Obligations.EgressFrames := by
  unfold Obligations.EgressFrames
  refine ⟨?egressFrameReceive, ?frameBadReceived, ?frameWithoutEntry, ?framePortShut, ?framePageOff,
    ?egressFrameSend, ?egressFrameSendShut⟩
  case egressFrameReceive =>
    intro q fr e s hrun hon hgood hE hentry hState hUse hMap hShut
    obtain ⟨hst, huse, hmap, hshut⟩ := portFacts_egressReads q fr (bits e 57 6) (bits e 57 6) s
    rw [execEgressFrameReceive_good hrun hon hgood hE rfl, ← egressWords, egressTaken, hst, huse, hmap, hshut, hentry, hUse, hMap,
      hShut, beq_false_of_ne hState]
    rfl
  case frameBadReceived =>
    intro q fr s hrun hon hbad
    show execEgressFrameReceive q fr s = _
    rw [execEgressFrameReceive, act_live _ _ hrun, hon, hbad]
    rfl
  case frameWithoutEntry =>
    intro q fr e s hrun hon hgood hE hentry
    rw [execEgressFrameReceive_good hrun hon hgood hE rfl, egressTaken, hentry]
    rfl
  case framePortShut =>
    intro q fr e s hrun hon hgood hE hentry hState hUse hMap hShut
    obtain ⟨hst, huse, hmap, hshut⟩ := portFacts_egressReads q fr (bits e 57 6) (bits e 57 6) s
    rw [execEgressFrameReceive_good hrun hon hgood hE rfl, ← egressWords, egressTaken, hst, huse, hmap, hshut, hentry, hUse, hMap,
      hShut, beq_false_of_ne hState]
    rfl
  case framePageOff =>
    intro q fr s hrun hoff
    show execEgressFrameReceive q fr s = _
    rw [execEgressFrameReceive, act_live _ _ hrun, hoff]
    rfl
  case egressFrameSend =>
    intro g n f ue s hrun hfirst hon hShut
    rw [execEgressFrameSend_first ue hrun hfirst hon, portShut_withoutEgress, hShut, if_neg Bool.false_ne_true, withoutEgress]
  case egressFrameSendShut =>
    intro g n f ue s hrun hfirst hon hShut
    rw [execEgressFrameSend_first ue hrun hfirst hon, portShut_withoutEgress, hShut, if_pos rfl, withoutEgress]

end Sys2Proof.Machine
end

section
/-! PROOFS. Contexts and scheduler (chapter 11). -/
namespace Sys2Proof.Machine

set_option Elab.async false

/-! ## Contexts and frames -/

theorem setFlush_lt {v : Nat} (hv : v < 2 ^ 64) (b : Nat) : setBits v 57 1 b < 2 ^ 64 := by
  simp only [setBits, bits]
  omega

/-- A host's write of word 0 of a context reaches it. -/
theorem contextCmd_accepts {m : Master} {q : Fin 4} {s : State} (ha : AcceptsWindow m (.tm q) s) (x : Fin 4096) {d : Nat} (hd : d < 2 ^ 64) :
    contextCmd m q x d s = ctxWritten m q x 0 true d s := by
  have halign : contextAddr q x 0 % 8 = 0 := by
    simp only [contextAddr]
    omega
  rw [contextCmd, winCmd_accepts (h := ⟨.context, .tm q, 16 * x.val, false,
    contextWord q x.val 0⟩) ha _ _ _ _ _ (by rw [halign]; rfl) rfl rfl, winApply, mergeWord, if_pos rfl, Nat.mod_eq_of_lt hd]

theorem execClientFrameClassify_packet {g : Fin 32} {n : Fin 8} {fr : EthFrame} {s : State} (hrun : s.inReset = false)
    (hptp : ptpTaken g n fr s = false ∨ ptpMode g n s ≠ 1) (hup : portState g n s = ptUp) (huse : portUse g n s = usePkt)
    (hon : pageOn (.tm (groupQuad g)) s = true) :
    exec (.clientFrameClassify g n fr) s = .next (commit s.pending (if frameBad fr then s.cntAdd (TM.hCnt (groupQuad g) 7) 1
      else
        let t := blockReads [portMapWord (groupQuad g) (2 * portIndex g n), portMapWord (groupQuad g) (2 * portIndex g n + 1)] s
        match classify (groupQuad g) (portIndex g n) fr.bytes t with
        | some x => orderSync (groupQuad g) (toContext (groupQuad g) x fr t)
        | none => t.cntAdd (TM.hCnt (groupQuad g) 7) 1)) := by
  have hclassify : (ptpTaken g n fr s && ptpMode g n s == 1) = false := by
    obtain h | h := hptp
    · rw [h, Bool.false_and]
    · rw [beq_false_of_ne h, Bool.and_false]
  show execClientFrameClassify g n fr s = _
  rw [execClientFrameClassify, act_live _ _ hrun, hclassify, if_neg Bool.false_ne_true, classifyFrame, hup, huse, hon]
  rfl

/-- Settles O14. -/
theorem contextsAndScheduler : Obligations.ContextsAndScheduler := by
  unfold Obligations.ContextsAndScheduler
  refine ⟨?contextEnable, ?flush, ?clientFrameClassify, ?clientFrameBad, ?clientFrameNoContext, ?beatPageOff,
    ?beatReleases, ?beatStartsFrame, ?beatNothingToRelease, ?bucketCredit, ?wheelSlotReached⟩
  case contextEnable =>
    intro m q x v s hrun hacc
    show execContextEnable m q x v s = _
    rw [execContextEnable, act_live _ _ hrun, contextCmd_accepts hacc x (setFlush_lt (by omega) _)]
  case flush =>
    intro m q x v s hrun hacc
    show execFlush m q x v s = _
    rw [execFlush, act_live _ _ hrun, contextCmd_accepts hacc x (setFlush_lt (by omega) _)]
  case clientFrameClassify =>
    intro g n fr x s hrun hPtp hState hUse hon hgood hx
    rw [execClientFrameClassify_packet hrun hPtp hState hUse hon, hgood, if_neg Bool.false_ne_true]
    dsimp only
    rw [hx]
  case clientFrameBad =>
    intro g n fr s hrun hPtp hState hUse hon hbad
    rw [execClientFrameClassify_packet hrun hPtp hState hUse hon, hbad, if_pos rfl]
  case clientFrameNoContext =>
    intro g n fr s hrun hPtp hState hUse hon hgood hx
    rw [execClientFrameClassify_packet hrun hPtp hState hUse hon, hgood, if_neg Bool.false_ne_true]
    dsimp only
    rw [hx]
  case beatPageOff =>
    intro c taken ue s hrun hoff
    show execSchedulerBeat c taken ue s = _
    rw [execSchedulerBeat, act_live _ _ hrun]
    dsimp only
    rw [hoff, Bool.not_false, if_pos rfl]
  case beatReleases =>
    intro c taken ue i n s hrun hon hlen hscan
    show execSchedulerBeat c taken ue s = _
    rw [execSchedulerBeat, act_live _ _ hrun]
    dsimp only
    rw [hon, Bool.not_true, if_neg Bool.false_ne_true, if_neg hlen, hscan]
  case beatStartsFrame =>
    intro c taken ue i n x s hrun hon hlen hscan
    show execSchedulerBeat c taken ue s = _
    rw [execSchedulerBeat, act_live _ _ hrun]
    dsimp only
    rw [hon, Bool.not_true, if_neg Bool.false_ne_true, if_neg hlen, hscan]
  case beatNothingToRelease =>
    intro c taken ue s hrun hon hlen hscan
    show execSchedulerBeat c taken ue s = _
    rw [execSchedulerBeat, act_live _ _ hrun]
    dsimp only
    rw [hon, Bool.not_true, if_neg Bool.false_ne_true, if_neg hlen, hscan]
  case bucketCredit =>
    intro q now s hrun hCredit
    show execBucketCredit q s = _
    rw [execBucketCredit, act_live _ _ hrun]
    simp [hCredit]
  case wheelSlotReached =>
    intro c coarse now s hrun hNow
    show execWheelSlotReached c coarse s = _
    rw [execWheelSlotReached, act_live _ _ hrun]
    simp [hNow]

end Sys2Proof.Machine
end

section
/-! PROOFS. Segments (chapter 12). -/
namespace Sys2Proof.Machine

set_option Elab.async false

/-! ## Segments sent -/

/-- What meets a segment boundary of a transmit association whose words read well. -/
theorem execTxSegmentSend_good {q : Fin 4} {a : Fin 1024} {j : Fin 119} {data : List Nat} {ue : Bool} {w : Nat} {s : State}
    (hrun : s.inReset = false) (hgood : (asRead q a s).flag (CIPH.hBad q a) = false) (hw : w = asWord q a 0 (asRead q a s))
    (hen : adEn w = true) (hrx : adRx w = false) (htrib : tdEn (tribDesc q true (adTrib w) (asRead q a s)) = true) {t : State}
    (ht : t = asBoundary q (a, w) (txStops q (a, w) (slotUe q w ue (asRead q a s)))) :
    exec (.txSegmentSend q a ⟨j, data⟩ ue) s = .next (commit s.pending
      (match (if asState q a t = asRun ∧ pageOn (.ciph q) t then keyNow q a (adSlot w) t else none) with
      | some (gen, key) => sendSegment q (a, w) j gen key data t
      | none => sendAbsent q a j (adSaId w) data.length t)) := by
  show execTxSegmentSend q a ⟨j, data⟩ ue s = _
  rw [execTxSegmentSend, act_live _ _ hrun]
  dsimp only
  rw [hgood, if_neg Bool.false_ne_true, ← hw, hen, hrx, htrib, ht]
  rfl

/-! ## Segments received -/

/-- What meets a received segment of an association whose words read well and whose side is alive. -/
theorem execRxSegmentReceive_good {q : Fin 4} {a : Fin 1024} {rcd data : List Nat} {n : Nat} {ue : Bool} {w : Nat} {s : State}
    (hrun : s.inReset = false) (hgood : (asRead q a s).flag (CIPH.hBad q a) = false) (hw : w = asWord q a 0 (asRead q a s))
    (hen : adEn w = true) (hrx : adRx w = true) (hside : sideDead q (adTrib w) (adSide w) (asRead q a s) = false) {t : State}
    (ht : t = asBoundary q (a, w) (slotUe q w ue (asRead q a s))) :
    exec (.rxSegmentReceive q a rcd data n ue) s = .next (commit s.pending
      (if !pageOn (.ciph q) t || asState q a t == asStopped || asState q a t == asOff then segReplaced q (a, w) n t
      else if asState q a t = asHunt then
        if crc16 ((recordHeader rcd).take 14) = ofBe (slice (recordHeader rcd) 14 2) ∧ !bit ((recordHeader rcd).headD 0) 7 then
          segJudge q (a, w) (recordHeader rcd) data n (asMove q a (if adMode w = 1 then asRun else asVerify) 0 t)
        else segReplaced q (a, w) n t
      else segJudge q (a, w) (recordHeader rcd) data n t)) := by
  show execRxSegmentReceive q a rcd data n ue s = _
  rw [execRxSegmentReceive, act_live _ _ hrun]
  dsimp only
  rw [hgood, if_neg Bool.false_ne_true, ← hw, hen, hrx, hside, ht]
  rfl


/-! ## Word 0 of a descriptor -/

/-- A host's write of word 0 of a descriptor reaches it. -/
theorem assocCmd_accepts {m : Master} {q : Fin 4} {s : State} (ha : AcceptsWindow m (.ciph q) s) (a : Fin 1024) {d : Nat} (hd : d < 2 ^ 64) :
    assocCmd m q a d s = assocWrite m q a 0 (assocAddr q a 0) true d s := by
  have halign : assocAddr q a 0 % 8 = 0 := by
    simp only [assocAddr]
    omega
  rw [assocCmd, winCmd_accepts (h := ⟨.assoc, .ciph q, 8 * a.val, false, assocWord q a.val 0⟩) ha _ _ _ _ _ (by rw [halign]; rfl) rfl rfl,
    winApply, mergeWord, if_pos rfl, Nat.mod_eq_of_lt hd]

/-- Settles O16. -/
theorem segmentsSentAndReceived : Obligations.SegmentsSentAndReceived := by
  unfold Obligations.SegmentsSentAndReceived
  refine ⟨?txSegmentEncrypted, ?txSegmentKeyAbsent, ?txSegmentFaulted, ?rxSideDead, ?rxHuntFinds, ?rxJudged,
    ?rxStopped, ?rxHuntMisses, ?rxFaulted, ?rxTagResult, ?rxTagUnreadable, ?assocEnable, ?assocEnableConflict,
    ?assocDisable⟩
  case txSegmentEncrypted =>
    intro q a j data ue w gen key s hrun hgood hW hEn hRx hTdEn hState hon hKey
    rw [execTxSegmentSend_good hrun hgood hW hEn hRx hTdEn rfl, if_pos ⟨hState, hon⟩, hKey]
  case txSegmentKeyAbsent =>
    intro q a j data ue w s hrun hgood hW hEn hRx hTdEn hnot
    rw [execTxSegmentSend_good hrun hgood hW hEn hRx hTdEn rfl]
    generalize asBoundary q (a, w) (txStops q (a, w) (slotUe q w ue (asRead q a s))) = t at hnot ⊢
    have hnone : (if asState q a t = asRun ∧ pageOn (.ciph q) t then keyNow q a (adSlot w) t else none) = none := by
      obtain hst | hoff | hkey := hnot
      · rw [if_neg fun h => hst h.1]
      · rw [if_neg fun h => Bool.false_ne_true (hoff.symm.trans h.2)]
      · rw [hkey, ite_self]
    rw [hnone]
  case txSegmentFaulted =>
    intro q a j data ue w s hrun hbad hW hRx
    show execTxSegmentSend q a ⟨j, data⟩ ue s = _
    rw [execTxSegmentSend, act_live _ _ hrun]
    dsimp only
    rw [hbad, if_pos rfl, ← hW, hRx, if_neg Bool.false_ne_true]
  case rxSideDead =>
    intro q a rcd data n ue w s hrun hgood hW hEn hRx hSide
    show execRxSegmentReceive q a rcd data n ue s = _
    rw [execRxSegmentReceive, act_live _ _ hrun]
    dsimp only
    rw [hgood, if_neg Bool.false_ne_true, ← hW, hEn, hRx, hSide]
    rfl
  case rxHuntFinds =>
    intro q a rcd data n ue w s hrun hgood hW hEn hRx hSide hon hState hCrc hBit
    rw [execRxSegmentReceive_good hrun hgood hW hEn hRx hSide rfl, hon, hState, if_neg (by decide), if_pos rfl,
      if_pos ⟨hCrc, by rw [hBit]; rfl⟩]
  case rxJudged =>
    intro q a rcd data n ue w s hrun hgood hW hEn hRx hSide hon hState
    rw [execRxSegmentReceive_good hrun hgood hW hEn hRx hSide rfl, hon]
    obtain h | h := hState
    · rw [h, if_neg (by decide), if_neg (by decide)]
    · rw [h, if_neg (by decide), if_neg (by decide)]
  case rxStopped =>
    intro q a rcd data n ue w s hrun hgood hW hEn hRx hSide hnot
    rw [execRxSegmentReceive_good hrun hgood hW hEn hRx hSide rfl]
    refine congrArg (fun t => Host.Outcome.next (commit s.pending t)) (if_pos ?_)
    obtain h | h := hnot
    · rw [h]
      rfl
    · rw [h, beq_self_eq_true, Bool.or_true, Bool.true_or]
  case rxHuntMisses =>
    intro q a rcd data n ue w s hrun hgood hW hEn hRx hSide hState hnot
    have hheader : ¬ (crc16 ((recordHeader rcd).take 14) = ofBe (slice (recordHeader rcd) 14 2)
        ∧ (!bit ((recordHeader rcd).headD 0) 7) = true) := by
      rintro ⟨hcrc, hkey⟩
      obtain h | h := hnot
      · exact h hcrc
      · rw [h] at hkey
        exact Bool.false_ne_true hkey
    rw [execRxSegmentReceive_good hrun hgood hW hEn hRx hSide rfl, if_neg hheader, hState, if_pos rfl, ite_self]
  case rxFaulted =>
    intro q a rcd data n ue w s hrun h hW
    show execRxSegmentReceive q a rcd data n ue s = _
    rw [execRxSegmentReceive, act_live _ _ hrun]
    simp [h, hW]
  case rxTagResult =>
    intro q a rcd n g k ue s hrun hfind hkey hUe
    show execRxTagResult q a rcd n ue s = _
    have hnot : ¬ (ue = true ∧ asState q a { s with segments := s.segments.erase g } = asVerify) := by
      rintro ⟨hue, hst⟩
      obtain h | h := hUe
      · rw [h] at hue
        exact Bool.false_ne_true hue
      · exact h hst
    rw [execRxTagResult, act_live _ _ hrun, hfind]
    dsimp only
    rw [if_neg hnot, hkey]
    rfl
  case rxTagUnreadable =>
    intro q a rcd n g s hrun hfind hState
    show execRxTagResult q a rcd n true s = _
    have hunread : true = true ∧ asState q a { s with segments := s.segments.erase g } = asVerify := ⟨rfl, hState⟩
    rw [execRxTagResult, act_live _ _ hrun, hfind]
    dsimp only
    rw [if_pos hunread]
    rfl
  case assocEnable =>
    intro m q a v s hrun hacc hEn hReject
    show execAssocEnable m q a v s = _
    have hen : adEn (2 ^ 63 + v % 2 ^ 63) = true := by
      simp only [adEn, bit_eq, decide_eq_true_eq]
      omega
    rw [execAssocEnable, act_live _ _ hrun, assocCmd_accepts hacc a (by omega), assocWrite]
    dsimp only
    rw [hEn, hen, asEnable, hReject]
    rfl
  case assocEnableConflict =>
    intro m q a v s hrun hacc hEn hReject
    show execAssocEnable m q a v s = _
    have hen : adEn (2 ^ 63 + v % 2 ^ 63) = true := by
      simp only [adEn, bit_eq, decide_eq_true_eq]
      omega
    have hoff : setBits (2 ^ 63 + v % 2 ^ 63) 63 1 0 = v % 2 ^ 63 := by
      simp only [setBits, bits]
      omega
    rw [execAssocEnable, act_live _ _ hrun, assocCmd_accepts hacc a (by omega), assocWrite]
    dsimp only
    rw [hEn, hen, asEnable, if_neg hReject, hoff]
    rfl
  case assocDisable =>
    intro m q a v s hrun hacc hEn hBits
    show execAssocDisable m q a v s = _
    have hen : adEn (v % 2 ^ 63) = false := by
      simp only [adEn, bit_eq, decide_eq_false_iff_not]
      omega
    rw [execAssocDisable, act_live _ _ hrun, assocCmd_accepts hacc a (by omega), assocWrite]
    dsimp only
    rw [if_neg fun h => h.2 hBits, hEn, hen]
    rfl

end Sys2Proof.Machine
end

section
/-! PROOFS. Scrubbing and the DRAM arbiter (chapter 14). -/
namespace Sys2Proof.Machine

set_option Elab.async false

/-! ## A slot of the DRAM arbiter (R548, R549) -/

/-- The requests that arrive in a slot, as far as the queues have room. -/
def arbArrived (q : Fin 4) (h : Fin 64) (arr : List Nat) (s : State) : State :=
  forFin 4 (fun k s => s.put (MEM.hFill q h k) (min 16 (s.get (MEM.hFill q h k) + arr.getD k.val 0))) s

theorem execArbiterSlot_awake {q : Fin 4} {h : Fin 64} {arr : List Nat} {dbg : Bool} {s1 s : State} (hrun : s.inReset = false)
    (hawake : memAwake (Fin.ofNat 5 q.val) s = true) (hs1 : s1 = arbArrived q h arr s) :
    exec (.arbiterSlot q h arr dbg) s = .next (commit s.pending (
      if s1.get (MEM.hRefSlots q h) ≠ 0 then arbWaits q h none (s1.put (MEM.hRefSlots q h) (s1.get (MEM.hRefSlots q h) - 1))
      else match arbDecide q h dbg s1 with
        | .forcedRefresh => arbRefresh q h ((arbWaits q h none s1).incWrap (MEM.ARB_STAT_FORCED_REF q) 1)
        | .forced k => arbServe q h k ((arbWaits q h (some k) s1).incWrap (MEM.ARB_STAT_FORCED q) 1)
        | .client k => arbServe q h k (arbWaits q h (some k) s1)
        | .refresh => arbRefresh q h s1
        | .debug | .idle => arbWaits q h none s1)) := by
  show execArbiterSlot q h arr dbg s = _
  rw [execArbiterSlot, act_live _ _ hrun, hs1, arbArrived]
  generalize forFin 4 _ s = t
  exact congrArg (fun u => Host.Outcome.next (commit s.pending u)) (if_pos hawake)

/-- The credits of the four clients of a window. -/
theorem arbCredits_sum (q : Fin 4) (t : State) : (List.finRange 4).foldl (fun a k => a + arbCredit q k t) 0
    = arbCredit q 0 t + arbCredit q 1 t + arbCredit q 2 t + arbCredit q 3 t := by
  rw [show List.finRange 4 = [0, 1, 2, 3] by decide]
  simp only [List.foldl_cons, List.foldl_nil, Nat.zero_add]

/-- Settles O23. -/
theorem scrubbingAndDram : Obligations.ScrubbingAndDram := by
  unfold Obligations.ScrubbingAndDram
  refine ⟨?scrubRead, ?scrubReadLapEnds, ?bucketLeak, ?memoryInitDone, ?arbiterWindow, ?slotInRefresh, ?slotForcedRefresh,
    ?slotForced, ?slotClient, ?slotRefresh, ?slotDebug, ?refreshDue, ?arbCfgWrite, ?arbCfgRejected⟩
  case scrubRead =>
    intro d r w s hrun hScrubRuns hFreeze hScrubBehind h hW
    show execScrubRead d r s = _
    rw [execScrubRead, act_live _ _ hrun]
    simp [hScrubRuns, hFreeze, hScrubBehind, h, hW]
  case scrubReadLapEnds =>
    intro d r w s hrun hScrubRuns hFreeze hScrubBehind h hW
    show execScrubRead d r s = _
    rw [execScrubRead, act_live _ _ hrun]
    simp [hScrubRuns, hFreeze, hScrubBehind, h, hW]
  case bucketLeak =>
    intro d r s hrun hRegionWords h h2
    show execBucketLeak d r s = _
    rw [execBucketLeak, act_live _ _ hrun]
    simp [hRegionWords, h, h2]
  case memoryInitDone =>
    intro q s hrun hawake hinit
    show execMemoryInitDone q s = _
    rw [execMemoryInitDone, act_live _ _ hrun, hawake, hinit]
    rfl
  case arbiterWindow =>
    intro q h s hrun hawake
    show execArbiterWindow q h s = _
    rw [execArbiterWindow, act_live _ _ hrun, if_pos hawake]
  case slotInRefresh =>
    intro q h arr dbg s1 s hrun hawake hs1 hslots
    rw [execArbiterSlot_awake hrun hawake hs1, if_pos hslots]
  case slotForcedRefresh =>
    intro q h arr dbg k s1 s hrun hawake hs1 hslots hdecide
    rw [execArbiterSlot_awake hrun hawake hs1, if_neg (not_not.mpr hslots), hdecide]
  case slotForced =>
    intro q h arr dbg k s1 s hrun hawake hs1 hslots hdecide
    rw [execArbiterSlot_awake hrun hawake hs1, if_neg (not_not.mpr hslots), hdecide]
  case slotClient =>
    intro q h arr dbg k s1 s hrun hawake hs1 hslots hdecide
    rw [execArbiterSlot_awake hrun hawake hs1, if_neg (not_not.mpr hslots), hdecide]
  case slotRefresh =>
    intro q h arr dbg k s1 s hrun hawake hs1 hslots hdecide
    rw [execArbiterSlot_awake hrun hawake hs1, if_neg (not_not.mpr hslots), hdecide]
  case slotDebug =>
    intro q h arr dbg k s1 s hrun hawake hs1 hslots hdecide
    rw [execArbiterSlot_awake hrun hawake hs1, if_neg (not_not.mpr hslots), hdecide]
  case refreshDue =>
    intro q h s hrun hawake
    show execRefreshDue q h s = _
    rw [execRefreshDue, act_live _ _ hrun, if_pos hawake]
  case arbCfgWrite =>
    intro m q v t s hrun hacc ht hfits
    have hstored : arbCfgEff q 0 v s = t.put (MEM.MEM_STAT_ARB_REJ q) 0 := by
      rw [arbCfgEff, if_pos rfl, ← ht, arbCredits_sum, if_neg (Nat.not_lt.mpr hfits), State.putB_false]
    show act s (fun s => writeCmd m (.mem q) 0x044 v (arbCfgEff q 0 v) s) = _
    rw [act_live _ _ hrun, writeCmd_accepts hacc, hstored]
  case arbCfgRejected =>
    intro m q v t s hrun hacc ht hover
    have hrejected : arbCfgEff q 1 v s = (s.put (MEM.MEM_STAT_ARB_REJ q) 1).raise (.mem q) 3 := by
      rw [arbCfgEff, if_neg (by decide : ¬ (1 : Fin 2) = 0), ← ht, arbCredits_sum, if_pos hover, State.putB_true]
    show act s (fun s => writeCmd m (.mem q) 0x048 v (arbCfgEff q 1 v) s) = _
    rw [act_live _ _ hrun, writeCmd_accepts hacc, hrejected]

end Sys2Proof.Machine
end

section
/-! PROOFS. The instructions of a Tumbler and the commands to it (chapter 15): what an instruction that issues does, and
what TUMB_CMD, DOORBELL, the permission windows and the event counters do. -/
namespace Sys2Proof.Machine

set_option Elab.async false

/-! ### An instruction that issues (R559, R567 to R569) -/

/-- A command that is one instruction answers that instruction's effect on the state its fetch and its cycle leave. -/
theorem act_tumbOp {t : Fin 18} {x : Fin 2} {op : Nat} {s : State} (hrun : s.inReset = false) (h : TumbRuns t x op s)
    (eff : Nat → State → State) :
    act s (tumbOp t x op eff) = .next (commit s.pending (eff (tumbInstr t x s) (tumbRan t x s))) := by
  rw [act_live _ _ hrun, tumbOp_runs h]

/-- An R-format instruction puts its result of ra and rb into rd and goes to the next instruction. -/
theorem act_tumbR {t : Fin 18} {x : Fin 2} {op : Nat} {s : State} (hrun : s.inReset = false) (h : TumbRuns t x op s)
    (hseq : TumbSeq t x (tumbRan t x s)) (f : Nat → Nat → Nat) :
    act s (tumbR t x op f) = .next (commit s.pending (tumbNext t x (tumbPc t x (tumbRan t x s))
      (tPut t x (fRd (tumbInstr t x s))
        (f (tGet t x (fRa (tumbInstr t x s)) (tumbRan t x s)) (tGet t x (fRb (tumbInstr t x s)) (tumbRan t x s)))
        (tumbRan t x s)))) := by
  unfold tumbR
  rw [act_tumbOp hrun h, tumbStep_seq hseq]

/-- An I-format instruction puts its result of ra and the immediate into rd and goes to the next instruction. -/
theorem act_tumbI {t : Fin 18} {x : Fin 2} {op : Nat} {s : State} (hrun : s.inReset = false) (h : TumbRuns t x op s)
    (hseq : TumbSeq t x (tumbRan t x s)) (f : Nat → Int → Nat) :
    act s (tumbI t x op f) = .next (commit s.pending (tumbNext t x (tumbPc t x (tumbRan t x s))
      (tPut t x (fRd (tumbInstr t x s)) (f (tGet t x (fRa (tumbInstr t x s)) (tumbRan t x s)) (fImm (tumbInstr t x s)))
        (tumbRan t x s)))) := by
  unfold tumbI
  rw [act_tumbOp hrun h, tumbStep_seq hseq]

/-- An A-format instruction has its effect and goes to the next instruction. -/
theorem act_tumbA {t : Fin 18} {x : Fin 2} {op : Nat} {s : State} (hrun : s.inReset = false) (h : TumbRuns t x op s)
    (hseq : TumbSeq t x (tumbRan t x s)) (f : Nat → State → State) :
    act s (tumbA t x op f) = .next (commit s.pending (tumbNext t x (tumbPc t x (tumbRan t x s))
      (f (tumbInstr t x s) (tumbRan t x s)))) := by
  unfold tumbA
  rw [act_tumbOp hrun h, tumbStep_seq hseq]

/-- The 1 or 0 that a comparison leaves in rd. -/
theorem toNat_decide (p : Prop) [Decidable p] : (decide p).toNat = if p then 1 else 0 := by
  by_cases hp : p
  · rw [decide_eq_true hp, if_pos hp]; rfl
  · rw [decide_eq_false hp, if_neg hp]; rfl

/-! ### Data memory (R569, R571, R573) -/

/-- A load in bounds whose word reads without error has its effect and goes to the next instruction. -/
theorem act_tumbLoad_ok {t : Fin 18} {x : Fin 2} {op : Nat} {s s1 : State} {d : Nat} (hrun : s.inReset = false)
    (h : TumbRuns t x op s) (hok : dataOk x (tumbAddr t x (tumbInstr t x s) (tumbRan t x s)) = true)
    (hread : (tumbRan t x s).readWord (tumbData t (tumbAddr t x (tumbInstr t x s) (tumbRan t x s))) false = (.ok, d, s1))
    (hseq : TumbSeq t x s1) (f : Nat → Nat → State → State) :
    act s (tumbLoad t x op f) =
      .next (commit s.pending (tumbNext t x (tumbPc t x s1) (f (tumbInstr t x s) d s1))) := by
  unfold tumbLoad
  rw [act_tumbOp hrun h]
  dsimp only
  rw [hok, hread]
  exact congrArg (fun u => Host.Outcome.next (commit s.pending u)) (tumbStep_seq hseq _)

/-- A load in bounds whose word is uncorrectable traps with the address. -/
theorem act_tumbLoad_ue {t : Fin 18} {x : Fin 2} {op : Nat} {s s1 : State} {d : Nat} (hrun : s.inReset = false)
    (h : TumbRuns t x op s) (hok : dataOk x (tumbAddr t x (tumbInstr t x s) (tumbRan t x s)) = true)
    (hread : (tumbRan t x s).readWord (tumbData t (tumbAddr t x (tumbInstr t x s) (tumbRan t x s))) false = (.ue, d, s1))
    (f : Nat → Nat → State → State) :
    act s (tumbLoad t x op f) =
      .next (commit s.pending (tumbTrap t x tcEccData (tumbAddr t x (tumbInstr t x s) (tumbRan t x s)) s1)) := by
  unfold tumbLoad
  rw [act_tumbOp hrun h]
  dsimp only
  rw [hok, hread]
  rfl

/-- A load out of bounds traps with the address. -/
theorem act_tumbLoad_bounds {t : Fin 18} {x : Fin 2} {op : Nat} {s : State} (hrun : s.inReset = false)
    (h : TumbRuns t x op s) (hout : dataOk x (tumbAddr t x (tumbInstr t x s) (tumbRan t x s)) = false)
    (f : Nat → Nat → State → State) :
    act s (tumbLoad t x op f) =
      .next (commit s.pending (tumbTrap t x tcBounds (tumbAddr t x (tumbInstr t x s) (tumbRan t x s)) (tumbRan t x s))) := by
  unfold tumbLoad
  rw [act_tumbOp hrun h]
  dsimp only
  rw [hout]
  rfl

/-- A store in bounds writes its word and goes to the next instruction. -/
theorem act_tumbStore_ok {t : Fin 18} {x : Fin 2} {op : Nat} {s : State} (hrun : s.inReset = false)
    (h : TumbRuns t x op s) (hok : dataOk x (tumbAddr t x (tumbInstr t x s) (tumbRan t x s)) = true)
    (hseq : TumbSeq t x (tumbRan t x s)) (f : Nat → State → Int) :
    act s (tumbStore t x op f) = .next (commit s.pending (tumbNext t x (tumbPc t x (tumbRan t x s))
      ((tumbRan t x s).store (tumbData t (tumbAddr t x (tumbInstr t x s) (tumbRan t x s)))
        (ofInt 64 (f (tumbInstr t x s) (tumbRan t x s)))))) := by
  unfold tumbStore
  rw [act_tumbOp hrun h]
  dsimp only
  rw [hok]
  exact congrArg (fun u => Host.Outcome.next (commit s.pending u)) (tumbStep_seq hseq _)

/-- A store out of bounds traps with the address. -/
theorem act_tumbStore_bounds {t : Fin 18} {x : Fin 2} {op : Nat} {s : State} (hrun : s.inReset = false)
    (h : TumbRuns t x op s) (hout : dataOk x (tumbAddr t x (tumbInstr t x s) (tumbRan t x s)) = false)
    (f : Nat → State → Int) :
    act s (tumbStore t x op f) =
      .next (commit s.pending (tumbTrap t x tcBounds (tumbAddr t x (tumbInstr t x s) (tumbRan t x s)) (tumbRan t x s))) := by
  unfold tumbStore
  rw [act_tumbOp hrun h]
  dsimp only
  rw [hout]
  rfl

/-! ### Page space (R570 to R572, R575) -/

/-- A page read whose checks pass leaves the context stalled on its address. -/
theorem act_tumbPageRead_ok {t : Fin 18} {x : Fin 2} {op size : Nat} {s : State} (hrun : s.inReset = false)
    (h : TumbRuns t x op s)
    (hpass : pageTrap t x (tumbAddr t x (tumbInstr t x s) (tumbRan t x s)) size false (tumbRan t x s) = none)
    (hseq : TumbSeq t x (tumbRan t x s)) :
    act s (tumbPageRead t x op size) = .next (commit s.pending
      ((((evcOnce t x 2 (tumbRan t x s)).put (TUMB.hStall t x) (if size = 4 then 1 else 2)).put (TUMB.hStAddr t x)
        (tumbAddr t x (tumbInstr t x s) (tumbRan t x s))).put (TUMB.hStRd t x) (fRd (tumbInstr t x s)))) := by
  unfold tumbPageRead
  rw [act_tumbOp hrun h]
  dsimp only
  rw [hpass]
  exact congrArg (fun u => Host.Outcome.next (commit s.pending u)) (if_pos hseq)

/-- A page read whose check fails traps with the cause of the check and the address. -/
theorem act_tumbPageRead_trap {t : Fin 18} {x : Fin 2} {op size cause : Nat} {s : State} (hrun : s.inReset = false)
    (h : TumbRuns t x op s)
    (hfail : pageTrap t x (tumbAddr t x (tumbInstr t x s) (tumbRan t x s)) size false (tumbRan t x s) = some cause) :
    act s (tumbPageRead t x op size) =
      .next (commit s.pending (tumbTrap t x cause (tumbAddr t x (tumbInstr t x s) (tumbRan t x s)) (tumbRan t x s))) := by
  unfold tumbPageRead
  rw [act_tumbOp hrun h]
  dsimp only
  rw [hfail]

/-- A page write whose checks pass is posted, and the context goes to the next instruction. -/
theorem act_tumbPageWrite_ok {t : Fin 18} {x : Fin 2} {op size : Nat} {s : State} (hrun : s.inReset = false)
    (h : TumbRuns t x op s)
    (hpass : pageTrap t x (tumbAddr t x (tumbInstr t x s) (tumbRan t x s)) size true (tumbRan t x s) = none)
    (hseq : TumbSeq t x (tumbRan t x s)) (f : Nat → State → Nat) :
    act s (tumbPageWrite t x op size f) = .next (commit s.pending (tumbNext t x (tumbPc t x (tumbRan t x s))
      { (tumbRan t x s) with posted := (tumbRan t x s).posted ++
        [⟨t, x, tumbAddr t x (tumbInstr t x s) (tumbRan t x s), size, f (tumbInstr t x s) (tumbRan t x s)⟩] })) := by
  unfold tumbPageWrite
  rw [act_tumbOp hrun h]
  dsimp only
  rw [hpass]
  exact congrArg (fun u => Host.Outcome.next (commit s.pending u)) (tumbStep_seq hseq _)

/-! ### Branches and waits (R568, R569, R571, R578) -/

/-- A branch that is taken counts and moves the PC by its offset. -/
theorem act_tumbBranch_taken {t : Fin 18} {x : Fin 2} {op : Nat} {s : State} {f : Nat → Nat → Bool} (hrun : s.inReset = false)
    (h : TumbRuns t x op s)
    (htaken : f (tGet t x (fRd (tumbInstr t x s)) (tumbRan t x s)) (tGet t x (fRa (tumbInstr t x s)) (tumbRan t x s)) = true)
    (hin : ((tumbPc t x (tumbRan t x s) : Int) + fImm (tumbInstr t x s)) / 4096 = (x.val : Int)) :
    act s (tumbBranch t x op f) = .next (commit s.pending ((evcOnce t x 6 (tumbRan t x s)).put (TUMB.hPc t x)
      (tumbPc t x (tumbRan t x s) + fImm (tumbInstr t x s)).toNat)) := by
  unfold tumbBranch
  rw [act_tumbOp hrun h]
  rw [htaken, if_pos rfl, tumbGoto, if_pos hin]

/-- A branch that is taken out of the partition traps with its target. -/
theorem act_tumbBranch_trap {t : Fin 18} {x : Fin 2} {op : Nat} {s : State} {f : Nat → Nat → Bool} (hrun : s.inReset = false)
    (h : TumbRuns t x op s)
    (htaken : f (tGet t x (fRd (tumbInstr t x s)) (tumbRan t x s)) (tGet t x (fRa (tumbInstr t x s)) (tumbRan t x s)) = true)
    (hout : ((tumbPc t x (tumbRan t x s) : Int) + fImm (tumbInstr t x s)) / 4096 ≠ (x.val : Int)) :
    act s (tumbBranch t x op f) = .next (commit s.pending
      (tumbTrap t x tcBounds (w36 (tumbPc t x (tumbRan t x s) + fImm (tumbInstr t x s))) (tumbRan t x s))) := by
  unfold tumbBranch
  rw [act_tumbOp hrun h]
  rw [htaken, if_pos rfl, tumbGoto, if_neg hout]

/-- A branch that is not taken goes to the next instruction. -/
theorem act_tumbBranch_not {t : Fin 18} {x : Fin 2} {op : Nat} {s : State} {f : Nat → Nat → Bool} (hrun : s.inReset = false)
    (h : TumbRuns t x op s)
    (hnot : f (tGet t x (fRd (tumbInstr t x s)) (tumbRan t x s)) (tGet t x (fRa (tumbInstr t x s)) (tumbRan t x s)) = false)
    (hseq : TumbSeq t x (tumbRan t x s)) :
    act s (tumbBranch t x op f) =
      .next (commit s.pending (tumbNext t x (tumbPc t x (tumbRan t x s)) (tumbRan t x s))) := by
  unfold tumbBranch
  rw [act_tumbOp hrun h]
  rw [hnot, if_neg Bool.false_ne_true, tumbStep_seq hseq, id]

/-- A jump within the partition has its effect and moves the PC to its target. -/
theorem tumbGoto_nat {t : Fin 18} {x : Fin 2} {a : Nat} (h : a / 4096 = x.val) (f : State → State) (s : State) :
    tumbGoto t x (a : Int) f s = (f s).put (TUMB.hPc t x) a := by
  have h2 : (a : Int) / 4096 = (x.val : Int) := by rw [← h]; rfl
  rw [tumbGoto, if_pos h2, Int.toNat_natCast]

/-- A wait whose next instruction lies in the partition leaves the context WAITING. -/
theorem tumbWait_seq {t : Fin 18} {x : Fin 2} {s : State} (h : TumbSeq t x s) (kind : Nat) (f : State → State) :
    tumbWait t x kind f s = ((f s).put (TUMB.hState t x) tsWaiting).put (TUMB.hWait t x) kind := by
  rw [tumbWait]
  rw [if_pos h]

/-- An instruction that is not legal traps with its bits (R569). -/
theorem tumbCycle_illegal {t : Fin 18} {x : Fin 2} {s : State} (hissues : tumbIssues t x s = true)
    (hfetch : (tumbFetch t x s).1 ≠ .ue) (hlegal : tumbLegal (tumbInstr t x s) = false) (eff : Nat → State → State) :
    tumbCycle t x (fun w => !tumbLegal w) eff s = eff (tumbInstr t x s) (tumbRan t x s) := by
  unfold tumbInstr tumbRan at *
  unfold tumbCycle
  rw [hissues]
  rcases hq : tumbFetch t x s with ⟨kind, w, u⟩
  rw [hq] at hfetch hlegal
  cases kind <;> simp_all

/-- RDC of an existing event counter reads it into its accumulator. -/
theorem rdcEff_counter {t : Fin 18} {x : Fin 2} {w : Nat} (n : Fin 8) (s : State) :
    rdcEff t x w n.val s = aPut t x (fAccI w) (evcValue t n s) s := by
  have hn : Fin.ofNat 8 n.val = n := Fin.ofNat_val_eq_self n
  rw [rdcEff, if_pos n.isLt, hn]

/-- A context that may read the counters does not trap on RDC (R577). -/
theorem rdc_allowed {t : Fin 18} {x : Fin 2} {s : State} (h : x = 0 ∨ s.flag (HDR.CNT_USER (.tumb t)) = true) :
    ¬ (x = 1 ∧ (!s.flag (HDR.CNT_USER (.tumb t))) = true) := by
  rintro ⟨rfl, hno⟩
  rcases h with h | h
  · exact absurd h (by decide)
  · rw [h] at hno; exact absurd hno (by decide)

/-! ### Commands (R560, R576, R578, R584) -/

/-- A loop over two contexts visits 0 and then 1. -/
theorem forFin_two {σ : Type} (f : Fin 2 → σ → σ) (s : σ) : forFin 2 f s = f 1 (f 0 s) := rfl

/-- A power of two has one bit. -/
theorem bit_two_pow (n k : Nat) : bit (2 ^ n) k = decide (n = k) := by
  rw [bit, Nat.testBit_two_pow]

theorem tumbCmdEff_start (t : Fin 18) (x : Fin 2) (s : State) : tumbCmdEff t (2 ^ (3 * x.val)) s = tumbStart t x s := by
  simp only [tumbCmdEff, forFin_two, bit_two_pow, decide_eq_true_eq]
  match x with
  | 0 => rfl
  | 1 => rfl

theorem tumbCmdEff_stop (t : Fin 18) (x : Fin 2) (s : State) : tumbCmdEff t (2 ^ (3 * x.val + 1)) s = tumbStop t x s := by
  simp only [tumbCmdEff, forFin_two, bit_two_pow, decide_eq_true_eq]
  match x with
  | 0 => rfl
  | 1 => rfl

theorem tumbCmdEff_restart (t : Fin 18) (x : Fin 2) (s : State) :
    tumbCmdEff t (2 ^ (3 * x.val + 2)) s = tumbRestart t x s := by
  simp only [tumbCmdEff, forFin_two, bit_two_pow, decide_eq_true_eq]
  match x with
  | 0 => rfl
  | 1 => rfl

theorem doorbellEff_two_pow (t : Fin 18) (x : Fin 2) (s : State) :
    doorbellEff t (2 ^ x.val) s = tumbPend t x evDoorbell s := by
  simp only [doorbellEff, bit_two_pow, decide_eq_true_eq]
  match x with
  | 0 => rfl
  | 1 => rfl

/-- A loop whose every turn changes nothing changes nothing. -/
theorem forFin_id {σ : Type} {n : Nat} {f : Fin n → σ → σ} (h : ∀ i s, f i s = s) (s : σ) : forFin n f s = s :=
  forFin_keeps id f h s

/-- FREEZE written alone stores it and clears no counter. -/
theorem cntCtrlEff_freeze (t : Fin 18) (on : Bool) (s : State) :
    cntCtrlEff t (2 ^ 31 * on.toNat) s = s.put (TUMB.CNT_CTRL_FREEZE t) on.toNat := by
  have hclear (n : Fin 8) : bit (2 ^ 31 * on.toNat) n.val = false := by
    cases on
    · exact Nat.zero_testBit _
    · rw [Bool.toNat_true, Nat.mul_one, bit_two_pow]
      exact decide_eq_false (by omega)
  have hfreeze : bits (2 ^ 31 * on.toNat) 31 1 = on.toNat := by cases on <;> rfl
  rw [cntCtrlEff, hfreeze]
  exact forFin_id (fun n u => by rw [hclear, if_neg Bool.false_ne_true]) _

/-- Settles O26. -/
theorem tumblerArithmetic : Obligations.TumblerArithmetic := by
  unfold Obligations.TumblerArithmetic
  refine ⟨?add, ?sub, ?and, ?or, ?xor, ?sll, ?srl, ?sra, ?slt, ?sltu, ?min, ?max, ?adds, ?addi, ?andi, ?ori, ?xori, ?slli,
    ?srli, ?srai, ?slti, ?lui, ?rdtk⟩
  case add =>
    intro t x s hrun h hseq
    exact act_tumbR hrun h hseq _
  case sub =>
    intro t x s hrun h hseq
    exact act_tumbR hrun h hseq _
  case and =>
    intro t x s hrun h hseq
    exact act_tumbR hrun h hseq _
  case or =>
    intro t x s hrun h hseq
    exact act_tumbR hrun h hseq _
  case xor =>
    intro t x s hrun h hseq
    exact act_tumbR hrun h hseq _
  case sll =>
    intro t x s hrun h hseq
    exact act_tumbR hrun h hseq _
  case srl =>
    intro t x s hrun h hseq
    exact act_tumbR hrun h hseq _
  case sra =>
    intro t x s hrun h hseq
    exact act_tumbR hrun h hseq _
  case slt =>
    intro t x s hrun h hseq
    show act s (tumbR t x 0x09 alSlt) = _
    rw [act_tumbR hrun h hseq, alSlt, toNat_decide]
  case sltu =>
    intro t x s hrun h hseq
    show act s (tumbR t x 0x0A alSltu) = _
    rw [act_tumbR hrun h hseq, alSltu, toNat_decide]
  case min =>
    intro t x s hrun h hseq
    exact act_tumbR hrun h hseq _
  case max =>
    intro t x s hrun h hseq
    exact act_tumbR hrun h hseq _
  case adds =>
    intro t x s hrun h hseq
    exact act_tumbR hrun h hseq _
  case addi =>
    intro t x s hrun h hseq
    exact act_tumbI hrun h hseq _
  case andi =>
    intro t x s hrun h hseq
    exact act_tumbI hrun h hseq _
  case ori =>
    intro t x s hrun h hseq
    exact act_tumbI hrun h hseq _
  case xori =>
    intro t x s hrun h hseq
    exact act_tumbI hrun h hseq _
  case slli =>
    intro t x s hrun h hseq
    exact act_tumbI hrun h hseq _
  case srli =>
    intro t x s hrun h hseq
    exact act_tumbI hrun h hseq _
  case srai =>
    intro t x s hrun h hseq
    exact act_tumbI hrun h hseq _
  case slti =>
    intro t x s hrun h hseq
    show act s (tumbI t x 0x17 fun a i => (decide (s36 a < i)).toNat) = _
    rw [act_tumbI hrun h hseq, toNat_decide]
  case lui =>
    intro t x s hrun h hseq
    exact act_tumbI hrun h hseq _
  case rdtk =>
    intro t x s hrun h hseq
    show act s (tumbOp t x 0x37 fun w => tumbStep t x fun s => tPut t x (fRd w) (s.get (TUMB.hTicks t)) s) = _
    rw [act_tumbOp hrun h, tumbStep_seq hseq]

/-- Settles O27. -/
theorem tumblerDataAndAccumulators : Obligations.TumblerDataAndAccumulators := by
  unfold Obligations.TumblerDataAndAccumulators
  refine ⟨?movt, ?mul, ?mac, ?msu, ?mova, ?ld, ?lda, ?st, ?sta, ?ldBounds, ?stBounds, ?ldUncorrectable⟩
  case movt =>
    intro t x s hrun h hseq hlow hhigh
    show act s (tumbA t x 0x1B (movtEff t x)) = _
    rw [act_tumbA hrun h hseq, movtEff]
    rw [if_pos ⟨hlow, hhigh⟩]
  case mul =>
    intro t x s hrun h hseq
    exact act_tumbA hrun h hseq _
  case mac =>
    intro t x s hrun h hseq
    exact act_tumbA hrun h hseq _
  case msu =>
    intro t x s hrun h hseq
    exact act_tumbA hrun h hseq _
  case mova =>
    intro t x s hrun h hseq
    exact act_tumbA hrun h hseq _
  case ld =>
    intro t x s hrun h hseq hok hread
    exact act_tumbLoad_ok hrun h hok (Prod.ext hread rfl) hseq _
  case lda =>
    intro t x s hrun h hseq hok hread
    exact act_tumbLoad_ok hrun h hok (Prod.ext hread rfl) hseq _
  case st =>
    intro t x s hrun h hseq hok
    exact act_tumbStore_ok hrun h hok hseq _
  case sta =>
    intro t x s hrun h hseq hok
    exact act_tumbStore_ok hrun h hok hseq _
  case ldBounds =>
    intro t x s hrun h hout
    exact act_tumbLoad_bounds hrun h hout _
  case stBounds =>
    intro t x s hrun h hout
    exact act_tumbStore_bounds hrun h hout _
  case ldUncorrectable =>
    intro t x s hrun h hok hread
    exact act_tumbLoad_ue hrun h hok (Prod.ext hread rfl) _

/-- Settles O28. -/
theorem tumblerPageSpace : Obligations.TumblerPageSpace := by
  unfold Obligations.TumblerPageSpace
  refine ⟨?ldp, ?ldpw, ?ldpTrap, ?stp, ?stpw, ?ldpDataReturn, ?stpIssue⟩
  case ldp =>
    intro t x s hrun h hpass hseq
    exact act_tumbPageRead_ok hrun h hpass hseq
  case ldpw =>
    intro t x s hrun h hpass hseq
    exact act_tumbPageRead_ok hrun h hpass hseq
  case ldpTrap =>
    intro t x cause s hrun h hfail
    exact act_tumbPageRead_trap hrun h hfail
  case stp =>
    intro t x s hrun h hpass hseq
    exact act_tumbPageWrite_ok hrun h hpass hseq _
  case stpw =>
    intro t x s hrun h hpass hseq
    exact act_tumbPageWrite_ok hrun h hpass hseq _
  case ldpDataReturn =>
    intro t x n s hrun hstall hrunning hposted hfree hread
    obtain ⟨y, hy⟩ := Option.isSome_iff_exists.mp hread
    have hgoes : ¬ (s.get (TUMB.hStall t x) = 0 ∨ tumbState t x s ≠ tsRunning
        ∨ postedTo t x (s.get (TUMB.hStAddr t x)) s = true ∨ stalledBy (.tumb t) s = true) := by
      simp [hstall, hrunning, hposted, hfree]
    show execLdpDataReturn t x n s = _
    rw [execLdpDataReturn, act_live _ _ hrun]
    dsimp only
    rw [if_neg hgoes, hy]
  case stpIssue =>
    intro t x p s hrun hfree hcore hmine
    obtain ⟨rest, hlist⟩ := List.head?_eq_some_iff.mp hmine
    have hgoes : (stalledBy (.tumb t) s || (x == 1 && (s.posted.filter fun p => p.t == t && p.x == 0) != [])) = false := by
      rw [hfree, Bool.false_or]
      by_cases hx : x = 1
      · rw [hcore hx]; exact Bool.and_false _
      · rw [beq_false_of_ne hx]; exact Bool.false_and _
    show execStpIssue t x s = _
    rw [execStpIssue, act_live _ _ hrun]
    dsimp only
    rw [hgoes, hlist]
    rfl

/-- Settles O29. -/
theorem tumblerBranchesAndControl : Obligations.TumblerBranchesAndControl := by
  unfold Obligations.TumblerBranchesAndControl
  refine ⟨?beq, ?bne, ?blt, ?bge, ?bltu, ?bgeu, ?beqNot, ?bneNot, ?bltNot, ?bgeNot, ?bltuNot, ?bgeuNot, ?beqTrap, ?jal,
    ?jr, ?waitt, ?waiteWaits, ?waiteDone, ?halt, ?trap, ?illegal, ?rdcCounter, ?rdcCycle, ?frzc, ?runc⟩
  case beq =>
    intro t x s hrun h hcond hin
    exact act_tumbBranch_taken hrun h (beq_iff_eq.mpr hcond) hin
  case bne =>
    intro t x s hrun h hcond hin
    exact act_tumbBranch_taken hrun h (bne_iff_ne.mpr hcond) hin
  case blt =>
    intro t x s hrun h hcond hin
    exact act_tumbBranch_taken hrun h (decide_eq_true hcond) hin
  case bge =>
    intro t x s hrun h hcond hin
    exact act_tumbBranch_taken hrun h (decide_eq_true hcond) hin
  case bltu =>
    intro t x s hrun h hcond hin
    exact act_tumbBranch_taken hrun h (decide_eq_true hcond) hin
  case bgeu =>
    intro t x s hrun h hcond hin
    exact act_tumbBranch_taken hrun h (decide_eq_true hcond) hin
  case beqNot =>
    intro t x s hrun h hcond hseq
    exact act_tumbBranch_not hrun h (beq_false_of_ne hcond) hseq
  case bneNot =>
    intro t x s hrun h hcond hseq
    exact act_tumbBranch_not hrun h (bne_eq_false_iff_eq.mpr hcond) hseq
  case bltNot =>
    intro t x s hrun h hcond hseq
    exact act_tumbBranch_not hrun h (decide_eq_false (not_lt.mpr hcond)) hseq
  case bgeNot =>
    intro t x s hrun h hcond hseq
    exact act_tumbBranch_not hrun h (decide_eq_false (not_le.mpr hcond)) hseq
  case bltuNot =>
    intro t x s hrun h hcond hseq
    exact act_tumbBranch_not hrun h (decide_eq_false (not_lt.mpr hcond)) hseq
  case bgeuNot =>
    intro t x s hrun h hcond hseq
    exact act_tumbBranch_not hrun h (decide_eq_false (not_le.mpr hcond)) hseq
  case beqTrap =>
    intro t x s hrun h hcond hout
    exact act_tumbBranch_trap hrun h (beq_iff_eq.mpr hcond) hout
  case jal =>
    intro t x s hrun h htarget
    show execJal t x s = _
    rw [execJal, act_tumbOp hrun h, tumbGoto_nat htarget]
  case jr =>
    intro t x s hrun h htarget
    show execJr t x s = _
    rw [execJr, act_tumbOp hrun h, tumbGoto_nat htarget]
  case waitt =>
    intro t x s hrun h hseq
    show execWaitt t x s = _
    rw [execWaitt, act_tumbOp hrun h, tumbWait_seq hseq]
  case waiteWaits =>
    intro t x s hrun h hnone hseq
    show execWaite t x s = _
    rw [execWaite, act_tumbOp hrun h]
    dsimp only
    rw [if_neg (not_not.mpr hnone), tumbWait_seq hseq]
  case waiteDone =>
    intro t x s hrun h hsome hseq
    show execWaite t x s = _
    rw [execWaite, act_tumbOp hrun h]
    dsimp only
    rw [if_pos hsome, tumbStep_seq hseq]
  case halt =>
    intro t x s hrun h hseq
    show execHalt t x s = _
    rw [execHalt, act_tumbOp hrun h, tumbStep_seq hseq]
  case trap =>
    intro t x s hrun h
    exact act_tumbOp hrun h _
  case illegal =>
    intro t x s hrun hissues hfetch hlegal
    show execIllegal t x s = _
    rw [execIllegal, act_live _ _ hrun, tumbCycle_illegal hissues hfetch hlegal]
  case rdcCounter =>
    intro t x n s hrun h hn hmay hseq
    show execRdc t x s = _
    rw [execRdc, act_tumbOp hrun h]
    dsimp only
    rw [if_neg (rdc_allowed hmay), tumbStep_seq hseq, hn, rdcEff_counter]
  case rdcCycle =>
    intro t x s hrun h hn hmay hseq
    show execRdc t x s = _
    rw [execRdc, act_tumbOp hrun h]
    dsimp only
    rw [if_neg (rdc_allowed hmay), tumbStep_seq hseq, hn, rdcEff, if_neg (Nat.lt_irrefl 8), if_pos rfl]
  case frzc =>
    intro t x s hrun h hcore hseq
    subst hcore
    show act s (tumbOp t 0 0x35 _) = _
    rw [act_tumbOp hrun h, if_neg (by decide), tumbStep_seq hseq, State.putB_true]
  case runc =>
    intro t x s hrun h hcore hseq
    subst hcore
    show act s (tumbOp t 0 0x36 _) = _
    rw [act_tumbOp hrun h, if_neg (by decide), tumbStep_seq hseq, State.putB_false]

/-- Settles O30. -/
theorem tumblerCommands : Obligations.TumblerCommands := by
  unfold Obligations.TumblerCommands
  refine ⟨?start, ?restart, ?stop, ?stopStalled, ?autoStart, ?watchdog, ?doorbell, ?wake, ?permBase, ?permLim, ?freeze, ?clear,
    ?overflowStick, ?overflowWrap⟩
  case start =>
    intro m t x s hrun hacc hon hhalted
    show execTumbStart m t x s = _
    rw [execTumbStart, act_live _ _ hrun, writeCmd_accepts hacc, tumbCmdEff_start, tumbStart, hon, hhalted]
    rfl
  case restart =>
    intro m t x s hrun hacc hon hstate
    have hmay : (tumbState t x s == tsHalted || tumbState t x s == tsTrapped) = true := by
      rw [Bool.or_eq_true, beq_iff_eq, beq_iff_eq]
      exact hstate
    show execTumbRestart m t x s = _
    rw [execTumbRestart, act_live _ _ hrun, writeCmd_accepts hacc, tumbCmdEff_restart, tumbRestart, hon, hmay]
    rfl
  case stop =>
    intro m t x s hrun hacc hstate
    have hnoRead : ¬ (tumbState t x s = tsRunning ∧ s.get (TUMB.hStall t x) ≠ 0) := by
      rintro ⟨hr, hstall⟩
      rcases hstate with ⟨-, h0⟩ | hw
      · exact hstall h0
      · exact absurd (hr.symm.trans hw) (by decide)
    have hactive : tumbState t x s = tsRunning ∨ tumbState t x s = tsWaiting := hstate.imp And.left id
    show execTumbStop m t x s = _
    rw [execTumbStop, act_live _ _ hrun, writeCmd_accepts hacc, tumbCmdEff_stop, tumbStop, if_neg hnoRead, if_pos hactive]
  case stopStalled =>
    intro m t x s hrun hacc hrunning hstall
    show execTumbStop m t x s = _
    rw [execTumbStop, act_live _ _ hrun, writeCmd_accepts hacc, tumbCmdEff_stop, tumbStop, if_pos ⟨hrunning, hstall⟩,
      State.putB_true]
  case autoStart =>
    intro t x s hrun hdue hauto
    show execTumbAutoStart t x s = _
    rw [execTumbAutoStart, act_live _ _ hrun]
    dsimp only
    rw [if_pos hdue, State.putB_false, if_pos hauto]
  case watchdog =>
    intro t x s hrun hrunning hfreeze hawake hover
    show execTumbWatchdog t x s = _
    rw [execTumbWatchdog, act_live _ _ hrun, hfreeze, if_pos ⟨hrunning, rfl, hawake, hover⟩]
  case doorbell =>
    intro m t x s hrun hacc
    show execTumbDoorbell m t x s = _
    rw [execTumbDoorbell, act_live _ _ hrun, writeCmd_accepts hacc, doorbellEff_two_pow]
  case wake =>
    intro t x n s hrun hwaiting hfreeze hawake hwoken hkind
    have hgoes : ¬ (tumbState t x s ≠ tsWaiting ∨ s.flag (HDR.FREEZE (.tumb t)) = true ∨ (!tumbAwake t s) = true) := by
      simp [hwaiting, hfreeze, hawake]
    show execTumbWake t x n s = _
    rw [execTumbWake, act_live _ _ hrun]
    dsimp only
    rw [if_neg hgoes, hwoken, if_neg (by decide), if_pos hkind]
  case permBase =>
    intro m t w v s hrun hacc hrunning hwaiting
    show act s (fun s => writeCmd m (.tumb t) (0x180 + 8 * w.val) v (permEff m t w 0 v) s) = _
    rw [act_live _ _ hrun, writeCmd_accepts hacc, permEff, if_neg (not_or.mpr ⟨hrunning, hwaiting⟩), if_pos rfl]
  case permLim =>
    intro m t w v s hrun hacc hrunning hwaiting
    have hoff : 0x180 + 8 * w.val + 4 * (1 : Fin 2).val = 0x184 + 8 * w.val := by
      show 0x180 + 8 * w.val + 4 * 1 = _
      omega
    show execPermWindowWrite m t w 1 v s = _
    rw [execPermWindowWrite, hoff, act_live _ _ hrun, writeCmd_accepts hacc, permEff,
      if_neg (not_or.mpr ⟨hrunning, hwaiting⟩), if_neg (by decide)]
  case freeze =>
    intro m t on s hrun hacc
    show execCounterFreezeWrite m t on s = _
    rw [execCounterFreezeWrite, act_live _ _ hrun, writeCmd_accepts hacc, cntCtrlEff_freeze]
  case clear =>
    intro m t v s hrun hacc
    show execCounterClr m t v s = _
    rw [execCounterClr, act_live _ _ hrun, writeCmd_accepts hacc, cntCtrlEff]
  case overflowStick =>
    intro t n s hrun hstick hmax hclear
    show execEvcOvf t n s = _
    rw [execEvcOvf, act_live _ _ hrun]
    dsimp only
    rw [if_pos hstick, hclear, if_pos ⟨hmax, rfl⟩]
  case overflowWrap =>
    intro t n s hrun hwrap hmax
    show execEvcOvf t n s = _
    rw [execEvcOvf, act_live _ _ hrun]
    dsimp only
    rw [if_neg (by rw [hwrap]; decide), if_pos hmax]

end Sys2Proof.Machine
end

section
/-! PROOFS. The fuse commands and their refusals (R661 to R663). -/
namespace Sys2Proof.Machine

set_option Elab.async false

/-! ### What FUSE_CMD does with a command (R661, R662) -/

/-- FUSE_CMD has taken operation op with its argument: BUSY is set, the result and its cause are cleared. -/
abbrev fuseBegun (op arg : Nat) (s : State) : State :=
  ((((s.putB FUSE.FUSE_STAT_BUSY true).put FUSE.FUSE_STAT_RESULT 0).put FUSE.FUSE_STAT_CAUSE 0).put FUSE.hOp op).put FUSE.hArg arg

/-- A refused fuse command shows its cause, latches cause 1 and clears KEY_BUF. -/
abbrev fuseRefused (cause : Nat) (s : State) : State :=
  keyBufClear (((s.put FUSE.FUSE_STAT_RESULT 2).put FUSE.FUSE_STAT_CAUSE cause).raise .fuse 1)

/-- The operation and the argument of a written command are read back from the word. -/
theorem fuseCmd_word {op arg : Nat} (hop : op ≤ 6) (harg : arg < 256) :
    bits (op * 2 ^ 28 + arg) 28 4 = op ∧ bits (op * 2 ^ 28 + arg) 0 8 = arg := by
  unfold bits
  omega

/-- A command that no rule refuses is taken. -/
theorem act_fuseCmd_taken {m : Master} {op arg : Nat} {s : State} (hrun : s.inReset = false) (hacc : Accepts m .fuse 0x044 s)
    (hbusy : s.flag FUSE.FUSE_STAT_BUSY = false) (hlo : op ≠ 0) (hhi : op ≤ 6) (harg : arg < 256)
    (hnone : fuseRefusal m op arg s = none) :
    act s (fuseCmd m op arg) = .next (commit s.pending (fuseBegun op arg s)) := by
  obtain ⟨hop, ha⟩ := fuseCmd_word hhi harg
  rw [act_live _ _ hrun, fuseCmd, writeCmd_accepts hacc, fuseCmdEff]
  rw [hop, ha, if_neg hlo, hbusy, if_neg Bool.false_ne_true, hnone]
  exact congrArg (fun u => Host.Outcome.next (commit s.pending u)) (if_neg (not_lt.mpr hhi))

/-- A command that a rule refuses is refused with the cause of the rule. -/
theorem act_fuseCmd_refused {m : Master} {op arg cause : Nat} {s : State} (hrun : s.inReset = false)
    (hacc : Accepts m .fuse 0x044 s) (hbusy : s.flag FUSE.FUSE_STAT_BUSY = false) (hlo : op ≠ 0) (hhi : op ≤ 6)
    (harg : arg < 256) (hcause : fuseRefusal m op arg s = some cause) :
    act s (fuseCmd m op arg) = .next (commit s.pending (fuseRefused cause s)) := by
  obtain ⟨hop, ha⟩ := fuseCmd_word hhi harg
  rw [act_live _ _ hrun, fuseCmd, writeCmd_accepts hacc, fuseCmdEff]
  rw [hop, ha, if_neg hlo, hbusy, if_neg Bool.false_ne_true, hcause]

/-! ### What is refused (R662) -/

section
variable {s : State} {arg : Nat} (h : s.holds .pcie (.page .fuse) = true)
include h

theorem fuseRefusal_owner (harg : arg ≤ 1) (hfree : s.flag (FUSE.hOwnProg (Fin.ofNat 2 arg)) = false)
    (hwhole : ownerDamaged (Fin.ofNat 2 arg) s = false) : fuseRefusal .pcie 1 arg s = none := by
  have hfits : ¬ 1 < arg := Nat.not_lt.mpr harg
  have hslot : (s.flag (FUSE.hOwnProg (Fin.ofNat 2 arg)) || ownerDamaged (Fin.ofNat 2 arg) s) = false := by
    rw [hfree, hwhole]; rfl
  rw [fuseRefusal, h]
  exact (if_neg hfits).trans (if_neg (by rw [hslot]; exact Bool.false_ne_true))

theorem fuseRefusal_revoke (harg : arg ≤ 1)
    (hother : s.flag FUSE.FUSE_STAT_OWNER_COSIGN = false ∨ ownerValid (1 - Fin.ofNat 2 arg) s = true) :
    fuseRefusal .pcie 2 arg s = none := by
  have hfits : ¬ 1 < arg := Nat.not_lt.mpr harg
  have hkeeps : (ownerValid (Fin.ofNat 2 arg) s && !ownerValid (1 - Fin.ofNat 2 arg) s && s.flag FUSE.FUSE_STAT_OWNER_COSIGN)
      = false := by
    rcases hother with hother | hother <;> simp only [hother, Bool.and_false, Bool.not_true, Bool.false_and]
  rw [fuseRefusal, h]
  exact (if_neg hfits).trans (if_neg (by rw [hkeeps]; exact Bool.false_ne_true))

theorem fuseRefusal_badSlot {op : Nat} (hop : op = 1 ∨ op = 2) (harg : 1 < arg) :
    fuseRefusal .pcie op arg s = some fcBadArg := by
  rcases hop with rfl | rfl <;> simp [fuseRefusal, h, harg]

theorem fuseRefusal_arb (harg : arg ≤ 64) (hlow : ∀ v ∈ secversNow s, arg ≤ v) (hidle : staging s = false) :
    fuseRefusal .pcie 3 arg s = none := by
  have hnone : (secversNow s).any (fun v => decide (v < arg)) = false := by
    rw [List.any_eq_false]
    intro v hv
    rw [decide_eq_true_eq]
    exact Nat.not_lt.mpr (hlow v hv)
  simp [fuseRefusal, h, Nat.not_lt.mpr harg, hnone, hidle]

theorem fuseRefusal_arbReached (harg : arg ≤ 64) (hreached : arg ≤ s.get FUSE.FUSE_STAT_ARB) :
    fuseRefusal .pcie 3 arg s = none := by
  simp [fuseRefusal, h, Nat.not_lt.mpr harg, Nat.not_lt.mpr hreached]

theorem fuseRefusal_badArb (harg : 64 < arg) : fuseRefusal .pcie 3 arg s = some fcBadArg := by
  simp [fuseRefusal, h, harg]

end

/-- A command of another master, or without the hasp of the page, is refused (R662). -/
theorem fuseRefusal_master {m : Master} {op arg : Nat} {s : State} (h : m ≠ .pcie ∨ s.holds .pcie (.page .fuse) = false) :
    fuseRefusal m op arg s = some fcMaster := by
  rcases h with h | h <;> simp [fuseRefusal, h]

/-- Settles O32. -/
theorem fuseCommands : Obligations.FuseCommands := by
  unfold Obligations.FuseCommands
  refine ⟨?programOwner, ?revokeOwner, ?advanceArb, ?arbReached, ?badArb, ?badOwner, ?badRevoke, ?programKekSeed, ?kekSeedSet,
    ?setCosign, ?cosignNoKey, ?disableDebug, ?notHost, ?fuseCmdDone, ?revokeDone, ?arbDone⟩
  case programOwner =>
    intro arg s hrun hacc h hbusy harg hfree hwhole
    exact act_fuseCmd_taken hrun hacc hbusy (by decide) (by decide) arg.isLt (fuseRefusal_owner h harg hfree hwhole)
  case revokeOwner =>
    intro arg s hrun hacc h hbusy harg hother
    exact act_fuseCmd_taken hrun hacc hbusy (by decide) (by decide) arg.isLt (fuseRefusal_revoke h harg hother)
  case advanceArb =>
    intro arg s hrun hacc h hbusy harg _ hlow hidle
    exact act_fuseCmd_taken hrun hacc hbusy (by decide) (by decide) arg.isLt (fuseRefusal_arb h harg hlow hidle)
  case arbReached =>
    intro arg s hrun hacc h hbusy harg hreached
    exact act_fuseCmd_taken hrun hacc hbusy (by decide) (by decide) arg.isLt (fuseRefusal_arbReached h harg hreached)
  case badArb =>
    intro arg s hrun hacc h hbusy harg
    exact act_fuseCmd_refused hrun hacc hbusy (by decide) (by decide) arg.isLt (fuseRefusal_badArb h harg)
  case badOwner =>
    intro arg s hrun hacc h hbusy harg
    exact act_fuseCmd_refused hrun hacc hbusy (by decide) (by decide) arg.isLt (fuseRefusal_badSlot h (.inl rfl) harg)
  case badRevoke =>
    intro arg s hrun hacc h hbusy harg
    exact act_fuseCmd_refused hrun hacc hbusy (by decide) (by decide) arg.isLt (fuseRefusal_badSlot h (.inr rfl) harg)
  case programKekSeed =>
    intro s hrun hacc h hbusy hunset
    exact act_fuseCmd_taken hrun hacc hbusy (by decide) (by decide) (by decide) (by simp [fuseRefusal, h, hunset])
  case kekSeedSet =>
    intro s hrun hacc h hbusy hset
    exact act_fuseCmd_refused hrun hacc hbusy (by decide) (by decide) (by decide)
      (show _ = some fcSlotUsed by simp [fuseRefusal, h, hset])
  case setCosign =>
    intro s hrun hacc h hbusy howner
    exact act_fuseCmd_taken hrun hacc hbusy (by decide) (by decide) (by decide) (by simp [fuseRefusal, h, howner])
  case cosignNoKey =>
    intro s hrun hacc h hbusy hnone
    exact act_fuseCmd_refused hrun hacc hbusy (by decide) (by decide) (by decide)
      (show _ = some fcLastKey by simp [fuseRefusal, h, hnone])
  case disableDebug =>
    intro s hrun hacc h hbusy
    exact act_fuseCmd_taken hrun hacc hbusy (by decide) (by decide) (by decide) (by simp [fuseRefusal, h])
  case notHost =>
    intro m s hrun hacc h hbusy
    exact act_fuseCmd_refused hrun hacc hbusy (by decide) (by decide) (by decide) (fuseRefusal_master h)
  case fuseCmdDone =>
    intro s hrun hbusy
    show execFuseCmdDone s = _
    rw [execFuseCmdDone, act_live _ _ hrun]
    dsimp only
    rw [if_pos hbusy]
  case revokeDone =>
    intro s hrun hbusy hop
    show execFuseCmdDone s = _
    rw [execFuseCmdDone, act_live _ _ hrun]
    simp [hbusy, hop, fuseBlown]
  case arbDone =>
    intro s hrun hbusy hop
    show execFuseCmdDone s = _
    rw [execFuseCmdDone, act_live _ _ hrun]
    simp [hbusy, hop, fuseBlown]

end Sys2Proof.Machine
end

section
/-! PROOFS. The resets of the engine (R667 to R670) and its parking, sleep and STANDBY (R672 to R681). -/
namespace Sys2Proof.Machine

set_option Elab.async false

/-! ### DEV_RESET (R670) -/

/-- The word of a DEV_RESET write has GO in bit 0 and its key in bits 31 to 16. -/
theorem devReset_word (key : Nat) :
    bit (2 ^ 16 * (key % 2 ^ 16) + true.toNat) 0 = true ∧ bits (2 ^ 16 * (key % 2 ^ 16) + true.toNat) 16 16 = key % 2 ^ 16 := by
  have hodd : (2 ^ 16 * (key % 2 ^ 16) + 1) % 2 = 1 := by omega
  constructor
  · rw [bit, Nat.testBit_zero, Bool.toNat_true, hodd]
    rfl
  · rw [bits, Bool.toNat_true]
    omega

/-- A write of DEV_RESET that is accepted has the effect of its word. -/
theorem exec_devReset {m : Master} {key : Nat} {s : State} (hrun : s.inReset = false) (hacc : Accepts m .pwr 0x050 s) :
    exec (.devReset m key true) s = .next (commit s.pending (
      if key % 2 ^ 16 = 0xA55A ∧ (m = .pcie ∨ m = .ward 0) then enterReset rcDevReset s
      else logErr .pwr causeActiveWrite (masterId m) 0 false 0x050 s)) := by
  obtain ⟨hgo, hkey⟩ := devReset_word key
  have hcond : (true && (key % 2 ^ 16 == 0xA55A) && (m == .pcie || m == .ward 0)) = true
      ↔ key % 2 ^ 16 = 0xA55A ∧ (m = .pcie ∨ m = .ward 0) := by
    simp only [Bool.true_and, Bool.and_eq_true, Bool.or_eq_true, beq_iff_eq]
  show execDevReset m key true s = _
  rw [execDevReset, act_live _ _ hrun, writeCmd_accepts hacc, devResetEff, hgo, hkey]
  exact congrArg (fun u => Host.Outcome.next (commit s.pending u)) (if_congr hcond rfl rfl)

/-- Settles O33. -/
theorem powerAndResets : Obligations.PowerAndResets := by
  unfold Obligations.PowerAndResets
  refine ⟨?pwrOkRise, ?brownOut, ?powerOn, ?resetNAssert, ?resetRelease, ?devReset, ?badKey, ?otherMaster⟩
  case pwrOkRise =>
    intro s
    rfl
  case brownOut =>
    intro rails s hlost haon
    show execPwrOkFall rails s = _
    rw [execPwrOkFall, if_neg hlost, haon]
    rfl
  case powerOn =>
    intro rails s haon
    have hlost : rails % 0x200 ≠ 0x1FF := by
      intro hall
      have hodd : rails % 2 = 1 := by omega
      rw [bit, Nat.testBit_zero, hodd] at haon
      exact absurd haon (by decide)
    show execPwrOkFall rails s = _
    rw [execPwrOkFall, if_neg hlost, haon]
    rfl
  case resetNAssert =>
    intro s
    rfl
  case resetRelease =>
    intro strap s hin hok
    show execResetRelease strap s = _
    rw [execResetRelease, hin, hok]
    rfl
  case devReset =>
    intro m key s hrun hacc hm hkey
    rw [exec_devReset hrun hacc, if_pos ⟨hkey, hm⟩]
  case badKey =>
    intro m key s hrun hacc hkey
    rw [exec_devReset hrun hacc, if_neg (fun h => hkey h.1)]
  case otherMaster =>
    intro m key s hrun hacc hpcie hward
    rw [exec_devReset hrun hacc, if_neg (fun h => h.2.elim hpcie hward)]

/-- What has to be over before STANDBY is reached is over (R680). -/
theorem standby_ready {s : State} (hentry : s.get PWR.PWR_STAT_DEV_STATE = 1) (hasleep : ∀ q : Fin 4, qState q s = 2)
    (hmb : mbBusy s = false) (hstore : ∀ c : Fin 16, s.flag (CAL.NVM_STAT_STORE_BUSY c) = false) :
    s.get PWR.PWR_STAT_DEV_STATE = 1 ∧ (List.finRange 4).all (fun q => qState q s == 2) = true ∧ (!mbBusy s) = true
      ∧ (!(List.finRange 16).any (fun c => s.flag (CAL.NVM_STAT_STORE_BUSY c))) = true := by
  refine ⟨hentry, List.all_eq_true.mpr fun q _ => beq_iff_eq.mpr (hasleep q), by rw [hmb]; rfl, ?_⟩
  rw [Bool.not_eq_true', List.any_eq_false]
  intro c _
  rw [hstore c]
  exact Bool.false_ne_true

/-! ### The request to keep the keys stands until the Keyway is reached (R680) -/

/-- The registers of a Tumbler context and the positions of a scrubber are no request to keep the keys. -/
theorem tumbSleep_flds_ne_keepKeys (t : Fin 18) (x : Fin 2) :
    (∀ r : Fin 16, (TUMB.hT t x r).key ≠ PWR.hKeepKeys.key) ∧ (∀ n : Fin 2, (TUMB.hA t x n).key ≠ PWR.hKeepKeys.key)
      ∧ ∀ f ∈ [TUMB.hFresh t, TUMB.hStall t x, TUMB.hWait t x, TUMB.hStop t x, TUMB.hState t x, TUMB.hPc t x, TUMB.hAutoDue t x],
        f.key ≠ PWR.hKeepKeys.key := by
  decide +kernel +revert

theorem keepKeys_tumbSleep (t : Fin 18) (s : State) : (tumbSleep t s).get PWR.hKeepKeys = s.get PWR.hKeepKeys := by
  refine forFin_keeps (fun s : State => s.get PWR.hKeepKeys) _ (fun x u => ?_) s
  obtain ⟨hT, hA, hrest⟩ := tumbSleep_flds_ne_keepKeys t x
  simp only [List.forall_mem_cons] at hrest
  obtain ⟨hfresh, hstall, hwait, hstop, hstate, hpc, hdue, -⟩ := hrest
  have hregs (u : State) : (forFin 16 (fun r s => if r = 0 then s else s.putFree (TUMB.hT t x r)) u).get PWR.hKeepKeys
      = u.get PWR.hKeepKeys := by
    refine forFin_keeps (fun s : State => s.get PWR.hKeepKeys) _ (fun r v => ?_) u
    split
    · rfl
    · exact State.get_put_other _ _ _ _ (hT r)
  have haccs (u : State) : (forFin 2 (fun n s => s.putFree (TUMB.hA t x n)) u).get PWR.hKeepKeys = u.get PWR.hKeepKeys :=
    forFin_keeps (fun s : State => s.get PWR.hKeepKeys) (fun n s => s.putFree (TUMB.hA t x n))
      (fun n v => State.get_put_other _ _ _ _ (hA n)) u
  dsimp only
  split
  · rw [get_putB_other hdue, State.get_put_other _ _ _ _ hpc, State.get_put_other _ _ _ _ hstate, tumbForget, get_putB_other hstop,
      State.get_put_other _ _ _ _ hwait, State.get_put_other _ _ _ _ hstall]
    split
    · rw [get_putB_other hfresh, haccs, hregs]
    · rw [haccs, hregs]
  · rfl

theorem scrubFlds_ne_keepKeys (d : Fin 5) (r : Fin 16) :
    (scrubFlds d r).pos.key ≠ PWR.hKeepKeys.key ∧ (scrubFlds d r).ticks.key ≠ PWR.hKeepKeys.key := by
  decide +kernel +revert

theorem keepKeys_scrubStop (d : Fin 5) (s : State) : (scrubStop d s).get PWR.hKeepKeys = s.get PWR.hKeepKeys := by
  refine forFin_keeps (fun s : State => s.get PWR.hKeepKeys) _ (fun r u => ?_) s
  obtain ⟨hpos, hticks⟩ := scrubFlds_ne_keepKeys d r
  rw [State.get_put_other _ _ _ _ hticks, State.get_put_other _ _ _ _ hpos]

theorem monStop_flds_ne_keepKeys (d : Fin 5) :
    ∀ f ∈ [MON.MON_STAT_RUNNING d, MON.MON_STAT_CUR d, MON.hDue d, MON.hDone d, MON.hTail d], f.key ≠ PWR.hKeepKeys.key := by
  decide +kernel +revert

theorem keepKeys_monStop (d : Fin 5) (s : State) : (monStop d s).get PWR.hKeepKeys = s.get PWR.hKeepKeys := by
  have h := monStop_flds_ne_keepKeys d
  simp only [List.forall_mem_cons] at h
  obtain ⟨hrunning, hcur, hdue, hdone, htail, -⟩ := h
  rw [monStop, get_putB_other htail, get_putB_other hdone, get_putB_other hdue, State.get_put_other _ _ _ _ hcur,
    get_putB_other hrunning]

theorem flag_keepKeys_standby (s : State) :
    (scrubStop 4 (monStop 4 (tumbSleep 17 (tumbSleep 16 s)))).flag PWR.hKeepKeys = s.flag PWR.hKeepKeys := by
  unfold State.flag
  rw [keepKeys_scrubStop, keepKeys_monStop, keepKeys_tumbSleep, keepKeys_tumbSleep]

/-- Settles O34. -/
theorem parkingAndStandby : Obligations.ParkingAndStandby := by
  unfold Obligations.ParkingAndStandby
  refine ⟨?pwrCtrlWrite, ?standbyReqChange, ?parkDone, ?unparkLit, ?unparkDark, ?quadAsleep, ?quadAwake, ?parkExitStagger,
    ?standbyKept, ?standbyZeroised, ?standbyExitDone⟩
  case pwrCtrlWrite =>
    intro m v s hrun hacc
    show execPwrCtrlWrite m v s = _
    rw [execPwrCtrlWrite, act_live _ _ hrun, writeCmd_accepts hacc, pwrCtrlEff]
  case standbyReqChange =>
    intro level s hrun
    show execStandbyReqChange level s = _
    rw [execStandbyReqChange, act_live _ _ hrun]
  case parkDone =>
    intro c s hrun hpark hdark
    show execParkDone c s = _
    rw [execParkDone, act_live _ _ hrun]
    dsimp only
    rw [if_pos ⟨hpark, hdark⟩]
  case unparkLit =>
    intro c u v s hrun hpark hu hv hwas
    show execUnparkDone c s = _
    rw [execUnparkDone, act_live _ _ hrun]
    dsimp only
    rw [if_pos hpark, ← hu, if_pos hwas, ← hv]
  case unparkDark =>
    intro c u v s hrun hpark hu hv hrise hlit hburst
    show execUnparkDone c s = _
    rw [execUnparkDone, act_live _ _ hrun]
    dsimp only
    rw [if_pos hpark, ← hu, if_neg (not_or.mpr ⟨hrise, not_or.mpr ⟨hlit, hburst⟩⟩), ← hv]
  case quadAsleep =>
    intro q s hrun hstate hparked hheat
    have hall : (List.finRange 4).all (fun k => parkState (carOf q k) s == pkParked) = true :=
      List.all_eq_true.mpr fun k _ => beq_iff_eq.mpr (hparked k)
    show execQuadAsleep q s = _
    rw [execQuadAsleep, act_live _ _ hrun]
    dsimp only
    rw [if_pos ⟨hstate, hall, hheat⟩]
  case quadAwake =>
    intro q s hrun hstate
    show execQuadAwake q s = _
    rw [execQuadAwake, act_live _ _ hrun]
    dsimp only
    rw [if_pos hstate]
  case parkExitStagger =>
    intro q k s hrun hstate hturn hticks hnext hk
    show execParkExitStagger q s = _
    rw [execParkExitStagger, act_live _ _ hrun]
    dsimp only
    rw [if_pos ⟨hstate, hturn, hticks⟩, hnext, if_pos hk]
  case standbyKept =>
    intro s hrun hentry hasleep hmb hstore hkeep
    show execStandbyReached s = _
    rw [execStandbyReached, act_live _ _ hrun]
    dsimp only
    rw [if_pos (standby_ready hentry hasleep hmb hstore), if_pos ((flag_keepKeys_standby s).trans hkeep)]
  case standbyZeroised =>
    intro s hrun hentry hasleep hmb hstore hkeep
    have hzero : ¬ (scrubStop 4 (monStop 4 (tumbSleep 17 (tumbSleep 16 s)))).flag PWR.hKeepKeys = true := by
      rw [flag_keepKeys_standby, hkeep]
      exact Bool.false_ne_true
    show execStandbyReached s = _
    rw [execStandbyReached, act_live _ _ hrun]
    dsimp only
    rw [if_pos (standby_ready hentry hasleep hmb hstore), if_neg hzero]
  case standbyExitDone =>
    intro ms s hrun hexit hlock hall
    have hwoken : (List.finRange 4).all (fun q => qState q s == 0 || quadReq q s) = true := by
      rw [List.all_eq_true]
      intro q _
      rw [Bool.or_eq_true, beq_iff_eq]
      exact hall q
    show execStandbyExitDone ms s = _
    rw [execStandbyExitDone, act_live _ _ hrun]
    dsimp only
    rw [if_pos ⟨hexit, hlock, hwoken⟩]

end Sys2Proof.Machine
end

section
/-! PROOFS. The hasps (R55 to R61), and the writes held for a page whose clock returns (R27). -/
namespace Sys2Proof.Machine

set_option Elab.async false

/-! ### A broken hasp and the masters (R58, R61) -/

section
variable {p : Page} {f : Fld}

theorem eccTestEnd_cellsOnly (h : HaspId) (s : State) : CellsOnly s (eccTestEnd h s) := by
  unfold eccTestEnd
  split <;> rfl

theorem haspBreak_cellsOnly (h : HaspId) (s : State) : CellsOnly s (haspBreak h s) :=
  ((((CellsOnly.refl s).put _ _).put _ _).put _ _).raise _ _ |>.trans (eccTestEnd_cellsOnly h _)

/-- What shows which masters may issue lies beyond the header of every page. -/
theorem mayIssue_flds_beyond (p : Page) : ∀ f ∈ [BOOT.DBG_STAT_SCOPE, PWR.hWard],
    f.key < 8 * p.base ∨ 8 * (p.base + 0x040) ≤ f.key := by
  obtain ⟨hmod, hlt⟩ := Page.base_bounds p
  simp only [List.forall_mem_cons, List.not_mem_nil, false_imp_iff, implies_true, and_true, Fld.key, BOOT.DBG_STAT_SCOPE, PWR.hWard,
    Page.hidBase, Page.base_boot, Page.base_pwr]
  omega

/-- The end of ECC test mode leaves what shows which masters may issue. -/
theorem get_eccTestEnd_mayIssue (h : HaspId) (s : State) :
    ∀ f ∈ [BOOT.DBG_STAT_SCOPE, PWR.hWard], (eccTestEnd h s).get f = s.get f := by
  have hmem (q : Fin 4) : ∀ f ∈ [BOOT.DBG_STAT_SCOPE, PWR.hWard],
      (MEM.ECC_TEST_RAW q).key ≠ f.key ∧ (MEM.ECC_TEST_ARM q).key ≠ f.key ∧ (MEM.ECC_TEST_CHK q).key ≠ f.key := by
    decide +kernel +revert
  have hhub : ∀ f ∈ [BOOT.DBG_STAT_SCOPE, PWR.hWard],
      HUBCTL.ECC_TEST_RAW.key ≠ f.key ∧ HUBCTL.ECC_TEST_ARM.key ≠ f.key ∧ HUBCTL.ECC_TEST_CHK.key ≠ f.key := by
    decide +kernel
  intro f hf
  unfold eccTestEnd
  split
  · obtain ⟨hraw, harm, hchk⟩ := hmem _ f hf
    rw [get_clear_other hchk, get_clear_other harm, get_clear_other hraw]
  · obtain ⟨hraw, harm, hchk⟩ := hhub f hf
    rw [get_clear_other hchk, get_clear_other harm, get_clear_other hraw]
  · rfl

/-- The break of a page's hasp leaves what shows which masters may issue. -/
theorem get_haspBreak_mayIssue (p : Page) (v : Nat) (s : State) :
    ∀ f ∈ [BOOT.DBG_STAT_SCOPE, PWR.hWard], (haspBreak (.page p) (s.put (HDR.HASP_LEASE p) v)).get f = s.get f := by
  intro f hf
  have hbeyond := mayIssue_flds_beyond p f hf
  have hreg {g : Fld} (hg : inHaspReg (.page p) g) : g.key ≠ f.key := by
    obtain ⟨hlo, hhi⟩ : 8 * (p.base + 0x020) ≤ g.key ∧ g.key < 8 * (p.base + 0x020 + 4) := hg
    omega
  have hraw : f.key ≠ (HDR.INT_RAW (HaspId.home (.page p))).key := by
    rw [HDR.INT_RAW_key]
    show f.key ≠ 8 * (p.base + 0x010)
    omega
  have hlease : (HDR.HASP_LEASE p).key ≠ f.key := hreg (HaspId.lease_mem (.page p))
  rw [haspBreak, get_eccTestEnd_mayIssue _ _ f hf, get_raise_other hraw, State.get_put_other _ _ _ _ (hreg (HaspId.lease_mem _)),
    get_putB_other (hreg (HaspId.broken_mem _)), get_putB_other (hreg (HaspId.held_mem _)), State.get_put_other _ _ _ _ hlease]

/-- A master that may issue may do so after the hasp of a page has been broken. -/
theorem mayIssue_haspBreak (m : Master) (p : Page) (v : Nat) (s : State) :
    mayIssue m (haspBreak (.page p) (s.put (HDR.HASP_LEASE p) v)) = mayIssue m s := by
  have hkept := get_haspBreak_mayIssue p v s
  simp only [List.forall_mem_cons] at hkept
  obtain ⟨hscope, hward, -⟩ := hkept
  cases m with
  | debug => exact congrArg (bit · 0) hscope
  | ward n => exact flag_of_get hward
  | _ => rfl

theorem stalledBy_of_cellsOnly {s t : State} (h : CellsOnly s t) (m : Master) : stalledBy m t = stalledBy m s := by
  unfold CellsOnly at h
  rw [h]
  rfl

end

/-! ### The tick that ends a lease (R60, R61) -/

/-- The tick that ends the lease of a held hasp breaks it. -/
theorem haspTick_ends {h : HaspId} {s : State} (hheld : s.flag (HaspId.held h) = true) (hlease : s.get (HaspId.lease h) = 1) :
    haspTick h s = haspBreak h (s.put (HaspId.lease h) 0) := by
  have hzero : (s.put (HaspId.lease h) 0).get (HaspId.lease h) = 0 := by rw [State.get_put_self, Nat.zero_mod]
  rw [haspTick, hheld, hlease]
  exact if_pos hzero

theorem cycleTxs_nil (k : Nat) : cycleTxs [] k = [] :=
  List.filterMap_eq_nil_iff.mpr fun _ _ => rfl

/-- The write of CTRL by the owner of a page's hasp in the cycle that breaks it is dropped (R61). -/
theorem expiryWrite_owner {m : Master} {p : Page} {v : Nat} {s : State} (hi : mayIssue m s = true) (hs : stalledBy m s = false)
    (hp : Page.ofAddr (p.base + 0x008) = some p) (hw : inWindows (p.base + 0x008) = false) :
    expiryWrite (.page p) (masterId m) ⟨m, .bar0, p.base + 0x008, 4, false, v⟩ s
      = logErr p causeHaspDrop (masterId m) (masterId m) false 0x008 s := by
  have hoff : p.base + 0x008 - p.base = 0x008 := Nat.add_sub_cancel_left _ _
  have hpage : pageOf (p.base + 0x008) = p := by
    rw [pageOf, hw, if_neg Bool.false_ne_true, hp]
    rfl
  have hcovers : haspCovers (.page p) ⟨m, .bar0, p.base + 0x008, 4, false, v⟩ = true := by
    simp only [haspCovers, hw, hp, hoff, beq_self_eq_true]
    rfl
  have hdrops : masterId m = masterId m ∧ Bar.bar0 = .bar0 ∧ haspCovers (.page p) ⟨m, .bar0, p.base + 0x008, 4, false, v⟩ = true
      ∧ mayIssue m s = true ∧ (!stalledBy m s) = true := ⟨rfl, rfl, hcovers, hi, by rw [hs]; rfl⟩
  rw [expiryWrite, if_pos hdrops, hw, if_neg Bool.false_ne_true, hpage, hoff]

/-- The hasp of a page asks for no write of DEV.HUBCTL. -/
theorem page_ne_res {m : Master} {s : State} (p : Page) :
    ∀ n, HaspId.page p = .res n → Accepts m .hubctl (HaspId.offset (.page p)) s :=
  fun _ h => HaspId.noConfusion h

/-- Settles O39. -/
theorem haspCommands : Obligations.HaspCommands := by
  unfold Obligations.HaspCommands
  refine ⟨?acquire, ?renew, ?acquireResource, ?release, ?debugBreaks, ?releaseDropped, ?leaseEnds, ?ownerWriteDropped,
    ?writeDropped⟩
  case acquire =>
    intro m p lease s hrun hi hs hfree
    rw [exec_haspAcquire hrun hi hs (page_ne_res p), haspAcquire, hfree]
    rfl
  case renew =>
    intro m p lease s hrun hi hs hholds
    obtain ⟨hheld, howner⟩ := holds_iff.mp hholds
    rw [exec_haspAcquire hrun hi hs (page_ne_res p), haspAcquire, hheld, if_neg (by decide), if_pos howner]
  case acquireResource =>
    intro m n lease s hrun hacc hfree
    have hres : ∀ k, HaspId.res n = .res k → Accepts m .hubctl (HaspId.offset (.res n)) s := fun _ _ => hacc
    obtain ⟨hi, hs, -⟩ := hacc
    rw [exec_haspAcquire hrun hi hs hres, haspAcquire, hfree]
    rfl
  case release =>
    intro m p s hrun hi hs hholds
    obtain ⟨hheld, howner⟩ := holds_iff.mp hholds
    rw [exec_haspRelease hrun hi hs (page_ne_res p), haspRelease, hheld, if_neg (by decide), if_pos howner]
  case debugBreaks =>
    intro p s hrun hi hs hother
    rw [exec_haspRelease hrun hi hs (page_ne_res p), haspRelease_debug hother]
  case releaseDropped =>
    intro m p s hrun hi hs hdebug hother
    rw [exec_haspRelease hrun hi hs (page_ne_res p), haspRelease_other hother hdebug]
    rfl
  case leaseEnds =>
    intro h s hrun hsynth hheld hlease
    show execHaspLeaseExpiry ⟨h, []⟩ s = _
    rw [execHaspLeaseExpiry, act_live _ _ hrun]
    dsimp only
    rw [if_pos ⟨hsynth, hheld, hlease⟩, haspTick_ends hheld hlease, cycleTxs_nil]
    rfl
  case ownerWriteDropped =>
    intro m p v s hrun hi hs hp hw hsynth hholds hlease
    obtain ⟨hheld, howner⟩ := holds_iff.mp hholds
    have hone : (cycleTxs [⟨m, .bar0, p.base + 0x008, 4, false, v⟩] 0).filter (fun r => !r.isRead)
        = [⟨m, .bar0, p.base + 0x008, 4, false, v⟩] := by
      rw [cycleTxs_alone_first (txsOf_word (show 4 ≠ 8 by decide))]
      rfl
    have hi' := (mayIssue_haspBreak m p 0 s).trans hi
    have hs' := (stalledBy_of_cellsOnly (((CellsOnly.refl s).put (HDR.HASP_LEASE p) 0).trans (haspBreak_cellsOnly (.page p) _)) m).trans hs
    show execHaspLeaseExpiry ⟨.page p, [⟨m, .bar0, p.base + 0x008, 4, false, v⟩]⟩ s = _
    rw [execHaspLeaseExpiry, act_live _ _ hrun]
    dsimp only
    rw [if_pos ⟨hsynth, hheld, hlease⟩, haspTick_ends hheld hlease, hone, howner]
    exact congrArg (fun u => Host.Outcome.next (commit s.pending u)) (expiryWrite_owner hi' hs' hp hw)
  case writeDropped =>
    intro m p on s hrun hi hs hother
    show execEnableWrite m p on s = _
    rw [execEnableWrite, act_live _ _ hrun, ctrlCmd, writeCmd_dropped _ _ _ _ _ _ hi hs rfl hother]

/-! ### The writes held for a page whose clock returns (R27) -/

/-- A read of CONV(0) that the host presented while the quadrant slept waits for its turn; no write is held. -/
def readWaiting : State :=
  { State.reset with stalled := [⟨.conv 0, ⟨.pcie, .bar0, (Page.conv 0).base + 0x030, 4, true, 0⟩, true, true⟩] }

theorem stalled_drain_readWaiting : (drainStalled readWaiting).stalled = [] := by decide +kernel

theorem exec_heldWriteApply_readWaiting :
    exec (.heldWriteApply (.conv 0)) readWaiting = .next (commit [] (drainStalled readWaiting)) := by
  have hclock : ¬ stopped (.conv 0) readWaiting = true := by decide +kernel
  show execHeldWriteApply (.conv 0) readWaiting = _
  rw [execHeldWriteApply, act_live _ _ rfl, if_neg hclock]
  rfl

/-- Refutes O38: HELD_WRITE_APPLY lets the transactions that waited follow the held writes, and the read of a waiting master is
delivered, while the clause leaves it waiting. -/
theorem not_headerAndBusCommands : ¬ Obligations.HeaderAndBusCommands := by
  unfold Obligations.HeaderAndBusCommands
  rintro ⟨-, -, -, -, -, -, -, -, -, -, -, -, -, -, -, -, happly⟩
  have hclock : stopped (.conv 0) readWaiting = false := by decide +kernel
  have hstate := Host.Outcome.next.inj (exec_heldWriteApply_readWaiting.symm.trans (happly (.conv 0) readWaiting rfl hclock))
  have hstalled := congrArg State.stalled hstate
  rw [commit_stalled, commit_stalled, stalled_drain_readWaiting] at hstalled
  exact absurd hstalled.symm (List.cons_ne_nil _ _)

end Sys2Proof.Machine
end

section
/-! PROOFS. The mailbox exchange, its commands and events (R628 to R633, R643, R652, R655, R658), and the reset of a Ward
core (R58, R630). -/
namespace Sys2Proof.Machine

set_option Elab.async false

/-! ### What leaves the state of the exchange alone -/

@[simp] theorem State.putList_cells (k : Nat) (l : List Nat) (s : State) : (s.putList k l).cells = s.cells := by
  have hfold (a : Nat × State) :
      (l.foldl (fun (a : Nat × State) b => (a.1 + 1, a.2.setByte a.1 (BitVec.ofNat 8 b))) a).2.cells = a.2.cells := by
    induction l generalizing a with
    | nil => rfl
    | cons b l ih => exact ih _
  exact hfold (k, s)

theorem get_mbWrite (op status tag : Nat) (payload : List Nat) (s : State) (f : Fld) :
    (mbWrite op status tag payload s).get f = s.get f :=
  State.get_of_cells _ _ f (State.putList_cells _ _ s)

/-- The fields that tell whether a command is in execution. -/
def mbBusyFlds : List Fld := [MBX.MB_STAT_BUSY, MBOX.hDiscard]

theorem mbBusy_of_get {s t : State} (h : ∀ f ∈ mbBusyFlds, t.get f = s.get f) : mbBusy t = mbBusy s := by
  rw [mbBusyFlds, List.forall_mem_cons, List.forall_mem_cons] at h
  obtain ⟨hbusy, hdiscard, -⟩ := h
  rw [mbBusy, mbBusy, flag_of_get hbusy, flag_of_get hdiscard]

/-- The fields of the exchange lie below the hasps of a page or in implied state. -/
theorem mbBusyFlds_key : ∀ f ∈ mbBusyFlds, f.key % 0x8000 < 0x80 ∨ 0x4_0000_0000 ≤ f.key := by decide +kernel

section
variable {f : Fld} (hf : f.key % 0x8000 < 0x80 ∨ 0x4_0000_0000 ≤ f.key)
include hf

/-- A field of a page's registers from 0x010 on is none of the exchange. -/
theorem ne_of_register {p : Page} {off b : Nat} (hlo : 0x010 ≤ off) (hhi : off + 4 ≤ 0x1000) (hb : b < 32) :
    8 * (p.base + off) + b ≠ f.key := by
  obtain ⟨hmod, hlt⟩ := Page.base_bounds p
  omega

theorem get_raise_exchange (p : Page) (b : Nat) (s : State) : (s.raise p b).get f = s.get f :=
  get_raise_other (ne_of_register hf (by decide) (by decide) (by decide : 0 < 32)).symm b s

theorem get_eccTestEnd_exchange (h : HaspId) (s : State) : (eccTestEnd h s).get f = s.get f := by
  have hclear {g : Fld} {p : Page} {off : Nat} (hg : g.addr = p.base + off) (hlo : 0x010 ≤ off) (hhi : off + 4 ≤ 0x1000)
      (hb : g.lsb < 32) (u : State) : (u.clear g).get f = u.get f :=
    get_clear_other (by rw [Fld.key, hg]; exact ne_of_register hf hlo hhi hb) u
  unfold eccTestEnd
  split
  · iterate 3 rw [hclear rfl (by decide) (by decide) (Nat.le_of_ble_eq_true rfl)]
  · iterate 3 rw [hclear rfl (by decide) (by decide) (Nat.le_of_ble_eq_true rfl)]
  · rfl

theorem get_haspBreak_exchange (h : HaspId) (s : State) : (haspBreak h s).get f = s.get f := by
  have hoff : 0x010 ≤ HaspId.offset h ∧ HaspId.offset h + 4 ≤ 0x1000 := by
    cases h <;> simp only [HaspId.offset] <;> omega
  have hne {b : Nat} (hb : b < 32) : 8 * ((HaspId.home h).base + HaspId.offset h) + b ≠ f.key :=
    ne_of_register hf hoff.1 hoff.2 hb
  rw [haspBreak, get_eccTestEnd_exchange hf, get_raise_exchange hf,
    State.get_put_other _ _ _ _ (by rw [HaspId.lease_key]; exact hne (by decide : 0 < 32)),
    get_putB_other (by rw [HaspId.broken_key]; exact hne (by decide)), get_putB_other (by rw [HaspId.held_key]; exact hne (by decide))]

theorem get_masterFails_exchange (m : Master) (s : State) : (masterFails m s).get f = s.get f := by
  have hlost (l : List HaspId) (u : State) :
      (forL l (fun h s => if s.holds m h then haspBreak h s else s) u).get f = u.get f := by
    induction l generalizing u with
    | nil => rfl
    | cons h l ih =>
      refine (ih _).trans ?_
      dsimp only
      split
      · exact get_haspBreak_exchange hf h u
      · rfl
  have hall : (haspsLost m s).get f = s.get f := by
    rw [haspsLost]
    generalize HaspId.all = l
    exact hlost l s
  unfold masterFails
  generalize haspsLost m s = u at hall ⊢
  exact (State.get_of_cells u _ f rfl).trans hall

theorem get_htrFault_exchange (q : Fin 4) (h : Fin 32) (cause : Nat) (s : State) : (htrFault q h cause s).get f = s.get f := by
  have hne {g : Fld} (hg : g.addr = (Page.htr q).base + 0x10C + 16 * h.val) (hb : g.lsb < 32) : g.key ≠ f.key := by
    have hreg := ne_of_register hf (p := .htr q) (off := 0x10C + 16 * h.val) (by omega) (by omega) hb
    rwa [← Nat.add_assoc, ← hg] at hreg
  have hout (v : Nat) (u : State) : (u.put (HTR.CH_STAT_OUT q h) v).get f = u.get f :=
    State.get_put_other _ _ _ _ (hne rfl (show 0 < 32 by decide))
  have hcause (v : Nat) (u : State) : (u.put (HTR.CH_STAT_CAUSE q h) v).get f = u.get f :=
    State.get_put_other _ _ _ _ (hne rfl (show 26 < 32 by decide))
  have hfaulted (u : State) : (u.putB (HTR.CH_STAT_FAULTED q h) true).get f = u.get f :=
    get_putB_other (hne rfl (show 31 < 32 by decide)) true u
  have hfollow (u : State) : (htrFollow q h u).get f = u.get f := by
    unfold htrFollow
    split
    · rfl
    · exact hout _ u
  unfold htrFault
  dsimp only
  rw [hfollow, apply_ite (fun u : State => u.get f), hout, ite_self]
  split
  · rw [get_raise_exchange hf, hcause, hfaulted]
  · split
    · rw [hcause]
    · rfl

theorem get_htrOwnerLost_exchange (id : Nat) (s : State) : (htrOwnerLost id s).get f = s.get f := by
  refine forFin_keeps (fun s : State => s.get f) _ (fun q u => ?_) s
  split
  · rfl
  · refine forFin_keeps (fun s : State => s.get f) _ (fun h v => ?_) u
    split
    · exact get_htrFault_exchange hf q h hcTrap v
    · rfl

end

/-- An event in the queue changes nothing of the exchange. -/
theorem get_postEvent_exchange (code : Nat) (data : List Nat) (s : State) :
    ∀ f ∈ mbBusyFlds, (postEvent code data s).get f = s.get f := by
  have hne : ∀ f ∈ mbBusyFlds, MBOX.hSeq.key ≠ f.key ∧ MBX.EVT_LOST.key ≠ f.key ∧ MBX.EVT_TAIL.key ≠ f.key := by decide +kernel
  intro f hf
  obtain ⟨hseq, hlost, htail⟩ := hne f hf
  have hkey := mbBusyFlds_key f hf
  have hraw := ne_of_register hkey (p := .mbox) (off := 0x010) (by decide) (by decide) (by decide : 0 < 32)
  unfold postEvent
  dsimp only
  split
  · rw [get_raise_exchange hkey, get_incStick_other hlost, get_incWrap_other hseq]
    exact State.get_of_cells _ _ f rfl
  · rw [get_raiseIf_other hraw.symm, State.get_put_other _ _ _ _ htail, State.get_of_cells _ _ f (State.putList_cells _ _ _),
      get_incWrap_other hseq]
    exact State.get_of_cells _ _ f rfl

/-- What the loss of a Ward core leaves of the exchange (R58, R630). -/
theorem mbBusy_wardLost (n : Fin 2) (data : List Nat) (s : State) :
    mbBusy (postEvent evcWardException data (htrOwnerLost (masterId (.ward n)) (masterFails (.ward n) s))) = mbBusy s :=
  mbBusy_of_get fun f hf => by
    have hkey := mbBusyFlds_key f hf
    rw [get_postEvent_exchange _ _ _ f hf, get_htrOwnerLost_exchange hkey, get_masterFails_exchange hkey]

/-! ### The exchange (R630) -/

/-- The command buffer's tag is shown, and the engine is busy with it. -/
abbrev mbTaken (s : State) : State :=
  ((s.putB MBX.MB_STAT_REJ false).putB MBX.MB_STAT_BUSY true).put MBX.MB_STAT_TAG (ofLe (mbCmd 4 4 s))

theorem flag_discard_mbTaken (s : State) : (mbTaken s).flag MBOX.hDiscard = s.flag MBOX.hDiscard := by
  rw [flag_put_other (by decide), flag_putB_other (by decide), flag_putB_other (by decide)]

/-- SUBMIT with the mailbox ready and idle takes the command, or keeps it while a discarded one still runs (R609, R630). -/
theorem submitEff_idle {s : State} (hready : s.flag MBX.MB_STAT_READY = true) (hbusy : s.flag MBX.MB_STAT_BUSY = false)
    (hresp : s.flag MBX.MB_STAT_RESP_VALID = false) :
    submitEff 1 s =
      if s.flag MBOX.hDiscard then
        (((mbTaken s).putB MBOX.hNext true).put MBOX.hNextOp (ofLe (mbCmd 0 2 s))).put MBOX.hNextTag (ofLe (mbCmd 4 4 s))
      else (((mbTaken s).put MBOX.hOp (ofLe (mbCmd 0 2 s))).put MBOX.hTag (ofLe (mbCmd 4 4 s))).putB MBOX.hDone false := by
  have hidle : ¬ (!s.flag MBX.MB_STAT_READY || s.flag MBX.MB_STAT_BUSY || s.flag MBX.MB_STAT_RESP_VALID) = true := by
    rw [hready, hbusy, hresp]
    decide
  rw [submitEff, if_neg (by decide), if_neg hidle]
  dsimp only
  rw [flag_discard_mbTaken]

/-- A command that is in execution and has the length its row gives is carried out (R631). -/
theorem act_mbRun {op n : Nat} {s : State} (hrun : s.inReset = false) (hbusy : mbBusy s = true)
    (hdone : s.flag MBOX.hDone = false) (hop : s.get MBOX.hOp = op) (hward : s.flag PWR.hWard = true)
    (hserves : mbServes op s = true) (hlen : ofLe (mbCmd 8 4 s) = n) (body : State → State) :
    act s (mbRun op n body) = .next (commit s.pending (body s)) := by
  have hruns : (mbBusy s && !s.flag MBOX.hDone && s.get MBOX.hOp == op && s.flag PWR.hWard && mbServes op s) = true := by
    rw [hbusy, hdone, hop, hward, hserves, beq_self_eq_true]
    rfl
  rw [act_live _ _ hrun, mbRun, if_pos hruns, if_neg (not_not.mpr hlen)]

/-- The firmware that runs serves the opcodes of R631. -/
theorem mbServes_running {op : Nat} {s : State} (hstage : bootStage s = bsRunning)
    (hop : op ∈ [0x0001, 0x0002, 0x0010, 0x0011, 0x0020, 0x0021, 0x0030]) : mbServes op s = true := by
  rw [mbServes, if_pos hstage]
  exact List.contains_iff_mem.mpr hop

/-- Settles O35. -/
theorem mailboxExchange : Obligations.MailboxExchange := by
  unfold Obligations.MailboxExchange
  refine ⟨?submit, ?submitRejected, ?submitNext, ?discardedEnds, ?ack, ?response, ?badOpcode, ?getInfo, ?getLog, ?loadImage,
    ?stageFirmware, ?attest, ?getCert, ?badToken, ?debugUnlock, ?mbEventPost, ?wardCoreReset⟩
  case submit =>
    intro s hrun hready hidle hresp
    obtain ⟨hbusy, hdiscard⟩ := Bool.or_eq_false_iff.mp hidle
    show execSubmit s = _
    rw [execSubmit, act_live _ _ hrun, submitEff_idle hready hbusy hresp, hdiscard]
    rfl
  case submitRejected =>
    intro s hrun hcannot
    have hrej : (!s.flag MBX.MB_STAT_READY || s.flag MBX.MB_STAT_BUSY || s.flag MBX.MB_STAT_RESP_VALID) = true := by
      rw [Bool.or_eq_true, Bool.or_eq_true, Bool.not_eq_true', or_assoc]
      exact hcannot
    show execSubmit s = _
    rw [execSubmit, act_live _ _ hrun, submitEff, if_neg (by decide), if_pos hrej]
  case submitNext =>
    intro s hrun hready hbusy hresp hdiscard
    show execSubmit s = _
    rw [execSubmit, act_live _ _ hrun, submitEff_idle hready hbusy hresp, hdiscard]
    rfl
  case discardedEnds =>
    intro s hrun hward hdone hdiscard hnext
    have hbusy : mbBusy s = true := by rw [mbBusy, hdiscard, Bool.or_true]
    have hnext' : ((s.putB MBOX.hDiscard false).putB MBOX.hDone false).flag MBOX.hNext = true := by
      rw [flag_putB_other (by decide), flag_putB_other (by decide), hnext]
    have hop : ((s.putB MBOX.hDiscard false).putB MBOX.hDone false).get MBOX.hNextOp = s.get MBOX.hNextOp := by
      rw [get_putB_other (by decide), get_putB_other (by decide)]
    have htag : ((s.putB MBOX.hDiscard false).putB MBOX.hDone false).get MBOX.hNextTag = s.get MBOX.hNextTag := by
      rw [get_putB_other (by decide), get_putB_other (by decide)]
    show execMbResponse s = _
    rw [execMbResponse, act_live _ _ hrun]
    dsimp only
    rw [hbusy, hward, hdone, Bool.true_or, Bool.and_self, Bool.and_self, if_pos rfl, if_pos rfl, if_pos hdiscard, discardEnds,
      if_pos hnext', hop, htag]
  case ack =>
    intro s hrun
    exact act_live s (ackEff 1) hrun
  case response =>
    intro s hrun hbusy hward hdone hkeep
    show execMbResponse s = _
    rw [execMbResponse, act_live _ _ hrun]
    dsimp only
    rw [hbusy, hward, hdone, Bool.true_or, Bool.and_self, Bool.and_self, if_pos rfl, if_pos rfl, hkeep]
    rfl
  case badOpcode =>
    intro s hrun hbusy hward hdone hserves hkeep
    have hanswer : mbAnswer stBadOpcode [] s = (mbWrite (s.get MBOX.hOp) stBadOpcode (s.get MBOX.hTag) [] s).putB MBOX.hDone true := by
      rw [mbAnswer, hkeep]
      rfl
    have hgo : (mbBusy s && s.flag PWR.hWard && (s.flag MBOX.hDone || !mbServes (s.get MBOX.hOp) s)) = true := by
      rw [hbusy, hward, hdone, hserves]
      rfl
    have hkeep' : ((mbWrite (s.get MBOX.hOp) stBadOpcode (s.get MBOX.hTag) [] s).putB MBOX.hDone true).flag MBOX.hDiscard = false := by
      rw [flag_putB_other (by decide), flag_of_get (get_mbWrite _ _ _ _ s _), hkeep]
    show execMbResponse s = _
    rw [execMbResponse, act_live _ _ hrun]
    dsimp only
    rw [if_pos hgo, hdone, if_neg Bool.false_ne_true, hanswer, hkeep']
    rfl
  case getInfo =>
    intro s hrun hbusy hdone hop hward hstage hlen
    show execGetInfo s = _
    rw [execGetInfo, act_mbRun hrun hbusy hdone hop hward (mbServes_running hstage (by decide)) hlen]
    cases ownerInUse s <;> rfl
  case getLog =>
    intro s hrun hbusy hdone hop hward hstage hlen
    exact act_mbRun hrun hbusy hdone hop hward (mbServes_running hstage (by decide)) hlen _
  case loadImage =>
    intro sigs s hrun hbusy hdone hop hward hstage hlen ht hx hzero hfits hrunning hwaiting
    have hargs : ¬ (17 < (mbPayload 12 s).getD 0 0 ∨ 1 < (mbPayload 12 s).getD 1 0 ∨ slice (mbPayload 12 s) 2 2 ≠ [0, 0]
        ∨ 33554432 < ofLe (slice (mbPayload 12 s) 4 4) + ofLe (slice (mbPayload 12 s) 8 4)) := by
      rintro (h | h | h | h)
      · exact absurd h (not_lt.mpr ht)
      · exact absurd h (not_lt.mpr hx)
      · exact h hzero
      · exact absurd h (not_lt.mpr hfits)
    show execLoadImage sigs s = _
    rw [execLoadImage, act_mbRun hrun hbusy hdone hop hward (mbServes_running hstage (by decide)) hlen]
    dsimp only
    rw [if_neg hargs, loadImage]
    exact congrArg (fun u => Host.Outcome.next (commit s.pending u)) (if_neg (not_or.mpr ⟨hrunning, hwaiting⟩))
  case stageFirmware =>
    intro sigs ok s hrun hbusy hdone hop hward hstage hlen hfits
    show execStageFirmware sigs ok s = _
    rw [execStageFirmware, act_mbRun hrun hbusy hdone hop hward (mbServes_running hstage (by decide)) hlen]
    dsimp only
    rw [if_neg (not_lt.mpr hfits)]
  case attest =>
    intro s hrun hbusy hdone hop hward hstage hlen
    exact act_mbRun hrun hbusy hdone hop hward (mbServes_running hstage (by decide)) hlen _
  case getCert =>
    intro s hrun hbusy hdone hop hward hstage hlen
    exact act_mbRun hrun hbusy hdone hop hward (mbServes_running hstage (by decide)) hlen _
  case badToken =>
    intro sig s hrun hbusy hdone hop hward hstage hlen hmagic
    show execDebugUnlock sig s = _
    rw [execDebugUnlock, act_mbRun hrun hbusy hdone hop hward (mbServes_running hstage (by decide)) hlen]
    dsimp only
    rw [if_pos (Or.inl hmagic)]
  case debugUnlock =>
    intro s hrun hbusy hdone hop hward hstage hlen hmagic hzero hopen hserial hchal hslot hscope
    have hform : ¬ (slice (mbPayload 32 s) 0 6 ≠ [0x54, 0x57, 0x44, 0x54, 1, 0]
        ∨ slice (mbPayload 32 s) 24 8 ≠ List.replicate 8 0) := not_or.mpr ⟨not_not.mpr hmagic, not_not.mpr hzero⟩
    have hward0 : (bit ((mbPayload 32 s).getD 6 0 % 8) 2 && (mbPayload 32 s).getD 7 0 != 0) = false := by
      rcases hscope with h | h
      · rw [h]; rfl
      · rw [h]; exact Bool.and_false _
    show execDebugUnlock true s = _
    rw [execDebugUnlock, act_mbRun hrun hbusy hdone hop hward (mbServes_running hstage (by decide)) hlen]
    dsimp only
    rw [if_neg hform, hopen, hserial, hchal, hslot, hward0, bne_self_eq_false, bne_self_eq_false]
    rfl
  case mbEventPost =>
    intro code data s hrun
    exact act_live s _ hrun
  case wardCoreReset =>
    intro n cause addr s hrun hward hother
    have hidle : (decide (n = 0) && mbBusy (postEvent evcWardException ([n.val] ++ leBytes 4 cause ++ leBytes 8 addr)
        (htrOwnerLost (masterId (.ward n)) (masterFails (.ward n) s)))) = false := by
      rw [mbBusy_wardLost]
      rcases hother with hn | hmb
      · have hne : n ≠ 0 := fun h => hn (congrArg Fin.val h)
        rw [decide_eq_false hne]
        rfl
      · rw [hmb, Bool.and_false]
    show execWardCoreReset n cause addr s = _
    rw [execWardCoreReset, act_live _ _ hrun]
    dsimp only
    rw [hward, if_neg (by decide), hidle, if_neg Bool.false_ne_true]

end Sys2Proof.Machine
end

section
/-! PROOFS. The DMA channels (R613 to R627). -/
namespace Sys2Proof.Machine

set_option Elab.async false

/-! ## The slot of a fetched descriptor

The fetch keeps the slot at HEAD in the 12 bits of SLOT. -/

/-- Channel 0 runs with a slot left to fetch, and the cell of its HEAD holds 4,096, which no step stores there. -/
def wideHead : State :=
  let s := (State.reset.put (DMA.DMA_STAT_STATE 0) dsRun).put (DMA.DOORBELLS_SQ_TAIL 0) 1
  { s with cells := Assoc.ins (DMA.DMA_STAT_HEAD 0).key 4096 s.cells }

/-- The state that an outcome answers. -/
def answered : Out → State
  | .next t => t
  | _ => State.reset

theorem get_slot_wideHead : (answered (exec (.dmaDescriptorFetch 0 [1]) wideHead)).get (DMA.hSlot 0) = 0 := by decide +kernel

theorem get_head_wideHead : wideHead.get (DMA.DMA_STAT_HEAD 0) = 4096 := by decide +kernel

/-- Refutes O36: where the cell of HEAD holds 4,096, the slot that the fetch keeps is 0, while the clause has it 4,096. -/
theorem not_dmaChannels : ¬ Obligations.DmaChannels := by
  unfold Obligations.DmaChannels
  rintro ⟨-, -, -, hfetch, -⟩
  obtain ⟨t, hexec, -, -, -, -, -, -, hslot, -⟩ := hfetch 0 [1] _ wideHead rfl (by decide +kernel) (by decide +kernel)
    (by decide +kernel) (by decide +kernel) (by decide +kernel) (by decide +kernel) rfl
  have hanswer := get_slot_wideHead
  rw [hexec] at hanswer
  rw [get_head_wideHead] at hslot
  exact absurd (hslot.symm.trans hanswer) (by decide)

end Sys2Proof.Machine
end
